-- ==== Sys2Proof/Word.lean ====
section
/-! DEFINITION. The word types of the UZ-9400 and the identifiers of R6, and the type of a sparse table. -/

namespace Sys2Proof

abbrev Byte := BitVec 8
abbrev W16 := BitVec 16
abbrev W32 := BitVec 32
abbrev W64 := BitVec 64

/-- Ports P0–P63 (R6). -/
abbrev Port := Fin 64
/-- Slices S0–S31 (R6). -/
abbrev Slice := Fin 32
/-- Stacks H0–H11 (R6). -/
abbrev Stack := Fin 12
/-- Quadrants Q0–Q3 (R6). -/
abbrev Quad := Fin 4
/-- Tenant IDs, 8 bits; tenant 0 is the operator's own (R6). -/
abbrev Tenant := Fin 256
/-- Global ring pair number 8t + p (R23). -/
abbrev Pair := Fin 2048
/-- Weight windows 0–15 (R108). -/
abbrev Win := Fin 16
/-- Job context slots 0–63 (R126). -/
abbrev JobSlot := Fin 64
/-- Module ID, 12 bits (R6). -/
abbrev ModId := BitVec 12
/-- Endpoint ID, 16 bits (R272). -/
abbrev Ep := BitVec 16
/-- Traffic classes TC0–TC3 (R275). -/
abbrev Tc := Fin 4
/-- The two bits of a tier code: 0 near, 1 tray, 2 cellar (R61); 3 names no tier. -/
abbrev Tier := Fin 4

/-- A sparse table: key and value pairs. Its canonical form (keys strictly rising, no entry equal to
what an unlisted key reads as) is stated and kept in `Machine/Ops.lean`. -/
abbrev Tbl (α : Type) := List (Nat × α)

end Sys2Proof
end

