-- ==== Sys2Proof/Syntax.lean ====
section
/-! DEFINITION. The commands of the UZ-9400: one constructor of `Instr` per row of spec/opcode_table.json, and
the types of their operands. -/

namespace Sys2Proof

/-- The path of a register access (R443). -/
inductive Path where
  | bar0 (port : Port) | eth | i3c | secure | firmware
  deriving DecidableEq, Repr

/-- Who writes a doorbell: the port it enters by and the endpoint (R25, R28). -/
structure DbSrc where
  port : Port
  ep   : Ep
  deriving DecidableEq, Repr

/-- The ULP message header of R275, with its extension; `resBits` are the Res bits of the header
([7] of byte 1, [7:4] of byte 6, [15:13] of bytes 24–25, byte 29) put together, `extRes` those of the
extension. The type is the command's own. -/
structure Hdr where
  tc      : Tc
  poison  : Bool := false
  sync    : Bool := false
  retry   : Bool := false
  ext     : Bool := false
  dep     : Bool := false
  resBits : BitVec 16 := 0
  src     : Ep
  dst     : Ep
  hops    : Nat := 8
  op      : Byte := 0
  seq     : W32 := 0
  epoch   : W32 := 0
  addr    : W64 := 0
  len     : Nat := 0
  tag     : W16 := 0
  status  : Byte := 0
  detail  : W16 := 0
  xRegion  : Nat := 0
  xTenant  : Nat := 0
  xVersion : Nat := 0
  xEdge    : ModId := 0
  xSecure  : Bool := false
  extRes   : BitVec 64 := 0
  deriving DecidableEq, Repr

/-- One signature block of a certificate (R361). -/
structure CertBlock where
  idx : Nat
  res : BitVec 56 := 0
  r   : BitVec 256
  s   : BitVec 256
  deriving DecidableEq, Repr

/-- An expulsion certificate (R361): its fields in the order of its bytes, Res fields among them; c.count is the number of its
blocks. -/
structure Cert where
  kind   : Byte
  res1   : BitVec 24 := 0
  fabric : W32
  serial : W64
  target : ModId
  res2   : BitVec 4 := 0
  res3   : Byte := 0
  gen    : W32
  epoch  : W32
  res4   : W32 := 0
  blocks : List CertBlock
  deriving DecidableEq, Repr

/-- A member entry of a multicast group (R317). -/
structure GroupMember where
  ep    : Ep
  base  : BitVec 58
  slots : Nat
  deriving DecidableEq, Repr

/-- A multicast group (R317): `mark` is g.kind. -/
structure Group where
  owner   : Nat
  mark    : Bool
  members : List GroupMember
  deriving DecidableEq, Repr

/-- A region of the composition map: its home, its holders and the stripe unit (R291). -/
structure MapRegion where
  home    : ModId
  holders : List ModId
  stripe  : Nat
  deriving DecidableEq, Repr

/-- A changed entry of a MAP_UPDATE (R291, R317, R360). The byte encoding of entries is not given. -/
inductive MapEntry where
  | member (m : ModId) (buddy : Option ModId) (gen : W32)
  | remove (m : ModId)
  | region (id : Nat) (r : Option MapRegion)
  | route (of : ModId) (dst : ModId) (hops : List Port)
  | group (g : Nat) (v : Option Group)
  | cert (c : Cert)
  deriving DecidableEq, Repr

/-- The payload of a MAP_UPDATE (R291); `bytes` is every byte before the signature. -/
structure MapUpd where
  base    : W32
  new     : W32
  full    : Bool
  entries : List MapEntry
  bytes   : List Byte
  sigR    : BitVec 256
  sigS    : BitVec 256
  deriving DecidableEq, Repr

/-- A link frame as the receiver sees it (R274, R378): its number, the outcome of its CRC and of its GCM tag,
its length, the class and the credits it returns, the key slot its KEY bit names, the frames of ours it acknowledges, and the header of the message it
carries, if one begins in it. -/
structure Frame where
  seq    : BitVec 12
  crcOk  : Bool := true
  tagOk  : Bool := true
  len    : Nat
  tc     : Tc
  credit : Nat := 0
  key    : Fin 2 := 0
  ack    : Option (BitVec 12) := none
  msg    : Option (Byte × Hdr × Nat) := none
  deriving DecidableEq, Repr

/-- A recipe message between sub-parts (R215). -/
structure RMsg where
  tenant : Nat
  lsn    : Nat
  key    : W64
  srcMod : ModId
  srcSub : Nat
  dstSub : Nat
  chan   : Nat
  tc     : Tc
  data   : List Byte
  deriving DecidableEq, Repr

/-- A cell of the switch core (R312): its header fields, its data and c.check. -/
structure Cell where
  out    : Port
  tc     : Tc
  first  : Bool
  last   : Bool
  mcopy  : Bool := false
  inp    : Port
  mid    : Nat := 0
  seq    : Nat
  len    : Nat
  tenant : Nat
  cls    : Nat := 0
  msg    : Nat
  data   : List Byte
  check  : BitVec 16
  deriving DecidableEq, Repr

/-- A message offered to the switch core (R313, R322, R328): where it enters and leaves, its bytes with header and extension, its
tenant, whether it enters the fabric at this module's edge, the group it names when it is multicast, the stream it belongs to, the
quadrant of its target when it is for this module (R314), and whether it is a copy made here (R318). -/
structure SwMsg where
  inp    : Port
  out    : Port
  tc     : Tc
  tenant : Nat
  data   : List Byte
  edge   : Bool
  stream : Nat
  group  : Option (BitVec 12) := none
  here   : Option Quad := none
  mcopy  : Bool := false
  deriving DecidableEq, Repr

/-- Bytes of a message with header and extension (R313). -/
def SwMsg.bytes (m : SwMsg) : Nat := m.data.length

/-- What a read or a write of endpoint or tray memory came back with (R287, R290, R300, R455). -/
inductive EpRes where
  | data (bytes : List Byte)
  | poisoned (bytes : List Byte) (bitmap : W64)
  | error
  | noAnswer
  deriving DecidableEq, Repr

/-- A reset input pin (R385). -/
inductive ResetPin where
  | porst | mrst | wrst
  deriving DecidableEq, Repr

/-- The register blocks (R442). -/
inductive Blk where
  | gen | rst | clk | pwr | sec | tq | map | rgn | tier | codec | time | slc | sw | sch | ldg | hlt | bbx | toll
  | port (n : Port)
  | hbm (n : Stack)
  deriving DecidableEq, Repr

/-- A firmware copy as the boot flash holds it (R380): the fields of its header, the public key of its signature, and its body. -/
structure FwCopy where
  len  : W32 := 0
  svn  : W16 := 0
  key  : Fin 4 := 0
  hash : BitVec 384 := 0
  pubX : BitVec 384 := 0
  pubY : BitVec 384 := 0
  sigR : BitVec 384 := 0
  sigS : BitVec 384 := 0
  body : List Byte := []
  deriving DecidableEq, Repr

/-- What the work of a bring-up stage found (R19, R20, R380, R395, R310, R348): in stage ROOT the two copies in the boot flash. -/
structure StageReport where
  copyA    : FwCopy := {}
  copyB    : FwCopy := {}
  stk      : BitVec 12 := BitVec.allOnes 12
  slices   : BitVec 32 := BitVec.allOnes 32
  bin      : Nat := 0
  ownHalf  : Bool := true
  repaired : Nat := 0
  voided   : Nat := 0
  decoders : List (Nat × Nat × Nat × Nat) := []
  /-- Ports whose device is not Type-3 or requires back-invalidate (R300). -/
  alien    : BitVec 64 := 0
  /-- Ports whose tray passed its attestation (R381). -/
  attested : BitVec 64 := BitVec.allOnes 64
  deriving DecidableEq, Repr

/-- The SPDM transports (R381). -/
inductive SpdmPath where
  | i3c | doe (port : Port)
  deriving DecidableEq, Repr

/-- The algorithms a requester offers (R381). -/
structure SpdmAlgs where
  p384 : Bool
  sha384 : Bool
  ecdhe384 : Bool
  aes256 : Bool
  deriving DecidableEq, Repr

/-- The source of a register access record on Ethernet (R445). -/
structure EthSrc where
  mac  : BitVec 48
  ip   : BitVec 32
  port : BitVec 16
  deriving DecidableEq, Repr

/-- What a patrol read found (R453). -/
inductive EccResult where
  | clean | corrected | uncorrected
  deriving DecidableEq, Repr

/-- How the third run of a shadowed phase compares (R409). -/
inductive ThirdRun where
  | placed | shadow | neither
  deriving DecidableEq, Repr

/-- The TAP operations (R436). -/
inductive TapInstr where
  | bypass | idcode | samplePreload | extest | extestPulse | extestTrain | clamp | highz | other
  deriving DecidableEq, Repr

/-- A move sub-part of another module's PROMOTE or DEMOTE (R97). -/
structure MoveReq where
  promote : Bool
  tenant  : Nat
  region  : Nat
  version : Nat
  off     : Nat
  len     : Nat
  tier    : Nat
  recode  : Bool := false
  tslot   : Nat := 0
  paced   : Bool := false
  job     : Nat := 0xFFFF
  first   : Nat := 0
  /-- C, the layer count of the job (R106). -/
  layers  : Nat := 1
  deriving DecidableEq, Repr

/-- How a holder's sub-part ended: well, with a failure, or out of room (R79, R97, R100). -/
inductive HolderEnd where
  | good | failed | full
  deriving DecidableEq, Repr

/-- A word of the BAR2 window page: the window's entry and the word in it (R301). -/
structure WinWord where
  win : Nat
  word : Nat
  deriving DecidableEq, Repr

/-- The commands, one constructor per row of spec/opcode_table.json. Each docstring names the row and its rule. -/
inductive Instr where
  /-- SUBMISSION_DOORBELL (R31). -/
  | submissionDoorbell (src : DbSrc) (off : Nat) (size : Nat) (value : W64)
  /-- COMPLETION_DOORBELL (R32). -/
  | completionDoorbell (src : DbSrc) (off : Nat) (size : Nat) (value : W64)
  /-- DESCRIPTOR_ACCEPT (R35). -/
  | descriptorAccept (pair : Pair)
  /-- DESCRIPTOR_START (R39). -/
  | descriptorStart (lsn : Nat)
  /-- DESCRIPTOR_COMPLETE (R47). -/
  | descriptorComplete (lsn : Nat)
  /-- NOP (R44). -/
  | nop (lsn : Nat)
  /-- MOVE (R181). -/
  | move (lsn : Nat)
  /-- ALLOC (R70). -/
  | alloc (lsn : Nat)
  /-- FREE (R72). -/
  | free (lsn : Nat)
  /-- OPEN (R76). -/
  | openVersion (lsn : Nat)
  /-- SEAL (R77). -/
  | seal (lsn : Nat)
  /-- PUBLISH (R78). -/
  | publish (lsn : Nat)
  /-- PUBLISH_HOLDER_SEAL (R79). -/
  | publishHolderSeal (home : ModId) (region : Nat) (version : Nat) (tag : Nat)
  /-- RETIRE (R76). -/
  | retire (lsn : Nat)
  /-- HOLD (R101). -/
  | hold (lsn : Nat)
  /-- RELEASE (R101). -/
  | release (lsn : Nat)
  /-- PROMOTE (R96). -/
  | promote (lsn : Nat)
  /-- DEMOTE (R104). -/
  | demote (lsn : Nat)
  /-- INVOKE (R223). -/
  | invoke (lsn : Nat)
  /-- FENCE (R46). -/
  | fence (lsn : Nat)
  /-- MARK (R132). -/
  | mark (lsn : Nat)
  /-- QUERY_REGION (R88). -/
  | queryRegion (lsn : Nat)
  /-- QUERY_VERSIONS (R88). -/
  | queryVersions (lsn : Nat)
  /-- QUERY_HOLDS (R121). -/
  | queryHolds (lsn : Nat)
  /-- QUERY_SUBPARTS (R49). -/
  | querySubparts (lsn : Nat)
  /-- QUERY_USAGE (R45). -/
  | queryUsage (lsn : Nat)
  /-- QUERY_ADVICE (R121). -/
  | queryAdvice (lsn : Nat)
  /-- LOAD_RECIPE (R222). -/
  | loadRecipe (lsn : Nat)
  /-- LOAD_TABLE (R170). -/
  | loadTable (lsn : Nat)
  /-- RING_ENABLE (R30). -/
  | ringEnable (path : Path) (pair : Pair) (value : W64)
  /-- RING_RESET (R56). -/
  | ringReset (path : Path) (pair : Pair)
  /-- TENANT_RESET (R57). -/
  | tenantReset (path : Path) (tenant : Tenant)
  /-- REGISTER_WRITE (R7). -/
  | registerWrite (path : Path) (addr : BitVec 32) (value : W64)
  /-- SHELF_ASSIGN (R65). -/
  | shelfAssign (path : Path) (tier : Tier) (idx : Nat) (tenant : Tenant) (common : Bool)
  /-- SHELF_REVOKE_EVACUATE (R65). -/
  | shelfRevokeEvacuate (path : Path) (tier : Tier) (idx : Nat)
  /-- SHELF_REVOKE_FORCE (R65). -/
  | shelfRevokeForce (path : Path) (tier : Tier) (idx : Nat)
  /-- SHELF_ONLINE (R65). -/
  | shelfOnline (path : Path) (tier : Tier) (idx : Nat)
  /-- EVACUATION_DONE (R65). -/
  | evacuationDone (tier : Tier) (idx : Nat)
  /-- DRAIN_COMPLETE (R67). -/
  | drainComplete (tier : Tier) (idx : Nat)
  /-- SCRUB_COMPLETE (R67). -/
  | scrubComplete (tier : Tier) (idx : Nat)
  /-- SCRUB_TIMEOUT (R67). -/
  | scrubTimeout (tier : Tier) (idx : Nat)
  /-- SHELF_WORLD_SET (R371). -/
  | shelfWorldSet (path : Path) (tier : Tier) (idx : Nat) (secure : Bool)
  /-- ORPHAN_HOLD_EXPIRY (R81). -/
  | orphanHoldExpiry (region : Nat) (version : Nat)
  /-- PAGE_MOVE_SWITCH (R95). -/
  | pageMoveSwitch (page : Nat) (verified : Bool)
  /-- STALL_BOUND_EXPIRY (R113). -/
  | stallBoundExpiry (stall : Nat)
  /-- PLACEMENT_SCAN (R119). -/
  | placementScan
  /-- ADVICE_EXPIRY (R120). -/
  | adviceExpiry (tenant : Tenant)
  /-- WINDOW_ENABLE (R109). -/
  | windowEnable (path : Path) (win : Win) (value : W64)
  /-- WINDOW_LAYER_STAGE (R110). -/
  | windowLayerStage (win : Win)
  /-- WINDOW_LAYER_LANDED (R112). -/
  | windowLayerLanded (win : Win)
  /-- JOB_ENABLE (R127). -/
  | jobEnable (path : Path) (slot : JobSlot) (value : W64)
  /-- JOB_DISABLE (R128). -/
  | jobDisable (path : Path) (slot : JobSlot)
  /-- ULP_MARK (R131). -/
  | ulpMark (port : Port) (h : Hdr) (payload : W64)
  /-- STEP_IN_EDGE (R134). -/
  | stepInEdge
  /-- POSITION_RESOLVE (R135). -/
  | positionResolve (slot : JobSlot)
  /-- ESTIMATE_WRITE (R137). -/
  | estimateWrite (path : Path) (slot : JobSlot) (value : W64)
  /-- GATE_W0_STAGE (R140). -/
  | gateW0Stage (path : Path) (value : W64)
  /-- GATE_COMMIT (R140). -/
  | gateCommit (path : Path) (value : W64)
  /-- GUARD_BAND_START (R143). -/
  | guardBandStart (slot : JobSlot) (entry : Nat)
  /-- GUARD_BAND_EXPIRE (R143). -/
  | guardBandExpire (slot : JobSlot) (entry : Nat)
  /-- PTP_MESSAGE (R430). -/
  | ptpMessage (master : W64) (offset : BitVec 32)
  /-- PPS_EDGE (R431). -/
  | ppsEdge
  /-- SUBPART_START (R197). -/
  | subpartStart (lsn : Nat) (k : Nat) (slice : Slice)
  /-- BUDGET_EXHAUSTED (R217). -/
  | budgetExhausted (cx : Nat)
  /-- PHASE_COMMIT (R207). -/
  | phaseCommit (cx : Nat)
  /-- FINAL_SECTION_START (R196). -/
  | finalSectionStart (lsn : Nat) (slice : Slice)
  /-- INVOKE_COMPLETE (R219). -/
  | invokeComplete (lsn : Nat)
  /-- WORK_COMMIT (R356). -/
  | workCommit (lsn : Nat)
  /-- WORK_KEY_EXPIRY (R357). -/
  | workKeyExpiry (tenant : Tenant) (work : W64)
  /-- LOAD_TILE (R211). -/
  | loadTile (cx : Nat)
  /-- STORE_TILE (R211). -/
  | storeTile (cx : Nat)
  /-- DECODE (R211). -/
  | decode (cx : Nat)
  /-- ENCODE (R211). -/
  | encode (cx : Nat)
  /-- MAC_TILE (R457). -/
  | macTile (cx : Nat)
  /-- VEC_ADD (R212). -/
  | vecAdd (cx : Nat)
  /-- VEC_SUB (R212). -/
  | vecSub (cx : Nat)
  /-- VEC_MUL (R212). -/
  | vecMul (cx : Nat)
  /-- VEC_FMA (R212). -/
  | vecFma (cx : Nat)
  /-- VEC_DIV (R212). -/
  | vecDiv (cx : Nat)
  /-- VEC_SQRT (R212). -/
  | vecSqrt (cx : Nat)
  /-- VEC_EXP2 (R212). -/
  | vecExp2 (cx : Nat)
  /-- VEC_LOG2 (R212). -/
  | vecLog2 (cx : Nat)
  /-- VEC_RCP (R212). -/
  | vecRcp (cx : Nat)
  /-- VEC_RSQRT (R212). -/
  | vecRsqrt (cx : Nat)
  /-- VEC_MIN (R212). -/
  | vecMin (cx : Nat)
  /-- VEC_MAX (R212). -/
  | vecMax (cx : Nat)
  /-- VEC_MUL_ROW (R212). -/
  | vecMulRow (cx : Nat)
  /-- VEC_SUM_ROW (R212). -/
  | vecSumRow (cx : Nat)
  /-- VEC_MAX_ROW (R212). -/
  | vecMaxRow (cx : Nat)
  /-- VEC_SCALE (R212). -/
  | vecScale (cx : Nat)
  /-- SCALAR_MOVI (R212). -/
  | scalarMovi (cx : Nat)
  /-- SCALAR_ADD (R212). -/
  | scalarAdd (cx : Nat)
  /-- SCALAR_ADDI (R212). -/
  | scalarAddi (cx : Nat)
  /-- SCALAR_SUB (R212). -/
  | scalarSub (cx : Nat)
  /-- SCALAR_MUL (R212). -/
  | scalarMul (cx : Nat)
  /-- SCALAR_SHL (R212). -/
  | scalarShl (cx : Nat)
  /-- SCALAR_SHR (R212). -/
  | scalarShr (cx : Nat)
  /-- SCALAR_AND (R212). -/
  | scalarAnd (cx : Nat)
  /-- SCALAR_OR (R212). -/
  | scalarOr (cx : Nat)
  /-- SCALAR_XOR (R212). -/
  | scalarXor (cx : Nat)
  /-- SCALAR_LD (R212). -/
  | scalarLd (cx : Nat)
  /-- SCALAR_ST (R212). -/
  | scalarSt (cx : Nat)
  /-- SOFTMAX_STEP (R213). -/
  | softmaxStep (cx : Nat)
  /-- EXACT_ACC (R186). -/
  | exactAcc (cx : Nat)
  /-- EXACT_ROUND (R188). -/
  | exactRound (cx : Nat)
  /-- GATHER (R211). -/
  | gather (cx : Nat)
  /-- SCATTER (R214). -/
  | scatter (cx : Nat)
  /-- XOR_POPCOUNT (R211). -/
  | xorPopcount (cx : Nat)
  /-- HEAP_INSERT (R211). -/
  | heapInsert (cx : Nat)
  /-- HEAP_DRAIN (R211). -/
  | heapDrain (cx : Nat)
  /-- COMPARE_SELECT (R211). -/
  | compareSelect (cx : Nat)
  /-- COMPACT (R211). -/
  | compact (cx : Nat)
  /-- PREFETCH (R211). -/
  | prefetch (cx : Nat)
  /-- SEND (R215). -/
  | send (cx : Nat)
  /-- RECV (R215). -/
  | recv (cx : Nat)
  /-- RECV_TIMEOUT (R215). -/
  | recvTimeout (cx : Nat)
  /-- MESSAGE_ARRIVE (R215). -/
  | messageArrive (m : RMsg)
  /-- MESSAGE_HOLD_EXPIRY (R215). -/
  | messageHoldExpiry (n : Nat)
  /-- WAIT_MARK (R211). -/
  | waitMark (cx : Nat)
  /-- WAIT_MARK_TIMEOUT (R217). -/
  | waitMarkTimeout (cx : Nat)
  /-- ATOMIC (R216). -/
  | atomic (cx : Nat)
  /-- LOOP (R211). -/
  | loop (cx : Nat)
  /-- BRANCH_IF (R211). -/
  | branchIf (cx : Nat)
  /-- EMIT_STORE (R211). -/
  | emitStore (cx : Nat)
  /-- EMIT_RESULT (R211). -/
  | emitResult (cx : Nat)
  /-- ULP_LOAD (R278). -/
  | ulpLoad (port : Port) (h : Hdr)
  /-- ULP_STORE (R277). -/
  | ulpStore (port : Port) (h : Hdr) (data : List Byte)
  /-- ULP_WRITE_FLAG (R281). -/
  | ulpWriteFlag (port : Port) (h : Hdr) (data : List Byte)
  /-- ULP_ATOMIC (R288). -/
  | ulpAtomic (port : Port) (h : Hdr) (data : List Byte)
  /-- ULP_FENCE (R280). -/
  | ulpFence (port : Port) (h : Hdr)
  /-- ULP_ATTACH (R283). -/
  | ulpAttach (port : Port) (h : Hdr) (data : List Byte)
  /-- ULP_DETACH (R284). -/
  | ulpDetach (port : Port) (h : Hdr)
  /-- MAP_UPDATE (R291). -/
  | mapUpdate (port : Port) (h : Hdr) (u : MapUpd)
  /-- MAP_GET (R276). -/
  | mapGet (port : Port) (h : Hdr)
  /-- LOAD_RSP (R287). -/
  | loadRsp (port : Port) (h : Hdr) (data : List Byte)
  /-- ATOMIC_RSP (R276). -/
  | atomicRsp (port : Port) (h : Hdr) (data : List Byte)
  /-- ACK (R279). -/
  | ack (port : Port) (h : Hdr) (data : List Byte)
  /-- FENCE_ACK (R280). -/
  | fenceAck (port : Port) (h : Hdr) (data : List Byte)
  /-- ATTACH_RSP (R276). -/
  | attachRsp (port : Port) (h : Hdr) (data : List Byte)
  /-- NAK (R302). -/
  | nak (port : Port) (h : Hdr)
  /-- RESEND (R289). -/
  | resend (port : Port) (h : Hdr)
  /-- DRAIN (R296). -/
  | drain (port : Port) (h : Hdr)
  /-- MAP_ACK (R291). -/
  | mapAck (port : Port) (h : Hdr)
  /-- LINK_FRAME (R274). -/
  | linkFrame (port : Port) (f : Frame)
  /-- LINK_RETRY_REQUEST (R274). -/
  | linkRetryRequest (port : Port) (seq : BitVec 12)
  /-- LINK_DOWN (R295). -/
  | linkDown (port : Port)
  /-- LINK_TRAINED (R424). -/
  | linkTrained (port : Port) (locked : BitVec 8) (full : Bool) (reversed : Bool)
  /-- ACK_TIMER_EXPIRY (R279). -/
  | ackTimerExpiry (ep : Ep) (tc : Tc)
  /-- RETX_TIMER_EXPIRY (R290). -/
  | retxTimerExpiry (ep : Ep) (tc : Tc)
  /-- EPOCH_ADOPT_TIMEOUT (R292). -/
  | epochAdoptTimeout (n : Nat)
  /-- VIOLATION_SECOND_ROLLOVER (R305). -/
  | violationSecondRollover
  /-- PORT_HOLD (R306). -/
  | portHold (path : Path) (port : Port)
  /-- PORT_RELEASE (R306). -/
  | portRelease (path : Path) (port : Port)
  /-- WINDOW_REFERENCE_WRITE (R301). -/
  | windowReferenceWrite (port : Port) (win : Nat) (word : Nat) (value : W64)
  /-- CXL_MEM_REQUEST (R301). -/
  | cxlMemRequest (port : Port) (write : Bool) (off : Nat) (len : Nat) (data : List Byte)
  /-- IDE_KEY_EXCHANGE (R379). -/
  | ideKeyExchange (port : Port) (txKey : BitVec 256) (rxKey : BitVec 256)
  /-- CELL_ARRIVE (R319). -/
  | cellArrive (cell : Cell)
  /-- CELL_GAP_EXPIRY (R320). -/
  | cellGapExpiry (inp : Port) (out : Port) (tc : Tc)
  /-- STREAM_GAP_EXPIRY (R321). -/
  | streamGapExpiry (ep : Ep) (tc : Tc)
  /-- MESSAGE_ADMIT (R322). -/
  | messageAdmit (m : SwMsg)
  /-- UNIT_START (R325). -/
  | unitStart (out : Port)
  /-- SHAPER_CONFIG (R331). -/
  | shaperConfig (path : Path) (value : W64)
  /-- METER_COMMIT (R331). -/
  | meterCommit (path : Path) (tenant : Tenant) (meter : Fin 2) (value : W64)
  /-- MIRROR_STORE (R343). -/
  | mirrorStore (port : Port) (h : Hdr) (data : List Byte)
  /-- ATOMIC_RECORD_EXPIRY (R353). -/
  | atomicRecordExpiry (ep : Ep) (tag : Nat) (seq : BitVec 32)
  /-- STEP_ABORT (R358). -/
  | stepAbort (path : Path) (value : W64)
  /-- LIVENESS_PROBE (R359). -/
  | livenessProbe (peer : ModId)
  /-- PEER_SUSPECT (R359). -/
  | peerSuspect (peer : ModId)
  /-- RESYNC_COMPLETE (R347). -/
  | resyncComplete
  /-- STAGE_ADVANCE (R20). -/
  | stageAdvance (r : StageReport)
  /-- STAGE_TIMEOUT (R395). -/
  | stageTimeout
  /-- KEY_DATA_STAGE (R375). -/
  | keyDataStage (path : Path) (value : W64)
  /-- KEY_COMMIT (R375). -/
  | keyCommit (path : Path)
  /-- KEY_ACTIVATE (R378). -/
  | keyActivate (path : Path)
  /-- KEY_CLEAR (R384). -/
  | keyClear (path : Path)
  /-- LINK_COUNTER_LIMIT (R378). -/
  | linkCounterLimit (port : Port) (rx : Bool) (kslot : Fin 2)
  /-- SPDM_GET_VERSION (R381). -/
  | spdmGetVersion (via : SpdmPath)
  /-- SPDM_GET_CAPABILITIES (R381). -/
  | spdmGetCapabilities (via : SpdmPath)
  /-- SPDM_NEGOTIATE_ALGORITHMS (R381). -/
  | spdmNegotiateAlgorithms (via : SpdmPath) (algs : SpdmAlgs)
  /-- SPDM_GET_DIGESTS (R381). -/
  | spdmGetDigests (via : SpdmPath)
  /-- SPDM_GET_CERTIFICATE (R381). -/
  | spdmGetCertificate (via : SpdmPath) (slot : Nat) (off : Nat) (len : Nat)
  /-- SPDM_CHALLENGE (R381). -/
  | spdmChallenge (via : SpdmPath) (slot : Nat) (nonce : List Byte)
  /-- SPDM_GET_MEASUREMENTS (R381). -/
  | spdmGetMeasurements (via : SpdmPath) (index : Nat) (nonce : List Byte)
  /-- SPDM_KEY_EXCHANGE (R381). -/
  | spdmKeyExchange (via : SpdmPath) (share : List Byte)
  /-- SPDM_FINISH (R372). -/
  | spdmFinish (via : SpdmPath) (root : Option (BitVec 384)) (ok : Bool)
  /-- SPDM_HEARTBEAT (R381). -/
  | spdmHeartbeat (via : SpdmPath)
  /-- SPDM_END_SESSION (R381). -/
  | spdmEndSession (via : SpdmPath)
  /-- PORST_N_ASSERT (R385). -/
  | porstNAssert
  /-- MRST_N_ASSERT (R385). -/
  | mrstNAssert
  /-- WRST_N_ASSERT (R385). -/
  | wrstNAssert
  /-- RESET_PIN_RELEASE (R428). -/
  | resetPinRelease (pin : ResetPin)
  /-- RST_CMD_WARM (R385). -/
  | rstCmdWarm (path : Path)
  /-- RST_CMD_COLD (R385). -/
  | rstCmdCold (path : Path)
  /-- RESET_STRETCH_EXPIRY (R387). -/
  | resetStretchExpiry
  /-- MRAM_PULSE_END (R414). -/
  | mramPulseEnd
  /-- PORT_BLOCK_RESET (R390). -/
  | portBlockReset (path : Path) (value : W64)
  /-- HBM_BLOCK_RESET (R390). -/
  | hbmBlockReset (path : Path) (value : W64)
  /-- WATCHDOG_KICK (R392). -/
  | watchdogKick (path : Path) (value : W64)
  /-- WATCHDOG_EXPIRY (R392). -/
  | watchdogExpiry (silent : BitVec 16)
  /-- CRITICAL_ECC_ERROR (R15). -/
  | criticalEccError (q : Option Quad)
  /-- POWER_48V_GOOD (R393). -/
  | power48vGood (mv : BitVec 16)
  /-- POWER_48V_LOST (R393). -/
  | power48vLost (mv : BitVec 16)
  /-- AUX_POWER_GOOD (R428). -/
  | auxPowerGood (mv : BitVec 13) (i3cAddr : BitVec 2) (bscanN : Bool)
  /-- POWER_LIMITER_SAMPLE (R396). -/
  | powerLimiterSample (avgW : Nat) (mv : BitVec 16)
  /-- THERMAL_SAMPLE (R397). -/
  | thermalSample (quads : List Int) (stks : List Int)
  /-- THERMAL_TRIP (R397). -/
  | thermalTrip (isStack : Bool) (idx : Nat) (deg : Int)
  /-- REFCLK_LOSS (R398). -/
  | refclkLoss (b : Bool)
  /-- REFCLK_RETURN (R398). -/
  | refclkReturn (b : Bool)
  /-- NEIGHBOUR_COMPARE (R400). -/
  | neighbourCompare (mhz : List Nat) (mv : List Nat) (deg : List Int)
  /-- QUADRANT_FREQ_WRITE (R399). -/
  | quadrantFreqWrite (path : Path) (q : Quad) (value : W64)
  /-- CROSSING_TIMEOUT (R401). -/
  | crossingTimeout (q : Quad)
  /-- SCORE_DECAY (R404). -/
  | scoreDecay
  /-- SERDES_SCAN (R406). -/
  | serdesScan (port : Port) (lane : Fin 8) (mv : BitVec 8) (mui : BitVec 10)
  /-- HBM_SCAN (R406). -/
  | hbmScan (stk : Stack) (chan : Fin 32) (pct : BitVec 8)
  /-- OPTICAL_SCAN (R406). -/
  | opticalScan (port : Port) (lane : Fin 8) (power : Option (BitVec 32)) (warn : BitVec 32)
  /-- KNOWN_ANSWER_TEST (R407). -/
  | knownAnswerTest (slice : Slice) (pass : Bool) (vector : Nat)
  /-- SHADOW_THIRD_RUN (R409). -/
  | shadowThirdRun (cx : Nat) (third : Slice) (agree : ThirdRun)
  /-- RETURN_TO_SERVICE (R410). -/
  | returnToService (path : Path) (value : W64)
  /-- RETURN_TO_SERVICE_END (R410). -/
  | returnToServiceEnd (pass : Bool)
  /-- CLEAR_STICKY (R411). -/
  | clearSticky (path : Path)
  /-- TOLL_INTERVAL_END (R417). -/
  | tollIntervalEnd
  /-- PATROL_READ (R453). -/
  | patrolRead (stk : Stack) (addr : BitVec 37) (result : EccResult)
  /-- ETH_REGISTER_READ (R445). -/
  | ethRegisterRead (src : EthSrc) (rec : List Byte)
  /-- ETH_REGISTER_WRITE (R445). -/
  | ethRegisterWrite (src : EthSrc) (rec : List Byte)
  /-- ARP_REQUEST (R445). -/
  | arpRequest (ip : BitVec 32) (mac : BitVec 48)
  /-- I3C_REGISTER_WRITE (R446). -/
  | i3cRegisterWrite (bytes : List Byte)
  /-- I3C_SET_READ_ADDRESS (R446). -/
  | i3cSetReadAddress (bytes : List Byte)
  /-- I3C_REGISTER_READ (R446). -/
  | i3cRegisterRead
  /-- I3C_DYNAMIC_ADDRESS (R434). -/
  | i3cDynamicAddress (viaStatic : Bool) (addr : BitVec 7)
  /-- BAR0_ACCESS (R444). -/
  | bar0Access (port : Port) (write : Bool) (addr : BitVec 32) (size : Nat) (value : W64)
  /-- LOCK_SET (R451). -/
  | lockSet (path : Path) (block : Blk)
  /-- LOCK_ALL (R451). -/
  | lockAll (path : Path)
  /-- FENCE_TIMEOUT (R46). -/
  | fenceTimeout (lsn : Nat)
  /-- SECURE_REGISTER_ACCESS (R443). -/
  | secureRegisterAccess (rec : List Byte)
  /-- TAP_INSTRUCTION (R436). -/
  | tapInstruction (ir : TapInstr)
  /-- CXL_COMPLETION (R300). -/
  | cxlCompletion (port : Port) (tag : Nat) (res : EpRes)
  /-- HOLDER_ANSWER (R79). -/
  | holderAnswer (home : ModId) (tag : Nat) (res : HolderEnd) (slack : Nat)
  /-- MOVE_SUBPART_REQUEST (R97). -/
  | moveSubpartRequest (home : ModId) (tag : Nat) (mv : MoveReq)
  /-- STACK_RETRAIN_COMPLETE (R390). -/
  | stackRetrainComplete (stk : Stack) (ok : Bool)
  /-- CXL_RETRAIN_DELAY_EXPIRY (R424). -/
  | cxlRetrainDelayExpiry (port : Port)
  /-- RESET_PULSE_END (R385). -/
  | resetPulseEnd (bit : Nat)
  /-- RAIL_REGULATION_TIMEOUT (R394). -/
  | railRegulationTimeout (rail : Nat)
  /-- SWITCH_SLOT (R315). -/
  | switchSlot
  /-- WINDOW_STATUS_READ (R301). -/
  | windowStatusRead (port : Port) (word : WinWord)
  deriving DecidableEq, Repr

end Sys2Proof
end

