-- ==== Sys2Proof/Config.lean ====
section
/-! DEFINITION. What one implementation fixes and what the spec leaves open: constants without a body, so that
no proof can see a value of them (log entries 3 and 7 to 10). -/

namespace Sys2Proof.Config

/-- A free value: what the spec leaves open at the n-th such point of a run (log entry 3). -/
opaque freeNat : Nat → Nat
/-- A free 64-bit word (log entry 3). -/
opaque freeWord : Nat → W64
/-- A free byte (log entry 3). -/
opaque freeByte : Nat → Nat → Byte

/-- The version a part of a region homed elsewhere is based on, by region and version (log entry 146). -/
opaque partBase : Nat → Nat → Nat
/-- Of a region homed elsewhere, by its ID: whether it is MIRRORED, PROTECTED and FLAT, its tier, default format and table slot,
its owner as long as no request of it has come, its size, its latest published version, and the pair that opened a version of
it: no message of the spec brings them (log entry 146). -/
opaque partMirrored : Nat → Bool
opaque partProt : Nat → Bool
opaque partFlat : Nat → Bool
opaque partTier : Nat → Nat
opaque partFmt : Nat → Nat
opaque partSlot : Nat → Nat
opaque partOwner : Nat → Nat
opaque partSize : Nat → Nat
opaque partLatest : Nat → Nat
opaque partPair : Nat → Nat → Nat
/-- The bytes of a QUERY SUBPARTS result, by the words that name the descriptor and the failed sub-parts that the tenant's
entries keep: submission index and numbers (R49; log entry 147). -/
opaque subpartList : List W64 → List (Nat × List Nat) → List Byte

/-- GEN_SERIAL.SERIAL, fused in the part (R449; log entry 7). -/
opaque serial : W64
/-- The stepping of the part: false A1, true B0 (R449; log entry 7). -/
opaque steppingB0 : Bool

/-- The scale byte of an all-zero MX block, and the unstated bytes of a block written as NaN (R157; log entry 12). -/
opaque mxZeroScale : Byte
opaque nanBlockByte : Nat → Byte
/-- Results the spec does not state: log2, reciprocal and reciprocal square root at the ends of their ranges, by operation
and operand pattern (R184; log entry 13). -/
opaque vecOpen : Nat → Nat → W32

/-- Fields of an event record whose content the spec does not give: tag, index and detail, by event kind (R51; log entry
15). -/
opaque evtTag : Nat → W32
opaque evtIndex : Nat → W32
opaque evtDetail : Nat → Nat
/-- The hash of a stream's triple over `n` choices (R294, R314): the spec says a hash and gives none
(log entry 8). -/
opaque streamHash : Nat → Nat → Nat → Nat

/-- SHA-256 and SHA-384 of a byte string, as the standards define them (R291, R362, R417; log entry 9). -/
opaque sha256 : List Byte → BitVec 256
opaque sha384 : List Byte → BitVec 384
/-- ECDSA P-256 verification: point (x, y), hash, signature (r, s) (R291, R362; log entry 9). -/
opaque verifyP256 : BitVec 256 → BitVec 256 → BitVec 256 → BitVec 256 → BitVec 256 → Bool
/-- The point (x, y) lies on the P-256 curve (R375; log entry 9). -/
opaque onCurveP256 : BitVec 256 → BitVec 256 → Bool
/-- ECDSA P-384 verification: point (x, y), hash, signature (r, s) (R380; log entry 9). -/
opaque verifyP384 : BitVec 384 → BitVec 384 → BitVec 384 → BitVec 384 → BitVec 384 → Bool
/-- The one-time fuses of the part: the key hashes by index, the revocations by index, the version counter (R380; log entry
193). -/
opaque fuseKey : Nat → BitVec 384
opaque fuseRevoked : BitVec 4
opaque fuseCount : W16
/-- The r and s of an ECDSA P-384 signature of the device key over a hash (R417; log entry 9). -/
opaque signP384 : BitVec 384 → BitVec 384 × BitVec 384
/-- AES-256-XTS of one 4,096-byte data unit: data key, tweak key, tweak, bytes (R376; log entry 9). -/
opaque xts : BitVec 256 → BitVec 256 → BitVec 128 → List Byte → List Byte
/-- The AES-256-GCM tag of the frame a key and a nonce seal: each pair seals one frame (R378; log entry 9). -/
opaque gcmTag : BitVec 256 → BitVec 96 → BitVec 128
/-- The credits a ULP link starts with, by traffic class, in 256-byte units: R274 does not state them (log entry 20). -/
opaque linkCredits : Nat → Nat
/-- The bytes of an SPDM 1.3 answer: message code, measurement index or slot, and a running number
(R381; log entry 10). -/
opaque spdmBytes : Nat → Nat → Nat → List Byte
/-- The bytes of a MEASUREMENTS answer: measurement index, the words measured, and a running number (R381; log entry 10). -/
opaque spdmMeasured : Nat → List W64 → Nat → List Byte

end Sys2Proof.Config
end

