-- ==== Sys2Proof/Machine/State.lean ====
section
/-! DEFINITION. The state of the UZ-9400 as plain data, block by block, the two stop types, and the machine after reset.
Every field names the rule of the spec that gives it. Tables list only what differs from the reset value. -/

namespace Sys2Proof.Machine

/-- A byte memory: (offset, byte) pairs, offsets strictly rising, no listed byte 0; an unlisted offset reads 0. -/
abbrev Bytes := List Host.Cell

/-- Reasons a step stops: there is none, since every command of the table has an effect in every state (log entry 137). -/
inductive Fault where
  deriving DecidableEq, Repr

/-- Reasons a command is turned away without a meaning. -/
inductive Refusal where
  /-- Raised by the arm of a command whose row has no meaning yet. Safe: nothing is claimed of it. -/
  | notModelled (mnemonic : String)
  deriving DecidableEq, Repr

/-! ### Tenant queues and the ledger -/

/-- A completion or event record (R47). `phase` is the PHASE bit once the record is fixed. -/
structure Cpl where
  tag      : W32 := 0
  index    : W32 := 0
  status   : Nat := 0
  opcode   : Nat := 0
  phase    : Bool := false
  event    : Bool := false
  replayed : Bool := false
  evtLost  : Bool := false
  prior    : Bool := false
  pair     : Nat := 0
  detail   : Nat := 0
  retries  : Nat := 0
  r0       : W64 := 0
  r1       : W64 := 0
  deriving DecidableEq, Repr

/-- Why an access of the module to endpoint or tray memory is made (R53, R455, R287, R300). -/
inductive Purpose where
  | sqFetch (pair : Nat) (index : Nat)
  | image (lsn : Nat)
  | params (lsn : Nat)
  | moveRead (lsn : Nat)
  | moveWrite (lsn : Nat)
  | query (lsn : Nat)
  | cqWrite (pair : Nat) (lsn : Nat)
  | event (pair : Nat)
  | aidxWrite (pair : Nat)
  | notify
  | emit (lsn : Nat) (sub : Nat)
  | mirror
  /-- A mirrored page's copy to a new buddy (R347). -/
  | resync
  | toll (interval : Nat)
  | push
  | probe
  /-- A FENCE of a FENCE descriptor (R280). -/
  | fenceOp (lsn : Nat)
  | fwd (port : Nat) (h : Hdr)
  | tray (page : Nat)
  /-- A read of a tray page's line for a load: poison in its answer marks the page's lines (R300). -/
  | line (page : Nat)
  /-- A read nobody waits for any more: its answer is taken and forgotten. -/
  | dropped
  deriving DecidableEq, Repr

/-- Where a read by the module stands: pieces still missing with the pieces that came, by offset; answered; or failed with
a status and a detail (R455). -/
inductive Fetch where
  | waiting (left : Nat) (parts : Tbl (List Byte))
  | got (bytes : List Byte)
  | failed (status detail : Nat)
  deriving DecidableEq, Repr

/-- A ring pair beside its registers (R27, R30–R36, R53, R55, R56). -/
structure Ring where
  tail : W32 := 0
  aidx : W32 := 0
  head : W32 := 0
  widx : W32 := 0
  faulted : Bool := false
  code : Nat := 0
  /-- EVT_LOST is owed to the pair's next record (R51). -/
  lost : Bool := false
  /-- A reset that waits for running descriptors, with its detail code (R56). -/
  resetting : Option Nat := none
  /-- The reset awaits the final accepted index's write (R56, step 5). -/
  closing : Bool := false
  deriving DecidableEq, Repr

/-- A tenant context beside its registers (R57, R58, R120). -/
structure Ten where
  resetBusy : Bool := false
  aborted : Nat := 0
  /-- A tenant reset written before stage RUN is held (R58). -/
  resetHeld : Bool := false
  /-- The mirror store whose ACK ends RESET_BUSY (R345). -/
  busyTill : Nat := 0
  adviceNo : Nat := 0
  /-- Kept proposals, newest last: result0, result1, time posted (R120). -/
  advice : List (W64 × W64 × Nat) := []
  deriving DecidableEq, Repr

/-- Kinds of ledger entry (R341). -/
inductive LKind where
  | desc | version | cert | abort
  deriving DecidableEq, Repr

/-- The states of a DESC entry (R342). -/
inductive LState where
  | free | accepted | started | committed | completing | done | void
  deriving DecidableEq, Repr

/-- A ledger entry (R341) with its image: the descriptor's eight words and, from COMMITTED, the completion
record. The last fields are the module's working state of the descriptor. -/
structure Entry where
  lsn : Nat
  pair : Nat := 0
  kind : LKind := .desc
  state : LState := .accepted
  replayed : Bool := false
  index : W32 := 0
  cidx : W32 := 0
  ident : Nat := 0
  workId : W64 := 0
  job : Nat := 0xFFFF
  retries : Nat := 0
  used : Nat := 0
  opcode : Nat := 0
  parts : Nat := 0
  result : Nat := 0
  epoch : W32 := 0
  gen : Nat := 0
  words : List W64 := []
  cpl : Option Cpl := none
  /-- In MIRRORED mode: the mirror store whose ACK accepts the entry (R345). -/
  staged : Option Nat := none
  /-- The voiding write of a reset awaits the ACK of this mirror store (R342). -/
  voiding : Option Nat := none
  /-- A recipe slot reference is held (R222). -/
  slotRef : Bool := false
  /-- desc.job named a live job at acceptance (R106). -/
  jobLive : Bool := false
  /-- Shelves whose drain count this descriptor raised (R66). -/
  drains : List Nat := []
  /-- Read reference taken at start: region and version (R82). -/
  ref : Option (Nat × Nat) := none
  /-- Further references an INVOKE took for its bindings (R199). -/
  refs : List (Nat × Nat) := []
  /-- When it started (R46, R349). -/
  startAt : Nat := 0
  acceptAt : Nat := 0
  /-- Its place in the module's acceptance order (R46). -/
  accepted : Nat := 0
  /-- The completion write failed; the record stays (R55). -/
  unwritten : Bool := false
  /-- The record is from before a reset of its pair: it goes first after the next enable (R56). -/
  prior : Bool := false
  /-- Failed sub-parts, by number, for QUERY SUBPARTS (R49, R79). -/
  failedParts : List Nat := []
  /-- Its record waits until the buddy's ACK covers this mirror store: a version transition it made (R78, R85). -/
  till : Nat := 0
  /-- VERSION: region, number; CERT: serial, target, generation, epoch, signers; ABORT: tenant, job; a running
  DESC: the working notes of its opcode. -/
  note : List Nat := []
  deriving DecidableEq, Repr

/-- The mode of the ledger (R343, R347, R368). -/
inductive LMode where
  | loc | mirrored | solo | resync
  deriving DecidableEq, Repr

/-- A record of the atomic table (R352): remote by (src, tag, seq), recipe by (lsn, sub-part, ordinal). -/
structure AtomRec where
  recipe : Bool
  k0 : Nat
  k1 : Nat
  k2 : Nat
  old : W64
  stamp : Nat
  status : Nat := 0
  detail : Nat := 0
  /-- Its slot in the table, and the mirror store that carries the record (R344, R352). -/
  slot : Nat := 0
  till : Nat := 0
  deriving DecidableEq, Repr

/-- A key of the work identity table (R355, R356). -/
structure WorkKey where
  tenant : Nat
  work : W64
  winner : Option (Nat × Nat) := none
  /-- The winner has a WRITE binding, and the versions it wrote into: region and number (R357). -/
  writes : Bool := false
  wrote : List (Nat × Nat) := []
  wonAt : Nat := 0
  /-- Runs holding the slot: their l.lsn. -/
  runs : List Nat := []
  /-- Its slot among the table's 65,536 (R355). -/
  slot : Nat := 0
  deriving DecidableEq, Repr

/-- A step abort in progress (R358). -/
structure AbortJob where
  tenant : Nat
  job : Nat
  lsn : Nat
  /-- The mirror store whose ACK makes the ABORT entry durable in MIRRORED mode. -/
  till : Nat := 0
  deriving DecidableEq, Repr

/-- A peer the module has heard of (R359). -/
structure Peer where
  suspect : Bool := false
  expelled : Bool := false
  heard : Nat := 0
  /-- Probes sent whose answer came too late, still out (R338). -/
  probed : Nat := 0
  /-- Generations expelled (R362). -/
  gens : List Nat := []
  deriving DecidableEq, Repr

/-- TQ block. -/
structure TqSt where
  rings : Tbl Ring := []
  tens : Tbl Ten := []
  fetch : List (Purpose × Fetch) := []
  deriving DecidableEq, Repr

/-- LDG block. -/
structure LdgSt where
  entries : List Entry := []
  nextLsn : Nat := 0
  /-- Descriptors accepted so far (R46). -/
  accepts : Nat := 0
  gen : Nat := 0
  mode : LMode := .loc
  /-- The own half holds a valid ledger (R340, R348). -/
  half : Bool := false
  fenced : Bool := false
  lost : Bool := false
  aborts : List AbortJob := []
  takeover : Bool := false
  mirrorSent : Nat := 0
  mirrorAcked : Nat := 0
  /-- The last mirror store of the own half's copy to a new buddy (R347). -/
  resyncTill : Nat := 0
  /-- A mirror store has been refused: no later one is a prefix of the own half any more (R344). -/
  mirrorBad : Bool := false
  /-- A former buddy that has left mirror stores unanswered and that no certificate has expelled: what waited for its answer
  still waits (R346). -/
  bound : Option ModId := none
  /-- The buddy has told that it does not mirror to this module: it is LOCAL, or its RESYNC is not complete (R347). -/
  buddyAlone : Bool := false
  /-- The buddy's own half, held here at 0x2000_0000 (R343). -/
  mirrorHalf : Bytes := []
  /-- Entries taken over from the expelled buddy's mirror half, by their l.lsn (R364). -/
  taken : List Nat := []
  /-- Expelled buddies whose streams and regions this module serves (R364). -/
  standFor : List Nat := []
  atoms : List AtomRec := []
  works : List WorkKey := []
  peers : Tbl Peer := []
  deriving DecidableEq, Repr

/-! ### Regions, versions, shelves, tiers -/

/-- The states of a version (R76). -/
inductive VState where
  | opened | sealed | published | orphan | retiring
  deriving DecidableEq, Repr

/-- An entry of a version's page table: a page, or a page revoked for the life of the version (R68). -/
inductive PageRef where
  | page (id : Nat)
  | revoked
  deriving DecidableEq, Repr

/-- A pin of a running PROMOTE (R102): pages lo to hi − 1. -/
structure Pin where
  pair : Nat
  lsn : Nat
  lo : Nat
  hi : Nat
  deriving DecidableEq, Repr

/-- A pending demotion (R104). -/
structure PendDemote where
  tier : Nat
  lo : Nat
  hi : Nat
  /-- LP coding asked for: slot and its identity then (R168). -/
  recode : Option (Nat × Nat) := none
  deriving DecidableEq, Repr

/-- A version of a region (R73–R76). -/
structure Version where
  state : VState := .published
  writer : Nat := 0
  base : Nat := 0
  refs : Nat := 0
  holds : List Nat := []
  pins : List Pin := []
  orphanUntil : Nat := 0
  /-- It turned RETIRING because its orphan hold expired (R81, R82). -/
  expired : Bool := false
  /-- Its parts are being sealed for a PUBLISH (R79). -/
  parted : Bool := false
  incomplete : Bool := false
  /-- Codec table slot and identity recorded (R168, R171). -/
  slotRec : Option (Nat × Nat) := none
  pages : Tbl PageRef := []
  /-- Page numbers the open version has allocated for itself (R71). -/
  own : List Nat := []
  pend : Option PendDemote := none
  readAt : Nat := 0
  /-- Jobs whose descriptors opened or wrote it (R358). -/
  jobs : List Nat := []
  deriving DecidableEq, Repr

/-- A region homed here or held here (R69, R72, R74). -/
structure Region where
  owner : Nat
  size : Nat
  tier : Nat
  mirrored : Bool := false
  prot : Bool := false
  flat : Bool := false
  fmt : Nat := 0
  tslot : Nat := 0
  /-- When it turned FREEING (R72). -/
  freeing : Option Nat := none
  latest : Nat := 1
  highest : Nat := 1
  home : ModId := 0
  vers : Tbl Version := []
  deriving DecidableEq, Repr

/-- The form of a page copy below the near tier (R163, R164): class in sectors, RAW, slot and identity. -/
structure LpForm where
  cls : Nat
  raw : Bool
  slot : Nat
  ident : Nat
  stream : List Byte := []
  deriving DecidableEq, Repr

/-- A move in progress of one page (R95): where to, for which move. -/
structure PageMv where
  tier : Nat
  shelf : Nat
  job : Nat
  /-- The tier key slot its copy is encrypted under (R377). -/
  key : Option Nat := none
  deriving DecidableEq, Repr

/-- A 64 KiB page: content, poisoned 64-byte lines, place, stored form, move in progress. -/
structure Page where
  bytes : Bytes := []
  poison : List Nat := []
  /-- The detail of the decode that poisoned it (R165). -/
  why : Option Nat := none
  /-- Lies on a force-revoked shelf (R65, R68). -/
  revoked : Bool := false
  lost : Bool := false
  tier : Nat := 0
  shelf : Nat := 0
  region : Nat := 0
  lp : Option LpForm := none
  /-- Tier key slot of an encrypted copy (R377). -/
  key : Option Nat := none
  mv : Option PageMv := none
  /-- Its last switch to a lower tier: when, and the tier, shelf, form and key it had (R105). -/
  was : Option (Nat × Nat × Nat × Option LpForm × Option Nat) := none
  /-- The DEMOTE that made that switch, if one did (R105). -/
  wasBy : Option Nat := none
  deriving DecidableEq, Repr

/-- The states of a shelf (R62), in the code order of RGN_SHELF_INFO.STATE. -/
inductive ShState where
  | system | free | assigned | draining | scrubbing | offline
  deriving DecidableEq, Repr

/-- A shelf (R61–R67, R371). -/
structure Shelf where
  st : ShState := .free
  tenant : Nat := 0
  common : Bool := false
  secure : Bool := false
  evac : Bool := false
  scrubAt : Nat := 0
  /-- When it turned DRAINING (R66). -/
  drainAt : Nat := 0
  deriving DecidableEq, Repr

/-- RGN block: regions, pages, shelves, the shelf command in progress. -/
structure RgnSt where
  regions : Tbl Region := []
  pages : Tbl Page := []
  nextPage : Nat := 0
  shelves : Tbl Shelf := []
  /-- Decoders of CXL-down ports in decoder order: port, number, tier, GiB (R61). -/
  decoders : List (Nat × Nat × Nat × Nat) := []
  cmdBusy : Bool := false
  cmdResult : Nat := 0
  /-- Open versions discarded: region, version, its writer, when (R76). -/
  discarded : List (Nat × Nat × Nat × Nat) := []
  deriving DecidableEq, Repr

/-- What a move works for (R95–R119, R65). -/
inductive Mover where
  | promote (lsn : Nat)
  | demote (lsn : Nat)
  | pending
  | auto
  | evacuate (shelf : Nat)
  | remote (home : Nat) (tag : Nat)
  deriving DecidableEq, Repr

/-- A running move of pages (R95–R100): pages not yet switched, failures, slack under LP. -/
structure MoveJob where
  mover : Mover
  tenant : Nat
  region : Nat
  version : Nat
  target : Nat
  todo : List Nat
  /-- It brings pages up. -/
  up : Bool := false
  /-- The tenant whose PROMOTE or DEMOTE asked for it (R115). -/
  asker : Nat := 0
  /-- Pages switched. -/
  moved : List Nat := []
  failed : Nat := 0
  /-- The detail under which the first page failed, where the spec gives one (R377). -/
  why : Option Nat := none
  quota : Bool := false
  /-- LP coding asked for: slot and its identity (R99). -/
  recode : Option (Nat × Nat) := none
  /-- Slack reported by other holders' sub-parts (R97, R98). -/
  slack : Nat := 0
  /-- Holder modules whose sub-parts have not answered, and those that failed (R97). -/
  remote : List Nat := []
  remoteFailed : List Nat := []
  /-- A holder's sub-part has run out of room (R100). -/
  remoteFull : Bool := false
  /-- The paced range: first page, pages per block, job, first layer (R106). -/
  paced : Option (Nat × Nat × Nat × Nat) := none
  /-- Layers found late, and those in which a read has stalled (R115). -/
  late : List Nat := []
  stalledIn : List Nat := []
  deriving DecidableEq, Repr

/-- Who waits in a stalled read (R113). -/
inductive Staller where
  | ctx (cx : Nat)
  | load (port : Nat) (h : Hdr)
  deriving DecidableEq, Repr

/-- A stalled read (R113, R115, R116). -/
structure Stall where
  who : Staller
  tenant : Nat
  region : Nat
  version : Nat
  page : Nat
  since : Nat
  position : W64 := 0
  /-- Window of the page, or the paced move's job number. -/
  win : Option Nat := none
  move : Option Nat := none
  /-- Gate instances open at arrival: 1,024 × slot + entry, and instance (R142). -/
  gates : List (Nat × Nat) := []
  first : Bool := false
  /-- Shelves whose drain count the load raised (R66). -/
  drains : List Nat := []
  /-- The pair, tag and index of the PROMOTE a load waits for (R116). -/
  owed : Option (Nat × W32 × W32) := none
  deriving DecidableEq, Repr

/-- A weight window (R108–R117). -/
structure WinSt where
  on : Bool := false
  err : Nat := 0
  /-- Near-tier pages reserved at ENABLE (R108). -/
  reserve : Nat := 0
  cur : Nat := 0
  run : Nat := 0
  /-- The layer being staged: step, layer, page numbers still to land. -/
  staging : Option (Nat × Nat × List Nat) := none
  landed : List (Nat × Nat) := []
  /-- Version taken for a step (R111). -/
  vers : List (Nat × Nat) := []
  late : List (Nat × Nat) := []
  stalledIn : List (Nat × Nat) := []
  /-- Near-tier staging copies: step, layer, page number, page id copied. -/
  copies : List (Nat × Nat × Nat × Nat) := []
  deriving DecidableEq, Repr

/-- A stream raised under R115: move source, class, job slot, and the gate instances open at the read's arrival (none:
the raise ends at the job's next layer). -/
structure Raise where
  src : Nat
  cls : Nat
  slot : Nat
  gates : List (Nat × Nat) := []
  deriving DecidableEq, Repr

/-- TIER block. -/
structure TierSt where
  moves : Tbl MoveJob := []
  nextMove : Nat := 0
  stalls : Tbl Stall := []
  nextStall : Nat := 0
  wins : Tbl WinSt := []
  raises : List Raise := []
  /-- Bounds of window stalls taken: window, page number and time, and the reading context if it was one (R113). -/
  bounds : List (Nat × Nat × Nat × Option Nat) := []
  lastScan : Nat := 0
  deriving DecidableEq, Repr

/-- A codec table slot (R166–R170). -/
inductive SlotState where
  | empty | loading | loaded | unloading
  deriving DecidableEq, Repr

structure CodecSlot where
  st : SlotState := .empty
  kind : Nat := 0
  owner : Nat := 0
  cls : Nat := 0
  count : Nat := 0
  ident : Nat := 0
  body : List Byte := []
  deriving DecidableEq, Repr

/-! ### Time base -/

/-- A gate entry (R139) with its open instance, named by the position it opened at, and whether that instance's guard band
runs or has ended past its estimate (R141, R143). -/
structure Gate where
  w0 : W64 := 0
  w1 : W64 := 0
  inst : Option Nat := none
  guard : Bool := false
  spent : Bool := false
  deriving DecidableEq, Repr

/-- A job slot beside its registers (R126, R129, R135–R138). -/
structure Job where
  live : Bool := false
  err : Nat := 0
  step : Nat := 0
  layer : Nat := 0
  phase : Nat := 0
  est : Nat := 1000000
  tref : Nat := 0
  refStep : Nat := 0
  refLayer : Nat := 0
  refPhase : Nat := 0
  /-- Candidates of the tick: positions (R131–R135). -/
  cands : List W64 := []
  estWrite : Option Nat := none
  gates : Tbl Gate := []
  deriving DecidableEq, Repr

/-- TIME block. -/
structure TimeSt where
  mono : Nat := 0
  wall : Nat := 0
  /-- TIME_PTP_STS.STATE. -/
  ptp : Nat := 0
  ptpOffset : W32 := 0
  jobs : Tbl Job := []
  /-- The staged word W0 of a gate entry (R140). -/
  w0 : W64 := 0
  /-- The last counted edge of STEP_IN (R134). -/
  lastEdge : Option Nat := none
  deriving DecidableEq, Repr

/-! ### Slices and recipes -/

/-- A Quern lane (R185). -/
structure Lane where
  v : Int := 0
  nan : Bool := false
  pinf : Bool := false
  ninf : Bool := false
  n : Nat := 0
  deriving DecidableEq, Repr

/-- A step of a recipe image (R200). -/
structure Step where
  op : Nat
  commit : Bool := false
  a : Nat := 0
  b : Nat := 0
  c : Nat := 0
  d : Nat := 0
  mod : Nat := 0
  imm : W64 := 0
  deriving DecidableEq, Repr

/-- A recipe image (R220). -/
structure Image where
  ident : Nat
  final : Nat := 0
  scratch : Nat := 1
  stage : Nat := 0
  heap : Nat := 0
  banks : Nat := 0
  carried : Nat := 0
  stride : Bool := false
  splitBind : Nat := 0
  splitBase : Nat := 0
  splitStride : Nat := 0
  splitCount : Nat := 0
  /-- Bindings: parameter offset ÷ 8, PRESENT, WRITE. -/
  binds : List (Nat × Bool × Bool) := []
  budget : Nat := 1
  paramsMin : Nat := 0
  steps : List Step := []
  deriving DecidableEq, Repr

/-- A recipe slot (R222). -/
structure RecipeSlot where
  st : SlotState := .empty
  owner : Nat := 0
  img : Option Image := none
  deriving DecidableEq, Repr

/-- An entry of the stage tiles (R206, R214): region, version, byte offset, mode (0 plain, 1 ADD_FP32,
2 ADD_QW40), bytes. -/
structure StageEnt where
  bind : Nat
  off : Nat
  mode : Nat := 0
  bytes : List Byte
  deriving DecidableEq, Repr

/-- A held EMIT store (R206, R219): endpoint pointer, class, bytes, lines poisoned. -/
structure EmitEnt where
  ptr : W64
  tc : Nat
  bytes : List Byte
  poison : Bool := false
  deriving DecidableEq, Repr

/-- A loop of the sequencer (R211): first and last step of the body, index register, next index, count. -/
structure LoopSt where
  first : Nat
  last : Nat
  reg : Nat
  idx : Nat
  count : Nat
  deriving DecidableEq, Repr

/-- What a context is doing. `commit` waits at the end of a phase; its number is the mirror store of the phase record
once that is written (R207). -/
inductive CtxStatus where
  | ready
  | recv (deadline : Nat)
  | markWait (target : W64) (deadline : Nat)
  | stalled
  | commit (till : Nat)
  | mismatch
  | ended (status detail : Nat)
  deriving DecidableEq, Repr

/-- A context that runs a library recipe phase by phase (R226): the phases it has run, and the reads of the present one whose
stall is over. -/
structure LibSt where
  phase : Nat := 0
  reads : Nat := 0
  deriving DecidableEq, Repr

/-- The phase record of a context's last commit (R207, R208). -/
structure PhaseRec where
  pc : Nat := 0
  regs : List W64 := []
  loops : List LoopSt := []
  used : Nat := 0
  quern : List (List Lane) := []
  ordinal : Nat := 0
  lib : Option LibSt := none
  deriving DecidableEq, Repr

/-- A sub-part context (R195–R198, R206). -/
structure Ctx where
  lsn : Nat
  sub : Nat
  slice : Nat
  pc : Nat := 0
  loops : List LoopSt := []
  regs : List W64 := []
  scratch : Bytes := []
  quern : List (List Lane) := []
  heap : List (Nat × W64) := []
  stage : List StageEnt := []
  /-- Held messages with their target modules (R206, R215). -/
  sends : List (Nat × RMsg) := []
  emits : List EmitEnt := []
  /-- Messages received in this phase (R215). -/
  recvd : List RMsg := []
  used : Nat := 0
  ordinal : Nat := 0
  result : Option (W64 × W64) := none
  status : CtxStatus := .ready
  record : Option PhaseRec := none
  startAt : Nat := 0
  /-- A shadow's primary (R408). -/
  shadowOf : Option Nat := none
  /-- Reads made by the primary and delivered to the shadow, and how many it has taken (R408). -/
  log : List (List Byte) := []
  taken : Nat := 0
  phases : Nat := 0
  /-- The stall of its next read has ended: that read is served where the page lies (R113). -/
  pass : Bool := false
  /-- Its library recipe runs phase by phase (R226, R248; log entry 157). -/
  lib : Option LibSt := none
  /-- Its place among the 1,024 phase records and redo images of the own half (R339; log entry 16). -/
  slot : Nat := 0
  deriving DecidableEq, Repr

/-- A binding resolved at invocation start (R199). -/
structure Bind where
  region : Nat
  version : Nat
  write : Bool
  deriving DecidableEq, Repr

/-- A running invocation (R196, R199, R218, R219). -/
structure Inv where
  pair : Nat
  secure : Bool := false
  img : Image
  params : List Byte := []
  binds : List (Option Bind) := []
  count : Nat := 1
  base : Nat := 0
  stride : Nat := 0
  /-- Ended sub-parts: number, status, detail. -/
  ended : List (Nat × Nat × Nat) := []
  finalDone : Option (Nat × Nat) := none
  /-- Restarts of a sub-part, by number (R217). -/
  tries : Tbl Nat := []
  /-- The highest restart count of any sub-part. -/
  used : Nat := 0
  /-- The last committed kind-1 EMIT (R48, R211). -/
  result : Option (W64 × W64) := none
  /-- Lines EMITted by committed phases: endpoint pointers (R255). -/
  emitted : List W64 := []
  /-- Lines of EMIT stores that their target reported failed: address ÷ 64 (R219, R255). -/
  unwritten : List Nat := []
  /-- Bytes EMITted by committed phases (R250). -/
  wrote : Nat := 0
  /-- The poisoned stores of failed gather sub-parts have been released (R255). -/
  poisoned : Bool := false
  /-- The sampled sub-part (R408). -/
  shadow : Option Nat := none
  /-- Private staging of a work run: binding index and the pages written (R355). -/
  staging : List (Nat × Tbl PageRef) := []
  heldEmits : List (Nat × EmitEnt) := []
  /-- WRITE bindings into which a phase has committed stores (R209). -/
  stored : List Nat := []
  /-- Restarted sub-parts awaiting a slice: number and phase record (R208). -/
  restarts : List (Nat × Option PhaseRec) := []
  startAt : Nat := 0
  deriving DecidableEq, Repr

/-- What the mirror half says of a running INVOKE that is taken over (R342, R364): its ended sub-parts, phase records, and the
stages committed at step 3 and perhaps not applied. -/
structure Resume where
  ended : List Nat := []
  recs : List (Nat × PhaseRec) := []
  redo : List (List StageEnt) := []
  deriving DecidableEq, Repr

/-- The states of a line the coherence directory tracks; a line it does not list is in I (R202). -/
inductive LineSt where
  | m | o | e | s
  deriving DecidableEq, Repr

/-- A line of the coherence directory: where it lies, its state, and the caching agents that hold it, bits 0–31 the slices'
and bits 32–47 the control cores' (R202). The bytes of a cached line are those of its page: no read can tell (R204). -/
structure DirLine where
  region : Nat
  version : Nat
  page : Nat
  line : Nat
  st : LineSt
  agents : BitVec 48
  deriving DecidableEq, Repr

/-- A RECV that has reported its timeout: the message it waited for (R215). -/
structure LateRecv where
  tenant : Nat
  lsn : Nat
  key : W64
  srcMod : Nat
  srcSub : Nat
  dstSub : Nat
  chan : Nat
  deriving DecidableEq, Repr

/-- SLC block. -/
structure SlcSt where
  slots : Tbl RecipeSlot := []
  /-- Slices out of service: 1 quarantined, 2 held with their quadrant (R225). At reset none is in service. -/
  inService : BitVec 32 := 0
  quarantined : BitVec 32 := 0
  /-- Bins in which a slice has passed (R407). -/
  bins : Tbl W16 := []
  ctxs : Tbl Ctx := []
  nextCtx : Nat := 0
  invs : Tbl Inv := []
  /-- Taken INVOKEs that have not started here yet, by l.lsn (R364). -/
  resumes : Tbl Resume := []
  /-- Messages held, with their arrival time (R215). -/
  held : List (RMsg × Nat) := []
  /-- RECVs that have reported their timeout: their messages are never delivered (R215). -/
  late : List LateRecv := []
  /-- The coherence directory (R202). -/
  dir : List DirLine := []
  deriving DecidableEq, Repr

/-! ### Fabric -/

/-- A window attached by an endpoint (R283). -/
structure FabWin where
  ep : Nat
  w : Nat
  tenant : Nat
  secure : Bool
  region : Nat
  version : Nat
  store : Bool
  pair : Nat
  deriving DecidableEq, Repr

/-- An ATTACH or DETACH that this module, as the edge, has passed to the home of its region: the port it came by, or the window
page (`bar2`), its header as the edge filled it in, its payload (R283). -/
structure HomeAsk where
  port : Nat
  bar2 : Bool
  detach : Bool
  h : Hdr
  data : List Byte
  deriving DecidableEq, Repr

/-- A read reference held here, at the home, for a window of another module (R283). -/
structure FarRef where
  edge : Nat
  ep : Nat
  w : Nat
  region : Nat
  version : Nat
  /-- The payload that asked for it: the same again is a copy. -/
  data : List Byte
  deriving DecidableEq, Repr

/-- The kinds of request a stream carries in sequence (R276). -/
inductive ReqKind where
  | store | flag | atomic | mirror | load
  deriving DecidableEq, Repr

/-- A request received: the port it came by, its header and data, and the failure the edge check found. -/
structure RxReq where
  kind : ReqKind
  port : Nat
  h : Hdr
  data : List Byte
  deny : Option (Nat × Nat) := none
  /-- When it came, and the shelves whose drain count it raised (R66). -/
  at_ : Nat := 0
  drains : List Nat := []
  deriving DecidableEq, Repr

/-- A stream this module receives (R273, R277–R281, R321). -/
structure RxStream where
  known : Bool := false
  /-- The contiguous number (R279). -/
  contig : W32 := 0
  held : List RxReq := []
  failCount : Nat := 0
  first : Option (Nat × Nat × W32) := none
  /-- The SYNC request that started it (R273, R289). -/
  start : Option RxReq := none
  sinceAck : Nat := 0
  ackAt : Nat := 0
  ackDue : Bool := false
  /-- Since when the gap behind `gapFor` stands, or was asked for (R321). -/
  gapAt : Option Nat := none
  gapFor : W32 := 0
  fences : List (Nat × Hdr) := []
  depLoads : List RxReq := []
  /-- Port and tag of the latest request, used by the cumulative ACK. -/
  port : Nat := 0
  tag : W16 := 0
  deriving DecidableEq, Repr

/-- A request this module sent and keeps until it is covered (R279, R289, R290). -/
structure TxReq where
  seq : W32
  kind : ReqKind
  purpose : Purpose
  addr : W64 := 0
  data : List Byte := []
  poison : Bool := false
  tag : W16 := 0
  op : Byte := 0
  /-- It carried SYNC (R273). -/
  sync : Bool := false
  tries : Nat := 0
  /-- Region, version, tenant and world of the extension (R275). -/
  xr : Nat × Nat × Nat × Bool := (0, 0, 0, false)
  deriving DecidableEq, Repr

/-- A FENCE asked and not answered: fence point, purpose, when it was sent and how often again (R280, R289, R290). -/
structure TxFence where
  seq : W32
  purpose : Purpose
  sentAt : Nat := 0
  tries : Nat := 0
  deriving DecidableEq, Repr

/-- A stream this module sends (R273, R279, R290, R293, R351). -/
structure TxStream where
  next : W32 := 0
  una : List TxReq := []
  progAt : Nat := 0
  epoch : W32 := 0
  port : Nat := 0
  fence : List TxFence := []
  /-- Ring pairs whose descriptors have stored on it since their last completed fence (R46, R280). -/
  stored : List Nat := []
  synced : Bool := false
  /-- Requests an ACK has covered that reported failures; a FENCE asks which (R279, R280). -/
  doubt : List TxReq := []
  /-- Requests reported to their issuers before an answer came (R290, R306). -/
  late : List W32 := []
  /-- Mirror stores given up before their acknowledgement came (R338). -/
  lateMirror : List W32 := []
  deriving DecidableEq, Repr

/-- A load, atomic or attach of this module awaiting its answer. -/
structure Wait where
  tag : W16
  dst : Ep
  port : Nat
  purpose : Purpose
  ptr : W64 := 0
  /-- Offset of this piece in the whole read. -/
  off : Nat := 0
  len : Nat := 0
  /-- Bytes of a write. -/
  size : Nat := 0
  /-- Region, version, tenant and world of a load of a region's bytes (R275). -/
  xr : Nat × Nat × Nat × Bool := (0, 0, 0, false)
  tc : Nat := 2
  /-- The store it is ordered behind (R278). -/
  dep : Option W32 := none
  sentAt : Nat := 0
  tries : Nat := 0
  deriving DecidableEq, Repr

/-- A composition map (R291). -/
structure MapSt where
  epoch : W32 := 0
  members : List ModId := []
  buddies : List (ModId × ModId) := []
  gens : List (ModId × W32) := []
  regions : Tbl MapRegion := []
  /-- Next hops of module m toward module d, under 4,096 × m + d (R291, R294). -/
  routes : Tbl (List Port) := []
  groups : Tbl Group := []
  deriving DecidableEq, Repr

/-- An entry of a port's violation log (R304). -/
structure VLog where
  wall : Nat
  code : Nat
  tc : Nat
  src : Ep
  seq : W32
  h0 : W64
  h1 : W64
  deriving DecidableEq, Repr

/-- What a unit of a tier copy carries: the page copied, the page it is stored for, the first line of its stored copy and how
many, read or write, and the bytes written (R95, R300, R323). -/
structure CopyUnit where
  page : Nat
  at_ : Nat
  line : Nat
  lines : Nat
  write : Bool
  data : List Byte := []
  deriving DecidableEq, Repr

/-- A transfer unit waiting at an output (R323, R327): counted length, message bytes, stream or move source. -/
structure SUnit where
  bytes : Nat
  len : Nat
  stream : Nat
  /-- It is for an agent of the module (R314). -/
  here : Bool := false
  /-- It belongs to a tier copy. -/
  copy : Option CopyUnit := none
  deriving DecidableEq, Repr

/-- What the module has sent or driven outward. -/
inductive Out where
  /-- A ULP message: port, type, header, payload. -/
  | msg (port : Nat) (type : Nat) (h : Hdr) (data : List Byte)
  /-- Bytes stored at an endpoint pointer; `poison` marks every line poisoned. -/
  | store (ptr : W64) (tc : Nat) (bytes : List Byte) (poison : Bool)
  | load (ptr : W64) (len : Nat)
  /-- The full map of a MAP_GET; the byte encoding of its entries is not given (R276, R291). -/
  | fullMap (port : Nat) (h : Hdr) (map : MapSt)
  /-- A recipe message to another module (R215). -/
  | recipe (dst : Nat) (m : RMsg)
  /-- Requests and answers between modules whose wire form is not given (R79, R97). -/
  | sealReq (dst : Nat) (region version : Nat)
  | sealAns (dst : Nat) (tag : Nat) (ok : Bool)
  | commitTell (dst : Nat) (region version : Nat)
  | moveReq (dst : Nat) (tag : Nat) (r : MoveReq)
  | moveAns (dst : Nat) (tag : Nat) (ok full : Bool) (slack : Nat)
  /-- Link layer: an acknowledgement, credits returned, a retry request, frames sent again (R274). -/
  | linkAck (port : Nat) (seq : BitVec 12)
  | linkCredit (port : Nat) (tc : Nat) (units : Nat)
  | linkRetry (port : Nat) (seq : BitVec 12)
  | linkResend (port : Nat) (seqs : List (BitVec 12))
  /-- KEY bit, nonce and tag of a frame of an encrypted link, which the message or resent frame before it went in (R378). -/
  | seal (port key : Nat) (nonce : BitVec 96) (tag : BitVec 128)
  /-- CXL answers: completion with data (poisoned or not), write completion, error answer. -/
  | cxlData (port : Nat) (bytes : List Byte) (poison : Bool)
  | cxlDone (port : Nat)
  | cxlError (port : Nat) (nonPosted : Bool)
  | pcieHotReset (port : Nat)
  /-- A CXL.mem access to a tray: port, tag, the page and 64-byte line of its stored copy, read or write, and the bytes as they
  are written there (R95, R163, R300, R376). -/
  | tray (port tag page line : Nat) (write : Bool) (bytes : List Byte)
  /-- Management answers. -/
  | eth (dst : EthSrc) (bytes : List Byte)
  | arp (ip : BitVec 32) (mac : BitVec 48)
  | i3c (bytes : List Byte)
  | i3cIbi (byte : Byte)
  | barRead (port : Nat) (value : W64)
  | secured (bytes : List Byte)
  | spdm (via : SpdmPath) (bytes : List Byte)
  | ide (port : Nat) (bytes : Nat)
  | tdo (value : W32)
  /-- Pins. -/
  | pin (name : Nat) (level : Bool)
  | unit (port : Nat) (tenant tc : Nat) (u : SUnit)
  | cmis (port mux chan : Nat)
  deriving DecidableEq, Repr

/-- Port states (R308). -/
inductive PState where
  | down | training | up | held
  deriving DecidableEq, Repr

/-- A port beside its registers. -/
structure PortSt where
  st : PState := .down
  role : Nat := 3
  x16 : Bool := false
  cause : Nat := 0
  vsec : Nat := 0
  vnext : Nat := 0
  vlog : Tbl VLog := []
  /-- Link layer (R274): next frame to send, frames kept with their messages, next frame expected, bad frames in a row, the
  frame last asked for again and how often in a row, and per class the 256-byte credit units sent and not yet returned. -/
  txSeq : BitVec 12 := 0
  kept : List (BitVec 12 × Out) := []
  rxNext : BitVec 12 := 0
  retries : Nat := 0
  asked : Option (BitVec 12 × Nat) := none
  credTx : List Nat := [0, 0, 0, 0]
  /-- Messages that wait for credits, oldest first (R274). -/
  unsent : List Out := []
  /-- Its device is not Type-3 or requires back-invalidate: the port stays DOWN (R300). -/
  alien : Bool := false
  /-- A held port whose link has been lost: it trains again when the hold ends (R295, R306). -/
  noLink : Bool := false
  locked : BitVec 8 := 0
  reversed : Bool := false
  /-- When a settled link was taken down for retraining (R424). -/
  retrainAt : Option Nat := none
  /-- When block reset of the port ends: release time (R390). -/
  blockAt : Option Nat := none
  /-- PHY mode, polarity and lane reversal applied at stage PORTS (R425, R441). -/
  phy : W64 := 0
  enc : Bool := false
  ide : Option (BitVec 256 × BitVec 256) := none
  /-- Transmit key slot in use, and the frame counters per direction and slot (R378). -/
  kslot : Nat := 0
  ctr : List Nat := [0, 0, 0, 0]
  /-- A counter has reached 2^48: the link is down, and starts afresh when it trains (R378). -/
  spent : Bool := false
  sieve : List Nat := []
  cmis : Bool := false
  actAt : Option Nat := none
  deriving DecidableEq, Repr

/-- One window of the BAR2 window page (R301). -/
structure Bar2Win where
  access : W64 := 0
  version : W32 := 0
  status : Nat := 0
  detail : Nat := 0
  /-- Status and detail of the first failure since the status word was read. -/
  failed : Option (Nat × Nat) := none
  deriving DecidableEq, Repr

/-- MAP and PORT blocks. -/
structure FabSt where
  ports : Tbl PortSt := []
  wins : List FabWin := []
  rx : Tbl RxStream := []
  tx : Tbl TxStream := []
  waits : List Wait := []
  nextTag : W16 := 0
  map : MapSt := {}
  prev : Option MapSt := none
  later : Tbl (RxReq × Nat) := []
  nextLater : Nat := 0
  bar2 : Tbl Bar2Win := []
  /-- The hop a stream toward another module takes now and the last number sent on it, by its triple (R294, R295). -/
  paths : Tbl (Nat × W32) := []
  /-- Accesses reported to their issuers before their answer came: endpoint, port and tag (R290, R306, R338). -/
  expired : List (Nat × Nat × Nat) := []
  asks : List HomeAsk := []
  farRefs : List FarRef := []
  deriving DecidableEq, Repr

/-! ### Switch core and scheduler -/

/-- A resequencer of one (input, output, class) (R319, R320). -/
structure Reseq where
  next : Nat := 0
  held : List Cell := []
  /-- When each held cell came, by its number (R320). -/
  came : Tbl Nat := []
  /-- Numbers declared lost. -/
  lost : List Nat := []
  /-- Messages discarded for a lost cell: their numbers (R320). -/
  dropMsg : List Nat := []
  /-- Cells of the message now passing onward. -/
  open_ : List Cell := []
  deriving DecidableEq, Repr

/-- A scheduler queue with its shaper (R323, R325, R330). -/
structure SQueue where
  units : List SUnit := []
  tag : Nat := 0
  headTag : Option Nat := none
  /-- The shaper: credit in thousandths of a byte, rate in MB/s, ceiling in bytes, enable. -/
  credit : Int := 0
  rate : Nat := 0
  hi : Nat := 0
  on : Bool := false
  /-- The source of the unit started last, and when units started and their counted bytes (R323, R331). -/
  last : Nat := 0
  began : Nat × Nat := (0, 0)
  deriving DecidableEq, Repr

/-- A meter (R328, R331): the committed setting, and its buckets in thousandths of a byte. -/
structure Meter where
  mode : Nat := 0
  cir : Nat := 0
  pir : Nat := 0
  cbs : Nat := 0
  ebs : Nat := 0
  c : Nat := 0
  e : Nat := 0
  at_ : Nat := 0
  deriving DecidableEq, Repr

/-- SW and SCH blocks. -/
structure SwSt where
  slot : Nat := 0
  inputs : Tbl (List Cell) := []
  mids : Tbl (List Cell) := []
  /-- Next c.seq and c.msg of a flow (R313). -/
  flows : Tbl (Nat × Nat) := []
  reseqs : Tbl Reseq := []
  /-- The stream of a message inside the core, and whether it is for an agent here, by flow and c.msg. -/
  streams : Tbl (Nat × Bool) := []
  queues : Tbl SQueue := []
  /-- Virtual time of a port (R325). -/
  vt : Tbl Nat := []
  /-- Units sent by a port in the last 10 µs: time, class is TC3, bytes (R324). -/
  recent : Tbl (List (Nat × Bool × Nat)) := []
  meters : Tbl Meter := []
  /-- Messages waiting at their inputs for a congested output (R322). -/
  waiting : List SwMsg := []
  /-- The unit a port sends: its queue, when its last byte has left, and the unit (R144, R322). -/
  sending : Tbl (Nat × Nat × SUnit) := []
  deriving DecidableEq, Repr

/-! ### Security, resets, power, clocks -/

/-- A committed key (R374, R375). -/
structure KeySt where
  a : BitVec 256
  b : BitVec 256
  owner : Nat := 0
  salt : W32 := 0
  deriving DecidableEq, Repr

/-- The SPDM connection on one transport (R381). -/
structure SpdmSt where
  version : Bool := false
  caps : Bool := false
  algs : Bool := false
  exchanged : Bool := false
  session : Bool := false
  deriving DecidableEq, Repr

/-- SEC block. -/
structure SecSt where
  keys : Tbl KeySt := []
  /-- Manager keys before a commit of the present tick, with its tick (R375). -/
  former : Tbl (Option KeySt × Nat) := []
  staged : List W64 := []
  keyErr : Nat := 0
  root : Option (BitVec 384) := none
  spdm : Tbl SpdmSt := []
  answers : Nat := 0
  bootCopy : Bool := false
  svn : W16 := 0
  deriving DecidableEq, Repr

/-- RST block: the reset controller (R385–R391). -/
structure RstSt where
  asserted : BitVec 8 := 0
  last : BitVec 8 := 0
  /-- Assertions held for a strongbox pulse: source bits (R388). -/
  held : BitVec 8 := 0
  /-- A module-level reset is in effect. -/
  active : Bool := false
  /-- Time of the last release, from which the stretch runs. -/
  releasedAt : Option Nat := none
  /-- Lowest entry stage among the sources asserted during this reset. -/
  entryMin : Nat := 0
  entry : Nat := 0
  /-- Sources whose assertion is cold: RST_CMD and the watchdog may be either (R385). -/
  cold : BitVec 8 := 0
  pulseAt : Tbl Nat := []
  /-- PORST_N is low. -/
  porLow : Bool := false
  /-- Quadrants in reset; quadrants that wait for a return to service after theirs; and those whose reset is held (R391,
  R388). -/
  quads : BitVec 4 := 0
  away : BitVec 4 := 0
  /-- The two copies of the shared structures that hold their state: bit 0 that of Q0, bit 3 that of Q3 (R15). -/
  copies : BitVec 4 := 0b1001#4
  quadWait : BitVec 4 := 0
  quadAt : Tbl Nat := []
  beganAt : Nat := 0
  rstOutN : Bool := false
  pwrGood : Bool := false
  kickAt : Nat := 0
  /-- Stacks in block reset, until their release: time (R390). -/
  hbmAt : Tbl Nat := []
  deriving DecidableEq, Repr

/-- PWR and CLK blocks: supplies, limiter, clocks, sensors (R393–R400). -/
structure PwrSt where
  auxGood : Bool := false
  good48 : Bool := false
  mv48 : Nat := 0
  mvAux : Nat := 0
  rails : Nat := 0
  step : Nat := 0
  stepAt : Nat := 0
  /-- Since when the average has stayed at or below 90% of the limit. -/
  lowAt : Option Nat := none
  avg : Nat := 0
  /-- Last samples of the limiter, the sensors and the neighbour comparison (R396, R397, R399). -/
  limitAt : Nat := 0
  thermAt : Nat := 0
  pairAt : Nat := 0
  /-- Time under power and thermal throttling not yet counted as a whole millisecond. -/
  thrNs : Nat := 0
  thermNs : Nat := 0
  unmet : Bool := false
  hubThr : Bool := false
  hbmThr : Bool := false
  refA : Bool := true
  refB : Bool := true
  usedB : Bool := false
  noRef : Bool := false
  switches : Nat := 0
  mhz : List Nat := [0, 0, 0, 0]
  vcore : List Nat := [0, 0, 0, 0]
  tj : List Int := [0, 0, 0, 0]
  th : List Int := [0, 0, 0, 0, 0, 0, 0, 0, 0, 0, 0, 0]
  fault : BitVec 4 := 0
  causes : List Nat := [0, 0, 0, 0]
  /-- Consecutive breaches of each pair: frequency, voltage, temperature (R400); key 16a + 4b + quantity. -/
  breach : Tbl Nat := []
  straps : BitVec 2 := 0
  bscanN : Bool := true
  deriving DecidableEq, Repr

/-- A stack's controller and memory (R390, R453). -/
structure StackSt where
  /-- 0 TRAINING, 1 READY, 2 SELF_REFRESH, 3 FAILED. -/
  st : Nat := 0
  chan : W32 := 0
  noPlace : Bool := false
  errAddr : Nat := 0
  errValid : Bool := false
  deriving DecidableEq, Repr

/-! ### Health, strongbox, metering, management -/

/-- A part's score and state (R404, R405). -/
structure Score where
  pts : Nat := 0
  /-- 0 normal, 1 WARNED, 2 ACTED. -/
  st : Nat := 0
  /-- The half-life under way: the score it began with, and its seconds (log entry 21). -/
  base : Nat := 0
  secs : Nat := 0
  deriving DecidableEq, Repr

/-- HLT block. Parts are keyed 256 × class + index. -/
structure HltSt where
  scores : Tbl Score := []
  margins : Tbl W64 := []
  invCount : Nat := 0
  rtsBusy : Bool := false
  rtsPart : Nat := 0
  rtsResult : Nat := 0
  decayAt : Nat := 0
  deriving DecidableEq, Repr

/-- A strongbox record (R412); `okA`, `okB` say which copies are valid. -/
structure BbxRec where
  seq : Nat
  kind : Nat
  sev : Nat
  gen : Nat := 0
  wall : Nat := 0
  mono : Nat := 0
  cls : Nat := 0
  index : Nat := 0
  stage : Nat := 0
  tj : List Int := []
  vcore : List Nat := []
  mhz : List Nat := []
  ident : Nat := 0
  tenant : Nat := 0
  job : Nat := 0xFFFF
  position : W64 := 0
  load : Nat := 0
  p48 : Nat := 0
  data : List Byte := []
  okA : Bool := false
  okB : Bool := false
  deriving DecidableEq, Repr

/-- BBX block. -/
structure BbxSt where
  next : Nat := 0
  ring : List BbxRec := []
  sticky : List BbxRec := []
  queue : List BbxRec := []
  /-- A write pulse in progress: false copy A, true copy B (R414). -/
  pulse : Option Bool := none
  deriving DecidableEq, Repr

/-- Tollbook counters of one tenant (R416); the two times are kept in nanoseconds. -/
structure TollCnt where
  shelfMs : List Nat := [0, 0, 0]
  pageMs : List Nat := [0, 0, 0]
  bytes : Nat := 0
  cycles : Nat := 0
  deriving DecidableEq, Repr

/-- TOLL block. -/
structure TollSt where
  cnt : Tbl TollCnt := []
  interval : Nat := 0
  start : Nat := 0
  startWall : Nat := 0
  /-- Time up to which composition and residency have been counted, in ns. -/
  at_ : Nat := 0
  gap : Bool := false
  lastWritten : Nat := 0
  /-- Records on their way: interval and endpoint pointer (R418). -/
  sent : List (Nat × W64) := []
  deriving DecidableEq, Repr

/-- GEN block and the management paths (R429, R445, R446, R450, R434, R436). -/
structure GenSt where
  stage : Nat := 0
  stageAt : Nat := 0
  faultCause : Nat := 0
  mgmtErr : Bool := false
  errCause : Nat := 0
  errPath : Nat := 0
  errCount : Nat := 0
  errAddr : Nat := 0
  alerts : BitVec 12 := 0
  /-- Sources heard most recently, newest first: source, r.seq, kept answer (R445). -/
  ethKept : List (EthSrc × W32 × List Byte) := []
  i3cRead : W32 := 0
  i3cDyn : Option (BitVec 7) := none
  tap : TapInstr := .idcode
  deriving DecidableEq, Repr

/-- The whole module. -/
structure State where
  pending : List Instr := []
  freeIdx : Nat := 0
  out : List Out := []
  /-- Stored register fields, by byte address; an unlisted register holds its reset value (R442). -/
  regs : Tbl W64 := []
  gen : GenSt := {}
  tq : TqSt := {}
  ldg : LdgSt := {}
  rgn : RgnSt := {}
  tier : TierSt := {}
  codec : Tbl CodecSlot := []
  time : TimeSt := {}
  slc : SlcSt := {}
  fab : FabSt := {}
  sw : SwSt := {}
  sec : SecSt := {}
  rst : RstSt := {}
  pwr : PwrSt := {}
  stk : Tbl StackSt := []
  hlt : HltSt := {}
  bbx : BbxSt := {}
  toll : TollSt := {}
  deriving DecidableEq, Repr

/-- The machine right after power-on reset with 5 V applied: stage AUX (R21), every register at the value of its
table, no region, no decoder, every assignable near shelf FREE (R454). Values the spec does not give are named in log
entries 4 to 7. -/
def State.reset : State := {}

end Sys2Proof.Machine
end

