-- ==== Sys2Proof/WellFormed.lean ====
section
/-! DEFINITION. Which commands a wire, a record or a register of the spec can carry: every operand fits the field that carries
it. A command that breaks a rule of the protocol is still well formed: the module meets it. -/

namespace Sys2Proof

/-- A message header whose fields fit (R275): u.hops, u.len, u.region, u.tenant, u.version. -/
def Hdr.wf (h : Hdr) : Bool :=
  h.hops < 16 && h.len < 2 ^ 13 && h.xRegion < 2 ^ 24 && h.xTenant < 256 && h.xVersion < 2 ^ 32

/-- A multicast group: 1 to 64 members, each with 1 to 255 layer slots, or none under kind MARK (R317). -/
def Group.wf (g : Group) : Bool :=
  g.owner < 256 && 1 ≤ g.members.length && g.members.length ≤ 64 &&
    g.members.all (fun m => if g.mark then m.slots = 0 && m.base = 0 else decide (1 ≤ m.slots && m.slots ≤ 255))

/-- An entry of a map: up to 8 next-hop ports, up to 64 holders, a stripe unit that is a multiple of 64 KiB, groups numbered 1 to 4,095 (R291, R317). -/
def MapEntry.wf (e : MapEntry) : Bool :=
  match e with
  | .region id (some r) => id < 2 ^ 24 && r.holders.length ≤ 64 && r.stripe % 65536 = 0
  | .region id none => id < 2 ^ 24
  | .route _ _ hops => hops.length ≤ 8
  | .group g v => 1 ≤ g && g < 4096 && (match v with | some v => v.wf | none => true)
  | _ => true

/-- A stage's report: up to 8 HDM decoders per port (R299). -/
def StageReport.wf (r : StageReport) : Bool :=
  r.decoders.all (fun d => decide ((r.decoders.filter (fun x => x.1 = d.1)).length ≤ 8))

/-- A link frame: a message whose header fits. A frame above 4,160 bytes (R274) is treated as the spec treats one. -/
def Frame.wf (f : Frame) : Bool :=
  (match f.msg with | some (_, h, _) => h.wf | none => true)

/-- A cell whose fields fit (R312): c.mid, c.seq, c.len with its data, c.tenant, c.class, c.msg. -/
def Cell.wf (c : Cell) : Bool :=
  c.mid < 64 && c.seq < 2 ^ 32 && 1 ≤ c.len && c.len ≤ 240 && c.data.length = c.len && c.tenant < 256 && c.cls < 16 &&
    c.msg < 2 ^ 16

/-- A message offered to the switch core: at least a header of 32 bytes (R275); not yet a copy, and group 0 never names one (R317,
R318). -/
def SwMsg.wf (m : SwMsg) : Bool := m.tenant < 256 && 32 ≤ m.bytes && m.group ≠ some 0 && !m.mcopy

/-- A recipe message names a tenant (R6, R215). -/
def RMsg.wf (m : RMsg) : Bool := m.tenant < 256

/-- A move sub-part names a tenant, a region, a version, a tier, a slot, a job and a layer (R45, R97, R106). -/
def MoveReq.wf (m : MoveReq) : Bool :=
  m.tenant < 256 && m.region < 2 ^ 24 && m.version < 2 ^ 32 && m.tier < 4 && m.tslot < 16 && m.job ≤ 0xFFFF &&
    1 ≤ m.layers && m.layers ≤ 4096 && m.first < m.layers

/-- A temperature in a signed byte (R403). -/
def degOk (t : Int) : Bool := -128 ≤ t && t ≤ 127

/-- A shelf index in its field (R90). -/
def idxOk (idx : Nat) : Bool := idx < 2 ^ 18

/-- A command whose operands fit the fields that carry them. -/
def Instr.wf (i : Instr) : Bool :=
  match i with
  | .submissionDoorbell _ off _ _ => off < 2 ^ 20
  | .completionDoorbell _ off _ _ => off < 2 ^ 20
  | .shelfAssign _ _ idx _ _ => idxOk idx
  | .shelfRevokeEvacuate _ _ idx => idxOk idx
  | .shelfRevokeForce _ _ idx => idxOk idx
  | .shelfOnline _ _ idx => idxOk idx
  | .shelfWorldSet _ _ idx _ => idx < 2 ^ 20
  | .ulpMark _ h _ => h.wf
  | .guardBandStart _ entry => entry < 1024
  | .guardBandExpire _ entry => entry < 1024
  | .publishHolderSeal _ region version _ => region < 2 ^ 24 && version < 2 ^ 32
  | .messageArrive m => m.wf
  | .ulpLoad _ h => h.wf
  | .ulpStore _ h _ => h.wf
  | .ulpWriteFlag _ h _ => h.wf
  | .ulpAtomic _ h _ => h.wf
  | .ulpFence _ h => h.wf
  | .ulpAttach _ h _ => h.wf
  | .ulpDetach _ h => h.wf
  | .mapUpdate _ h u => h.wf && u.entries.all MapEntry.wf
  | .mapGet _ h => h.wf
  | .loadRsp _ h _ => h.wf
  | .atomicRsp _ h _ => h.wf
  | .ack _ h _ => h.wf
  | .fenceAck _ h _ => h.wf
  | .attachRsp _ h _ => h.wf
  | .nak _ h => h.wf
  | .resend _ h => h.wf
  | .drain _ h => h.wf
  | .mapAck _ h => h.wf
  | .linkFrame _ f => f.wf
  | .windowReferenceWrite _ win word _ => win < 2 ^ 15 && word < 4
  | .windowStatusRead _ w => w.win < 2 ^ 15 && w.word < 4
  | .cxlMemRequest _ write _ len data => 1 ≤ len && (!write || data.length = len)
  | .cellArrive c => c.wf
  | .messageAdmit m => m.wf
  | .mirrorStore _ h _ => h.wf
  | .spdmGetCertificate _ slot off len => slot < 16 && off < 2 ^ 16 && len < 2 ^ 16
  | .powerLimiterSample avgW _ => avgW < 2 ^ 12
  | .thermalSample quads stks => quads.length = 4 && stks.length = 12 && quads.all degOk && stks.all degOk
  | .thermalTrip isStack idx deg => (if isStack then idx < 12 else idx < 4) && degOk deg
  | .neighbourCompare mhz mv deg =>
    mhz.length = 4 && mv.length = 4 && deg.length = 4 && mhz.all (fun v => decide (v < 2 ^ 12)) &&
      mv.all (fun v => decide (v < 2 ^ 12)) && deg.all degOk
  | .cxlCompletion _ tag _ => tag < 2 ^ 16
  | .moveSubpartRequest _ _ m => m.wf
  | .resetPulseEnd bit => bit < 8
  | .stageAdvance r => r.wf
  | .railRegulationTimeout rail => 1 ≤ rail && rail ≤ 8
  | .descriptorAccept _ | .descriptorStart _ | .descriptorComplete _ | .nop _ | .move _ | .alloc _ | .free _
  | .openVersion _ | .seal _ | .publish _ | .retire _ | .hold _ | .release _
  | .promote _ | .demote _ | .invoke _ | .fence _ | .mark _ | .queryRegion _ | .queryVersions _ | .queryHolds _
  | .querySubparts _ | .queryUsage _ | .queryAdvice _ | .loadRecipe _ | .loadTable _ | .ringEnable _ _ _
  | .ringReset _ _ | .tenantReset _ _ | .registerWrite _ _ _ | .evacuationDone _ _ | .drainComplete _ _
  | .scrubComplete _ _ | .scrubTimeout _ _ | .orphanHoldExpiry _ _ | .pageMoveSwitch _ _ | .stallBoundExpiry _
  | .placementScan | .adviceExpiry _ | .windowEnable _ _ _ | .windowLayerStage _ | .windowLayerLanded _
  | .jobEnable _ _ _ | .jobDisable _ _ | .stepInEdge | .positionResolve _ | .estimateWrite _ _ _ | .gateW0Stage _ _
  | .gateCommit _ _ | .ptpMessage _ _ | .ppsEdge | .subpartStart _ _ _ | .budgetExhausted _ | .phaseCommit _
  | .finalSectionStart _ _ | .invokeComplete _ | .workCommit _ | .workKeyExpiry _ _ | .loadTile _ | .storeTile _
  | .decode _ | .encode _ | .macTile _ | .vecAdd _ | .vecSub _ | .vecMul _ | .vecFma _ | .vecDiv _ | .vecSqrt _
  | .vecExp2 _ | .vecLog2 _ | .vecRcp _ | .vecRsqrt _ | .vecMin _ | .vecMax _ | .vecMulRow _ | .vecSumRow _
  | .vecMaxRow _ | .vecScale _ | .scalarMovi _ | .scalarAdd _ | .scalarAddi _ | .scalarSub _ | .scalarMul _
  | .scalarShl _ | .scalarShr _ | .scalarAnd _ | .scalarOr _ | .scalarXor _ | .scalarLd _ | .scalarSt _
  | .softmaxStep _ | .exactAcc _ | .exactRound _ | .gather _ | .scatter _ | .xorPopcount _ | .heapInsert _
  | .heapDrain _ | .compareSelect _ | .compact _ | .prefetch _ | .send _ | .recv _ | .recvTimeout _
  | .messageHoldExpiry _ | .waitMark _ | .waitMarkTimeout _ | .atomic _ | .loop _ | .branchIf _ | .emitStore _
  | .emitResult _ | .linkRetryRequest _ _ | .linkDown _ | .linkTrained _ _ _ _ | .ackTimerExpiry _ _
  | .retxTimerExpiry _ _ | .epochAdoptTimeout _ | .violationSecondRollover | .portHold _ _ | .portRelease _ _
  | .ideKeyExchange _ _ _ | .cellGapExpiry _ _ _ | .streamGapExpiry _ _ | .unitStart _ | .shaperConfig _ _
  | .meterCommit _ _ _ _ | .atomicRecordExpiry _ _ _ | .stepAbort _ _ | .livenessProbe _ | .peerSuspect _
  | .resyncComplete | .stageTimeout | .keyDataStage _ _ | .keyCommit _ | .keyActivate _
  | .keyClear _ | .linkCounterLimit _ _ _ | .spdmGetVersion _ | .spdmGetCapabilities _ | .spdmNegotiateAlgorithms _ _
  | .spdmGetDigests _ | .spdmChallenge _ _ _ | .spdmGetMeasurements _ _ _ | .spdmKeyExchange _ _ | .spdmFinish _ _ _
  | .spdmHeartbeat _ | .spdmEndSession _ | .porstNAssert | .mrstNAssert | .wrstNAssert | .resetPinRelease _
  | .rstCmdWarm _ | .rstCmdCold _ | .resetStretchExpiry | .mramPulseEnd | .portBlockReset _ _ | .hbmBlockReset _ _
  | .watchdogKick _ _ | .watchdogExpiry _ | .criticalEccError _ | .power48vGood _ | .power48vLost _
  | .auxPowerGood _ _ _ | .refclkLoss _ | .refclkReturn _ | .quadrantFreqWrite _ _ _ | .crossingTimeout _
  | .scoreDecay | .serdesScan _ _ _ _ | .hbmScan _ _ _ | .opticalScan _ _ _ _ | .knownAnswerTest _ _ _
  | .shadowThirdRun _ _ _ | .returnToService _ _ | .returnToServiceEnd _ | .clearSticky _ | .tollIntervalEnd
  | .patrolRead _ _ _ | .ethRegisterRead _ _ | .ethRegisterWrite _ _ | .arpRequest _ _ | .i3cRegisterWrite _
  | .i3cSetReadAddress _ | .i3cRegisterRead | .i3cDynamicAddress _ _ | .bar0Access _ _ _ _ _ | .lockSet _ _
  | .lockAll _ | .fenceTimeout _ | .secureRegisterAccess _ | .tapInstruction _ | .holderAnswer _ _ _ _
  | .stackRetrainComplete _ _ | .cxlRetrainDelayExpiry _ | .switchSlot => true

end Sys2Proof
end

