-- ==== Sys2Proof/Machine/Ops.lean ====
section
/-! DEFINITION. The named operations every family uses: sparse tables and byte memories in canonical form, time,
free values, outward messages, and small list and bit helpers. -/

namespace Sys2Proof

/-! ### Sparse tables: keys strictly rising -/

/-- The entry of a key, if listed. -/
def Tbl.look {α : Type} (t : Tbl α) (k : Nat) : Option α :=
  match t with
  | [] => none
  | (j, a) :: rest => if j = k then some a else Tbl.look rest k

/-- What a key reads as: its entry, or the default `d` of an unlisted key. -/
def Tbl.rd {α : Type} (d : α) (t : Tbl α) (k : Nat) : α := (t.look k).getD d

/-- The table with key `k` listed as `a`. -/
def Tbl.ins {α : Type} (k : Nat) (a : α) (t : Tbl α) : Tbl α :=
  match t with
  | [] => [(k, a)]
  | (j, b) :: rest =>
    if k < j then (k, a) :: (j, b) :: rest
    else if k = j then (k, a) :: rest
    else (j, b) :: Tbl.ins k a rest

/-- The table without key `k`. -/
def Tbl.del {α : Type} (k : Nat) (t : Tbl α) : Tbl α :=
  match t with
  | [] => []
  | (j, b) :: rest => if j = k then Tbl.del k rest else (j, b) :: Tbl.del k rest

/-- Write key `k` in the canonical form of default `d`: a value equal to the default is not listed. -/
def Tbl.put {α : Type} [DecidableEq α] (d : α) (k : Nat) (a : α) (t : Tbl α) : Tbl α :=
  if a = d then t.del k else t.ins k a

/-- Change key `k` by `f`, in the canonical form of default `d`. -/
def Tbl.upd {α : Type} [DecidableEq α] (d : α) (k : Nat) (f : α → α) (t : Tbl α) : Tbl α :=
  t.put d k (f (t.rd d k))

/-- Change the entry of a listed key; an unlisted key stays so. -/
def Tbl.alter {α : Type} (k : Nat) (f : α → α) (t : Tbl α) : Tbl α :=
  match t.look k with
  | some a => t.ins k (f a)
  | none => t

/-- Change every listed entry. -/
def Tbl.mapV {α : Type} (f : Nat → α → α) (t : Tbl α) : Tbl α :=
  List.map (fun p => (p.1, f p.1 p.2)) t

/-- The listed keys. -/
def Tbl.keys {α : Type} (t : Tbl α) : List Nat := List.map Prod.fst t

/-- The entries, without keys. -/
def Tbl.vals {α : Type} (t : Tbl α) : List α := List.map Prod.snd t

/-- The entries that satisfy `p`. -/
def Tbl.keep {α : Type} (p : Nat → α → Bool) (t : Tbl α) : Tbl α :=
  List.filter (fun e => p e.1 e.2) t

/-- Keys strictly rising. -/
def Tbl.sorted {α : Type} : Tbl α → Bool
  | [] => true
  | (k, _) :: rest => rest.all (fun e => decide (k < e.1)) && Tbl.sorted rest

/-- The canonical form of default `d`: keys strictly rising, no entry equal to the default. -/
def Tbl.canon {α : Type} [DecidableEq α] (d : α) (t : Tbl α) : Bool :=
  t.sorted && List.all t (fun e => decide (e.2 ≠ d))

/-! ### Lists and bits -/

/-- Change element `i` of a list by `f`; past the end, nothing changes. -/
def listMod {α : Type} (l : List α) (i : Nat) (f : α → α) : List α :=
  match l, i with
  | [], _ => []
  | a :: rest, 0 => f a :: rest
  | a :: rest, n + 1 => a :: listMod rest n f

/-- The list cut or filled up with `d` to `n` elements. -/
def listFit {α : Type} (d : α) (n : Nat) (l : List α) : List α :=
  match n, l with
  | 0, _ => []
  | n + 1, [] => d :: listFit d n []
  | n + 1, a :: rest => a :: listFit d n rest

/-- Add an element to a list without repeats. -/
def listAdd {α : Type} [DecidableEq α] (a : α) (l : List α) : List α := if a ∈ l then l else l ++ [a]

/-- Replace the first element that satisfies `p` by `f` of it. -/
def listUpd {α : Type} (p : α → Bool) (f : α → α) (l : List α) : List α :=
  match l with
  | [] => []
  | a :: rest => if p a then f a :: rest else a :: listUpd p f rest

/-- Drop the first element that satisfies `p`. -/
def listDrop1 {α : Type} (p : α → Bool) (l : List α) : List α :=
  match l with
  | [] => []
  | a :: rest => if p a then rest else a :: listDrop1 p rest

/-- Insert by key into a list sorted by key, behind equal keys. -/
def insOn {α : Type} (key : α → Nat) (a : α) (l : List α) : List α :=
  match l with
  | [] => [a]
  | b :: rest => if key a < key b then a :: b :: rest else b :: insOn key a rest

/-- A list sorted by key, equal keys in their order. -/
def sortOn {α : Type} (key : α → Nat) (l : List α) : List α := l.foldl (fun acc a => insOn key a acc) []

/-- The sum of a list. -/
def sumOf (l : List Nat) : Nat := l.foldl (· + ·) 0

/-- The numbers lo, lo + 1, … of a run of n. -/
def rangeFrom (lo n : Nat) : List Nat := (List.range n).map (lo + ·)

/-- Bits [hi:lo] of a number (R1). -/
def bits (w hi lo : Nat) : Nat := w / 2 ^ lo % 2 ^ (hi + 1 - lo)

/-- Bit `n` of a number (R1). -/
def bit (w n : Nat) : Bool := w / 2 ^ n % 2 = 1

/-- 1 for true. -/
def b2n (b : Bool) : Nat := if b then 1 else 0

/-- A little-endian number of a byte list (R1). -/
def leNat : List Byte → Nat
  | [] => 0
  | b :: rest => b.toNat + 256 * leNat rest

/-- `n` bytes of a number, least significant first (R1). -/
def leBytes : Nat → Nat → List Byte
  | 0, _ => []
  | n + 1, v => BitVec.ofNat 8 v :: leBytes n (v / 256)

/-- Bytes `off` to `off + n − 1` of a list as a little-endian number; bytes past the end read 0. -/
def leAt (l : List Byte) (off n : Nat) : Nat := leNat ((l.drop off).take n)

/-- A signed reading of the low `n` bits of `w`. -/
def sext (n w : Nat) : Int :=
  let v := w % 2 ^ n
  if v < 2 ^ (n - 1) then v else (v : Int) - (2 ^ n : Nat)

/-- A number raised by `d`, saturating at 2^32 − 1. -/
def sat32 (v d : Nat) : Nat := min (v + d) (2 ^ 32 - 1)

/-- Quotient rounded up. -/
def ceilDiv (a b : Nat) : Nat := (a + b - 1) / b

namespace Machine

/-! ### Byte memories: unlisted offsets read 0 -/

/-- One byte. -/
def Bytes.get (m : Bytes) (a : Nat) : Byte := Tbl.rd 0 m a

/-- `n` bytes from offset `a`. -/
def Bytes.rd (m : Bytes) (a n : Nat) : List Byte := (rangeFrom a n).map (fun k => Bytes.get m k)

/-- Write one byte. -/
def Bytes.set (m : Bytes) (a : Nat) (b : Byte) : Bytes := Tbl.put 0 a b m

/-- Write a byte list from offset `a`. -/
def Bytes.wr (m : Bytes) (a : Nat) : List Byte → Bytes
  | [] => m
  | b :: rest => Bytes.wr (Bytes.set m a b) (a + 1) rest

/-- The canonical form of a byte memory: offsets strictly rising, no listed byte 0. -/
def Memory.wf (m : Bytes) : Bool := Tbl.canon 0 m

/-! ### Outcomes, time, free values, outward messages -/

/-- The outcome of a command that leaves `t`. One whose operands no wire, register or record can carry reaches the module
as nothing at all: the state stays (log entry 137). -/
def checked (s : State) (i : Instr) (t : State) : Host.Outcome State Fault Refusal := .next (if i.wf then t else s)

/-- Time now, in nanoseconds since power-on reset (TIME_MONO, R149). -/
def State.now (s : State) : Nat := s.time.mono

/-- Something the module sends or drives outward. -/
def State.emit (s : State) (o : Out) : State := { s with out := s.out ++ [o] }

/-- Several, in order. -/
def State.emits (s : State) (l : List Out) : State := { s with out := s.out ++ l }

/-- A free number: what the spec leaves open (log entry 3). -/
def State.free (s : State) : Nat := Config.freeNat s.freeIdx

/-- The running number of free values advances with each use (log entry 3). -/
def State.tickFree (s : State) : State := { s with freeIdx := s.freeIdx + 1 }

/-- Change part of the state by folding over a list. -/
def foldS {α : Type} (f : State → α → State) (s : State) (l : List α) : State := l.foldl f s

/-- Do `f` where the condition holds, nothing otherwise. -/
def State.when (s : State) (c : Bool) (f : State → State) : State := if c then f s else s

end Machine

end Sys2Proof
end

