-- ==== Sys2Proof/Machine/Flags.lean ====
section
/-! DEFINITION. Status codes and detail codes (R8, R50, R87, R172, R311, R366, R456), and the flag bits of a completion
record (R47). -/

namespace Sys2Proof.Machine

/-! ### Status codes (R8) -/

namespace St

def ok : Nat := 0x00
def okShort : Nat := 0x01
def partialFail : Nat := 0x02
def conflict : Nat := 0x03
def revoked : Nat := 0x04
def stale : Nat := 0x05
def notReady : Nat := 0x06
def quota : Nat := 0x07
def denied : Nat := 0x08
def poisoned : Nat := 0x09
def timeout : Nat := 0x0A
def superseded : Nat := 0x0B
def malformed : Nat := 0x0C
def epoch : Nat := 0x0D
def fenced : Nat := 0x0E
def aborted : Nat := 0x0F
def late : Nat := 0x10

end St

/-- The outcome of an operation of a descriptor or request: status, detail and the two result words (R47, R48). -/
structure Res where
  status : Nat := 0
  detail : Nat := 0
  r0 : Nat := 0
  r1 : Nat := 0
  deriving DecidableEq, Repr

/-- Success. -/
def Res.ok : Res := {}

/-- A failure with its detail. -/
def Res.fail (status detail : Nat) : Res := { status := status, detail := detail }

/-- Only OK, OK_SHORT and LATE report success (R9). -/
def statusGood (st : Nat) : Bool := st = St.ok || st = St.okShort || st = St.late

/-- cpl.detail of a record: 0 when the status is OK (R47). -/
def detailOf (status detail : Nat) : Nat := if status = St.ok then 0 else detail

/-- The PARTIAL bitmap: bit b is set when any failed sub-part has a number congruent to b modulo 64 (R49). -/
def partialBitmap (failed : List Nat) : Nat :=
  (List.range 64).foldl (fun acc b => if failed.any (fun k => k % 64 = b) then acc + 2 ^ b else acc) 0

/-- Byte 10 of a completion record (R47). -/
def Cpl.flagByte (c : Cpl) : Nat :=
  b2n c.phase + 2 * b2n c.event + 4 * b2n c.replayed + 8 * b2n c.evtLost + 16 * b2n c.prior

/-- The 32 bytes of a completion record (R47). -/
def Cpl.bytes (c : Cpl) : List Byte :=
  leBytes 4 c.tag.toNat ++ leBytes 4 c.index.toNat ++ leBytes 1 c.status ++ leBytes 1 c.opcode ++
  leBytes 1 c.flagByte ++ leBytes 1 (c.pair % 8) ++ leBytes 2 c.detail ++ leBytes 2 (c.retries % 16) ++
  leBytes 8 c.r0.toNat ++ leBytes 8 c.r1.toNat

/-- PHASE of completion index `w` in a ring of `n` entries: 1 − (⌊w ÷ n⌋ mod 2) (R47). -/
def phaseOf (w n : Nat) : Bool := w / n % 2 = 0

end Sys2Proof.Machine
end

