-- ==== Sys2Proof/Machine/Regs.lean ====
section
/-! DEFINITION. The register space (R442): every register with its place, every field with its bits, access type,
reset value and reading rule, as the register tables of the chapters give them; the stored words; field access. -/

namespace Sys2Proof.Machine

/-- Access types (R7). -/
inductive Acc where
  | rw | ro | w1c | wo | rwl | rws
  deriving DecidableEq, Repr

/-- How a stored field reads and acts: as it is, zero as another value, a least value, bounds. -/
inductive Fix where
  | asIs
  | zeroIs (v : Nat)
  | atLeast (v : Nat)
  | zeroMax (zero most : Nat)
  | clamp (lo hi : Nat)
  deriving DecidableEq, Repr

/-- A register field. -/
structure Fld where
  hi : Nat
  lo : Nat
  acc : Acc
  reset : Nat
  fix : Fix
  deriving DecidableEq, Repr

/-- The registers, without their indices. -/
inductive Reg where
  | genId
  | genSerial
  | genCtl
  | genSts
  | genMgmtErr
  | genAlertSts
  | genAlertMask
  | genEthCtl
  | genScratch
  | rstCtl
  | rstCmd
  | rstBlkPort
  | rstBlkHbm
  | rstWdt
  | rstWdtKick
  | rstSts
  | rstCnt
  | clkCtl
  | clkSts
  | clkQCtl
  | clkQSts
  | clkXingCnt
  | pwrCtl
  | pwrSts
  | pwrQSts
  | pwrHbmTemp0
  | pwrHbmTemp1
  | pwrCnt
  | secCtl
  | secSts
  | secBlkWorld
  | secPortWorld
  | secHbmWorld
  | secShelfCmd
  | secKeySel
  | secKeyData
  | secKeyCmd
  | secKeySts
  | secPortEnc
  | secPortIde
  | secCnt
  | secPairWorld
  | tqCtl
  | tqSts
  | tqDbBase
  | tqDbDrop
  | tqDbErr
  | tqTenCtl
  | tqTenReset
  | tqTenSts
  | tqRingCtl
  | tqRingSqBase
  | tqRingCqBase
  | tqRingAidxAddr
  | tqRingNotifyAddr
  | tqRingSqPtrs
  | tqRingCqPtrs
  | tqRingSts
  | tqRingEvtLost
  | mapCtl
  | mapSts
  | mapTmo
  | mapCnt0
  | mapCnt1
  | rgnCtl
  | rgnSts
  | rgnShelfCmd
  | rgnShelfSts
  | rgnShelfSel
  | rgnShelfInfo
  | rgnTenShelves
  | rgnTenCtl
  | rgnTenUsedNear
  | rgnTenUsedTray
  | rgnTenUsedCellar
  | tierCtl
  | tierSts
  | tierTenCtl
  | tierTenSts
  | tierWinCtl
  | tierWinBase
  | tierWinStride
  | tierWinLead
  | tierWinSts
  | tierWinStalls
  | codecCtl
  | codecSts
  | codecCnt0
  | codecCnt1
  | codecCnt2
  | codecCnt3
  | codecSlotSts
  | codecSlotIdent
  | codecTenCtl
  | timeCtl
  | timeSts
  | timeMarkDrop
  | timeStepCtl
  | timeMono
  | timePtpNs
  | timePtpSts
  | timeGateSel
  | timeGateW0
  | timeGateW1
  | timeJobCtl
  | timeJobEst
  | timeJobPos
  | timeJobRef
  | timeJobSts
  | timeJobCnt0
  | timeJobCnt1
  | timeJobCnt2
  | slcCtl
  | slcSts
  | slcRcpSel
  | slcRcpSts
  | slcRcpIdent
  | slcCnt0
  | slcCnt1
  | slcTenCtl
  | slcSliceSts
  | swCtl
  | swRsqCtl
  | swSts
  | swCnt0
  | swCnt1
  | swCnt2
  | swMcastSel
  | swMcastInfo
  | swOutSts
  | schCtl
  | schClass
  | schShpSel
  | schShpCfg
  | schShpSts
  | schPortCtl
  | schTenCtl
  | schMtr0Ctl
  | schMtr0Rate
  | schMtr0Burst
  | schMtr1Ctl
  | schMtr1Rate
  | schMtr1Burst
  | schMtrCnt
  | ldgCtl
  | ldgSts
  | ldgMirrorCtl
  | ldgMirrorSts
  | ldgAtomCtl
  | ldgAtomSts
  | ldgCertCtl
  | ldgLiveCtl
  | ldgPeerSel
  | ldgPeerSts
  | ldgJobAbort
  | ldgCnt0
  | ldgCnt1
  | ldgCnt2
  | ldgTenCtl
  | hltCtl
  | hltThresh
  | hltScan
  | hltLim
  | hltSel
  | hltPart
  | hltMargin
  | hltRts
  | hltCnt0
  | hltCnt1
  | bbxCtl
  | bbxSts
  | bbxSel
  | bbxData
  | tollCtl
  | tollBuf
  | tollBufCfg
  | tollSts
  | portCtl
  | portSts
  | portHold
  | portVcnt
  | portEcnt
  | portEcnt2
  | portVlogIdx
  | portPhyCtl
  | portPhySts
  | portPhyCnt
  | portCmis
  | portEp
  | portVlogW0
  | portVlogW1
  | portVlogW2
  | portVlogW3
  | portSieveCtl
  | portSieveSts
  | portSieveCnt0
  | portSieveCnt1
  | portSieveCnt2
  | hbmCtl
  | hbmSts
  | hbmEcc
  | hbmErrAddr
  deriving DecidableEq, Repr

/-- The place of a register: the address of its first copy, the stride and number of the block, tenant, ring, slot or
port index, and the stride and number of the index within it. -/
structure Place where
  base : Nat
  s1 : Nat
  n1 : Nat
  s2 : Nat
  n2 : Nat
  deriving DecidableEq, Repr

/-- The places of the registers (R59, R89, R123, R148, R173, R224, R270, R307, R309, R333, R335, R367, R383, R402,
R419, R440, R448, R453). -/
def Reg.place : Reg → Place
  | .genId => ⟨0x0, 0x8, 1, 8, 1⟩
  | .genSerial => ⟨0x8, 0x8, 1, 8, 1⟩
  | .genCtl => ⟨0x10, 0x8, 1, 8, 1⟩
  | .genSts => ⟨0x18, 0x8, 1, 8, 1⟩
  | .genMgmtErr => ⟨0x20, 0x8, 1, 8, 1⟩
  | .genAlertSts => ⟨0x28, 0x8, 1, 8, 1⟩
  | .genAlertMask => ⟨0x30, 0x8, 1, 8, 1⟩
  | .genEthCtl => ⟨0x38, 0x8, 1, 8, 1⟩
  | .genScratch => ⟨0x40, 0x8, 1, 8, 1⟩
  | .rstCtl => ⟨0x100000, 0x8, 1, 8, 1⟩
  | .rstCmd => ⟨0x100008, 0x8, 1, 8, 1⟩
  | .rstBlkPort => ⟨0x100010, 0x8, 1, 8, 1⟩
  | .rstBlkHbm => ⟨0x100018, 0x8, 1, 8, 1⟩
  | .rstWdt => ⟨0x100020, 0x8, 1, 8, 1⟩
  | .rstWdtKick => ⟨0x100028, 0x8, 1, 8, 1⟩
  | .rstSts => ⟨0x100030, 0x8, 1, 8, 1⟩
  | .rstCnt => ⟨0x100038, 0x8, 1, 8, 1⟩
  | .clkCtl => ⟨0x200000, 0x8, 1, 8, 1⟩
  | .clkSts => ⟨0x200008, 0x8, 1, 8, 1⟩
  | .clkQCtl => ⟨0x200010, 0x8, 4, 8, 1⟩
  | .clkQSts => ⟨0x200030, 0x8, 4, 8, 1⟩
  | .clkXingCnt => ⟨0x200050, 0x8, 1, 8, 1⟩
  | .pwrCtl => ⟨0x300000, 0x8, 1, 8, 1⟩
  | .pwrSts => ⟨0x300008, 0x8, 1, 8, 1⟩
  | .pwrQSts => ⟨0x300010, 0x8, 4, 8, 1⟩
  | .pwrHbmTemp0 => ⟨0x300030, 0x8, 1, 8, 1⟩
  | .pwrHbmTemp1 => ⟨0x300038, 0x8, 1, 8, 1⟩
  | .pwrCnt => ⟨0x300040, 0x8, 1, 8, 1⟩
  | .secCtl => ⟨0x400000, 0x8, 1, 8, 1⟩
  | .secSts => ⟨0x400008, 0x8, 1, 8, 1⟩
  | .secBlkWorld => ⟨0x400010, 0x8, 1, 8, 1⟩
  | .secPortWorld => ⟨0x400018, 0x8, 1, 8, 1⟩
  | .secHbmWorld => ⟨0x400020, 0x8, 1, 8, 1⟩
  | .secShelfCmd => ⟨0x400028, 0x8, 1, 8, 1⟩
  | .secKeySel => ⟨0x400030, 0x8, 1, 8, 1⟩
  | .secKeyData => ⟨0x400038, 0x8, 1, 8, 1⟩
  | .secKeyCmd => ⟨0x400040, 0x8, 1, 8, 1⟩
  | .secKeySts => ⟨0x400048, 0x8, 1, 8, 1⟩
  | .secPortEnc => ⟨0x400050, 0x8, 1, 8, 1⟩
  | .secPortIde => ⟨0x400058, 0x8, 1, 8, 1⟩
  | .secCnt => ⟨0x400060, 0x8, 1, 8, 1⟩
  | .secPairWorld => ⟨0x400100, 0x8, 32, 8, 1⟩
  | .tqCtl => ⟨0x500000, 0x8, 1, 8, 1⟩
  | .tqSts => ⟨0x500008, 0x8, 1, 8, 1⟩
  | .tqDbBase => ⟨0x500010, 0x8, 1, 8, 1⟩
  | .tqDbDrop => ⟨0x500018, 0x8, 1, 8, 1⟩
  | .tqDbErr => ⟨0x500020, 0x8, 1, 8, 1⟩
  | .tqTenCtl => ⟨0x501000, 0x100, 256, 8, 1⟩
  | .tqTenReset => ⟨0x501008, 0x100, 256, 8, 1⟩
  | .tqTenSts => ⟨0x501010, 0x100, 256, 8, 1⟩
  | .tqRingCtl => ⟨0x520000, 0x80, 2048, 8, 1⟩
  | .tqRingSqBase => ⟨0x520008, 0x80, 2048, 8, 1⟩
  | .tqRingCqBase => ⟨0x520010, 0x80, 2048, 8, 1⟩
  | .tqRingAidxAddr => ⟨0x520018, 0x80, 2048, 8, 1⟩
  | .tqRingNotifyAddr => ⟨0x520020, 0x80, 2048, 8, 1⟩
  | .tqRingSqPtrs => ⟨0x520028, 0x80, 2048, 8, 1⟩
  | .tqRingCqPtrs => ⟨0x520030, 0x80, 2048, 8, 1⟩
  | .tqRingSts => ⟨0x520038, 0x80, 2048, 8, 1⟩
  | .tqRingEvtLost => ⟨0x520040, 0x80, 2048, 8, 1⟩
  | .mapCtl => ⟨0x600000, 0x8, 1, 8, 1⟩
  | .mapSts => ⟨0x600008, 0x8, 1, 8, 1⟩
  | .mapTmo => ⟨0x600010, 0x8, 1, 8, 1⟩
  | .mapCnt0 => ⟨0x600018, 0x8, 1, 8, 1⟩
  | .mapCnt1 => ⟨0x600020, 0x8, 1, 8, 1⟩
  | .rgnCtl => ⟨0x700000, 0x8, 1, 8, 1⟩
  | .rgnSts => ⟨0x700008, 0x8, 1, 8, 1⟩
  | .rgnShelfCmd => ⟨0x700010, 0x8, 1, 8, 1⟩
  | .rgnShelfSts => ⟨0x700018, 0x8, 1, 8, 1⟩
  | .rgnShelfSel => ⟨0x700020, 0x8, 1, 8, 1⟩
  | .rgnShelfInfo => ⟨0x700028, 0x8, 1, 8, 1⟩
  | .rgnTenShelves => ⟨0x701000, 0x40, 256, 8, 1⟩
  | .rgnTenCtl => ⟨0x701008, 0x40, 256, 8, 1⟩
  | .rgnTenUsedNear => ⟨0x701010, 0x40, 256, 8, 1⟩
  | .rgnTenUsedTray => ⟨0x701018, 0x40, 256, 8, 1⟩
  | .rgnTenUsedCellar => ⟨0x701020, 0x40, 256, 8, 1⟩
  | .tierCtl => ⟨0x800000, 0x8, 1, 8, 1⟩
  | .tierSts => ⟨0x800008, 0x8, 1, 8, 1⟩
  | .tierTenCtl => ⟨0x801000, 0x40, 256, 8, 1⟩
  | .tierTenSts => ⟨0x801008, 0x40, 256, 8, 1⟩
  | .tierWinCtl => ⟨0x820000, 0x40, 16, 8, 1⟩
  | .tierWinBase => ⟨0x820008, 0x40, 16, 8, 1⟩
  | .tierWinStride => ⟨0x820010, 0x40, 16, 8, 1⟩
  | .tierWinLead => ⟨0x820018, 0x40, 16, 8, 1⟩
  | .tierWinSts => ⟨0x820020, 0x40, 16, 8, 1⟩
  | .tierWinStalls => ⟨0x820028, 0x40, 16, 8, 1⟩
  | .codecCtl => ⟨0x900000, 0x8, 1, 8, 1⟩
  | .codecSts => ⟨0x900008, 0x8, 1, 8, 1⟩
  | .codecCnt0 => ⟨0x900010, 0x8, 1, 8, 1⟩
  | .codecCnt1 => ⟨0x900018, 0x8, 1, 8, 1⟩
  | .codecCnt2 => ⟨0x900020, 0x8, 1, 8, 1⟩
  | .codecCnt3 => ⟨0x900028, 0x8, 1, 8, 1⟩
  | .codecSlotSts => ⟨0x901000, 0x10, 16, 8, 1⟩
  | .codecSlotIdent => ⟨0x901008, 0x10, 16, 8, 1⟩
  | .codecTenCtl => ⟨0x902000, 0x8, 256, 8, 1⟩
  | .timeCtl => ⟨0xA00000, 0x8, 1, 8, 1⟩
  | .timeSts => ⟨0xA00008, 0x8, 1, 8, 1⟩
  | .timeMarkDrop => ⟨0xA00010, 0x8, 1, 8, 1⟩
  | .timeStepCtl => ⟨0xA00018, 0x8, 1, 8, 1⟩
  | .timeMono => ⟨0xA00020, 0x8, 1, 8, 1⟩
  | .timePtpNs => ⟨0xA00028, 0x8, 1, 8, 1⟩
  | .timePtpSts => ⟨0xA00030, 0x8, 1, 8, 1⟩
  | .timeGateSel => ⟨0xA00038, 0x8, 1, 8, 1⟩
  | .timeGateW0 => ⟨0xA00040, 0x8, 1, 8, 1⟩
  | .timeGateW1 => ⟨0xA00048, 0x8, 1, 8, 1⟩
  | .timeJobCtl => ⟨0xA01000, 0x40, 64, 8, 1⟩
  | .timeJobEst => ⟨0xA01008, 0x40, 64, 8, 1⟩
  | .timeJobPos => ⟨0xA01010, 0x40, 64, 8, 1⟩
  | .timeJobRef => ⟨0xA01018, 0x40, 64, 8, 1⟩
  | .timeJobSts => ⟨0xA01020, 0x40, 64, 8, 1⟩
  | .timeJobCnt0 => ⟨0xA01028, 0x40, 64, 8, 1⟩
  | .timeJobCnt1 => ⟨0xA01030, 0x40, 64, 8, 1⟩
  | .timeJobCnt2 => ⟨0xA01038, 0x40, 64, 8, 1⟩
  | .slcCtl => ⟨0xB00000, 0x8, 1, 8, 1⟩
  | .slcSts => ⟨0xB00008, 0x8, 1, 8, 1⟩
  | .slcRcpSel => ⟨0xB00010, 0x8, 1, 8, 1⟩
  | .slcRcpSts => ⟨0xB00018, 0x8, 1, 8, 1⟩
  | .slcRcpIdent => ⟨0xB00020, 0x8, 1, 8, 1⟩
  | .slcCnt0 => ⟨0xB00028, 0x8, 1, 8, 1⟩
  | .slcCnt1 => ⟨0xB00030, 0x8, 1, 8, 1⟩
  | .slcTenCtl => ⟨0xB01000, 0x8, 256, 8, 1⟩
  | .slcSliceSts => ⟨0xB02000, 0x8, 32, 8, 1⟩
  | .swCtl => ⟨0xC00000, 0x8, 1, 8, 1⟩
  | .swRsqCtl => ⟨0xC00008, 0x8, 1, 8, 1⟩
  | .swSts => ⟨0xC00010, 0x8, 1, 8, 1⟩
  | .swCnt0 => ⟨0xC00018, 0x8, 1, 8, 1⟩
  | .swCnt1 => ⟨0xC00020, 0x8, 1, 8, 1⟩
  | .swCnt2 => ⟨0xC00028, 0x8, 1, 8, 1⟩
  | .swMcastSel => ⟨0xC00030, 0x8, 1, 8, 1⟩
  | .swMcastInfo => ⟨0xC00038, 0x8, 1, 8, 1⟩
  | .swOutSts => ⟨0xC01000, 0x8, 64, 8, 1⟩
  | .schCtl => ⟨0xD00000, 0x8, 1, 8, 1⟩
  | .schClass => ⟨0xD00008, 0x8, 8, 8, 1⟩
  | .schShpSel => ⟨0xD00048, 0x8, 1, 8, 1⟩
  | .schShpCfg => ⟨0xD00050, 0x8, 1, 8, 1⟩
  | .schShpSts => ⟨0xD00058, 0x8, 1, 8, 1⟩
  | .schPortCtl => ⟨0xD00800, 0x8, 64, 8, 1⟩
  | .schTenCtl => ⟨0xD01000, 0x40, 256, 8, 1⟩
  | .schMtr0Ctl => ⟨0xD01008, 0x40, 256, 8, 1⟩
  | .schMtr0Rate => ⟨0xD01010, 0x40, 256, 8, 1⟩
  | .schMtr0Burst => ⟨0xD01018, 0x40, 256, 8, 1⟩
  | .schMtr1Ctl => ⟨0xD01020, 0x40, 256, 8, 1⟩
  | .schMtr1Rate => ⟨0xD01028, 0x40, 256, 8, 1⟩
  | .schMtr1Burst => ⟨0xD01030, 0x40, 256, 8, 1⟩
  | .schMtrCnt => ⟨0xD01038, 0x40, 256, 8, 1⟩
  | .ldgCtl => ⟨0xE00000, 0x8, 1, 8, 1⟩
  | .ldgSts => ⟨0xE00008, 0x8, 1, 8, 1⟩
  | .ldgMirrorCtl => ⟨0xE00010, 0x8, 1, 8, 1⟩
  | .ldgMirrorSts => ⟨0xE00018, 0x8, 1, 8, 1⟩
  | .ldgAtomCtl => ⟨0xE00020, 0x8, 1, 8, 1⟩
  | .ldgAtomSts => ⟨0xE00028, 0x8, 1, 8, 1⟩
  | .ldgCertCtl => ⟨0xE00030, 0x8, 1, 8, 1⟩
  | .ldgLiveCtl => ⟨0xE00038, 0x8, 1, 8, 1⟩
  | .ldgPeerSel => ⟨0xE00040, 0x8, 1, 8, 1⟩
  | .ldgPeerSts => ⟨0xE00048, 0x8, 1, 8, 1⟩
  | .ldgJobAbort => ⟨0xE00050, 0x8, 1, 8, 1⟩
  | .ldgCnt0 => ⟨0xE00058, 0x8, 1, 8, 1⟩
  | .ldgCnt1 => ⟨0xE00060, 0x8, 1, 8, 1⟩
  | .ldgCnt2 => ⟨0xE00068, 0x8, 1, 8, 1⟩
  | .ldgTenCtl => ⟨0xE01000, 0x8, 256, 8, 1⟩
  | .hltCtl => ⟨0xF00000, 0x8, 1, 8, 1⟩
  | .hltThresh => ⟨0xF00008, 0x8, 1, 8, 1⟩
  | .hltScan => ⟨0xF00010, 0x8, 1, 8, 1⟩
  | .hltLim => ⟨0xF00018, 0x8, 1, 8, 1⟩
  | .hltSel => ⟨0xF00020, 0x8, 1, 8, 1⟩
  | .hltPart => ⟨0xF00028, 0x8, 1, 8, 1⟩
  | .hltMargin => ⟨0xF00030, 0x8, 1, 8, 1⟩
  | .hltRts => ⟨0xF00038, 0x8, 1, 8, 1⟩
  | .hltCnt0 => ⟨0xF00040, 0x8, 1, 8, 1⟩
  | .hltCnt1 => ⟨0xF00048, 0x8, 1, 8, 1⟩
  | .bbxCtl => ⟨0x1000000, 0x8, 1, 8, 1⟩
  | .bbxSts => ⟨0x1000008, 0x8, 1, 8, 1⟩
  | .bbxSel => ⟨0x1000010, 0x8, 1, 8, 1⟩
  | .bbxData => ⟨0x1000100, 0x8, 32, 8, 1⟩
  | .tollCtl => ⟨0x1100000, 0x8, 1, 8, 1⟩
  | .tollBuf => ⟨0x1100008, 0x8, 1, 8, 1⟩
  | .tollBufCfg => ⟨0x1100010, 0x8, 1, 8, 1⟩
  | .tollSts => ⟨0x1100018, 0x8, 1, 8, 1⟩
  | .portCtl => ⟨0x1200000, 0x10000, 64, 8, 1⟩
  | .portSts => ⟨0x1200008, 0x10000, 64, 8, 1⟩
  | .portHold => ⟨0x1200010, 0x10000, 64, 8, 1⟩
  | .portVcnt => ⟨0x1200018, 0x10000, 64, 8, 1⟩
  | .portEcnt => ⟨0x1200020, 0x10000, 64, 8, 1⟩
  | .portEcnt2 => ⟨0x1200028, 0x10000, 64, 8, 1⟩
  | .portVlogIdx => ⟨0x1200030, 0x10000, 64, 8, 1⟩
  | .portPhyCtl => ⟨0x1200040, 0x10000, 64, 8, 1⟩
  | .portPhySts => ⟨0x1200048, 0x10000, 64, 8, 1⟩
  | .portPhyCnt => ⟨0x1200050, 0x10000, 64, 8, 1⟩
  | .portCmis => ⟨0x1200058, 0x10000, 64, 8, 1⟩
  | .portEp => ⟨0x1200100, 0x10000, 64, 8, 16⟩
  | .portVlogW0 => ⟨0x1201000, 0x10000, 64, 32, 64⟩
  | .portVlogW1 => ⟨0x1201008, 0x10000, 64, 32, 64⟩
  | .portVlogW2 => ⟨0x1201010, 0x10000, 64, 32, 64⟩
  | .portVlogW3 => ⟨0x1201018, 0x10000, 64, 32, 64⟩
  | .portSieveCtl => ⟨0x120A000, 0x10000, 64, 8, 1⟩
  | .portSieveSts => ⟨0x120A008, 0x10000, 64, 8, 1⟩
  | .portSieveCnt0 => ⟨0x120A010, 0x10000, 64, 8, 1⟩
  | .portSieveCnt1 => ⟨0x120A018, 0x10000, 64, 8, 1⟩
  | .portSieveCnt2 => ⟨0x120A020, 0x10000, 64, 8, 1⟩
  | .hbmCtl => ⟨0x1600000, 0x10000, 12, 8, 1⟩
  | .hbmSts => ⟨0x1600008, 0x10000, 12, 8, 1⟩
  | .hbmEcc => ⟨0x1600010, 0x10000, 12, 8, 1⟩
  | .hbmErrAddr => ⟨0x1600018, 0x10000, 12, 8, 1⟩

/-- The fields of the registers (R60, R90, R124, R149, R174, R225, R271, R308, R310, R334, R336, R368, R384, R403,
R420, R441, R449, R453). -/
def Reg.flds : Reg → List Fld
  | .genId => [⟨11, 0, .ro, 1131, .asIs⟩, ⟨27, 12, .ro, 0x9400, .asIs⟩, ⟨31, 28, .ro, 0, .asIs⟩]
  | .genSerial => [⟨63, 0, .ro, 0, .asIs⟩]
  | .genCtl => [⟨0, 0, .rw, 0, .asIs⟩, ⟨1, 1, .wo, 0, .asIs⟩]
  | .genSts => [⟨3, 0, .ro, 0, .asIs⟩, ⟨4, 4, .w1c, 0, .asIs⟩]
  | .genMgmtErr => [⟨2, 0, .ro, 0, .asIs⟩, ⟨6, 4, .ro, 0, .asIs⟩, ⟨23, 8, .ro, 0, .asIs⟩, ⟨59, 32, .ro, 0, .asIs⟩]
  | .genAlertSts => [⟨11, 0, .w1c, 0, .asIs⟩]
  | .genAlertMask => [⟨11, 0, .rw, 0, .asIs⟩]
  | .genEthCtl => [⟨0, 0, .rwl, 0, .asIs⟩, ⟨63, 32, .rwl, 0, .asIs⟩]
  | .genScratch => [⟨63, 0, .rw, 0, .asIs⟩]
  | .rstCtl => [⟨0, 0, .rw, 0, .asIs⟩, ⟨31, 16, .rwl, 20, .atLeast 20⟩, ⟨47, 32, .rwl, 60, .asIs⟩, ⟨48, 48, .rwl, 1, .asIs⟩]
  | .rstCmd => [⟨0, 0, .wo, 0, .asIs⟩, ⟨1, 1, .wo, 0, .asIs⟩]
  | .rstBlkPort => [⟨63, 0, .rw, 0, .asIs⟩]
  | .rstBlkHbm => [⟨11, 0, .rw, 0, .asIs⟩]
  | .rstWdt => [⟨0, 0, .rwl, 0, .asIs⟩, ⟨1, 1, .rwl, 1, .asIs⟩, ⟨31, 16, .rwl, 1000, .zeroIs 1000⟩]
  | .rstWdtKick => [⟨15, 0, .wo, 0, .asIs⟩]
  | .rstSts => [⟨7, 0, .ro, 0, .asIs⟩, ⟨15, 8, .ro, 0, .asIs⟩, ⟨16, 16, .ro, 0, .asIs⟩, ⟨23, 20, .ro, 0, .asIs⟩, ⟨27, 24, .ro, 0, .asIs⟩]
  | .rstCnt => [⟨15, 0, .ro, 0, .asIs⟩, ⟨31, 16, .ro, 0, .asIs⟩, ⟨47, 32, .ro, 0, .asIs⟩, ⟨63, 48, .ro, 0, .asIs⟩]
  | .clkCtl => [⟨0, 0, .rw, 0, .asIs⟩, ⟨2, 1, .rwl, 0, .asIs⟩]
  | .clkSts => [⟨0, 0, .ro, 0, .asIs⟩, ⟨1, 1, .ro, 0, .asIs⟩, ⟨2, 2, .ro, 0, .asIs⟩, ⟨3, 3, .ro, 0, .asIs⟩, ⟨4, 4, .w1c, 0, .asIs⟩, ⟨47, 32, .ro, 0, .asIs⟩]
  | .clkQCtl => [⟨11, 0, .rwl, 1800, .asIs⟩]
  | .clkQSts => [⟨11, 0, .ro, 0, .asIs⟩, ⟨12, 12, .w1c, 0, .asIs⟩, ⟨13, 13, .ro, 0, .asIs⟩, ⟨18, 16, .ro, 0, .asIs⟩]
  | .clkXingCnt => [⟨31, 0, .rw, 0, .asIs⟩, ⟨63, 32, .rw, 0, .asIs⟩]
  | .pwrCtl => [⟨0, 0, .rw, 0, .asIs⟩, ⟨27, 16, .rwl, 1600, .clamp 800 1600⟩, ⟨39, 32, .rwl, 100, .asIs⟩, ⟨47, 40, .rwl, 85, .asIs⟩]
  | .pwrSts => [⟨15, 0, .ro, 0, .asIs⟩, ⟨28, 16, .ro, 0, .asIs⟩, ⟨29, 29, .ro, 0, .asIs⟩, ⟨34, 32, .ro, 0, .asIs⟩, ⟨35, 35, .w1c, 0, .asIs⟩, ⟨47, 36, .ro, 0, .asIs⟩, ⟨48, 48, .ro, 0, .asIs⟩]
  | .pwrQSts => [⟨11, 0, .ro, 0, .asIs⟩, ⟨23, 16, .ro, 0, .asIs⟩]
  | .pwrHbmTemp0 => [⟨7, 0, .ro, 0, .asIs⟩, ⟨15, 8, .ro, 0, .asIs⟩, ⟨23, 16, .ro, 0, .asIs⟩, ⟨31, 24, .ro, 0, .asIs⟩, ⟨39, 32, .ro, 0, .asIs⟩, ⟨47, 40, .ro, 0, .asIs⟩, ⟨55, 48, .ro, 0, .asIs⟩, ⟨63, 56, .ro, 0, .asIs⟩]
  | .pwrHbmTemp1 => [⟨7, 0, .ro, 0, .asIs⟩, ⟨15, 8, .ro, 0, .asIs⟩, ⟨23, 16, .ro, 0, .asIs⟩, ⟨31, 24, .ro, 0, .asIs⟩]
  | .pwrCnt => [⟨31, 0, .rw, 0, .asIs⟩, ⟨63, 32, .rw, 0, .asIs⟩]
  | .secCtl => [⟨0, 0, .rws, 0, .asIs⟩]
  | .secSts => [⟨0, 0, .ro, 0, .asIs⟩, ⟨1, 1, .ro, 0, .asIs⟩, ⟨2, 2, .w1c, 0, .asIs⟩, ⟨3, 3, .w1c, 0, .asIs⟩, ⟨4, 4, .ro, 0, .asIs⟩, ⟨47, 32, .ro, 0, .asIs⟩]
  | .secBlkWorld => [⟨17, 0, .rws, 16, .asIs⟩]
  | .secPortWorld => [⟨63, 0, .rws, 0, .asIs⟩]
  | .secHbmWorld => [⟨11, 0, .rws, 0, .asIs⟩]
  | .secShelfCmd => [⟨1, 0, .rws, 0, .asIs⟩, ⟨2, 2, .rws, 0, .asIs⟩, ⟨35, 16, .rws, 0, .asIs⟩]
  | .secKeySel => [⟨1, 0, .rws, 0, .asIs⟩, ⟨13, 8, .rws, 0, .asIs⟩, ⟨16, 16, .rws, 0, .asIs⟩, ⟨31, 24, .rws, 0, .asIs⟩, ⟨63, 32, .rws, 0, .asIs⟩]
  | .secKeyData => [⟨63, 0, .rws, 0, .asIs⟩]
  | .secKeyCmd => [⟨0, 0, .wo, 0, .asIs⟩, ⟨1, 1, .wo, 0, .asIs⟩, ⟨2, 2, .wo, 0, .asIs⟩]
  | .secKeySts => [⟨0, 0, .ro, 0, .asIs⟩, ⟨7, 4, .ro, 0, .asIs⟩, ⟨63, 32, .ro, 0, .asIs⟩]
  | .secPortEnc => [⟨63, 0, .rws, 0, .asIs⟩]
  | .secPortIde => [⟨63, 0, .rws, 0, .asIs⟩]
  | .secCnt => [⟨31, 0, .rw, 0, .asIs⟩, ⟨63, 32, .rw, 0, .asIs⟩]
  | .secPairWorld => [⟨63, 0, .rws, 0, .asIs⟩]
  | .tqCtl => [⟨0, 0, .rw, 0, .asIs⟩, ⟨7, 4, .rwl, 3, .zeroIs 3⟩]
  | .tqSts => [⟨11, 0, .ro, 0, .asIs⟩, ⟨16, 16, .ro, 0, .asIs⟩]
  | .tqDbBase => [⟨63, 20, .rwl, 0, .asIs⟩]
  | .tqDbDrop => [⟨31, 0, .rw, 0, .asIs⟩]
  | .tqDbErr => [⟨31, 0, .rw, 0, .asIs⟩]
  | .tqTenCtl => [⟨0, 0, .rw, 0, .asIs⟩, ⟨1, 1, .rw, 0, .asIs⟩, ⟨4, 2, .rw, 0, .asIs⟩, ⟨28, 16, .rw, 0x1000, .zeroMax 4096 4096⟩, ⟨63, 32, .rw, 0x2710, .asIs⟩]
  | .tqTenReset => [⟨0, 0, .wo, 0, .asIs⟩]
  | .tqTenSts => [⟨0, 0, .ro, 0, .asIs⟩, ⟨15, 8, .ro, 0, .asIs⟩, ⟨63, 32, .ro, 0, .asIs⟩]
  | .tqRingCtl => [⟨0, 0, .rw, 0, .asIs⟩, ⟨11, 8, .rw, 6, .asIs⟩, ⟨15, 12, .rw, 6, .asIs⟩, ⟨16, 16, .wo, 0, .asIs⟩]
  | .tqRingSqBase => [⟨63, 0, .rw, 0, .asIs⟩]
  | .tqRingCqBase => [⟨63, 0, .rw, 0, .asIs⟩]
  | .tqRingAidxAddr => [⟨63, 0, .rw, 0, .asIs⟩]
  | .tqRingNotifyAddr => [⟨63, 0, .rw, 0, .asIs⟩]
  | .tqRingSqPtrs => [⟨31, 0, .ro, 0, .asIs⟩, ⟨63, 32, .ro, 0, .asIs⟩]
  | .tqRingCqPtrs => [⟨31, 0, .ro, 0, .asIs⟩, ⟨63, 32, .ro, 0, .asIs⟩]
  | .tqRingSts => [⟨0, 0, .ro, 0, .asIs⟩, ⟨1, 1, .ro, 0, .asIs⟩, ⟨15, 8, .ro, 0, .asIs⟩, ⟨48, 32, .ro, 0, .asIs⟩]
  | .tqRingEvtLost => [⟨31, 0, .rw, 0, .asIs⟩]
  | .mapCtl => [⟨0, 0, .rw, 0, .asIs⟩, ⟨1, 1, .rwl, 0, .asIs⟩, ⟨27, 16, .rwl, 0, .asIs⟩, ⟨35, 32, .rwl, 8, .zeroIs 8⟩]
  | .mapSts => [⟨31, 0, .ro, 0, .asIs⟩, ⟨32, 32, .ro, 0, .asIs⟩, ⟨49, 33, .ro, 0, .asIs⟩]
  | .mapTmo => [⟨7, 0, .rwl, 2, .zeroIs 2⟩, ⟨23, 8, .rwl, 50, .zeroIs 50⟩, ⟨39, 24, .rwl, 1000, .zeroIs 1000⟩]
  | .mapCnt0 => [⟨31, 0, .rw, 0, .asIs⟩, ⟨63, 32, .rw, 0, .asIs⟩]
  | .mapCnt1 => [⟨31, 0, .rw, 0, .asIs⟩, ⟨63, 32, .rw, 0, .asIs⟩]
  | .rgnCtl => [⟨0, 0, .rw, 0, .asIs⟩, ⟨31, 16, .rwl, 100, .zeroIs 100⟩]
  | .rgnSts => [⟨19, 0, .ro, 0, .asIs⟩, ⟨20, 20, .w1c, 0, .asIs⟩, ⟨46, 22, .ro, 0, .asIs⟩]
  | .rgnShelfCmd => [⟨3, 0, .wo, 0, .asIs⟩, ⟨5, 4, .wo, 0, .asIs⟩, ⟨6, 6, .wo, 0, .asIs⟩, ⟨7, 7, .wo, 0, .asIs⟩, ⟨15, 8, .wo, 0, .asIs⟩, ⟨33, 16, .wo, 0, .asIs⟩]
  | .rgnShelfSts => [⟨0, 0, .ro, 0, .asIs⟩, ⟨7, 4, .ro, 0, .asIs⟩]
  | .rgnShelfSel => [⟨1, 0, .rw, 0, .asIs⟩, ⟨19, 2, .rw, 0, .asIs⟩]
  | .rgnShelfInfo => [⟨2, 0, .ro, 0, .asIs⟩, ⟨3, 3, .ro, 0, .asIs⟩, ⟨15, 8, .ro, 0, .asIs⟩, ⟨47, 16, .ro, 0, .asIs⟩]
  | .rgnTenShelves => [⟨10, 0, .ro, 0, .asIs⟩, ⟨31, 15, .ro, 0, .asIs⟩, ⟨50, 32, .ro, 0, .asIs⟩]
  | .rgnTenCtl => [⟨0, 0, .rw, 0, .asIs⟩, ⟨31, 12, .rw, 0x1000, .zeroIs 4096⟩]
  | .rgnTenUsedNear => [⟨31, 0, .ro, 0, .asIs⟩]
  | .rgnTenUsedTray => [⟨31, 0, .ro, 0, .asIs⟩]
  | .rgnTenUsedCellar => [⟨31, 0, .ro, 0, .asIs⟩]
  | .tierCtl => [⟨0, 0, .rw, 0, .asIs⟩, ⟨31, 16, .rwl, 1000, .zeroIs 1000⟩, ⟨47, 32, .rwl, 100, .zeroIs 100⟩, ⟨63, 48, .rwl, 60, .zeroIs 60⟩]
  | .tierSts => [⟨23, 0, .ro, 0, .asIs⟩, ⟨47, 24, .ro, 0, .asIs⟩]
  | .tierTenCtl => [⟨1, 0, .rw, 0, .asIs⟩, ⟨3, 2, .rw, 2, .asIs⟩, ⟨6, 4, .rw, 0, .asIs⟩, ⟨23, 8, .rw, 2, .zeroIs 2⟩, ⟨31, 24, .rw, 90, .asIs⟩, ⟨39, 32, .rw, 80, .asIs⟩]
  | .tierTenSts => [⟨31, 0, .rw, 0, .asIs⟩, ⟨63, 32, .rw, 0, .asIs⟩]
  | .tierWinCtl => [⟨0, 0, .rw, 0, .asIs⟩, ⟨3, 1, .ro, 0, .asIs⟩, ⟨6, 4, .rw, 0, .asIs⟩, ⟨31, 8, .rw, 0, .asIs⟩, ⟨47, 32, .rw, 0, .asIs⟩, ⟨55, 48, .rw, 0, .asIs⟩, ⟨63, 56, .rw, 0, .asIs⟩]
  | .tierWinBase => [⟨55, 0, .rw, 0, .asIs⟩]
  | .tierWinStride => [⟨55, 0, .rw, 0, .asIs⟩]
  | .tierWinLead => [⟨7, 0, .rw, 2, .asIs⟩, ⟨15, 8, .rw, 1, .asIs⟩, ⟨23, 16, .rw, 8, .asIs⟩, ⟨31, 24, .ro, 0, .asIs⟩, ⟨39, 32, .ro, 0, .asIs⟩, ⟨63, 52, .rw, 0, .asIs⟩]
  | .tierWinSts => [⟨31, 0, .rw, 0, .asIs⟩, ⟨63, 32, .rw, 0, .asIs⟩]
  | .tierWinStalls => [⟨31, 0, .rw, 0, .asIs⟩, ⟨63, 32, .rw, 0, .asIs⟩]
  | .codecCtl => [⟨0, 0, .rw, 0, .asIs⟩]
  | .codecSts => [⟨4, 0, .ro, 0, .asIs⟩]
  | .codecCnt0 => [⟨31, 0, .rw, 0, .asIs⟩, ⟨63, 32, .rw, 0, .asIs⟩]
  | .codecCnt1 => [⟨31, 0, .rw, 0, .asIs⟩, ⟨63, 32, .rw, 0, .asIs⟩]
  | .codecCnt2 => [⟨31, 0, .rw, 0, .asIs⟩, ⟨63, 32, .rw, 0, .asIs⟩]
  | .codecCnt3 => [⟨31, 0, .rw, 0, .asIs⟩]
  | .codecSlotSts => [⟨1, 0, .ro, 0, .asIs⟩, ⟨15, 8, .ro, 0, .asIs⟩, ⟨23, 16, .ro, 0, .asIs⟩, ⟨28, 24, .ro, 0, .asIs⟩, ⟨63, 32, .ro, 0, .asIs⟩]
  | .codecSlotIdent => [⟨31, 0, .ro, 0, .asIs⟩]
  | .codecTenCtl => [⟨4, 0, .rwl, 2, .asIs⟩, ⟨12, 8, .ro, 0, .asIs⟩]
  | .timeCtl => [⟨0, 0, .rw, 0, .asIs⟩]
  | .timeSts => [⟨6, 0, .ro, 0, .asIs⟩, ⟨8, 8, .w1c, 0, .asIs⟩, ⟨15, 12, .ro, 0, .asIs⟩]
  | .timeMarkDrop => [⟨31, 0, .rw, 0, .asIs⟩]
  | .timeStepCtl => [⟨0, 0, .rwl, 0, .asIs⟩, ⟨13, 8, .rwl, 0, .asIs⟩, ⟨16, 16, .w1c, 0, .asIs⟩, ⟨63, 32, .rw, 0, .asIs⟩]
  | .timeMono => [⟨63, 0, .ro, 0, .asIs⟩]
  | .timePtpNs => [⟨63, 0, .ro, 0, .asIs⟩]
  | .timePtpSts => [⟨1, 0, .ro, 0, .asIs⟩, ⟨2, 2, .rwl, 0, .asIs⟩, ⟨63, 32, .ro, 0, .asIs⟩]
  | .timeGateSel => [⟨5, 0, .rw, 0, .asIs⟩, ⟨25, 16, .rw, 0, .asIs⟩, ⟨31, 31, .rw, 0, .asIs⟩]
  | .timeGateW0 => [⟨63, 0, .rw, 0, .asIs⟩]
  | .timeGateW1 => [⟨63, 0, .rw, 0, .asIs⟩]
  | .timeJobCtl => [⟨0, 0, .rw, 0, .asIs⟩, ⟨1, 1, .rw, 1, .asIs⟩, ⟨5, 2, .rw, 3, .asIs⟩, ⟨11, 8, .rw, 0, .asIs⟩, ⟨23, 12, .rw, 0, .asIs⟩, ⟨31, 24, .rw, 0, .asIs⟩, ⟨47, 32, .rw, 0xFFFF, .asIs⟩, ⟨50, 48, .ro, 0, .asIs⟩]
  | .timeJobEst => [⟨31, 0, .rw, 0xF4240, .asIs⟩, ⟨47, 32, .rw, 200, .zeroIs 200⟩, ⟨59, 48, .rw, 128, .asIs⟩]
  | .timeJobPos => [⟨31, 0, .rw, 0, .asIs⟩, ⟨43, 32, .rw, 0, .asIs⟩, ⟨47, 44, .rw, 0, .asIs⟩]
  | .timeJobRef => [⟨63, 0, .ro, 0, .asIs⟩]
  | .timeJobSts => [⟨0, 0, .w1c, 0, .asIs⟩, ⟨26, 16, .ro, 0, .asIs⟩]
  | .timeJobCnt0 => [⟨31, 0, .rw, 0, .asIs⟩, ⟨63, 32, .rw, 0, .asIs⟩]
  | .timeJobCnt1 => [⟨31, 0, .rw, 0, .asIs⟩, ⟨63, 32, .rw, 0, .asIs⟩]
  | .timeJobCnt2 => [⟨31, 0, .rw, 0, .asIs⟩]
  | .slcCtl => [⟨0, 0, .rw, 0, .asIs⟩, ⟨31, 16, .rwl, 1000, .zeroIs 1000⟩, ⟨63, 32, .rwl, 0xF4240, .zeroIs 1000000⟩]
  | .slcSts => [⟨31, 0, .ro, 0, .asIs⟩, ⟨44, 32, .ro, 0, .asIs⟩]
  | .slcRcpSel => [⟨7, 0, .rw, 0, .asIs⟩]
  | .slcRcpSts => [⟨1, 0, .ro, 0, .asIs⟩, ⟨15, 8, .ro, 0, .asIs⟩, ⟨22, 16, .ro, 0, .asIs⟩, ⟨63, 32, .ro, 0, .asIs⟩]
  | .slcRcpIdent => [⟨31, 0, .ro, 0, .asIs⟩]
  | .slcCnt0 => [⟨31, 0, .rw, 0, .asIs⟩, ⟨63, 32, .rw, 0, .asIs⟩]
  | .slcCnt1 => [⟨31, 0, .rw, 0, .asIs⟩, ⟨63, 32, .rw, 0, .asIs⟩]
  | .slcTenCtl => [⟨7, 0, .rwl, 8, .asIs⟩, ⟨23, 16, .ro, 0, .asIs⟩]
  | .slcSliceSts => [⟨1, 0, .ro, 0, .asIs⟩, ⟨13, 8, .ro, 0, .asIs⟩, ⟨23, 16, .ro, 0, .asIs⟩]
  | .swCtl => [⟨0, 0, .rw, 0, .asIs⟩, ⟨6, 4, .rwl, 4, .asIs⟩, ⟨31, 16, .rwl, 2000, .zeroIs 2000⟩, ⟨47, 32, .rwl, 0x1000, .atLeast 1024⟩]
  | .swRsqCtl => [⟨15, 0, .rwl, 10, .zeroIs 10⟩, ⟨31, 16, .rwl, 1024, .zeroIs 1024⟩]
  | .swSts => [⟨19, 0, .ro, 0xC0000, .asIs⟩, ⟨31, 24, .ro, 0, .asIs⟩]
  | .swCnt0 => [⟨31, 0, .rw, 0, .asIs⟩, ⟨63, 32, .rw, 0, .asIs⟩]
  | .swCnt1 => [⟨31, 0, .rw, 0, .asIs⟩, ⟨63, 32, .rw, 0, .asIs⟩]
  | .swCnt2 => [⟨31, 0, .rw, 0, .asIs⟩, ⟨63, 32, .rw, 0, .asIs⟩]
  | .swMcastSel => [⟨11, 0, .rw, 0, .asIs⟩]
  | .swMcastInfo => [⟨0, 0, .ro, 0, .asIs⟩, ⟨1, 1, .ro, 0, .asIs⟩, ⟨14, 8, .ro, 0, .asIs⟩, ⟨23, 16, .ro, 0, .asIs⟩]
  | .swOutSts => [⟨19, 0, .ro, 0, .asIs⟩, ⟨20, 20, .ro, 0, .asIs⟩, ⟨46, 32, .ro, 0, .asIs⟩]
  | .schCtl => [⟨0, 0, .rw, 0, .asIs⟩, ⟨14, 8, .rwl, 5, .zeroIs 5⟩]
  | .schClass => [⟨7, 0, .rwl, 0, .zeroIs 1⟩]
  | .schShpSel => [⟨5, 0, .rw, 0, .asIs⟩, ⟨15, 8, .rw, 0, .asIs⟩, ⟨17, 16, .rw, 0, .asIs⟩]
  | .schShpCfg => [⟨31, 0, .rw, 0, .asIs⟩, ⟨55, 32, .rw, 0, .asIs⟩, ⟨56, 56, .rw, 0, .asIs⟩, ⟨57, 57, .wo, 0, .asIs⟩]
  | .schShpSts => [⟨31, 0, .ro, 0, .asIs⟩]
  | .schPortCtl => [⟨7, 0, .rwl, 16, .asIs⟩]
  | .schTenCtl => [⟨2, 0, .rw, 0, .asIs⟩, ⟨6, 4, .rw, 0, .asIs⟩, ⟨10, 8, .rw, 0, .asIs⟩]
  | .schMtr0Ctl => [⟨1, 0, .rw, 0, .asIs⟩, ⟨2, 2, .wo, 0, .asIs⟩]
  | .schMtr0Rate => [⟨31, 0, .rw, 0, .asIs⟩, ⟨63, 32, .rw, 0, .asIs⟩]
  | .schMtr0Burst => [⟨31, 0, .rw, 0, .asIs⟩, ⟨63, 32, .rw, 0, .asIs⟩]
  | .schMtr1Ctl => [⟨1, 0, .rw, 0, .asIs⟩, ⟨2, 2, .wo, 0, .asIs⟩]
  | .schMtr1Rate => [⟨31, 0, .rw, 0, .asIs⟩, ⟨63, 32, .rw, 0, .asIs⟩]
  | .schMtr1Burst => [⟨31, 0, .rw, 0, .asIs⟩, ⟨63, 32, .rw, 0, .asIs⟩]
  | .schMtrCnt => [⟨31, 0, .rw, 0, .asIs⟩, ⟨63, 32, .rw, 0, .asIs⟩]
  | .ldgCtl => [⟨0, 0, .rw, 0, .asIs⟩, ⟨31, 16, .rwl, 1000, .zeroIs 1000⟩]
  | .ldgSts => [⟨20, 0, .ro, 0, .asIs⟩, ⟨25, 24, .ro, 0, .asIs⟩, ⟨26, 26, .ro, 0, .asIs⟩, ⟨27, 27, .w1c, 0, .asIs⟩, ⟨28, 28, .ro, 0, .asIs⟩, ⟨29, 29, .ro, 0, .asIs⟩, ⟨63, 32, .ro, 0, .asIs⟩]
  | .ldgMirrorCtl => [⟨0, 0, .rwl, 0, .asIs⟩]
  | .ldgMirrorSts => [⟨11, 0, .ro, 0, .asIs⟩, ⟨12, 12, .ro, 0, .asIs⟩, ⟨47, 16, .ro, 0, .asIs⟩]
  | .ldgAtomCtl => [⟨9, 0, .rwl, 10, .zeroMax 10 1000⟩]
  | .ldgAtomSts => [⟨20, 0, .ro, 0, .asIs⟩, ⟨63, 32, .rw, 0, .asIs⟩]
  | .ldgCertCtl => [⟨2, 0, .rws, 0, .asIs⟩, ⟨6, 4, .rws, 0, .asIs⟩, ⟨63, 32, .rws, 0, .asIs⟩]
  | .ldgLiveCtl => [⟨15, 0, .rwl, 10, .zeroIs 10⟩, ⟨31, 16, .rwl, 100, .zeroIs 100⟩]
  | .ldgPeerSel => [⟨11, 0, .rw, 0, .asIs⟩]
  | .ldgPeerSts => [⟨1, 0, .ro, 0, .asIs⟩, ⟨63, 32, .ro, 0, .asIs⟩]
  | .ldgJobAbort => [⟨15, 0, .wo, 0, .asIs⟩, ⟨23, 16, .wo, 0, .asIs⟩, ⟨31, 31, .wo, 0, .asIs⟩]
  | .ldgCnt0 => [⟨31, 0, .rw, 0, .asIs⟩, ⟨63, 32, .rw, 0, .asIs⟩]
  | .ldgCnt1 => [⟨31, 0, .rw, 0, .asIs⟩, ⟨63, 32, .rw, 0, .asIs⟩]
  | .ldgCnt2 => [⟨31, 0, .rw, 0, .asIs⟩, ⟨63, 32, .rw, 0, .asIs⟩]
  | .ldgTenCtl => [⟨0, 0, .rw, 0, .asIs⟩]
  | .hltCtl => [⟨0, 0, .rw, 0, .asIs⟩, ⟨2, 1, .rwl, 2, .asIs⟩, ⟨31, 16, .rwl, 0x1000, .asIs⟩, ⟨63, 32, .rwl, 3600, .zeroIs 3600⟩]
  | .hltThresh => [⟨15, 0, .rwl, 100, .asIs⟩, ⟨31, 16, .rwl, 1000, .asIs⟩]
  | .hltScan => [⟨15, 0, .rwl, 60, .asIs⟩, ⟨31, 16, .rwl, 600, .asIs⟩, ⟨47, 32, .rwl, 10, .asIs⟩]
  | .hltLim => [⟨7, 0, .rwl, 12, .asIs⟩, ⟨17, 8, .rwl, 100, .asIs⟩, ⟨31, 24, .rwl, 15, .asIs⟩]
  | .hltSel => [⟨2, 0, .rw, 0, .asIs⟩, ⟨15, 8, .rw, 0, .asIs⟩, ⟨20, 16, .rw, 0, .asIs⟩]
  | .hltPart => [⟨15, 0, .ro, 0, .asIs⟩, ⟨17, 16, .ro, 0, .asIs⟩, ⟨47, 32, .ro, 0, .asIs⟩]
  | .hltMargin => [⟨7, 0, .ro, 0, .asIs⟩, ⟨17, 8, .ro, 0, .asIs⟩, ⟨31, 24, .ro, 0, .asIs⟩, ⟨63, 32, .ro, 0, .asIs⟩]
  | .hltRts => [⟨2, 0, .wo, 0, .asIs⟩, ⟨15, 8, .wo, 0, .asIs⟩, ⟨31, 31, .wo, 0, .asIs⟩, ⟨32, 32, .ro, 0, .asIs⟩, ⟨39, 36, .ro, 0, .asIs⟩]
  | .hltCnt0 => [⟨31, 0, .rw, 0, .asIs⟩, ⟨63, 32, .rw, 0, .asIs⟩]
  | .hltCnt1 => [⟨31, 0, .rw, 0, .asIs⟩, ⟨63, 32, .rw, 0, .asIs⟩]
  | .bbxCtl => [⟨0, 0, .rw, 0, .asIs⟩, ⟨1, 1, .wo, 0, .asIs⟩]
  | .bbxSts => [⟨31, 0, .ro, 0, .asIs⟩, ⟨39, 32, .rw, 0, .asIs⟩, ⟨47, 40, .rw, 0, .asIs⟩, ⟨55, 48, .rw, 0, .asIs⟩]
  | .bbxSel => [⟨0, 0, .rw, 0, .asIs⟩, ⟨24, 8, .rw, 0, .asIs⟩]
  | .bbxData => [⟨63, 0, .ro, 0, .asIs⟩]
  | .tollCtl => [⟨0, 0, .rw, 0, .asIs⟩, ⟨1, 1, .rwl, 0, .asIs⟩, ⟨31, 16, .rwl, 1000, .clamp 100 60000⟩]
  | .tollBuf => [⟨63, 0, .rwl, 0, .asIs⟩]
  | .tollBufCfg => [⟨3, 0, .rwl, 4, .asIs⟩]
  | .tollSts => [⟨31, 0, .ro, 0, .asIs⟩, ⟨63, 32, .rw, 0, .asIs⟩]
  | .portCtl => [⟨0, 0, .rw, 0, .asIs⟩, ⟨2, 1, .rwl, 3, .asIs⟩, ⟨3, 3, .rwl, 0, .asIs⟩, ⟨47, 32, .rwl, 1024, .zeroIs 1024⟩]
  | .portSts => [⟨2, 0, .ro, 0, .asIs⟩, ⟨5, 4, .ro, 3, .asIs⟩, ⟨9, 8, .ro, 0, .asIs⟩]
  | .portHold => [⟨0, 0, .wo, 0, .asIs⟩, ⟨1, 1, .wo, 0, .asIs⟩]
  | .portVcnt => [⟨31, 0, .ro, 0, .asIs⟩, ⟨63, 32, .rw, 0, .asIs⟩]
  | .portEcnt => [⟨31, 0, .rw, 0, .asIs⟩, ⟨63, 32, .rw, 0, .asIs⟩]
  | .portEcnt2 => [⟨31, 0, .rw, 0, .asIs⟩, ⟨63, 32, .rw, 0, .asIs⟩]
  | .portVlogIdx => [⟨5, 0, .ro, 0, .asIs⟩, ⟨8, 8, .w1c, 0, .asIs⟩]
  | .portPhyCtl => [⟨1, 0, .rwl, 0, .asIs⟩, ⟨15, 8, .rwl, 0, .asIs⟩, ⟨23, 16, .rwl, 0, .asIs⟩, ⟨24, 24, .rwl, 0, .asIs⟩]
  | .portPhySts => [⟨7, 0, .ro, 0, .asIs⟩, ⟨8, 8, .ro, 0, .asIs⟩]
  | .portPhyCnt => [⟨31, 0, .rw, 0, .asIs⟩, ⟨63, 32, .rw, 0, .asIs⟩]
  | .portCmis => [⟨0, 0, .rw, 0, .asIs⟩, ⟨1, 1, .ro, 0, .asIs⟩, ⟨14, 8, .rw, 0, .asIs⟩, ⟨18, 16, .rw, 0, .asIs⟩]
  | .portEp => [⟨0, 0, .rw, 0, .asIs⟩, ⟨1, 1, .rws, 0, .asIs⟩, ⟨15, 8, .rw, 0, .asIs⟩, ⟨31, 16, .rw, 0, .asIs⟩]
  | .portVlogW0 => [⟨63, 0, .ro, 0, .asIs⟩]
  | .portVlogW1 => [⟨63, 0, .ro, 0, .asIs⟩]
  | .portVlogW2 => [⟨63, 0, .ro, 0, .asIs⟩]
  | .portVlogW3 => [⟨63, 0, .ro, 0, .asIs⟩]
  | .portSieveCtl => [⟨0, 0, .rw, 0, .asIs⟩]
  | .portSieveSts => [⟨4, 0, .ro, 0, .asIs⟩]
  | .portSieveCnt0 => [⟨63, 0, .rw, 0, .asIs⟩]
  | .portSieveCnt1 => [⟨63, 0, .rw, 0, .asIs⟩]
  | .portSieveCnt2 => [⟨31, 0, .rw, 0, .asIs⟩]
  | .hbmCtl => [⟨0, 0, .rw, 0, .asIs⟩, ⟨15, 8, .rwl, 24, .asIs⟩]
  | .hbmSts => [⟨1, 0, .ro, 0, .asIs⟩, ⟨63, 32, .ro, 0, .asIs⟩]
  | .hbmEcc => [⟨31, 0, .rw, 0, .asIs⟩, ⟨63, 32, .rw, 0, .asIs⟩]
  | .hbmErrAddr => [⟨36, 0, .ro, 0, .asIs⟩, ⟨63, 63, .w1c, 0, .asIs⟩]

/-- Every register. -/
def Reg.all : List Reg :=
  List.flatten [
    [.genId, .genSerial, .genCtl, .genSts, .genMgmtErr, .genAlertSts, .genAlertMask, .genEthCtl],
    [.genScratch, .rstCtl, .rstCmd, .rstBlkPort, .rstBlkHbm, .rstWdt, .rstWdtKick, .rstSts],
    [.rstCnt, .clkCtl, .clkSts, .clkQCtl, .clkQSts, .clkXingCnt, .pwrCtl, .pwrSts],
    [.pwrQSts, .pwrHbmTemp0, .pwrHbmTemp1, .pwrCnt, .secCtl, .secSts, .secBlkWorld, .secPortWorld],
    [.secHbmWorld, .secShelfCmd, .secKeySel, .secKeyData, .secKeyCmd, .secKeySts, .secPortEnc, .secPortIde],
    [.secCnt, .secPairWorld, .tqCtl, .tqSts, .tqDbBase, .tqDbDrop, .tqDbErr, .tqTenCtl],
    [.tqTenReset, .tqTenSts, .tqRingCtl, .tqRingSqBase, .tqRingCqBase, .tqRingAidxAddr, .tqRingNotifyAddr, .tqRingSqPtrs],
    [.tqRingCqPtrs, .tqRingSts, .tqRingEvtLost, .mapCtl, .mapSts, .mapTmo, .mapCnt0, .mapCnt1],
    [.rgnCtl, .rgnSts, .rgnShelfCmd, .rgnShelfSts, .rgnShelfSel, .rgnShelfInfo, .rgnTenShelves, .rgnTenCtl],
    [.rgnTenUsedNear, .rgnTenUsedTray, .rgnTenUsedCellar, .tierCtl, .tierSts, .tierTenCtl, .tierTenSts, .tierWinCtl],
    [.tierWinBase, .tierWinStride, .tierWinLead, .tierWinSts, .tierWinStalls, .codecCtl, .codecSts, .codecCnt0],
    [.codecCnt1, .codecCnt2, .codecCnt3, .codecSlotSts, .codecSlotIdent, .codecTenCtl, .timeCtl, .timeSts],
    [.timeMarkDrop, .timeStepCtl, .timeMono, .timePtpNs, .timePtpSts, .timeGateSel, .timeGateW0, .timeGateW1],
    [.timeJobCtl, .timeJobEst, .timeJobPos, .timeJobRef, .timeJobSts, .timeJobCnt0, .timeJobCnt1, .timeJobCnt2],
    [.slcCtl, .slcSts, .slcRcpSel, .slcRcpSts, .slcRcpIdent, .slcCnt0, .slcCnt1, .slcTenCtl],
    [.slcSliceSts, .swCtl, .swRsqCtl, .swSts, .swCnt0, .swCnt1, .swCnt2, .swMcastSel],
    [.swMcastInfo, .swOutSts, .schCtl, .schClass, .schShpSel, .schShpCfg, .schShpSts, .schPortCtl],
    [.schTenCtl, .schMtr0Ctl, .schMtr0Rate, .schMtr0Burst, .schMtr1Ctl, .schMtr1Rate, .schMtr1Burst, .schMtrCnt],
    [.ldgCtl, .ldgSts, .ldgMirrorCtl, .ldgMirrorSts, .ldgAtomCtl, .ldgAtomSts, .ldgCertCtl, .ldgLiveCtl],
    [.ldgPeerSel, .ldgPeerSts, .ldgJobAbort, .ldgCnt0, .ldgCnt1, .ldgCnt2, .ldgTenCtl, .hltCtl],
    [.hltThresh, .hltScan, .hltLim, .hltSel, .hltPart, .hltMargin, .hltRts, .hltCnt0],
    [.hltCnt1, .bbxCtl, .bbxSts, .bbxSel, .bbxData, .tollCtl, .tollBuf, .tollBufCfg],
    [.tollSts, .portCtl, .portSts, .portHold, .portVcnt, .portEcnt, .portEcnt2, .portVlogIdx],
    [.portPhyCtl, .portPhySts, .portPhyCnt, .portCmis, .portEp, .portVlogW0, .portVlogW1, .portVlogW2],
    [.portVlogW3, .portSieveCtl, .portSieveSts, .portSieveCnt0, .portSieveCnt1, .portSieveCnt2, .hbmCtl, .hbmSts],
    [.hbmEcc, .hbmErrAddr]]

/-! ### Stored words and fields -/

/-- A register with its two indices. -/
structure Loc where
  reg : Reg
  i : Nat := 0
  j : Nat := 0
  deriving DecidableEq, Repr

/-- The byte address of a register (R442). -/
def Loc.addr (l : Loc) : Nat := l.reg.place.base + l.i * l.reg.place.s1 + l.j * l.reg.place.s2

/-- The indices at which a place covers an address. -/
def Place.at? (p : Place) (a : Nat) : Option (Nat × Nat) :=
  if a < p.base then none
  else
    let o := a - p.base
    let i := o / p.s1
    let r := o % p.s1
    if i < p.n1 ∧ r % p.s2 = 0 ∧ r / p.s2 < p.n2 then some (i, r / p.s2) else none

/-- The register at an address among a list of registers. -/
def locateIn (rs : List Reg) (a : Nat) : Option Loc :=
  match rs with
  | [] => none
  | r :: rest =>
    match r.place.at? a with
    | some (i, j) => some ⟨r, i, j⟩
    | none => locateIn rest a

/-- The register at an address; none where no register table defines one (R442). -/
def locate (a : Nat) : Option Loc := locateIn Reg.all a

/-- The word of a register after reset; SCH_CLASS_k.WEIGHT resets to k + 1 (R336). -/
def Loc.resetWord (l : Loc) : Nat :=
  match l.reg with
  | .schClass => l.i + 1
  | r => r.flds.foldl (fun w f => w + f.reset * 2 ^ f.lo) 0

/-- The stored word of a register. -/
def State.word (s : State) (l : Loc) : Nat :=
  match s.regs.look l.addr with
  | some w => w.toNat
  | none => l.resetWord

/-- Store a word in a register, keeping the register table canonical. -/
def State.setWord (s : State) (l : Loc) (w : Nat) : State :=
  { s with regs := Tbl.put (BitVec.ofNat 64 l.resetWord) l.addr (BitVec.ofNat 64 w) s.regs }

/-- Replace bits [hi:lo] of a word. -/
def insBits (w hi lo v : Nat) : Nat :=
  w - bits w hi lo * 2 ^ lo + v % 2 ^ (hi + 1 - lo) * 2 ^ lo

/-- What a stored field reads and acts as. -/
def Fix.read (f : Fix) (v : Nat) : Nat :=
  match f with
  | .asIs => v
  | .zeroIs d => if v = 0 then d else v
  | .atLeast d => max d v
  | .zeroMax d m => if v = 0 then d else min v m
  | .clamp lo hi => max lo (min v hi)

/-- A named field of a register. -/
structure FRef where
  reg : Reg
  hi : Nat
  lo : Nat
  fix : Fix
  deriving DecidableEq, Repr

/-- The value a field acts as. -/
def State.fld (s : State) (f : FRef) (i : Nat := 0) (j : Nat := 0) : Nat :=
  f.fix.read (bits (s.word ⟨f.reg, i, j⟩) f.hi f.lo)

/-- A one-bit field. -/
def State.flag (s : State) (f : FRef) (i : Nat := 0) (j : Nat := 0) : Bool := s.fld f i j = 1

/-- Set a field. -/
def State.setFld (s : State) (f : FRef) (v : Nat) (i : Nat := 0) (j : Nat := 0) : State :=
  s.setWord ⟨f.reg, i, j⟩ (insBits (s.word ⟨f.reg, i, j⟩) f.hi f.lo v)

/-- Raise a saturating count. -/
def State.bump (s : State) (f : FRef) (i : Nat := 0) (j : Nat := 0) (d : Nat := 1) : State :=
  s.setFld f (min (bits (s.word ⟨f.reg, i, j⟩) f.hi f.lo + d) (2 ^ (f.hi + 1 - f.lo) - 1)) i j

/-! ### The fields the meanings read and write, by name -/

namespace F

/-- BBX_CTL.LOCK (R420). -/
def bbxCtlLock : FRef := ⟨.bbxCtl, 0, 0, .asIs⟩
/-- BBX_SEL.AREA (R420). -/
def bbxSelArea : FRef := ⟨.bbxSel, 0, 0, .asIs⟩
/-- BBX_SEL.SLOT (R420). -/
def bbxSelSlot : FRef := ⟨.bbxSel, 24, 8, .asIs⟩
/-- BBX_STS.DROPPED (R420). -/
def bbxStsDropped : FRef := ⟨.bbxSts, 39, 32, .asIs⟩
/-- BBX_STS.REPAIRED (R420). -/
def bbxStsRepaired : FRef := ⟨.bbxSts, 47, 40, .asIs⟩
/-- BBX_STS.VOID (R420). -/
def bbxStsVoid : FRef := ⟨.bbxSts, 55, 48, .asIs⟩
/-- CLK_CTL.REF_SEL (R403). -/
def clkCtlRefSel : FRef := ⟨.clkCtl, 2, 1, .asIs⟩
/-- CLK_Q_CTL.FREQ_MHZ (R403). -/
def clkQCtlFreqMhz : FRef := ⟨.clkQCtl, 11, 0, .asIs⟩
/-- CLK_Q_STS.XING_TMO (R403). -/
def clkQStsXingTmo : FRef := ⟨.clkQSts, 12, 12, .asIs⟩
/-- CLK_STS.SET_REFUSED (R403). -/
def clkStsSetRefused : FRef := ⟨.clkSts, 4, 4, .asIs⟩
/-- CLK_XING_CNT.TMO (R403). -/
def clkXingCntTmo : FRef := ⟨.clkXingCnt, 63, 32, .asIs⟩
/-- CODEC_CNT0.NAN_BLOCKS (R174). -/
def codecCnt0NanBlocks : FRef := ⟨.codecCnt0, 63, 32, .asIs⟩
/-- CODEC_CNT0.RAW_PAGES (R174). -/
def codecCnt0RawPages : FRef := ⟨.codecCnt0, 31, 0, .asIs⟩
/-- CODEC_CNT1.POISON_LONG (R174). -/
def codecCnt1PoisonLong : FRef := ⟨.codecCnt1, 31, 0, .asIs⟩
/-- CODEC_CNT1.POISON_SHORT (R174). -/
def codecCnt1PoisonShort : FRef := ⟨.codecCnt1, 63, 32, .asIs⟩
/-- CODEC_CNT2.POISON_CRC (R174). -/
def codecCnt2PoisonCrc : FRef := ⟨.codecCnt2, 63, 32, .asIs⟩
/-- CODEC_CNT2.POISON_STREAM (R174). -/
def codecCnt2PoisonStream : FRef := ⟨.codecCnt2, 31, 0, .asIs⟩
/-- CODEC_CNT3.IDENT_MISMATCH (R174). -/
def codecCnt3IdentMismatch : FRef := ⟨.codecCnt3, 31, 0, .asIs⟩
/-- CODEC_CTL.LOCK (R174). -/
def codecCtlLock : FRef := ⟨.codecCtl, 0, 0, .asIs⟩
/-- CODEC_TEN_CTL.MAX_SLOTS (R174). -/
def codecTenCtlMaxSlots : FRef := ⟨.codecTenCtl, 4, 0, .asIs⟩
/-- GEN_ALERT_MASK.MASK (R449). -/
def genAlertMaskMask : FRef := ⟨.genAlertMask, 11, 0, .asIs⟩
/-- GEN_CTL.LOCK (R449). -/
def genCtlLock : FRef := ⟨.genCtl, 0, 0, .asIs⟩
/-- GEN_ETH_CTL.ENABLE (R449). -/
def genEthCtlEnable : FRef := ⟨.genEthCtl, 0, 0, .asIs⟩
/-- GEN_ETH_CTL.IP (R449). -/
def genEthCtlIp : FRef := ⟨.genEthCtl, 63, 32, .asIs⟩
/-- HBM_CTL.LOCK (R453). -/
def hbmCtlLock : FRef := ⟨.hbmCtl, 0, 0, .asIs⟩
/-- HBM_CTL.PATROL_H (R453). -/
def hbmCtlPatrolH : FRef := ⟨.hbmCtl, 15, 8, .asIs⟩
/-- HBM_ECC.CORR (R453). -/
def hbmEccCorr : FRef := ⟨.hbmEcc, 31, 0, .asIs⟩
/-- HBM_ECC.UNCORR (R453). -/
def hbmEccUncorr : FRef := ⟨.hbmEcc, 63, 32, .asIs⟩
/-- HLT_CNT0.MISMATCHES (R420). -/
def hltCnt0Mismatches : FRef := ⟨.hltCnt0, 63, 32, .asIs⟩
/-- HLT_CNT0.SHADOWS (R420). -/
def hltCnt0Shadows : FRef := ⟨.hltCnt0, 31, 0, .asIs⟩
/-- HLT_CNT1.KAT_FAILS (R420). -/
def hltCnt1KatFails : FRef := ⟨.hltCnt1, 63, 32, .asIs⟩
/-- HLT_CNT1.KAT_RUNS (R420). -/
def hltCnt1KatRuns : FRef := ⟨.hltCnt1, 31, 0, .asIs⟩
/-- HLT_CTL.HALF_LIFE_S (R420). -/
def hltCtlHalfLifeS : FRef := ⟨.hltCtl, 63, 32, .zeroIs 3600⟩
/-- HLT_CTL.LOCK (R420). -/
def hltCtlLock : FRef := ⟨.hltCtl, 0, 0, .asIs⟩
/-- HLT_CTL.MODE (R420). -/
def hltCtlMode : FRef := ⟨.hltCtl, 2, 1, .asIs⟩
/-- HLT_CTL.SHADOW_RATE (R420). -/
def hltCtlShadowRate : FRef := ⟨.hltCtl, 31, 16, .asIs⟩
/-- HLT_LIM.EYE_MUI (R420). -/
def hltLimEyeMui : FRef := ⟨.hltLim, 17, 8, .asIs⟩
/-- HLT_LIM.EYE_MV (R420). -/
def hltLimEyeMv : FRef := ⟨.hltLim, 7, 0, .asIs⟩
/-- HLT_LIM.HBM_PCT (R420). -/
def hltLimHbmPct : FRef := ⟨.hltLim, 31, 24, .asIs⟩
/-- HLT_SCAN.HBM_S (R420). -/
def hltScanHbmS : FRef := ⟨.hltScan, 31, 16, .asIs⟩
/-- HLT_SCAN.OPT_S (R420). -/
def hltScanOptS : FRef := ⟨.hltScan, 47, 32, .asIs⟩
/-- HLT_SCAN.SERDES_S (R420). -/
def hltScanSerdesS : FRef := ⟨.hltScan, 15, 0, .asIs⟩
/-- HLT_SEL.CLASS (R420). -/
def hltSelClass : FRef := ⟨.hltSel, 2, 0, .asIs⟩
/-- HLT_SEL.INDEX (R420). -/
def hltSelIndex : FRef := ⟨.hltSel, 15, 8, .asIs⟩
/-- HLT_SEL.UNIT (R420). -/
def hltSelUnit : FRef := ⟨.hltSel, 20, 16, .asIs⟩
/-- HLT_THRESH.ACT (R420). -/
def hltThreshAct : FRef := ⟨.hltThresh, 31, 16, .asIs⟩
/-- HLT_THRESH.WARN (R420). -/
def hltThreshWarn : FRef := ⟨.hltThresh, 15, 0, .asIs⟩
/-- LDG_ATOM_CTL.RETAIN_MS (R368). -/
def ldgAtomCtlRetainMs : FRef := ⟨.ldgAtomCtl, 9, 0, .zeroMax 10 1000⟩
/-- LDG_ATOM_STS.EARLY (R368). -/
def ldgAtomStsEarly : FRef := ⟨.ldgAtomSts, 63, 32, .asIs⟩
/-- LDG_CERT_CTL.FABRIC (R368). -/
def ldgCertCtlFabric : FRef := ⟨.ldgCertCtl, 63, 32, .asIs⟩
/-- LDG_CERT_CTL.K (R368). -/
def ldgCertCtlK : FRef := ⟨.ldgCertCtl, 2, 0, .asIs⟩
/-- LDG_CERT_CTL.N (R368). -/
def ldgCertCtlN : FRef := ⟨.ldgCertCtl, 6, 4, .asIs⟩
/-- LDG_CNT0.REPLAYED (R368). -/
def ldgCnt0Replayed : FRef := ⟨.ldgCnt0, 31, 0, .asIs⟩
/-- LDG_CNT0.STALE (R368). -/
def ldgCnt0Stale : FRef := ⟨.ldgCnt0, 63, 32, .asIs⟩
/-- LDG_CNT1.LATE (R368). -/
def ldgCnt1Late : FRef := ⟨.ldgCnt1, 63, 32, .asIs⟩
/-- LDG_CNT1.SUPERSEDED (R368). -/
def ldgCnt1Superseded : FRef := ⟨.ldgCnt1, 31, 0, .asIs⟩
/-- LDG_CNT2.CERT_BAD (R368). -/
def ldgCnt2CertBad : FRef := ⟨.ldgCnt2, 31, 0, .asIs⟩
/-- LDG_CNT2.STEP_ABORTS (R368). -/
def ldgCnt2StepAborts : FRef := ⟨.ldgCnt2, 63, 32, .asIs⟩
/-- LDG_CTL.LOCK (R368). -/
def ldgCtlLock : FRef := ⟨.ldgCtl, 0, 0, .asIs⟩
/-- LDG_CTL.WORK_HOLD_MS (R368). -/
def ldgCtlWorkHoldMs : FRef := ⟨.ldgCtl, 31, 16, .zeroIs 1000⟩
/-- LDG_LIVE_CTL.PERIOD_US (R368). -/
def ldgLiveCtlPeriodUs : FRef := ⟨.ldgLiveCtl, 15, 0, .zeroIs 10⟩
/-- LDG_LIVE_CTL.TMO_US (R368). -/
def ldgLiveCtlTmoUs : FRef := ⟨.ldgLiveCtl, 31, 16, .zeroIs 100⟩
/-- LDG_MIRROR_CTL.ENABLE (R368). -/
def ldgMirrorCtlEnable : FRef := ⟨.ldgMirrorCtl, 0, 0, .asIs⟩
/-- LDG_PEER_SEL.MODULE (R368). -/
def ldgPeerSelModule : FRef := ⟨.ldgPeerSel, 11, 0, .asIs⟩
/-- LDG_TEN_CTL.AUTO_ABORT (R368). -/
def ldgTenCtlAutoAbort : FRef := ⟨.ldgTenCtl, 0, 0, .asIs⟩
/-- MAP_CNT0.DRAINS (R310). -/
def mapCnt0Drains : FRef := ⟨.mapCnt0, 63, 32, .asIs⟩
/-- MAP_CNT0.RESENDS (R310). -/
def mapCnt0Resends : FRef := ⟨.mapCnt0, 31, 0, .asIs⟩
/-- MAP_CNT1.HOP_DROPS (R310). -/
def mapCnt1HopDrops : FRef := ⟨.mapCnt1, 31, 0, .asIs⟩
/-- MAP_CNT1.LATE (R310). -/
def mapCnt1Late : FRef := ⟨.mapCnt1, 63, 32, .asIs⟩
/-- MAP_CTL.HOP_LIMIT (R310). -/
def mapCtlHopLimit : FRef := ⟨.mapCtl, 35, 32, .zeroIs 8⟩
/-- MAP_CTL.ID_VALID (R310). -/
def mapCtlIdValid : FRef := ⟨.mapCtl, 1, 1, .asIs⟩
/-- MAP_CTL.LOCK (R310). -/
def mapCtlLock : FRef := ⟨.mapCtl, 0, 0, .asIs⟩
/-- MAP_CTL.MODULE_ID (R310). -/
def mapCtlModuleId : FRef := ⟨.mapCtl, 27, 16, .asIs⟩
/-- MAP_TMO.ACK_US (R310). -/
def mapTmoAckUs : FRef := ⟨.mapTmo, 7, 0, .zeroIs 2⟩
/-- MAP_TMO.ADOPT_US (R310). -/
def mapTmoAdoptUs : FRef := ⟨.mapTmo, 39, 24, .zeroIs 1000⟩
/-- MAP_TMO.RETX_US (R310). -/
def mapTmoRetxUs : FRef := ⟨.mapTmo, 23, 8, .zeroIs 50⟩
/-- PORT_CMIS.ENABLE (R441). -/
def portCmisEnable : FRef := ⟨.portCmis, 0, 0, .asIs⟩
/-- PORT_CMIS.MUX_ADDR (R441). -/
def portCmisMuxAddr : FRef := ⟨.portCmis, 14, 8, .asIs⟩
/-- PORT_CMIS.MUX_CHAN (R441). -/
def portCmisMuxChan : FRef := ⟨.portCmis, 18, 16, .asIs⟩
/-- PORT_CTL.LOCK (R308). -/
def portCtlLock : FRef := ⟨.portCtl, 0, 0, .asIs⟩
/-- PORT_CTL.ROLE (R308). -/
def portCtlRole : FRef := ⟨.portCtl, 2, 1, .asIs⟩
/-- PORT_CTL.VTHRESH (R308). -/
def portCtlVthresh : FRef := ⟨.portCtl, 47, 32, .zeroIs 1024⟩
/-- PORT_CTL.X16 (R308). -/
def portCtlX16 : FRef := ⟨.portCtl, 3, 3, .asIs⟩
/-- PORT_ECNT2.EPOCH_FWD (R308). -/
def portEcnt2EpochFwd : FRef := ⟨.portEcnt2, 31, 0, .asIs⟩
/-- PORT_ECNT2.EPOCH_REFUSED (R308). -/
def portEcnt2EpochRefused : FRef := ⟨.portEcnt2, 63, 32, .asIs⟩
/-- PORT_ECNT.DUP (R308). -/
def portEcntDup : FRef := ⟨.portEcnt, 63, 32, .asIs⟩
/-- PORT_ECNT.EDGE_DENY (R308). -/
def portEcntEdgeDeny : FRef := ⟨.portEcnt, 31, 0, .asIs⟩
/-- PORT_EP.EP (R308). -/
def portEpEp : FRef := ⟨.portEp, 31, 16, .asIs⟩
/-- PORT_EP.SECURE (R308). -/
def portEpSecure : FRef := ⟨.portEp, 1, 1, .asIs⟩
/-- PORT_EP.TENANT (R308). -/
def portEpTenant : FRef := ⟨.portEp, 15, 8, .asIs⟩
/-- PORT_EP.VALID (R308). -/
def portEpValid : FRef := ⟨.portEp, 0, 0, .asIs⟩
/-- PORT_SIEVE_CNT0.SCANNED (R271). -/
def portSieveCnt0Scanned : FRef := ⟨.portSieveCnt0, 63, 0, .asIs⟩
/-- PORT_SIEVE_CNT1.PASSED (R271). -/
def portSieveCnt1Passed : FRef := ⟨.portSieveCnt1, 63, 0, .asIs⟩
/-- PORT_SIEVE_CNT2.FALLBACK (R271). -/
def portSieveCnt2Fallback : FRef := ⟨.portSieveCnt2, 31, 0, .asIs⟩
/-- PORT_SIEVE_CTL.ENABLE (R271). -/
def portSieveCtlEnable : FRef := ⟨.portSieveCtl, 0, 0, .asIs⟩
/-- PORT_VCNT.TOTAL (R308). -/
def portVcntTotal : FRef := ⟨.portVcnt, 63, 32, .asIs⟩
/-- PORT_VLOG_IDX.WRAPPED (R308). -/
def portVlogIdxWrapped : FRef := ⟨.portVlogIdx, 8, 8, .asIs⟩
/-- PWR_CNT.THERMAL_MS (R403). -/
def pwrCntThermalMs : FRef := ⟨.pwrCnt, 63, 32, .asIs⟩
/-- PWR_CNT.THROTTLE_MS (R403). -/
def pwrCntThrottleMs : FRef := ⟨.pwrCnt, 31, 0, .asIs⟩
/-- PWR_CTL.LIMIT_W (R403). -/
def pwrCtlLimitW : FRef := ⟨.pwrCtl, 27, 16, .clamp 800 1600⟩
/-- PWR_CTL.THR_HBM_C (R403). -/
def pwrCtlThrHbmC : FRef := ⟨.pwrCtl, 47, 40, .asIs⟩
/-- PWR_CTL.THR_HUB_C (R403). -/
def pwrCtlThrHubC : FRef := ⟨.pwrCtl, 39, 32, .asIs⟩
/-- PWR_STS.TRIP (R403). -/
def pwrStsTrip : FRef := ⟨.pwrSts, 35, 35, .asIs⟩
/-- RGN_CTL.LOCK (R90). -/
def rgnCtlLock : FRef := ⟨.rgnCtl, 0, 0, .asIs⟩
/-- RGN_CTL.ORPHAN_HOLD (R90). -/
def rgnCtlOrphanHold : FRef := ⟨.rgnCtl, 31, 16, .zeroIs 100⟩
/-- RGN_SHELF_SEL.INDEX (R90). -/
def rgnShelfSelIndex : FRef := ⟨.rgnShelfSel, 19, 2, .asIs⟩
/-- RGN_SHELF_SEL.TIER (R90). -/
def rgnShelfSelTier : FRef := ⟨.rgnShelfSel, 1, 0, .asIs⟩
/-- RGN_STS.SCRUB_FAIL (R90). -/
def rgnStsScrubFail : FRef := ⟨.rgnSts, 20, 20, .asIs⟩
/-- RGN_TEN_CTL.COMMON_RD (R90). -/
def rgnTenCtlCommonRd : FRef := ⟨.rgnTenCtl, 0, 0, .asIs⟩
/-- RGN_TEN_CTL.MAX_REGIONS (R90). -/
def rgnTenCtlMaxRegions : FRef := ⟨.rgnTenCtl, 31, 12, .zeroIs 4096⟩
/-- RST_BLK_HBM.ASSERT (R403). -/
def rstBlkHbmAssert : FRef := ⟨.rstBlkHbm, 11, 0, .asIs⟩
/-- RST_BLK_PORT.ASSERT (R403). -/
def rstBlkPortAssert : FRef := ⟨.rstBlkPort, 63, 0, .asIs⟩
/-- RST_CNT.COLD (R403). -/
def rstCntCold : FRef := ⟨.rstCnt, 31, 16, .asIs⟩
/-- RST_CNT.TRIP (R403). -/
def rstCntTrip : FRef := ⟨.rstCnt, 63, 48, .asIs⟩
/-- RST_CNT.WARM (R403). -/
def rstCntWarm : FRef := ⟨.rstCnt, 15, 0, .asIs⟩
/-- RST_CNT.WDT (R403). -/
def rstCntWdt : FRef := ⟨.rstCnt, 47, 32, .asIs⟩
/-- RST_CTL.FABRIC_TMO_S (R403). -/
def rstCtlFabricTmoS : FRef := ⟨.rstCtl, 47, 32, .asIs⟩
/-- RST_CTL.OUT_WARM (R403). -/
def rstCtlOutWarm : FRef := ⟨.rstCtl, 48, 48, .asIs⟩
/-- RST_CTL.STRETCH_US (R403). -/
def rstCtlStretchUs : FRef := ⟨.rstCtl, 31, 16, .atLeast 20⟩
/-- RST_WDT.ENABLE (R403). -/
def rstWdtEnable : FRef := ⟨.rstWdt, 0, 0, .asIs⟩
/-- RST_WDT.LEVEL (R403). -/
def rstWdtLevel : FRef := ⟨.rstWdt, 1, 1, .asIs⟩
/-- RST_WDT.TMO_MS (R403). -/
def rstWdtTmoMs : FRef := ⟨.rstWdt, 31, 16, .zeroIs 1000⟩
/-- SCH_CLASS.WEIGHT (R336). -/
def schClassWeight : FRef := ⟨.schClass, 7, 0, .zeroIs 1⟩
/-- SCH_CTL.LOCK (R336). -/
def schCtlLock : FRef := ⟨.schCtl, 0, 0, .asIs⟩
/-- SCH_CTL.TC3_RATE (R336). -/
def schCtlTc3Rate : FRef := ⟨.schCtl, 14, 8, .zeroIs 5⟩
/-- SCH_MTR0_BURST.CBS (R336). -/
def schMtr0BurstCbs : FRef := ⟨.schMtr0Burst, 31, 0, .asIs⟩
/-- SCH_MTR0_BURST.EBS (R336). -/
def schMtr0BurstEbs : FRef := ⟨.schMtr0Burst, 63, 32, .asIs⟩
/-- SCH_MTR0_RATE.CIR (R336). -/
def schMtr0RateCir : FRef := ⟨.schMtr0Rate, 31, 0, .asIs⟩
/-- SCH_MTR0_RATE.PIR (R336). -/
def schMtr0RatePir : FRef := ⟨.schMtr0Rate, 63, 32, .asIs⟩
/-- SCH_MTR1_BURST.CBS (R336). -/
def schMtr1BurstCbs : FRef := ⟨.schMtr1Burst, 31, 0, .asIs⟩
/-- SCH_MTR1_BURST.EBS (R336). -/
def schMtr1BurstEbs : FRef := ⟨.schMtr1Burst, 63, 32, .asIs⟩
/-- SCH_MTR1_RATE.CIR (R336). -/
def schMtr1RateCir : FRef := ⟨.schMtr1Rate, 31, 0, .asIs⟩
/-- SCH_MTR1_RATE.PIR (R336). -/
def schMtr1RatePir : FRef := ⟨.schMtr1Rate, 63, 32, .asIs⟩
/-- SCH_MTR_CNT.RED (R336). -/
def schMtrCntRed : FRef := ⟨.schMtrCnt, 31, 0, .asIs⟩
/-- SCH_MTR_CNT.YELLOW (R336). -/
def schMtrCntYellow : FRef := ⟨.schMtrCnt, 63, 32, .asIs⟩
/-- SCH_PORT_CTL.OVH (R336). -/
def schPortCtlOvh : FRef := ⟨.schPortCtl, 7, 0, .asIs⟩
/-- SCH_SHP_SEL.PORT (R336). -/
def schShpSelPort : FRef := ⟨.schShpSel, 5, 0, .asIs⟩
/-- SCH_SHP_SEL.TC (R336). -/
def schShpSelTc : FRef := ⟨.schShpSel, 17, 16, .asIs⟩
/-- SCH_SHP_SEL.TENANT (R336). -/
def schShpSelTenant : FRef := ⟨.schShpSel, 15, 8, .asIs⟩
/-- SCH_TEN_CTL.CLASS_TC0 (R336). -/
def schTenCtlClassTc0 : FRef := ⟨.schTenCtl, 2, 0, .asIs⟩
/-- SCH_TEN_CTL.CLASS_TC1 (R336). -/
def schTenCtlClassTc1 : FRef := ⟨.schTenCtl, 6, 4, .asIs⟩
/-- SCH_TEN_CTL.CLASS_TC2 (R336). -/
def schTenCtlClassTc2 : FRef := ⟨.schTenCtl, 10, 8, .asIs⟩
/-- SEC_BLK_WORLD.SECURE (R384). -/
def secBlkWorldSecure : FRef := ⟨.secBlkWorld, 17, 0, .asIs⟩
/-- SEC_CNT.IDE_FAIL (R384). -/
def secCntIdeFail : FRef := ⟨.secCnt, 63, 32, .asIs⟩
/-- SEC_CNT.TAG_FAIL (R384). -/
def secCntTagFail : FRef := ⟨.secCnt, 31, 0, .asIs⟩
/-- SEC_CTL.LOCK (R384). -/
def secCtlLock : FRef := ⟨.secCtl, 0, 0, .asIs⟩
/-- SEC_HBM_WORLD.SECURE (R384). -/
def secHbmWorldSecure : FRef := ⟨.secHbmWorld, 11, 0, .asIs⟩
/-- SEC_KEY_SEL.INDEX (R384). -/
def secKeySelIndex : FRef := ⟨.secKeySel, 13, 8, .asIs⟩
/-- SEC_KEY_SEL.KIND (R384). -/
def secKeySelKind : FRef := ⟨.secKeySel, 1, 0, .asIs⟩
/-- SEC_KEY_SEL.KSLOT (R384). -/
def secKeySelKslot : FRef := ⟨.secKeySel, 16, 16, .asIs⟩
/-- SEC_KEY_SEL.OWNER (R384). -/
def secKeySelOwner : FRef := ⟨.secKeySel, 31, 24, .asIs⟩
/-- SEC_KEY_SEL.SALT (R384). -/
def secKeySelSalt : FRef := ⟨.secKeySel, 63, 32, .asIs⟩
/-- SEC_PAIR_WORLD.SECURE (R384). -/
def secPairWorldSecure : FRef := ⟨.secPairWorld, 63, 0, .asIs⟩
/-- SEC_PORT_ENC.ENABLE (R384). -/
def secPortEncEnable : FRef := ⟨.secPortEnc, 63, 0, .asIs⟩
/-- SEC_PORT_IDE.REQUIRE (R384). -/
def secPortIdeRequire : FRef := ⟨.secPortIde, 63, 0, .asIs⟩
/-- SEC_PORT_WORLD.SECURE (R384). -/
def secPortWorldSecure : FRef := ⟨.secPortWorld, 63, 0, .asIs⟩
/-- SEC_STS.REKEY (R384). -/
def secStsRekey : FRef := ⟨.secSts, 3, 3, .asIs⟩
/-- SEC_STS.WORLD_VIOL (R384). -/
def secStsWorldViol : FRef := ⟨.secSts, 2, 2, .asIs⟩
/-- SLC_CNT0.FAULTS (R225). -/
def slcCnt0Faults : FRef := ⟨.slcCnt0, 63, 32, .asIs⟩
/-- SLC_CNT0.RETRIES (R225). -/
def slcCnt0Retries : FRef := ⟨.slcCnt0, 31, 0, .asIs⟩
/-- SLC_CNT1.COMMITS (R225). -/
def slcCnt1Commits : FRef := ⟨.slcCnt1, 31, 0, .asIs⟩
/-- SLC_CNT1.LATE_RECV (R225). -/
def slcCnt1LateRecv : FRef := ⟨.slcCnt1, 63, 32, .asIs⟩
/-- SLC_CTL.LOCK (R225). -/
def slcCtlLock : FRef := ⟨.slcCtl, 0, 0, .asIs⟩
/-- SLC_CTL.RECV_TMO (R225). -/
def slcCtlRecvTmo : FRef := ⟨.slcCtl, 31, 16, .zeroIs 1000⟩
/-- SLC_CTL.WAIT_TMO (R225). -/
def slcCtlWaitTmo : FRef := ⟨.slcCtl, 63, 32, .zeroIs 1000000⟩
/-- SLC_RCP_SEL.SLOT (R225). -/
def slcRcpSelSlot : FRef := ⟨.slcRcpSel, 7, 0, .asIs⟩
/-- SLC_TEN_CTL.MAX_RECIPES (R225). -/
def slcTenCtlMaxRecipes : FRef := ⟨.slcTenCtl, 7, 0, .asIs⟩
/-- SW_CNT0.CELL_LOST (R334). -/
def swCnt0CellLost : FRef := ⟨.swCnt0, 31, 0, .asIs⟩
/-- SW_CNT0.LATE_CELLS (R334). -/
def swCnt0LateCells : FRef := ⟨.swCnt0, 63, 32, .asIs⟩
/-- SW_CNT1.HOLD_DROPS (R334). -/
def swCnt1HoldDrops : FRef := ⟨.swCnt1, 63, 32, .asIs⟩
/-- SW_CNT1.RESENDS (R334). -/
def swCnt1Resends : FRef := ⟨.swCnt1, 31, 0, .asIs⟩
/-- SW_CNT2.MCAST_REFUSED (R334). -/
def swCnt2McastRefused : FRef := ⟨.swCnt2, 63, 32, .asIs⟩
/-- SW_CNT2.RED_DROPS (R334). -/
def swCnt2RedDrops : FRef := ⟨.swCnt2, 31, 0, .asIs⟩
/-- SW_CTL.ALPHA (R334). -/
def swCtlAlpha : FRef := ⟨.swCtl, 6, 4, .asIs⟩
/-- SW_CTL.CELL_GAP_NS (R334). -/
def swCtlCellGapNs : FRef := ⟨.swCtl, 31, 16, .zeroIs 2000⟩
/-- SW_CTL.LOCK (R334). -/
def swCtlLock : FRef := ⟨.swCtl, 0, 0, .asIs⟩
/-- SW_CTL.RSV_CELLS (R334). -/
def swCtlRsvCells : FRef := ⟨.swCtl, 47, 32, .atLeast 1024⟩
/-- SW_MCAST_SEL.GROUP (R334). -/
def swMcastSelGroup : FRef := ⟨.swMcastSel, 11, 0, .asIs⟩
/-- SW_RSQ_CTL.HOLD_MSGS (R334). -/
def swRsqCtlHoldMsgs : FRef := ⟨.swRsqCtl, 31, 16, .zeroIs 1024⟩
/-- SW_RSQ_CTL.STREAM_GAP_US (R334). -/
def swRsqCtlStreamGapUs : FRef := ⟨.swRsqCtl, 15, 0, .zeroIs 10⟩
/-- TIER_CTL.ADVICE_S (R124). -/
def tierCtlAdviceS : FRef := ⟨.tierCtl, 63, 48, .zeroIs 60⟩
/-- TIER_CTL.LOCK (R124). -/
def tierCtlLock : FRef := ⟨.tierCtl, 0, 0, .asIs⟩
/-- TIER_CTL.SCAN_MS (R124). -/
def tierCtlScanMs : FRef := ⟨.tierCtl, 47, 32, .zeroIs 100⟩
/-- TIER_CTL.STALL_MAX (R124). -/
def tierCtlStallMax : FRef := ⟨.tierCtl, 31, 16, .zeroIs 1000⟩
/-- TIER_TEN_CTL.HIGH (R124). -/
def tierTenCtlHigh : FRef := ⟨.tierTenCtl, 31, 24, .asIs⟩
/-- TIER_TEN_CTL.IDLE_S (R124). -/
def tierTenCtlIdleS : FRef := ⟨.tierTenCtl, 23, 8, .zeroIs 2⟩
/-- TIER_TEN_CTL.LATE_CLASS (R124). -/
def tierTenCtlLateClass : FRef := ⟨.tierTenCtl, 6, 4, .asIs⟩
/-- TIER_TEN_CTL.LEAD (R124). -/
def tierTenCtlLead : FRef := ⟨.tierTenCtl, 3, 2, .asIs⟩
/-- TIER_TEN_CTL.LOW (R124). -/
def tierTenCtlLow : FRef := ⟨.tierTenCtl, 39, 32, .asIs⟩
/-- TIER_TEN_CTL.PLACE (R124). -/
def tierTenCtlPlace : FRef := ⟨.tierTenCtl, 1, 0, .asIs⟩
/-- TIER_TEN_STS.LATE (R124). -/
def tierTenStsLate : FRef := ⟨.tierTenSts, 31, 0, .asIs⟩
/-- TIER_TEN_STS.NOT_READY (R124). -/
def tierTenStsNotReady : FRef := ⟨.tierTenSts, 63, 32, .asIs⟩
/-- TIER_WIN_BASE.OFFSET (R124). -/
def tierWinBaseOffset : FRef := ⟨.tierWinBase, 55, 0, .asIs⟩
/-- TIER_WIN_CTL.DEPTH (R124). -/
def tierWinCtlDepth : FRef := ⟨.tierWinCtl, 63, 56, .asIs⟩
/-- TIER_WIN_CTL.JOB (R124). -/
def tierWinCtlJob : FRef := ⟨.tierWinCtl, 47, 32, .asIs⟩
/-- TIER_WIN_CTL.PAIR (R124). -/
def tierWinCtlPair : FRef := ⟨.tierWinCtl, 6, 4, .asIs⟩
/-- TIER_WIN_CTL.REGION (R124). -/
def tierWinCtlRegion : FRef := ⟨.tierWinCtl, 31, 8, .asIs⟩
/-- TIER_WIN_CTL.TENANT (R124). -/
def tierWinCtlTenant : FRef := ⟨.tierWinCtl, 55, 48, .asIs⟩
/-- TIER_WIN_LEAD.INIT (R124). -/
def tierWinLeadInit : FRef := ⟨.tierWinLead, 7, 0, .asIs⟩
/-- TIER_WIN_LEAD.MAX (R124). -/
def tierWinLeadMax : FRef := ⟨.tierWinLead, 23, 16, .asIs⟩
/-- TIER_WIN_LEAD.MCAST (R124). -/
def tierWinLeadMcast : FRef := ⟨.tierWinLead, 63, 52, .asIs⟩
/-- TIER_WIN_LEAD.MIN (R124). -/
def tierWinLeadMin : FRef := ⟨.tierWinLead, 15, 8, .asIs⟩
/-- TIER_WIN_STALLS.COUNT (R124). -/
def tierWinStallsCount : FRef := ⟨.tierWinStalls, 31, 0, .asIs⟩
/-- TIER_WIN_STALLS.MAX_NS (R124). -/
def tierWinStallsMaxNs : FRef := ⟨.tierWinStalls, 63, 32, .asIs⟩
/-- TIER_WIN_STRIDE.BYTES (R124). -/
def tierWinStrideBytes : FRef := ⟨.tierWinStride, 55, 0, .asIs⟩
/-- TIER_WIN_STS.BOUND_HITS (R124). -/
def tierWinStsBoundHits : FRef := ⟨.tierWinSts, 63, 32, .asIs⟩
/-- TIER_WIN_STS.LATE_LAYERS (R124). -/
def tierWinStsLateLayers : FRef := ⟨.tierWinSts, 31, 0, .asIs⟩
/-- TIME_GATE_SEL.AUTOINC (R149). -/
def timeGateSelAutoinc : FRef := ⟨.timeGateSel, 31, 31, .asIs⟩
/-- TIME_GATE_SEL.ENTRY (R149). -/
def timeGateSelEntry : FRef := ⟨.timeGateSel, 25, 16, .asIs⟩
/-- TIME_GATE_SEL.SLOT (R149). -/
def timeGateSelSlot : FRef := ⟨.timeGateSel, 5, 0, .asIs⟩
/-- TIME_JOB_CNT0.BACK (R149). -/
def timeJobCnt0Back : FRef := ⟨.timeJobCnt0, 63, 32, .asIs⟩
/-- TIME_JOB_CNT0.MARKS (R149). -/
def timeJobCnt0Marks : FRef := ⟨.timeJobCnt0, 31, 0, .asIs⟩
/-- TIME_JOB_CNT1.COALESCED (R149). -/
def timeJobCnt1Coalesced : FRef := ⟨.timeJobCnt1, 31, 0, .asIs⟩
/-- TIME_JOB_CNT1.GUARD_EXPIRED (R149). -/
def timeJobCnt1GuardExpired : FRef := ⟨.timeJobCnt1, 63, 32, .asIs⟩
/-- TIME_JOB_CNT2.GUARD_MISS (R149). -/
def timeJobCnt2GuardMiss : FRef := ⟨.timeJobCnt2, 31, 0, .asIs⟩
/-- TIME_JOB_CTL.EST_K (R149). -/
def timeJobCtlEstK : FRef := ⟨.timeJobCtl, 5, 2, .asIs⟩
/-- TIME_JOB_CTL.EST_MODE (R149). -/
def timeJobCtlEstMode : FRef := ⟨.timeJobCtl, 1, 1, .asIs⟩
/-- TIME_JOB_CTL.JOB (R149). -/
def timeJobCtlJob : FRef := ⟨.timeJobCtl, 47, 32, .asIs⟩
/-- TIME_JOB_CTL.LAYERS_M1 (R149). -/
def timeJobCtlLayersM1 : FRef := ⟨.timeJobCtl, 23, 12, .asIs⟩
/-- TIME_JOB_CTL.PHASES_M1 (R149). -/
def timeJobCtlPhasesM1 : FRef := ⟨.timeJobCtl, 11, 8, .asIs⟩
/-- TIME_JOB_CTL.TENANT (R149). -/
def timeJobCtlTenant : FRef := ⟨.timeJobCtl, 31, 24, .asIs⟩
/-- TIME_JOB_EST.EST_NS (R149). -/
def timeJobEstEstNs : FRef := ⟨.timeJobEst, 31, 0, .asIs⟩
/-- TIME_JOB_EST.GUARD_FRAC (R149). -/
def timeJobEstGuardFrac : FRef := ⟨.timeJobEst, 59, 48, .asIs⟩
/-- TIME_JOB_EST.GUARD_MIN_NS (R149). -/
def timeJobEstGuardMinNs : FRef := ⟨.timeJobEst, 47, 32, .zeroIs 200⟩
/-- TIME_JOB_POS.LAYER (R149). -/
def timeJobPosLayer : FRef := ⟨.timeJobPos, 43, 32, .asIs⟩
/-- TIME_JOB_POS.PHASE (R149). -/
def timeJobPosPhase : FRef := ⟨.timeJobPos, 47, 44, .asIs⟩
/-- TIME_JOB_POS.STEP (R149). -/
def timeJobPosStep : FRef := ⟨.timeJobPos, 31, 0, .asIs⟩
/-- TIME_JOB_STS.MARK_OVERRUN (R149). -/
def timeJobStsMarkOverrun : FRef := ⟨.timeJobSts, 0, 0, .asIs⟩
/-- TIME_MARK_DROP.COUNT (R149). -/
def timeMarkDropCount : FRef := ⟨.timeMarkDrop, 31, 0, .asIs⟩
/-- TIME_PTP_STS.PPS_EN (R149). -/
def timePtpStsPpsEn : FRef := ⟨.timePtpSts, 2, 2, .asIs⟩
/-- TIME_STEP_CTL.EDGES (R149). -/
def timeStepCtlEdges : FRef := ⟨.timeStepCtl, 63, 32, .asIs⟩
/-- TIME_STEP_CTL.ENABLE (R149). -/
def timeStepCtlEnable : FRef := ⟨.timeStepCtl, 0, 0, .asIs⟩
/-- TIME_STEP_CTL.SLOT (R149). -/
def timeStepCtlSlot : FRef := ⟨.timeStepCtl, 13, 8, .asIs⟩
/-- TIME_STEP_CTL.STEP_OVERRUN (R149). -/
def timeStepCtlStepOverrun : FRef := ⟨.timeStepCtl, 16, 16, .asIs⟩
/-- TIME_STS.GATE_ERR (R149). -/
def timeStsGateErr : FRef := ⟨.timeSts, 8, 8, .asIs⟩
/-- TIME_STS.GATE_ERR_CODE (R149). -/
def timeStsGateErrCode : FRef := ⟨.timeSts, 15, 12, .asIs⟩
/-- TOLL_BUF_CFG.SLOTS_LOG2 (R420). -/
def tollBufCfgSlotsLog2 : FRef := ⟨.tollBufCfg, 3, 0, .asIs⟩
/-- TOLL_BUF.PTR (R420). -/
def tollBufPtr : FRef := ⟨.tollBuf, 63, 0, .asIs⟩
/-- TOLL_CTL.ENABLE (R420). -/
def tollCtlEnable : FRef := ⟨.tollCtl, 1, 1, .asIs⟩
/-- TOLL_CTL.INTERVAL_MS (R420). -/
def tollCtlIntervalMs : FRef := ⟨.tollCtl, 31, 16, .clamp 100 60000⟩
/-- TOLL_CTL.LOCK (R420). -/
def tollCtlLock : FRef := ⟨.tollCtl, 0, 0, .asIs⟩
/-- TOLL_STS.WRITE_FAIL (R420). -/
def tollStsWriteFail : FRef := ⟨.tollSts, 63, 32, .asIs⟩
/-- TQ_CTL.DEF_RETRIES (R60). -/
def tqCtlDefRetries : FRef := ⟨.tqCtl, 7, 4, .zeroIs 3⟩
/-- TQ_CTL.LOCK (R60). -/
def tqCtlLock : FRef := ⟨.tqCtl, 0, 0, .asIs⟩
/-- TQ_DB_BASE.BASE (R60). -/
def tqDbBaseBase : FRef := ⟨.tqDbBase, 63, 20, .asIs⟩
/-- TQ_DB_DROP.COUNT (R60). -/
def tqDbDropCount : FRef := ⟨.tqDbDrop, 31, 0, .asIs⟩
/-- TQ_DB_ERR.COUNT (R60). -/
def tqDbErrCount : FRef := ⟨.tqDbErr, 31, 0, .asIs⟩
/-- TQ_RING_AIDX_ADDR.PTR (R60). -/
def tqRingAidxAddrPtr : FRef := ⟨.tqRingAidxAddr, 63, 0, .asIs⟩
/-- TQ_RING_CQ_BASE.PTR (R60). -/
def tqRingCqBasePtr : FRef := ⟨.tqRingCqBase, 63, 0, .asIs⟩
/-- TQ_RING_CTL.CQ_LOG2 (R60). -/
def tqRingCtlCqLog2 : FRef := ⟨.tqRingCtl, 15, 12, .asIs⟩
/-- TQ_RING_CTL.ENABLE (R60). -/
def tqRingCtlEnable : FRef := ⟨.tqRingCtl, 0, 0, .asIs⟩
/-- TQ_RING_CTL.SQ_LOG2 (R60). -/
def tqRingCtlSqLog2 : FRef := ⟨.tqRingCtl, 11, 8, .asIs⟩
/-- TQ_RING_EVT_LOST.COUNT (R60). -/
def tqRingEvtLostCount : FRef := ⟨.tqRingEvtLost, 31, 0, .asIs⟩
/-- TQ_RING_NOTIFY_ADDR.PTR (R60). -/
def tqRingNotifyAddrPtr : FRef := ⟨.tqRingNotifyAddr, 63, 0, .asIs⟩
/-- TQ_RING_SQ_BASE.PTR (R60). -/
def tqRingSqBasePtr : FRef := ⟨.tqRingSqBase, 63, 0, .asIs⟩
/-- TQ_TEN_CTL.ENABLE (R60). -/
def tqTenCtlEnable : FRef := ⟨.tqTenCtl, 0, 0, .asIs⟩
/-- TQ_TEN_CTL.FENCE_TMO (R60). -/
def tqTenCtlFenceTmo : FRef := ⟨.tqTenCtl, 63, 32, .asIs⟩
/-- TQ_TEN_CTL.INFLIGHT (R60). -/
def tqTenCtlInflight : FRef := ⟨.tqTenCtl, 28, 16, .zeroMax 4096 4096⟩
/-- TQ_TEN_CTL.NR_MODE (R60). -/
def tqTenCtlNrMode : FRef := ⟨.tqTenCtl, 1, 1, .asIs⟩
/-- TQ_TEN_CTL.PAIRS_M1 (R60). -/
def tqTenCtlPairsM1 : FRef := ⟨.tqTenCtl, 4, 2, .asIs⟩

end F

end Sys2Proof.Machine
end

