-- ==== Sys2Proof/Machine/Operands.lean ====
section
/-! DEFINITION. Operand forms: descriptor words and subfields (R43–R45), endpoint pointers (R26), format codes
(R150, R175), and the MALFORMED check of a descriptor (R44–R46, R50). -/

namespace Sys2Proof.Machine

/-! ### Descriptor words (R43) -/

/-- Word Wk of a descriptor's eight words. -/
def Entry.w (e : Entry) (k : Nat) : Nat := (e.words.getD k 0).toNat

/-- The eight words of a 64-byte descriptor. -/
def descWords (bytes : List Byte) : List W64 := (List.range 8).map (fun k => BitVec.ofNat 64 (leAt bytes (8 * k) 8))

def Entry.opc (e : Entry) : Nat := bits (e.w 0) 7 0
def Entry.unordered (e : Entry) : Bool := bit (e.w 0) 8
def Entry.wantsNotify (e : Entry) : Bool := bit (e.w 0) 9
def Entry.tag (e : Entry) : Nat := bits (e.w 0) 63 32
/-- Tenant of a descriptor's ring: pair 8t + p (R23); a pair taken over from the expelled buddy counts on from 2,048
(R364). -/
def Entry.tenant (e : Entry) : Nat := e.pair / 8 % 256

/-- A desc.ref (R45): region, vsel, version number. -/
structure Ref where
  region : Nat
  vsel : Nat
  number : Nat
  deriving DecidableEq, Repr

/-- Fields of a desc.ref word (R45). -/
def refOf (w : Nat) : Ref := { region := bits w 23 0, vsel := bits w 31 24, number := bits w 63 32 }

/-- Port and byte address of an endpoint pointer (R26). -/
def ptrPort (p : Nat) : Nat := bits p 63 58
def ptrAddr (p : Nat) : Nat := bits p 57 0

/-! ### Format codes (R150, R175) -/

/-- Elements and bytes of one unit of a format; none for a code in neither table. -/
def fmtUnit (c : Nat) : Option (Nat × Nat) :=
  match c with
  | 0x00 => some (1, 1)
  | 0x01 => some (1, 4)
  | 0x02 => some (1, 2)
  | 0x03 => some (1, 2)
  | 0x04 => some (1, 1)
  | 0x05 => some (1, 1)
  | 0x06 => some (1, 1)
  | 0x07 => some (1, 4)
  | 0x08 => some (1, 40)
  | 0x10 => some (32, 33)
  | 0x11 => some (32, 33)
  | 0x12 => some (32, 25)
  | 0x13 => some (32, 25)
  | 0x14 => some (32, 17)
  | 0x20 => some (32, 18)
  | 0x21 => some (32, 26)
  | 0x22 => some (32, 18)
  | 0x23 => some (30720, 16384)
  | _ => none

/-- LP's code (R150). -/
def fmtLp : Nat := 0x30
/-- UZ-KC's code (R150). -/
def fmtKc : Nat := 0x22
/-- QW40's code (R175). -/
def fmtQw : Nat := 0x08

/-- A code valid in desc.xform and in recipe parameters: every code of the tables but LP (R151, R176). -/
def fmtXform (c : Nat) : Bool := (fmtUnit c).isSome

/-- A code valid in desc.alloc_fmt: neither LP (R151) nor QW40 (R176). -/
def fmtAlloc (c : Nat) : Bool := (fmtUnit c).isSome && c ≠ fmtQw

/-! ### The subfields of each opcode -/

def opNop : Nat := 0x00
def opMove : Nat := 0x01
def opAlloc : Nat := 0x02
def opFree : Nat := 0x03
def opOpen : Nat := 0x04
def opSeal : Nat := 0x05
def opPublish : Nat := 0x06
def opRetire : Nat := 0x07
def opHold : Nat := 0x08
def opRelease : Nat := 0x09
def opPromote : Nat := 0x0A
def opDemote : Nat := 0x0B
def opInvoke : Nat := 0x0C
def opFence : Nat := 0x0D
def opMark : Nat := 0x0E
def opQuery : Nat := 0x0F
def opLoadRecipe : Nat := 0x10
def opLoadTable : Nat := 0x11

/-- A mask of bits [hi:lo]. -/
def bitsMask (hi lo : Nat) : Nat := 2 ^ (hi + 1) - 2 ^ lo

/-- The bits of words W2 to W7 that carry a field, by opcode (R44, R45); every other bit is Res. -/
def descUsed (op : Nat) (w : Nat → Nat) : List Nat :=
  let all := bitsMask 63 0
  match op with
  | 0x01 =>
    [all, if bit (w 7) 0 then 0 else bitsMask 55 0, all, if bit (w 7) 1 then 0 else bitsMask 55 0,
     bitsMask 39 0, 3 + bitsMask 23 8 + bitsMask 27 24]
  | 0x02 => [bitsMask 28 0, bitsMask 55 0, bitsMask 11 0, 0, 0, 0]
  | 0x03 => [all, 0, 0, 0, 0, 0]
  | 0x04 => [all, 0, 0, 0, 0, 0]
  | 0x05 => [all, 0, 0, 0, 0, 0]
  | 0x06 => [all, bitsMask 31 0, 0, 0, 0, 0]
  | 0x07 => [all, 0, 0, 0, 0, 0]
  | 0x08 => [all, 0, 0, 0, 0, 0]
  | 0x09 => [all, 0, 0, 0, 0, 0]
  | 0x0A => [all, bitsMask 55 0, bitsMask 55 0, bitsMask 2 0 + bitsMask 27 16, 0, 0]
  | 0x0B => [all, bitsMask 55 0, bitsMask 55 0, bitsMask 2 0 + bitsMask 15 8 + bitsMask 19 16, 0, 0]
  | 0x0C =>
    let iv := bitsMask 8 0 + bitsMask 15 12 + bitsMask 28 16
    if bit (w 2) 8 then [iv, all, 0, 0, 0, 0] else [iv, all, all, all, all, all]
  | 0x0D => [1 + bitsMask 63 32, 0, 0, 0, 0, 0]
  | 0x0E => [bitsMask 47 0, 0, 0, 0, 0, 0]
  | 0x0F => [bitsMask 7 0, all, all, bitsMask 31 0, 0, 0]
  | 0x10 => [bitsMask 7 0, all, bitsMask 31 0, 0, 0, 0]
  | 0x11 => [bitsMask 4 0 + bitsMask 15 8, all, bitsMask 31 0, 0, 0, 0]
  | _ => [0, 0, 0, 0, 0, 0]

/-- A Res bit is set: byte 1 [7:2] of the header (R43), or a bit of W2 to W7 that carries no field (R44). -/
def descResSet (w : Nat → Nat) : Bool :=
  bits (w 0) 15 10 ≠ 0 ||
  (descUsed (bits (w 0) 7 0) w).zipIdx.any (fun p => Nat.land (w (p.2 + 2)) (bitsMask 63 0 - p.1) ≠ 0)

/-- Subfield values outside their encodings: detail 0x0003 (R45, R50, R70, R99, R151, R176). -/
def descRange (w : Nat → Nat) : Bool :=
  match bits (w 0) 7 0 with
  | 0x01 =>
    bits (w 6) 39 0 = 0 || !(fmtXform (bits (w 7) 15 8)) || !(fmtXform (bits (w 7) 23 16)) ||
    ((bits (w 7) 15 8 = 0) != (bits (w 7) 23 16 = 0))
  | 0x02 =>
    bits (w 2) 25 24 = 3 || bits (w 3) 55 0 = 0 || (!(bit (w 2) 28) && bits (w 3) 55 0 > 2 ^ 44) ||
    !(fmtAlloc (bits (w 4) 7 0))
  | 0x0A => bits (w 5) 1 0 > 1
  | 0x0B =>
    bits (w 5) 1 0 = 0 || bits (w 5) 1 0 = 3 ||
    (bit (w 5) 2 && bits (w 5) 15 8 ≠ fmtLp)
  | 0x0C =>
    let n := bits (w 2) 28 16
    if bit (w 2) 8 then n < 64 || n > 4096 else n ≠ 0
  | 0x0F => bits (w 2) 7 0 = 0 || bits (w 2) 7 0 > 6
  | 0x11 => bits (w 2) 4 0 > 15 && bits (w 2) 4 0 ≠ 0x1F
  | _ => false

/-- The desc.ref words of a descriptor (R44, R45). -/
def descRefs (w : Nat → Nat) : List Nat :=
  match bits (w 0) 7 0 with
  | 0x01 => (if bit (w 7) 0 then [] else [w 2]) ++ (if bit (w 7) 1 then [] else [w 4])
  | 0x03 => [w 2]
  | 0x04 => [w 2]
  | 0x05 => [w 2]
  | 0x06 => [w 2]
  | 0x07 => [w 2]
  | 0x08 => [w 2]
  | 0x09 => [w 2]
  | 0x0A => [w 2]
  | 0x0B => [w 2]
  | 0x0F => [w 3]
  | _ => []

/-- Invalid vsel, or a version given with vsel non-zero: detail 0x0004 (R45, R50). -/
def refBad (w : Nat) : Bool :=
  let r := refOf w
  r.vsel > 2 || (r.vsel ≠ 0 && r.number ≠ 0)

/-- Misaligned pointer or length: detail 0x0005 (R45, R50, R70, R96, R181). -/
def descAlign (w : Nat → Nat) : Bool :=
  match bits (w 0) 7 0 with
  | 0x01 =>
    match fmtUnit (bits (w 7) 15 8), fmtUnit (bits (w 7) 23 16) with
    | some (se, sb), some (de, _) =>
      bits (w 6) 39 0 % sb ≠ 0 ||
      (bits (w 7) 15 8 ≠ bits (w 7) 23 16 && bits (w 6) 39 0 / sb * se % de ≠ 0)
    | _, _ => false
  | 0x02 => bits (w 3) 55 0 % 65536 ≠ 0
  | 0x0A => bits (w 3) 55 0 % 65536 ≠ 0 || bits (w 4) 55 0 % 65536 ≠ 0
  | 0x0B => bits (w 3) 55 0 % 65536 ≠ 0 || bits (w 4) 55 0 % 65536 ≠ 0
  | 0x0C => bit (w 2) 8 && bits (w 2) 28 16 % 64 ≠ 0
  | 0x0F => w 4 % 64 ≠ 0
  | 0x10 => w 3 % 64 ≠ 0
  | 0x11 => w 3 % 64 ≠ 0
  | _ => false

/-- Job required and absent: MARK and paced PROMOTE, detail 0x0007 (R46). -/
def descJobless (w : Nat → Nat) : Bool :=
  bits (w 0) 31 16 = 0xFFFF &&
  (bits (w 0) 7 0 = opMark || (bits (w 0) 7 0 = opPromote && bit (w 5) 2))

/-- The lowest MALFORMED detail a descriptor breaks, if any (R44, R50). -/
def descBad (words : List W64) : Option Nat :=
  let w := fun k => (words.getD k 0).toNat
  let op := bits (w 0) 7 0
  if op > 0x11 then some 0x0001
  else if descResSet w then some 0x0002
  else if descRange w then some 0x0003
  else if (descRefs w).any refBad then some 0x0004
  else if descAlign w then some 0x0005
  else if op ≠ opInvoke && w 1 ≠ 0 then some 0x0006
  else if descJobless w then some 0x0007
  else none

end Sys2Proof.Machine
end

