-- ==== Sys2Proof/Machine/Numbers.lean ====
section
/-! DEFINITION. Number formats and their arithmetic, exact until one rounding (R175–R192, R150–R157): element formats,
block formats, the vector unit's functions, the MAC group, Quern lanes and QW40. -/

namespace Sys2Proof.Machine

/-- An exact value: NaN, an infinity, or (−1)^neg × m × 2^e; a zero keeps its sign (R178–R180). -/
inductive Num where
  | nan
  | inf (neg : Bool)
  | fin (neg : Bool) (m : Nat) (e : Int)
  deriving DecidableEq, Repr

/-- 2^k for a non-negative integer k. -/
def pow2 (k : Int) : Nat := 2 ^ k.toNat

/-- +0. -/
def Num.zero : Num := .fin false 0 0

/-- An integer as an exact value. -/
def Num.ofInt (v : Int) : Num := .fin (v < 0) v.natAbs 0

/-- A signed mantissa at exponent `e`. -/
def Num.ofDyadic (v : Int) (e : Int) : Num := .fin (v < 0) v.natAbs e

/-- The signed mantissa of a finite value at exponent `q`, at or below its own. -/
def mantAt (neg : Bool) (m : Nat) (e q : Int) : Int :=
  let a : Int := (m * pow2 (e - q) : Nat)
  if neg then -a else a

def Num.isNan : Num → Bool
  | .nan => true
  | _ => false

/-- The value is a NaN or an infinity. -/
def Num.special : Num → Bool
  | .fin _ _ _ => false
  | _ => true

def Num.negate : Num → Num
  | .nan => .nan
  | .inf n => .inf (!n)
  | .fin n m e => .fin (!n) m e

def Num.abs : Num → Num
  | .nan => .nan
  | .inf _ => .inf false
  | .fin _ m e => .fin false m e

def Num.isNeg : Num → Bool
  | .nan => false
  | .inf n => n
  | .fin n _ _ => n

/-- Times 2^k, exactly. -/
def Num.scale (x : Num) (k : Int) : Num :=
  match x with
  | .fin n m e => .fin n m (e + k)
  | y => y

/-- Exact product of two finite values, and the special products: Inf × 0 is NaN. -/
def Num.mul (x y : Num) : Num :=
  match x, y with
  | .nan, _ => .nan
  | _, .nan => .nan
  | .inf a, .inf b => .inf (a != b)
  | .inf a, .fin b m _ => if m = 0 then .nan else .inf (a != b)
  | .fin b m _, .inf a => if m = 0 then .nan else .inf (a != b)
  | .fin a m e, .fin b n f => .fin (a != b) (m * n) (e + f)

/-- Exact sum: +Inf with −Inf is NaN; an exact zero is −0 only when both addends are −0 (R182, R184). -/
def Num.add (x y : Num) : Num :=
  match x, y with
  | .nan, _ => .nan
  | _, .nan => .nan
  | .inf a, .inf b => if a = b then .inf a else .nan
  | .inf a, .fin _ _ _ => .inf a
  | .fin _ _ _, .inf b => .inf b
  | .fin a m e, .fin b n f =>
    if m = 0 ∧ n = 0 then .fin (a && b) 0 0
    else if m = 0 then .fin b n f
    else if n = 0 then .fin a m e
    else
      let q := min e f
      .ofDyadic (mantAt a m e q + mantAt b n f q) q

/-- Compare two values that are not NaN: x < y. -/
def Num.lt (x y : Num) : Bool :=
  match x, y with
  | .inf a, .inf b => a && !b
  | .inf a, .fin _ _ _ => a
  | .fin _ _ _, .inf b => !b
  | .fin a m e, .fin b n f => let q := min e f; decide (mantAt a m e q < mantAt b n f q)
  | _, _ => false

/-! ### Rounding to nearest, ties to even (R178) -/

/-- Drop the low `d` bits of m, to nearest even; `sticky` says that the exact value lies just above m. -/
def rne (m d : Nat) (sticky : Bool) : Nat :=
  if d = 0 then m
  else
    let q := m / 2 ^ d
    let r := m % 2 ^ d
    let half := 2 ^ (d - 1)
    if r > half || (r = half && (sticky || q % 2 = 1)) then q + 1 else q

/-- A binary format: significand bits, exponent of the least subnormal bit, exponent field width, whether it has
infinities, whether it has a NaN only (E4M3), and its largest finite magnitude top × 2^topE (R175). -/
structure FFmt where
  p : Nat
  qmin : Int
  ebits : Nat
  hasInf : Bool
  hasNan : Bool
  top : Nat
  topE : Int
  deriving DecidableEq, Repr

def f32 : FFmt := ⟨24, -149, 8, true, true, 2 ^ 24 - 1, 104⟩
def bf16 : FFmt := ⟨8, -133, 8, true, true, 255, 120⟩
def f16 : FFmt := ⟨11, -24, 5, true, true, 2047, 5⟩
def e4m3 : FFmt := ⟨4, -9, 4, false, true, 14, 5⟩
def e5m2 : FFmt := ⟨3, -16, 5, true, true, 7, 13⟩
def e3m2 : FFmt := ⟨3, -4, 3, false, false, 7, 2⟩
def e2m3 : FFmt := ⟨4, -3, 2, false, false, 15, -1⟩
def e2m1 : FFmt := ⟨2, -1, 2, false, false, 3, 1⟩

/-- Width of an encoding in bits. -/
def FFmt.width (f : FFmt) : Nat := f.ebits + f.p

/-- Exponent field of all ones. -/
def FFmt.expMax (f : FFmt) : Nat := 2 ^ f.ebits - 1

/-- The encoding of a positive significand n × 2^q on the format's grid. -/
def FFmt.pack (f : FFmt) (n : Nat) (q : Int) : Nat :=
  let (n, q) := if n = 2 ^ f.p then (2 ^ (f.p - 1), q + 1) else (n, q)
  if n < 2 ^ (f.p - 1) then n
  else (q - f.qmin + 1).toNat * 2 ^ (f.p - 1) + (n - 2 ^ (f.p - 1))

/-- The largest finite magnitude's encoding. -/
def FFmt.packTop (f : FFmt) : Nat := f.pack f.top f.topE

/-- The canonical NaN (R179). -/
def FFmt.packNan (f : FFmt) : Nat :=
  if f.hasInf then f.expMax * 2 ^ (f.p - 1) + 2 ^ (f.p - 2)
  else f.expMax * 2 ^ (f.p - 1) + 2 ^ (f.p - 1) - 1

/-- Round m × 2^e (plus a little, when sticky) to the format's grid with unbounded exponent: n × 2^q. -/
def FFmt.grid (f : FFmt) (m : Nat) (e : Int) (sticky : Bool) : Nat × Int :=
  if m = 0 then (0, f.qmin)
  else
    let q := max f.qmin (e + (Nat.log2 m : Int) + 1 - f.p)
    if q ≤ e then (m * pow2 (e - q), q) else (rne m (q - e).toNat sticky, q)

/-- Encode an exact value (R180). -/
def FFmt.enc (f : FFmt) (x : Num) (sticky : Bool := false) : Nat :=
  let sgn := fun (n : Bool) => b2n n * 2 ^ (f.width - 1)
  match x with
  | .nan => if f.hasNan then f.packNan else 0
  | .inf n =>
    if f.hasInf then sgn n + f.expMax * 2 ^ (f.p - 1) else if f.hasNan then f.packNan else sgn n + f.packTop
  | .fin n m e =>
    let (k, q) := f.grid m e sticky
    if k * pow2 (q - f.qmin) > f.top * pow2 (f.topE - f.qmin) then (if f.hasInf then sgn n + f.expMax * 2 ^ (f.p - 1) else sgn n + f.packTop)
    else sgn n + f.pack k q

/-- Decode a bit pattern exactly. -/
def FFmt.dec (f : FFmt) (b : Nat) : Num :=
  let neg := bit b (f.width - 1)
  let man := b % 2 ^ (f.p - 1)
  let ex := b / 2 ^ (f.p - 1) % 2 ^ f.ebits
  if f.hasInf && ex = f.expMax then (if man = 0 then .inf neg else .nan)
  else if !f.hasInf && f.hasNan && ex = f.expMax && man = 2 ^ (f.p - 1) - 1 then .nan
  else if ex = 0 then .fin neg man f.qmin
  else .fin neg (2 ^ (f.p - 1) + man) (f.qmin + ex - 1)

/-- The exact value rounded once to FP32 (R178, R180). -/
def toF32 (x : Num) : Num := f32.dec (f32.enc x)

/-- Round an exact value to an integer, saturating between lo and hi; NaN gives 0 (R180). -/
def toIntSat (lo hi : Int) (x : Num) : Int :=
  match x with
  | .nan => 0
  | .inf n => if n then lo else hi
  | .fin n m e =>
    let k := if e ≥ 0 then m * pow2 e else rne m (-e).toNat false
    let v : Int := if n then -(k : Int) else k
    max lo (min hi v)

/-- A two's-complement pattern of `w` bits. -/
def toTwos (w : Nat) (v : Int) : Nat := (v % (2 ^ w : Nat)).toNat

/-! ### Elements -/

/-- The binary format of an element code (R175). -/
def elemFmt (c : Nat) : Option FFmt :=
  match c with
  | 1 => some f32
  | 2 => some bf16
  | 3 => some f16
  | 4 => some e4m3
  | 5 => some e5m2
  | _ => none

/-- Decode one element of code 0x01–0x07 from its little-endian pattern. -/
def elemDec (c b : Nat) : Num :=
  match elemFmt c with
  | some f => f.dec b
  | none => if c = 6 then .ofInt (sext 8 b) else .ofInt (sext 32 b)

/-- Encode one element of code 0x01–0x07 (R180). -/
def elemEnc (c : Nat) (x : Num) : Nat :=
  match elemFmt c with
  | some f => f.enc x
  | none =>
    if c = 6 then toTwos 8 (toIntSat (-128) 127 x) else toTwos 32 (toIntSat (-(2 ^ 31)) (2 ^ 31 - 1) x)

/-! ### Quern lanes and QW40 (R185–R190) -/

/-- V taken modulo 2^320 as a two's-complement integer (R185). -/
def wrap320 (v : Int) : Int :=
  let m := v % (2 ^ 320 : Nat)
  if m < (2 ^ 319 : Nat) then m else m - (2 ^ 320 : Nat)

/-- A finite value as a multiple of 2^−160, rounded once to nearest even (R181 step 2). -/
def toV (neg : Bool) (m : Nat) (e : Int) : Int :=
  let k : Nat := if e ≥ -160 then m * pow2 (e + 160) else rne m (-160 - e).toNat false
  if neg then -(k : Int) else k

/-- Add an exact value to a lane (R186). -/
def Lane.addNum (l : Lane) (x : Num) : Lane :=
  match x with
  | .nan => { l with nan := true, n := l.n + 1 }
  | .inf false => { l with pinf := true, n := l.n + 1 }
  | .inf true => { l with ninf := true, n := l.n + 1 }
  | .fin neg m e => { l with v := wrap320 (l.v + toV neg m e), n := l.n + 1 }

/-- A QW40 element's flags and V (R189). -/
def qwDec (b : Nat) : Lane :=
  if bits b 319 316 = 8 && bits b 315 3 = 0 && bits b 2 0 ≠ 0 then { nan := bit b 0, pinf := bit b 1, ninf := bit b 2 }
  else { v := sext 320 b }

/-- A lane's QW40 encoding (R189). -/
def Lane.qw (l : Lane) : Nat :=
  if l.nan || l.pinf || l.ninf then 8 * 2 ^ 316 + b2n l.nan + 2 * b2n l.pinf + 4 * b2n l.ninf
  else toTwos 320 l.v

/-- Add a QW40 addend (R190). -/
def Lane.addQw (l : Lane) (b : Nat) : Lane :=
  let a := qwDec b
  { v := wrap320 (l.v + a.v), nan := l.nan || a.nan, pinf := l.pinf || a.pinf, ninf := l.ninf || a.ninf, n := l.n + 1 }

/-- The single value a lane resolves to (R188); an exact zero is +0. -/
def Lane.value (l : Lane) : Num :=
  if l.nan || (l.pinf && l.ninf) then .nan
  else if l.pinf then .inf false
  else if l.ninf then .inf true
  else .ofDyadic l.v (-160)

/-! ### Block formats (R153–R157, R177) -/

/-- A codec table body for UZ-KC: its bytes and its codebook count. -/
structure KcTable where
  count : Nat := 0
  body : List Byte := []
  deriving DecidableEq, Repr

/-- Entry c of codebook B (R166). -/
def KcTable.entry (t : KcTable) (b c : Nat) : Num := bf16.dec (leAt t.body (32 * b + 2 * c) 2)

/-- Element format, element width and emax of an MX code (R177). -/
def mxFmt (c : Nat) : Option FFmt :=
  match c with
  | 0x10 => some e4m3
  | 0x11 => some e5m2
  | 0x12 => some e3m2
  | 0x13 => some e2m3
  | 0x14 => some e2m1
  | 0x23 => some e2m1
  | _ => none

/-- 32 elements under an E8M0 scale; scale 0xFF is NaN (R177). -/
def mxDec (f : FFmt) (scale : Nat) (codes : List Nat) : List Num :=
  codes.map (fun c => if scale = 0xFF then .nan else (f.dec c).scale ((scale : Int) - 127))

/-- Largest magnitude of a list of finite values. -/
def maxAbs (xs : List Num) : Num := xs.foldl (fun a x => if a.lt x.abs then x.abs else a) .zero

/-- The E8M0 scale of a block: ⌊log2 max|x|⌋ less the exponent of the largest power of two of the element format
(OCP Microscaling v1.0), held to 0–254; an all-zero block has none stated (log entry 12). -/
def mxScale (f : FFmt) (xs : List Num) : Nat :=
  match maxAbs xs with
  | .fin _ m e =>
    if m = 0 then min 254 Config.mxZeroScale.toNat
    else (max 0 (min 254 (e + Nat.log2 m - (f.topE + Nat.log2 f.top) + 127))).toNat
  | _ => 0xFF

/-- The saturating encoding of an element of an MX block (R157). -/
def mxElem (f : FFmt) (scale : Nat) (x : Num) : Nat :=
  match x.scale (127 - (scale : Int)) with
  | .fin n m e =>
    let (k, q) := f.grid m e false
    if k * pow2 (q - f.qmin) > f.top * pow2 (f.topE - f.qmin) then b2n n * 2 ^ (f.width - 1) + f.packTop
    else b2n n * 2 ^ (f.width - 1) + f.pack k q
  | _ => 0

/-- Put codes of `w` bits together, element 0 lowest. -/
def packCodes (w : Nat) (codes : List Nat) : Nat := codes.foldr (fun c acc => c % 2 ^ w + 2 ^ w * acc) 0

/-- Codes of `w` bits of a field. -/
def unpackCodes (w n v : Nat) : List Nat := (List.range n).map (fun i => v / 2 ^ (w * i) % 2 ^ w)

/-- A block whose codes are not stated, since its scale byte makes every element NaN (log entry 12). -/
def nanCodes (n : Nat) : List Byte := (List.range n).map Config.nanBlockByte

/-- Decode a 32-element block of codes 0x10–0x14 and 0x20–0x22 (R154, R177). -/
def blockDec (kc : KcTable) (c : Nat) (bytes : List Byte) : List Num :=
  match c with
  | 0x20 =>
    let s := leAt bytes 16 1
    let m := leAt bytes 17 1
    (unpackCodes 4 32 (leAt bytes 0 16)).zipIdx.map (fun (k, i) =>
      if s = 0xFF then .nan else (Num.ofInt (sext 4 k)).scale ((s : Int) - 127 - bits m (2 * (i / 8) + 1) (2 * (i / 8))))
  | 0x21 =>
    let s := leAt bytes 24 1
    let m := leAt bytes 25 1
    (unpackCodes 6 32 (leAt bytes 0 24)).zipIdx.map (fun (k, i) =>
      if s = 0xFF then .nan else (Num.ofInt (sext 6 k)).scale ((s : Int) - 127 - bits m (2 * (i / 8) + 1) (2 * (i / 8))))
  | 0x22 =>
    let s := leAt bytes 16 1
    let b := leAt bytes 17 1
    (unpackCodes 4 32 (leAt bytes 0 16)).map (fun k =>
      if s = 0xFF || b ≥ kc.count then .nan else (kc.entry b k).scale ((s : Int) - 127))
  | _ =>
    match mxFmt c with
    | some f =>
      let w := f.width
      mxDec f (leAt bytes (4 * w) 1) (unpackCodes w 32 (leAt bytes 0 (4 * w)))
    | none => []

/-- The least n from 0 to `most` with `p n`. -/
def leastFrom (p : Nat → Bool) (k left : Nat) : Option Nat :=
  match left with
  | 0 => none
  | left + 1 => if p k then some k else leastFrom p (k + 1) left

/-- x ≤ q × 2^k for a magnitude x. -/
def fitsIn (x : Num) (q : Nat) (k : Int) : Bool := !((Num.fin false q k).lt x)

/-- UZ-K4 and UZ-K6 encoding (R157): Q, code width and the 32 finite inputs. -/
def uzkEnc (q w : Nat) (xs : List Num) : List Byte :=
  let s := (leastFrom (fun s => fitsIn (maxAbs xs) q ((s : Int) - 127)) 0 255).getD 254
  let mj : List Nat := (List.range 4).map (fun j =>
    let a := maxAbs ((xs.drop (8 * j)).take 8)
    ([3, 2, 1].find? (fun (m : Nat) => fitsIn a q ((s : Int) - 127 - m))).getD 0)
  let codes := xs.zipIdx.map (fun (x, i) =>
    toTwos w (toIntSat (-(q : Int)) q (x.scale (127 + ((mj.getD (i / 8) 0 : Nat) : Int) - s))))
  leBytes (4 * w) (packCodes w codes) ++ leBytes 1 s ++
    leBytes 1 (packCodes 2 mj)

/-- Squared distance of two finite values, as a mantissa at exponent `q` each, times 2^(2q). -/
def sqErr (x y : Num) (q : Int) : Nat :=
  match x, y with
  | .fin a m e, .fin b n f => (mantAt a m e q - mantAt b n f q).natAbs ^ 2
  | _, _ => 0

/-- The least exponent among finite values. -/
def minExp (xs : List Num) : Int :=
  xs.foldl (fun a x => match x with | .fin _ m e => if m = 0 then a else min a e | _ => a) 0

/-- One codebook's try at a UZ-KC block: scale, codes and sum of squared errors (R157); none when an entry is not finite (log
entry 12), or when no scale of 0 to 254 reaches max|x|, unless the block saturates at the last one (R180). -/
def kcTry (t : KcTable) (b : Nat) (xs : List Num) (sat : Bool) : Option (Nat × List Nat × Nat × Int) :=
  let cb := (List.range 16).map (t.entry b)
  if cb.any Num.special then none
  else
    match (leastFrom (fun s => !(((maxAbs cb).scale ((s : Int) - 127)).lt (maxAbs xs))) 0 255).or
        (if sat then some 254 else none) with
    | none => none
    | some s =>
      let vals := cb.map (fun v => v.scale ((s : Int) - 127))
      let q := min (minExp vals) (minExp xs)
      let best := xs.map (fun x =>
        vals.zipIdx.foldl (fun (acc : Nat × Nat) (v : Num × Nat) =>
          let d := sqErr x v.1 q
          if v.2 = 0 || d < acc.2 then (v.2, d) else acc) (0, 0))
      some (s, best.map Prod.fst, (best.map Prod.snd).foldl (· + ·) 0, q)

/-- The codebook of least squared error, the lowest of equal ones, among those that take a block (R157). -/
def kcBest (t : KcTable) (xs : List Num) (sat : Bool) : Option (Nat × Nat × List Nat × Nat × Int) :=
  (List.range t.count).foldl (fun (acc : Option (Nat × Nat × List Nat × Nat × Int)) b =>
    match kcTry t b xs sat, acc with
    | none, a => a
    | some (s, cs, d, q), none => some (b, s, cs, d, q)
    | some (s, cs, d, q), some (b0, s0, cs0, d0, q0) =>
      let m := min q q0
      if d * pow2 (2 * (q - m)) < d0 * pow2 (2 * (q0 - m)) then some (b, s, cs, d, q) else some (b0, s0, cs0, d0, q0)) none

/-- UZ-KC encoding (R157). A block beyond the reach of every codebook saturates at the largest scale (R180). -/
def kcEnc (t : KcTable) (xs : List Num) : List Byte :=
  match (kcBest t xs false).or (kcBest t xs true) with
  | some (b, s, cs, _, _) => leBytes 16 (packCodes 4 cs) ++ leBytes 1 s ++ leBytes 1 b
  | none => nanCodes 18

/-- Encode 32 FP32-valued inputs into a block of codes 0x10–0x14 and 0x20–0x22; the flag says that the block was written
as NaN (R157). -/
def blockEnc (kc : KcTable) (c : Nat) (xs : List Num) : List Byte × Bool :=
  let bad := xs.any Num.special
  match c with
  | 0x20 => if bad then (nanCodes 16 ++ [0xFF] ++ (nanCodes 18).drop 17, true) else (uzkEnc 7 4 xs, false)
  | 0x21 => if bad then (nanCodes 24 ++ [0xFF] ++ (nanCodes 26).drop 25, true) else (uzkEnc 31 6 xs, false)
  | 0x22 => if bad then (nanCodes 16 ++ [0xFF] ++ (nanCodes 18).drop 17, true) else (kcEnc kc xs, false)
  | _ =>
    match mxFmt c with
    | some f =>
      let w := f.width
      if bad then (nanCodes (4 * w) ++ [0xFF], true)
      else
        let s := mxScale f xs
        (leBytes (4 * w) (packCodes w (xs.map (mxElem f s))) ++ leBytes 1 s, false)
    | none => ([], false)

/-- Cut a list into pieces of n. -/
def chunks {α : Type} (n : Nat) (l : List α) : List (List α) :=
  (List.range (ceilDiv l.length n)).map (fun i => (l.drop (n * i)).take n)

/-- A UZ-W4 engine tile's 30,720 elements, row-major (R156). -/
def w4Dec (bytes : List Byte) : List Num :=
  ((List.range 120).map (fun r =>
    ((List.range 8).map (fun b =>
      mxDec e2m1 (leAt bytes (15360 + 8 * r + b) 1) (unpackCodes 4 32 (leAt bytes (128 * r + 16 * b) 16)))).flatten)).flatten

/-- Encode 30,720 inputs as a UZ-W4 tile; the number says how many blocks were written as NaN (R156, R157). -/
def w4Enc (xs : List Num) : List Byte × Nat :=
  let blocks := (chunks 32 xs).map (fun b =>
    if b.any Num.special then (nanCodes 16, (0xFF : Nat), 1)
    else let s := mxScale e2m1 b; (leBytes 16 (packCodes 4 (b.map (mxElem e2m1 s))), s, 0))
  ((blocks.map (fun b => b.1)).flatten ++ blocks.map (fun b => BitVec.ofNat 8 b.2.1) ++ List.replicate 64 0,
    (blocks.map (fun b => b.2.2)).foldl (· + ·) 0)

/-- Decode one unit of a format other than BYTES and QW40 into exact values. -/
def unitDec (kc : KcTable) (c : Nat) (bytes : List Byte) : List Num :=
  if c = 0x23 then w4Dec bytes
  else if c = fmtQw then [(qwDec (leAt bytes 0 40)).value]
  else if c ≤ 7 then [elemDec c (leAt bytes 0 bytes.length)]
  else blockDec kc c bytes

/-- Decode a byte range of whole units (R152, R181 step 1). -/
def rangeDec (kc : KcTable) (c : Nat) (bytes : List Byte) : List Num :=
  match fmtUnit c with
  | some (_, b) => ((chunks b bytes).map (unitDec kc c)).flatten
  | none => []

/-- Encode FP32-valued elements as a byte range of whole units; the number counts NaN blocks (R157, R181 step 3). -/
def rangeEnc (kc : KcTable) (c : Nat) (xs : List Num) : List Byte × Nat :=
  match fmtUnit c with
  | some (n, b) =>
    if c = 0x23 then
      let us := (chunks n xs).map w4Enc
      ((us.map Prod.fst).flatten, (us.map Prod.snd).foldl (· + ·) 0)
    else if c ≤ 7 then ((xs.map (fun x => leBytes b (elemEnc c x))).flatten, 0)
    else
      let us := (chunks n xs).map (blockEnc kc c)
      ((us.map Prod.fst).flatten, (us.filter Prod.snd).length)
  | none => ([], 0)

/-- An exact value as a QW40 element (R181 step 2, R189); one too large for V wraps as sums do (R186; log entry 198). -/
def qwOfNum (x : Num) : List Byte := leBytes 40 (({} : Lane).addNum x).qw

/-- A conversion of whole source units (R181): equal codes copy unchanged. -/
def convert (kcS kcD : KcTable) (sf df : Nat) (bytes : List Byte) : List Byte × Nat :=
  if sf = df then (bytes, 0)
  else if df = fmtQw then (((rangeDec kcS sf bytes).map qwOfNum).flatten, 0)
  else rangeEnc kcD df ((rangeDec kcS sf bytes).map toF32)

/-! ### FP32 operations of the vector unit (R184) on bit patterns -/

def add32 (a b : Nat) : Nat := f32.enc ((f32.dec a).add (f32.dec b))
def sub32 (a b : Nat) : Nat := f32.enc ((f32.dec a).add (f32.dec b).negate)
def mul32 (a b : Nat) : Nat := f32.enc ((f32.dec a).mul (f32.dec b))
/-- a × b + c with one rounding. -/
def fma32 (a b c : Nat) : Nat := f32.enc (((f32.dec a).mul (f32.dec b)).add (f32.dec c))

/-- Correctly rounded quotient of two finite non-zero magnitudes. -/
def quot32 (neg : Bool) (m : Nat) (e : Int) (n : Nat) (f : Int) : Nat :=
  let t := m * 2 ^ (Nat.log2 n + 64)
  f32.enc (.fin neg (2 * (t / n) + b2n (t % n ≠ 0)) (e - f - (Nat.log2 n + 64 : Nat) - 1))

def div32 (a b : Nat) : Nat :=
  match f32.dec a, f32.dec b with
  | .nan, _ => f32.packNan
  | _, .nan => f32.packNan
  | .inf _, .inf _ => f32.packNan
  | .inf x, .fin y _ _ => f32.enc (.inf (x != y))
  | .fin x _ _, .inf y => f32.enc (.fin (x != y) 0 0)
  | .fin x m e, .fin y n f =>
    if n = 0 then (if m = 0 then f32.packNan else f32.enc (.inf (x != y)))
    else if m = 0 then f32.enc (.fin (x != y) 0 0)
    else quot32 (x != y) m e n f

/-- Integer square root: the bits from 2^(i − 1) down. -/
def isqrtGo (m : Nat) : Nat → Nat → Nat
  | 0, r => r
  | i + 1, r => isqrtGo m i (if (r + 2 ^ i) * (r + 2 ^ i) ≤ m then r + 2 ^ i else r)

def isqrt (m : Nat) : Nat := isqrtGo m (Nat.log2 m / 2 + 1) 0

/-- Square root of m × 2^e with a sticky bit below: n × 2^q. -/
def sqrtNum (m : Nat) (e : Int) : Num :=
  let sh : Nat := if (e % 2 = 0) then 128 else 129
  let t := m * 2 ^ sh
  let r := isqrt t
  .fin false (2 * r + b2n (r * r ≠ t)) ((e - sh) / 2 - 1)

def sqrt32 (a : Nat) : Nat :=
  match f32.dec a with
  | .nan => f32.packNan
  | .inf n => if n then f32.packNan else a
  | .fin n m e => if m = 0 then a else if n then f32.packNan else f32.enc (sqrtNum m e)

/-- The result of an operation the spec states none of: a free value; a NaN among them is the canonical one (R179; log entry
13). -/
def vecFree (op a : Nat) : Nat := f32.enc (f32.dec (Config.vecOpen op a).toNat)

/-- ln 2 × 2^240, rounded down. -/
def ln2 : Nat :=
  0xb17217f7d1cf79abc9e3b39803f2f6af40f343267298b62d8a0d175b8baa

/-- Fraction bits of the fixed-point work for exp2 and log2 (log entry 13). -/
def fxp : Nat := 240

/-- Taylor terms of e^y at y × 2^−240: the running term and the sum. -/
def expGo (y : Nat) : Nat → Nat → Nat → Nat → Nat
  | 0, _, _, acc => acc
  | k + 1, i, term, acc => let t := term * y / 2 ^ fxp / i; expGo y k (i + 1) t (acc + t)

/-- exp2 of an FP32 pattern, correctly rounded (R184). NaN gives NaN; +Inf gives +Inf and −Inf gives +0, the limits. -/
def exp232 (a : Nat) : Nat :=
  match f32.dec a with
  | .nan => f32.packNan
  | .inf n => if n then 0 else f32.enc (.inf false)
  | .fin n m e =>
    if m = 0 then f32.enc (.fin false 1 0)
    else
      -- x as a multiple of 2^−149: integer part and fraction
      let v : Int := mantAt n m e (-149)
      let ip := v / (2 ^ 149 : Nat)
      let fr := (v % (2 ^ 149 : Nat)).toNat
      if ip > 200 then f32.enc (.inf false)
      else if ip < -200 then f32.enc (.fin false 1 (-300))
      else if fr = 0 then f32.enc (.fin false 1 ip)
      else
        let y := fr * ln2 / 2 ^ 149
        let r := expGo y 60 1 (2 ^ fxp) (2 ^ fxp)
        f32.enc (.fin false (2 * r + 1) (ip - fxp - 1))

/-- Odd-power terms of atanh z at z × 2^−240. -/
def atanhGo (z2 : Nat) : Nat → Nat → Nat → Nat → Nat
  | 0, _, _, acc => acc
  | k + 1, i, pw, acc => let p := pw * z2 / 2 ^ fxp; atanhGo z2 k (i + 2) p (acc + p / i)

/-- ln (f / g) × 2^240 for g ≤ f ≤ 2g, by 2 atanh ((f − g) ÷ (f + g)). -/
def lnRatio (f g : Nat) : Nat :=
  let z := (f - g) * 2 ^ fxp / (f + g)
  2 * atanhGo (z * z / 2 ^ fxp) 80 3 z z

/-- log2 of an FP32 pattern, correctly rounded (R184). The spec states no result for zero and negative numbers: a free
value (log entry 13). +∞ gives +∞ (log entry 199). -/
def log232 (a : Nat) : Nat :=
  match f32.dec a with
  | .nan => f32.packNan
  | .inf n => if n then vecFree 1 a else a
  | .fin n m e =>
    if m = 0 || n then vecFree 1 a
    else
      let k := Nat.log2 m
      let ex : Int := e + k
      if m = 2 ^ k then f32.enc (.ofInt ex)
      else
        -- log2 m = k + ln (m ÷ 2^k) ÷ ln 2
        let fr := lnRatio m (2 ^ k) * 2 ^ fxp / ln2
        let v : Int := ex * (2 ^ fxp : Nat) + fr
        if v ≥ 0 then f32.enc (.fin false (2 * v.natAbs + 1) (-(fxp : Int) - 1))
        else f32.enc (.fin true (2 * v.natAbs - 1) (-(fxp : Int) - 1))

/-- Reciprocal (R184): the quotient 1 ÷ x; zero has none stated (log entry 13), and ±∞ gives ±0 (log entry 199). -/
def rcp32 (a : Nat) : Nat :=
  match f32.dec a with
  | .nan => f32.packNan
  | .inf n => f32.enc (.fin n 0 0)
  | .fin n m e => if m = 0 then vecFree 2 a else quot32 n 1 0 m e

/-- Reciprocal square root (R184); zero and negative numbers have none stated (log entry 13), and +∞ gives +0 (log entry
199). -/
def rsqrt32 (a : Nat) : Nat :=
  match f32.dec a with
  | .nan => f32.packNan
  | .inf n => if n then vecFree 3 a else 0
  | .fin n m e =>
    if m = 0 || n then vecFree 3 a
    else
      -- 1 ÷ √(m 2^e) = √(2^(2k) ÷ m) × 2^(−k − e ÷ 2), e made even
      let (m, e) := if e % 2 = 0 then (m, e) else (2 * m, e - 1)
      let t := 2 ^ 240 / m
      let r := isqrt t
      f32.enc (.fin false (2 * r + b2n (r * r * m ≠ 2 ^ 240)) (-120 - e / 2 - 1))

/-- max and min: the canonical NaN when either is NaN, +0 above −0 (R184). -/
def max32 (a b : Nat) : Nat :=
  let x := f32.dec a
  let y := f32.dec b
  if x.isNan || y.isNan then f32.packNan
  else if x.lt y then b
  else if y.lt x then a
  else if x.isNeg then b else a

def min32 (a b : Nat) : Nat :=
  let x := f32.dec a
  let y := f32.dec b
  if x.isNan || y.isNan then f32.packNan
  else if x.lt y then a
  else if y.lt x then b
  else if x.isNeg then a else b

/-! ### The MAC group (R182, R183) -/

/-- One group: acc plus the exact products, rounded once to FP32. -/
def macGroup (acc : Num) (ps : List Num) : Num := toF32 (ps.foldl Num.add acc)

/-- One output of a MAC tile: groups of g products in order (R182). -/
def macDot (g : Nat) (c0 : Num) (a b : List Num) : Num :=
  (chunks g (List.zipWith Num.mul a b)).foldl macGroup c0

/-- One output of the integer MAC, modulo 2^32 (R183). -/
def macDotInt (c0 : Nat) (a b : List Int) : Nat :=
  toTwos 32 ((List.zipWith (· * ·) a b).foldl (· + ·) (sext 32 c0))

end Sys2Proof.Machine
end

