-- ==== Sys2Proof/Machine/Codec.lean ====
section
/-! DEFINITION. The LP page codec and table images (R160–R167), and the checksums the records use. -/

namespace Sys2Proof.Machine

/-! ### Checksums -/

/-- One bit of a reflected CRC with polynomial `poly`. -/
def crcBit (poly c : Nat) : Nat := if c % 2 = 1 then Nat.xor (c / 2) poly else c / 2

/-- One byte of a reflected CRC. -/
def crcByte (poly c : Nat) (b : Byte) : Nat :=
  (List.range 8).foldl (fun c _ => crcBit poly c) (Nat.xor c b.toNat)

/-- CRC-32C (Castagnoli, reflected, all-ones start and final complement; log entry 14). -/
def crc32c (l : List Byte) : Nat :=
  Nat.xor (l.foldl (crcByte 0x82F63B78) 0xFFFFFFFF) 0xFFFFFFFF

/-! ### Canonical codes (R162) -/

/-- The 272 code lengths of context set `ctx` of an LP body: two to a byte, the lower symbol in bits [3:0] (R166). -/
def lpLens (body : List Byte) (ctx : Nat) : List Nat :=
  (((body.drop (136 * ctx)).take 136).map (fun b => [b.toNat % 16, b.toNat / 16])).flatten

/-- Symbols of length `len`, with codes from `code` up. -/
def lpAtLen (lens : List Nat) (len code : Nat) : List (Nat × Nat × Nat) :=
  ((lens.zipIdx.filter (fun p => p.1 = len)).zipIdx).map (fun p => (p.1.2, len, code + p.2))

/-- All codes, in ascending length and, within one length, ascending symbol: (symbol, length, code). -/
def lpCodesGo (lens : List Nat) : Nat → Nat → Nat → List (Nat × Nat × Nat)
  | 0, _, _ => []
  | k + 1, len, code =>
    let here := lpAtLen lens len code
    here ++ lpCodesGo lens k (len + 1) (2 * (code + here.length))

def lpCodes (lens : List Nat) : List (Nat × Nat × Nat) := lpCodesGo lens 15 1 0

/-- An LP set is a complete prefix code with symbol 271: its lengths sum to exactly 1 as 2^−length (R167). -/
def lpSetOk (lens : List Nat) : Bool :=
  (lens.foldl (fun a l => if l = 0 then a else a + 2 ^ (15 - l)) 0 = 2 ^ 15) && lens.getD 271 0 ≠ 0

/-- The bits of a code, its first bit the most significant. -/
def codeBits (len code : Nat) : List Bool := (List.range len).map (fun i => bit code (len - 1 - i))

/-- Bits into bytes, from bit 0 of each byte upward, padded with zero bits. -/
def bitsToBytes (l : List Bool) : List Byte :=
  (chunks 8 l).map (fun c => BitVec.ofNat 8 (c.foldr (fun b a => b2n b + 2 * a) 0))

/-- The bits of a byte stream. -/
def bytesToBits (l : List Byte) : List Bool := (l.map (fun b => (List.range 8).map (fun i => bit b.toNat i))).flatten

/-! ### The encoder (R164) -/

/-- Length of the run of zero bytes at the front. -/
def zeroRun : List Byte → Nat
  | [] => 0
  | b :: rest => if b = 0 then zeroRun rest + 1 else 0

/-- The code of a symbol in a context, if present. -/
def lpFind (tabs : List (List (Nat × Nat × Nat))) (off sym : Nat) : Option (List Bool) :=
  ((tabs.getD (off % 4) []).find? (fun p => p.1 = sym)).map (fun p => codeBits p.2.1 p.2.2)

/-- Literals for `n` bytes; none when a needed literal is absent. -/
def lpLits (tabs : List (List (Nat × Nat × Nat))) : Nat → Nat → List Byte → Option (List Bool)
  | 0, _, _ => some []
  | _, _, [] => some []
  | n + 1, off, b :: rest =>
    match lpFind tabs off b.toNat, lpLits tabs n (off + 1) rest with
    | some c, some r => some (c ++ r)
    | _, _ => none

/-- The coded page from offset `off` on; none when a needed literal is absent. -/
def lpEncGo (tabs : List (List (Nat × Nat × Nat))) : Nat → Nat → List Byte → Option (List Bool)
  | 0, _, _ => none
  | fuel + 1, off, l =>
    match l with
    | [] => lpFind tabs off 271
    | _ =>
      let r := zeroRun l
      let k := min (Nat.log2 r) 15
      let n := if r ≥ 2 then 2 ^ k else 1
      let here :=
        if r ≥ 2 then
          match lpFind tabs off (255 + k) with
          | some c => some c
          | none => lpLits tabs n off l
        else lpLits tabs 1 off l
      match here, lpEncGo tabs fuel (off + n) (l.drop n) with
      | some c, some rest => some (c ++ rest)
      | _, _ => none

/-- The LP form of a page: its bytes (header and stream), or none when it must be stored RAW (R163, R164). -/
def lpEncode (body : List Byte) (cls : Nat) (page : List Byte) : Option (List Byte) :=
  let tabs := (List.range 4).map (fun c => lpCodes (lpLens body c))
  match lpEncGo tabs (page.length + 1) 0 page with
  | some b =>
    let out := leBytes 4 65536 ++ leBytes 4 (crc32c page) ++ List.replicate 8 0 ++ bitsToBytes b
    if out.length ≤ cls * 4096 then some out else none
  | none => none

/-! ### The decoder (R165) -/

/-- Read one symbol: at most 15 bits. -/
def lpSym (tab : List (Nat × Nat × Nat)) : Nat → Nat → Nat → List Bool → Option (Nat × List Bool)
  | 0, _, _, _ => none
  | _, _, _, [] => none
  | k + 1, len, code, b :: rest =>
    let code := 2 * code + b2n b
    match tab.find? (fun p => p.2.1 = len + 1 && p.2.2 = code) with
    | some p => some (p.1, rest)
    | none => lpSym tab k (len + 1) code rest

/-- Decode symbols until the end of the page or an event that poisons it: the output, and the event's detail. A run that
would pass the page's end stops there. -/
def lpDecGo (tabs : List (List (Nat × Nat × Nat))) : Nat → Nat → List Bool → List Byte × Option Nat
  | 0, _, _ => ([], some 0x0601)
  | fuel + 1, off, l =>
    match lpSym (tabs.getD (off % 4) []) 15 0 0 l with
    | none => ([], some 0x0603)
    | some (s, rest) =>
      if s = 271 then ([], if off = 65536 then none else some 0x0602)
      else
        let n := if s < 256 then 1 else 2 ^ (s - 255)
        let here := (if s < 256 then [BitVec.ofNat 8 s] else List.replicate n 0).take (65536 - off)
        if off + n > 65536 then (here, some 0x0601)
        else
          let (out, d) := lpDecGo tabs fuel (off + n) rest
          (here ++ out, d)

/-- Decode a stored page that is not RAW: its 65,536 bytes, or what of them the event that poisons it leaves, with the
event's detail (R165). -/
def lpDecode (body : List Byte) (cls : Nat) (stored : List Byte) : List Byte × Option Nat :=
  if leAt stored 0 4 ≠ 65536 || leAt stored 8 8 ≠ 0 then ([], some 0x0603)
  else
    let tabs := (List.range 4).map (fun c => lpCodes (lpLens body c))
    match lpDecGo tabs 65537 0 (bytesToBits ((stored.take (cls * 4096)).drop 16)) with
    | (_, some 0x0603) => ([], some 0x0603)
    | (out, some d) => (out, some d)
    | (out, none) => (out, if crc32c out = leAt stored 4 4 then none else some 0x0604)

/-! ### Table images (R166, R167) -/

/-- Fields of a table image's header. -/
structure TabImg where
  ident : Nat
  kind : Nat
  cls : Nat
  count : Nat
  bodyLen : Nat
  crc : Nat
  res : Bool
  body : List Byte
  deriving DecidableEq, Repr

def tabImg (b : List Byte) : TabImg :=
  { ident := leAt b 0 4, kind := leAt b 4 1, cls := leAt b 5 1, count := leAt b 6 2, bodyLen := leAt b 8 4,
    crc := leAt b 12 4, res := ((b.take 64).drop 16).any (· ≠ 0), body := b.drop 64 }

/-- R167 accepts the image for `len` bytes and the kind the descriptor names. -/
def TabImg.good (t : TabImg) (len kind : Nat) : Bool :=
  len = 64 + t.bodyLen && t.kind = kind && t.ident ≠ 0 && !t.res && crc32c t.body = t.crc &&
  (match t.kind with
   | 0 => t.bodyLen = 0
   | 1 => 1 ≤ t.cls && t.cls ≤ 16 && t.count = 4 && t.bodyLen = 544 &&
       (List.range 4).all (fun c => lpSetOk (lpLens t.body c))
   | 2 => t.cls = 0 && 1 ≤ t.count && t.count ≤ 256 && t.bodyLen = 32 * t.count
   | _ => false)

end Sys2Proof.Machine
end

