-- ==== Sys2Proof/Machine/Gates.lean ====
section
/-! DEFINITION. Gate entries and the targets they act on (R139, R142). -/

namespace Sys2Proof.Machine

/-- A job slot beside its registers. -/
def State.job (s : State) (j : Nat) : Job := s.time.jobs.rd {} j

/-- The slot of a live job (R126). -/
def State.jobSlot (s : State) (job : Nat) : Option Nat :=
  if job = 0xFFFF then none
  else (List.range 64).find? (fun j => (s.job j).live && s.fld F.timeJobCtlJob j = job)

/-! ### Gate entries (R139, R141) -/

def Gate.valid (g : Gate) : Bool := bit g.w0.toNat 32
def Gate.every (g : Gate) : Bool := bit g.w0.toNat 33
def Gate.oneStep (g : Gate) : Bool := bit g.w0.toNat 34
def Gate.kind (g : Gate) : Nat := bits g.w0.toNat 37 35
def Gate.target (g : Gate) : Nat := bits g.w0.toNat 63 40
def Gate.openLayer (g : Gate) : Nat := bits g.w0.toNat 11 0
def Gate.openPhase (g : Gate) : Nat := bits g.w0.toNat 15 12
def Gate.closeLayer (g : Gate) : Nat := bits g.w0.toNat 27 16
def Gate.closePhase (g : Gate) : Nat := bits g.w0.toNat 31 28

/-- The target of an entry lies in a block held in reset: the module's switch and copy engines with the whole module, a
queue also with its output port or that port's quadrant (R145). -/
def State.gateHeld (s : State) (g : Gate) : Bool :=
  let n := bits g.target 15 10
  s.rst.active || (g.kind = 0 && (bit (s.fld F.rstBlkPortAssert) n || (s.fab.ports.rd {} n).blockAt.isSome ||
    s.rst.quads.getLsbD (n / 16)))

/-- Valid entries of live jobs with a kind and target: 1,024 × slot + entry, and the gate. Kind 2 belongs to one slot. An
entry whose target is held in reset has no effect (R145). -/
def State.gatesFor (s : State) (kind : Nat) (p : Nat → Gate → Bool) : List (Nat × Gate) :=
  (s.time.jobs.map (fun j =>
    if j.2.live then
      (j.2.gates.filter (fun g => g.2.valid && g.2.kind = kind && p j.1 g.2 && !(s.gateHeld g.2))).map (fun g => (1024 * j.1 + g.1, g.2))
    else [])).flatten

/-- Entries that name a scheduler queue (R139). -/
def State.queueGates (s : State) (port tenant tc : Nat) : List (Nat × Gate) :=
  s.gatesFor 0 (fun _ g => bits g.target 7 0 = tenant && bits g.target 9 8 = tc && bits g.target 15 10 = port)

/-- Entries that name a weight window. -/
def State.winGates (s : State) (w : Nat) : List (Nat × Gate) := s.gatesFor 1 (fun _ g => bits g.target 3 0 = w)

/-- Entries of a job's paced promotions. -/
def State.pacedGates (s : State) (slot : Nat) : List (Nat × Gate) := s.gatesFor 2 (fun j _ => j = slot)

/-- A target may start a unit: it is ungated, or an entry of it is open and outside its guard band (R142). -/
def gatesAllow (l : List (Nat × Gate)) : Bool := l.isEmpty || l.any (fun g => g.2.inst.isSome && !g.2.guard)

/-- The entries that act on a move's copies: those of the job of a paced PROMOTE (R139). -/
def State.moveGates (s : State) (k : Nat) : List (Nat × Gate) :=
  match (s.tier.moves.look k).bind (fun m => m.paced) with
  | some (_, _, job, _) => (match s.jobSlot job with | some j => s.pacedGates j | none => [])
  | none => []

/-- Source numbers of the scheduler: weight windows and moves (R323). -/
def srcWin (w : Nat) : Nat := 0x100000000 + w
def srcMove (k : Nat) : Nat := 0x200000000 + k

/-- The entries that act on a move source of the scheduler (R139, R332). -/
def State.sourceGates (s : State) (src : Nat) : List (Nat × Gate) :=
  if srcMove 0 ≤ src then s.moveGates (src - srcMove 0)
  else if srcWin 0 ≤ src then s.winGates (src - srcWin 0)
  else []

/-- The number of a scheduler queue: output port, tenant, class (R323). -/
def schedKey (port tenant tc : Nat) : Nat := 1024 * port + 4 * tenant + tc

end Sys2Proof.Machine
end

