-- ==== Sys2Proof/Machine/Send.lean ====
section
/-! DEFINITION. What the module sends as a source: requests on its own streams (R273, R277–R281, R289–R293), reads and
writes of endpoint memory (R25, R26, R287, R455), and messages in answer. -/

namespace Sys2Proof.Machine

/-! ### Ports, streams, endpoints -/

/-- This module's ID (R310). -/
def State.self (s : State) : Nat := s.fld F.mapCtlModuleId

/-- The module's ID as an endpoint (R272). -/
def State.selfEp (s : State) : Ep := BitVec.ofNat 16 s.self

/-- A port's state. -/
def State.port (s : State) (n : Nat) : PortSt := s.fab.ports.rd {} n

/-- Change a port's state. -/
def State.modPort (s : State) (n : Nat) (f : PortSt → PortSt) : State :=
  { s with fab := { s.fab with ports := Tbl.upd {} n f s.fab.ports } }

/-- Port roles (R308): 0 ULP, 1 CXL-down, 2 CXL-up, 3 unused. -/
def roleUlp : Nat := 0
def roleDown : Nat := 1
def roleUp : Nat := 2

/-- A pointer's port may hold rings and buffers: its applied role is ULP or CXL-up (R25, R53). -/
def State.epPort (s : State) (n : Nat) : Bool := (s.port n).role = roleUlp || (s.port n).role = roleUp

/-- The key of a stream table: endpoint and class. -/
def streamKey (ep tc : Nat) : Nat := 4 * ep + tc

/-- A stream this module sends. -/
def State.tx (s : State) (ep tc : Nat) : TxStream := s.fab.tx.rd {} (streamKey ep tc)

/-- Change a stream this module sends. -/
def State.modTx (s : State) (ep tc : Nat) (f : TxStream → TxStream) : State :=
  { s with fab := { s.fab with tx := Tbl.upd {} (streamKey ep tc) f s.fab.tx } }

/-- A stream this module receives. -/
def State.rx (s : State) (ep tc : Nat) : RxStream := s.fab.rx.rd {} (streamKey ep tc)

/-- Change a stream this module receives. -/
def State.modRx (s : State) (ep tc : Nat) (f : RxStream → RxStream) : State :=
  { s with fab := { s.fab with rx := Tbl.upd {} (streamKey ep tc) f s.fab.rx } }

/-- The index of the first PORT_EP entry of a port, from `k` on, that `p` accepts. -/
def State.epEntryGo (s : State) (n : Nat) (p : Nat → Bool) : Nat → Nat → Option Nat
  | 0, _ => none
  | left + 1, k => if s.flag F.portEpValid n k && p k then some k else State.epEntryGo s n p left (k + 1)

/-- The endpoint that a tenant's pointers behind port `n` reach: the port's first entry that acts for the tenant; without
one, the link partner, 0xFFFF (R272; log entry 11). On a CXL-up port it is entry 0's endpoint (R301). -/
def State.epAt (s : State) (n tenant : Nat) : Nat :=
  if (s.port n).role = roleUp then s.fld F.portEpEp n 0
  else
    match s.epEntryGo n (fun k => s.fld F.portEpTenant n k = tenant) 16 0 with
    | some k => s.fld F.portEpEp n k
    | none => 0xFFFF

/-- A port is held, or in block reset, whose requests are handled as a held port's (R306, R390). -/
def State.shut (s : State) (n : Nat) : Bool :=
  (s.port n).st = .held || bit (s.fld F.rstBlkPortAssert) n || (s.port n).blockAt.isSome

/-- The key of a stream: its triple (R273). -/
def tripleKey (src dst tc : Nat) : Nat := 4 * (65536 * src + dst) + tc

/-- The key of the route entry of a module toward another (R291). -/
def routeKey (m d : Nat) : Nat := 4096 * m + d

/-- The live next hops of this module's route entry toward a module (R294). -/
def State.liveHops (s : State) (m : Nat) : List Nat :=
  (((s.fab.map.routes.look (routeKey s.self m)).getD []).map (fun p => p.val)).filter (fun p => (s.port p).st = .up && !(s.shut p))

/-- No port: no hop toward a module is live. -/
def noPort : Nat := 64

/-- The next hop of a stream toward another module: the hash of its triple over the live hops (R294). -/
def State.portTo (s : State) (m src tc : Nat) : Nat :=
  let hops := s.liveHops m
  if hops.isEmpty then noPort else hops.getD (Config.streamHash src m tc % hops.length) noPort

/-- The port by which an endpoint is reached: a module's by its route, another's by the PORT_EP entry that names it. -/
def State.outPort (s : State) (ep src tc : Nat) : Nat :=
  if ep < 0x1000 then s.portTo ep src tc
  else
    match (List.range 64).find? (fun n => (s.epEntryGo n (fun k => s.fld F.portEpEp n k = ep) 16 0).isSome) with
    | some n => n
    | none => noPort

/-- The hop and the last number of a stream toward another module are noted (R295). -/
def State.notePath (s : State) (src m tc n : Nat) (seq : W32) : State :=
  { s with fab := { s.fab with paths := Tbl.ins (tripleKey src m tc) (n, seq) s.fab.paths } }

/-- Bytes of a message with header and extension (R275, R313); of a full map, whose encoding is not given, the header's. -/
def Out.bytes : Out → Nat
  | .msg _ _ h data => 32 + 16 * b2n h.ext + data.length
  | .fullMap _ h _ => 32 + 16 * b2n h.ext
  | _ => 0

/-- The class whose credits a message takes (R274). -/
def Out.tc : Out → Nat
  | .msg _ _ h _ => h.tc.val
  | .fullMap _ h _ => h.tc.val
  | _ => 3

/-- The link of a ULP port holds credits for `b` bytes of a class (R274, R324). -/
def State.hasCredit (s : State) (n tc b : Nat) : Bool :=
  (s.port n).role ≠ roleUlp || (s.port n).credTx.getD tc 0 + ceilDiv b 256 ≤ Config.linkCredits tc

/-- The number of a key slot: kind, index (tier slot, port, manager), slot of a port (R374). -/
def keyNo (kind idx kslot : Nat) : Nat := 4096 * kind + 2 * idx + kslot

/-- A frame counter rises; at 2^47 REKEY is set, and at 2^48 the link is down: it has to train before anything else (R378).
Counters stand in the order: transmit slots, receive slots. -/
def State.countFrame (s : State) (n k : Nat) : State :=
  let c := (s.port n).ctr.getD k 0 + 1
  let s := s.modPort n (fun p => { p with ctr := listMod p.ctr k (fun _ => c) })
  let s := s.when (c = 2 ^ 47) (fun s => s.setFld F.secStsRekey 1)
  s.when (c ≥ 2 ^ 48) (fun s => s.modPort n (fun p =>
    if p.st = .held then { p with noLink := true, spent := true } else { p with st := .training, spent := true }))

/-- The key a port transmits under (R378). -/
def State.txKey (s : State) (n : Nat) : Option KeySt := s.sec.keys.look (keyNo 1 n (s.port n).kslot)

/-- A port may send frames: an encrypted link has a key loaded in its transmit slot, without which nothing can leave (R374,
R378; log entry 93). -/
def State.keyed (s : State) (n : Nat) : Bool := !(s.port n).enc || (s.txKey n).isSome

/-- The KEY bit, nonce and tag of the frame that goes out next on an encrypted link, and its count (R378). The nonce is the slot's
salt and the frame's counter. -/
def State.sealFrame (s : State) (n : Nat) : State :=
  match s.txKey n with
  | some k =>
    let p := s.port n
    let nonce := BitVec.ofNat 96 (k.salt.toNat * 2 ^ 64 + p.ctr.getD p.kslot 0)
    (s.emit (.seal n p.kslot nonce (Config.gcmTag k.a nonce))).countFrame n p.kslot
  | none => s

/-- A message goes out on a ULP link: it takes credits and the next frame number, and is kept until it is acknowledged (R274;
one frame carries one message, log entry 20). -/
def State.putFrame (s : State) (n : Nat) (o : Out) : State :=
  ((s.emit o).modPort n (fun p => { p with
    txSeq := p.txSeq + 1, kept := p.kept ++ [(p.txSeq, o)],
    credTx := listMod p.credTx o.tc (fun c => c + ceilDiv o.bytes 256) })).when (s.port n).enc (fun s => s.sealFrame n)

/-- The tenant whose queue a message of the module takes at a port: the one it runs for between modules, that of the endpoint
toward one (R323). -/
def State.outTenant (s : State) (n : Nat) : Out → Nat
  | .msg _ _ h _ | .fullMap _ h _ =>
    if h.ext then h.xTenant
    else match s.epEntryGo n (fun k => s.fld F.portEpEp n k = h.dst.toNat) 16 0 with
      | some k => s.fld F.portEpTenant n k
      | none => 0
  | _ => 0

/-- The gates of a message's queue let it leave (R142, R324). -/
def State.gateFree (s : State) (n : Nat) (o : Out) : Bool := gatesAllow (s.queueGates n (s.outTenant n o) o.tc)

/-- A message leaves by a port; without one it is not sent. On a ULP port it waits while its queue's gates are closed or in their
guard band, behind earlier ones of its queue, and until the link holds credits for it, behind those of its class that wait for
credits, and for its key (R142, R274, R323, R324, R378). -/
def State.sendBy (s : State) (n : Nat) (o : Out) : State :=
  if n ≥ noPort then s
  else if (s.port n).role ≠ roleUlp then s.emit o
  else if !(s.keyed n) || !(s.gateFree n o) || !(s.hasCredit n o.tc o.bytes) ||
      (s.port n).unsent.any (fun x => x.tc = o.tc && (s.outTenant n x = s.outTenant n o || s.gateFree n x)) then
    s.modPort n (fun p => { p with unsent := p.unsent ++ [o] })
  else s.putFrame n o

/-- Messages that wait at a port go as far as they may, each queue in its order (R142, R274). -/
def State.flushPort (s : State) (n : Nat) : State :=
  let l := (s.port n).unsent
  foldS (fun s o => s.sendBy n o) (s.modPort n (fun p => { p with unsent := [] })) l

/-- Messages that waited for a gate go where it now lets them (R142). -/
def State.flushGated (s : State) : State :=
  foldS (fun s (x : Nat × PortSt) => s.when (!x.2.unsent.isEmpty) (fun s => s.flushPort x.1)) s s.fab.ports

/-- Bytes moved for a tenant (R416). -/
def State.tollBytes (s : State) (t n : Nat) : State :=
  { s with toll := { s.toll with cnt := Tbl.upd {} t (fun c => { c with bytes := c.bytes + n }) s.toll.cnt } }

/-! ### Headers -/

/-- An endpoint ID is a module's (R272). -/
def isModule (ep : Nat) : Bool := ep < 0x1000

/-- The header of a message of this module: source, hop limit and current epoch; messages between modules set EXT (R275,
R298). -/
def State.hdr (s : State) (tc dst : Nat) : Hdr :=
  { tc := Fin.ofNat 4 tc, ext := isModule dst, src := s.selfEp, dst := BitVec.ofNat 16 dst, hops := s.fld F.mapCtlHopLimit,
    epoch := s.fab.map.epoch, xEdge := BitVec.ofNat 12 s.self }

/-- The epoch a stream's requests are stamped with: an older one stays while requests stamped with it are unanswered
(R293). -/
def State.stamp (s : State) (t : TxStream) (ep tc : Nat) : W32 :=
  if t.una.isEmpty && t.fence.isEmpty && !(s.fab.waits.any (fun w => w.dst.toNat = ep && w.tc = tc)) then s.fab.map.epoch
  else t.epoch

/-- The stamp of the next request of a stream, which the stream notes (R293). -/
def State.stampOn (s : State) (ep tc : Nat) : W32 × State :=
  let e := s.stamp (s.tx ep tc) ep tc
  (e, s.modTx ep tc (fun t => { t with epoch := e }))

/-- Message type codes (R276). -/
def tyLoad : Nat := 0x01
def tyStore : Nat := 0x02
def tyFlag : Nat := 0x03
def tyAtomic : Nat := 0x04
def tyFence : Nat := 0x05
def tyMapUpdate : Nat := 0x09
def tyMapGet : Nat := 0x0A
def tyLoadRsp : Nat := 0x10
def tyAtomicRsp : Nat := 0x11
def tyAck : Nat := 0x12
def tyFenceAck : Nat := 0x13
def tyAttachRsp : Nat := 0x14
def tyNak : Nat := 0x15
def tyResend : Nat := 0x16
def tyDrain : Nat := 0x17
def tyMapAck : Nat := 0x18

/-- The type code of a sequenced request. -/
def ReqKind.code : ReqKind → Nat
  | .store => tyStore
  | .mirror => tyStore
  | .flag => tyFlag
  | .atomic => tyAtomic
  | .load => tyLoad

/-- Cut a byte range at multiples of `u`. -/
def piecesGo (u : Nat) : Nat → Nat → Nat → List (Nat × Nat)
  | 0, _, _ => []
  | fuel + 1, a, n =>
    if n = 0 then []
    else
      let k := min n (u - a % u)
      (a, k) :: piecesGo u fuel (a + k) (n - k)

/-- Cut a byte range at 4 KiB boundaries of its address: no request crosses one (R276). -/
def pieces (a n : Nat) : List (Nat × Nat) := piecesGo 4096 (n / 4096 + 2) a n

/-- Cut a byte range into its parts in 64-byte lines. -/
def linePieces (a n : Nat) : List (Nat × Nat) := piecesGo 64 (n / 64 + 2) a n

/-! ### Requests that consume a sequence number -/

/-- The header of a request kept in a stream. -/
def State.reqHdr (s : State) (t : TxStream) (ep tc : Nat) (r : TxReq) (retry : Bool) : Hdr :=
  let h := s.hdr tc ep
  { h with
    poison := r.poison, sync := r.sync, retry := retry && r.kind = .atomic, op := r.op,
    seq := r.seq, epoch := t.epoch, addr := r.addr, len := r.data.length, tag := r.tag, xRegion := r.xr.1,
    xVersion := r.xr.2.1, xTenant := r.xr.2.2.1, xSecure := r.xr.2.2.2 }

/-- The bytes after a header: the data, and behind poisoned data the bitmap of its lines, which are all of them (R287). -/
def wireBytes (data : List Byte) (poison : Bool) : List Byte :=
  if poison then data ++ leBytes 8 (2 ^ ceilDiv data.length 64 - 1) else data

/-- Requests of a stream are sent again, in order (R289). -/
def State.resendReqs (s : State) (ep tc : Nat) (p : TxReq → Bool) : State :=
  let t := s.tx ep tc
  let l := t.una.filter p
  let n := s.outPort ep s.self tc
  let n := if isModule ep then n else t.port
  let s := s.bump F.mapCnt0Resends 0 0 l.length
  let s := s.modTx ep tc (fun t => { t with
    una := t.una.map (fun (r : TxReq) => if p r then { r with tries := r.tries + 1 } else r), progAt := s.now, synced := true })
  foldS (fun s (r : TxReq) => s.sendBy n (.msg n r.kind.code (s.reqHdr t ep tc r true) (wireBytes r.data r.poison))) s l

/-- The ring pair whose descriptor makes a store (R46, R280). -/
def State.storedFor (s : State) (p : Purpose) : List Nat :=
  let pair := fun l => ((s.ldg.entries.find? (fun (e : Entry) => e.lsn = l)).map (fun (e : Entry) => e.pair)).toList
  match p with
  | .moveWrite l => pair l
  | .query l => pair l
  | .emit l _ => pair l
  | _ => []

/-- Send one request on the stream (this module, ep, tc) by port `n`: it takes the next number, and the stream keeps a copy. The
first request after reset carries SYNC: requests kept over the reset go first, with their numbers (R273, R279, R351). -/
def State.sendReq (s : State) (n ep tc : Nat) (k : ReqKind) (p : Purpose) (addr : Nat) (data : List Byte)
    (poison : Bool) (xr : Nat × Nat × Nat × Bool := (0, 0, 0, false)) (op : Byte := 0) (tag : W16 := 0) : State :=
  let s := s.when (!(s.tx ep tc).synced && !(s.tx ep tc).una.isEmpty) (fun s => s.resendReqs ep tc (fun _ => true))
  let t := s.tx ep tc
  let t := { t with epoch := s.stamp t ep tc, port := n, stored := (s.storedFor p).foldl (fun l x => listAdd x l) t.stored }
  let r : TxReq :=
    { seq := t.next, kind := k, purpose := p, addr := BitVec.ofNat 64 addr, data := data, poison := poison, xr := xr,
      op := op, tag := tag, sync := !t.synced }
  let h := s.reqHdr t ep tc r false
  let s := s.modTx ep tc (fun _ =>
    { t with
      next := t.next + 1, una := t.una ++ [r], progAt := if t.una.isEmpty then s.now else t.progAt, synced := true })
  (s.when (isModule ep) (fun s => s.notePath s.self ep tc n r.seq)).sendBy n (.msg n k.code h (wireBytes data poison))

/-- A free source tag (R275) for an access that awaits its answer. -/
def State.newTag (s : State) : W16 × State :=
  (s.fab.nextTag, { s with fab := { s.fab with nextTag := s.fab.nextTag + 1 } })

/-- Note an access that awaits its answer. -/
def State.addWait (s : State) (w : Wait) : State := { s with fab := { s.fab with waits := s.fab.waits ++ [w] } }

/-! ### Loads (R278, R287, R293) -/

/-- The unacknowledged stores of this module that touch the 64-byte lines of a range at an endpoint or of a region version: class
and number of the last of each class (R278). -/
def State.depsOf (s : State) (ep id v a n : Nat) : List (Nat × W32) :=
  let hit : TxReq → Bool := fun r =>
    (r.kind = .store || r.kind = .flag) && r.xr.1 = id && r.xr.2.1 = v &&
      r.addr.toNat / 64 ≤ (a + n - 1) / 64 && a / 64 ≤ (r.addr.toNat + r.data.length - 1) / 64
  (List.range 3).filterMap (fun tc => (((s.tx ep tc).una.filter hit).getLast?).map (fun (r : TxReq) => (tc, r.seq)))

/-- The parts in which a range is loaded: line by line where stores of several classes touch it (R278). -/
def State.loadParts (s : State) (ep a n : Nat) : List (Nat × Nat) :=
  if (s.depsOf ep 0 0 a n).length ≤ 1 then [(a, n)] else linePieces a n

/-- The LOAD of an access; one sent on for another source names what that source asked for (R275, R278, R292). -/
def State.loadHdr (s : State) (w : Wait) (e : W32) : Hdr :=
  let h := { s.hdr w.tc w.dst.toNat with
    addr := BitVec.ofNat 64 (ptrAddr w.ptr.toNat), len := w.len, tag := w.tag, epoch := e, dep := w.dep.isSome,
    seq := w.dep.getD 0 }
  match w.purpose with
  | .fwd _ fh => { h with xRegion := fh.xRegion, xVersion := fh.xVersion, xTenant := fh.xTenant, xSecure := fh.xSecure }
  | _ => { h with xRegion := w.xr.1, xVersion := w.xr.2.1, xTenant := w.xr.2.2.1, xSecure := w.xr.2.2.2 }

/-- Send a LOAD by port `n` and note the access. -/
def State.sendLoad (s : State) (n : Nat) (w : Wait) : State :=
  let (e, s) := s.stampOn w.dst.toNat w.tc
  (s.addWait w).sendBy n (.msg n tyLoad (s.loadHdr w e) [])

/-! ### Endpoint memory (R25, R26, R455) -/

/-- The failure of an access before it leaves: the port is held, or its role is neither ULP nor CXL-up (R455). -/
def State.epRefusal (s : State) (n : Nat) : Option (Nat × Nat) :=
  if s.shut n then some (St.denied, 0x0B04)
  else if !(s.epPort n) then some (St.denied, 0x0B13)
  else none

/-- Write bytes at an endpoint pointer for a tenant: ULP STOREs on one stream, or CXL.io writes on a CXL-up port. The
result is the failure of R455 when nothing can leave. -/
def State.writeEp (s : State) (tenant ptr tc : Nat) (data : List Byte) (poison : Bool) (p : Purpose) :
    State × Option (Nat × Nat) :=
  let n := ptrPort ptr
  match s.epRefusal n with
  | some f => (s, some f)
  | none =>
    let s := s.tollBytes tenant data.length
    let a := ptrAddr ptr
    let ps := pieces a data.length
    if (s.port n).role = roleUlp then
      (foldS (fun s q => s.sendReq n (s.epAt n tenant) tc .store p q.1 ((data.drop (q.1 - a)).take q.2) poison) s ps, none)
    else
      (foldS (fun s q =>
        let (tag, s) := s.newTag
        (s.addWait { tag := tag, dst := BitVec.ofNat 16 (s.epAt n tenant), port := n, purpose := p,
                     ptr := BitVec.ofNat 64 (ptr - a + q.1), off := q.1 - a, len := 0, size := q.2, tc := tc, sentAt := s.now }).emit
          (.store (BitVec.ofNat 64 (ptr - a + q.1)) tc ((data.drop (q.1 - a)).take q.2) poison)) s ps, none)

/-- The standing of a read of the module. -/
def State.fetchOf (s : State) (p : Purpose) : Option Fetch :=
  (s.tq.fetch.find? (fun e => e.1 = p)).map Prod.snd

/-- Set the standing of a read. -/
def State.setFetch (s : State) (p : Purpose) (f : Fetch) : State :=
  { s with tq := { s.tq with fetch := (s.tq.fetch.filter (fun e => e.1 ≠ p)) ++ [(p, f)] } }

/-- Forget a read. -/
def State.dropFetch (s : State) (p : Purpose) : State :=
  { s with tq := { s.tq with fetch := s.tq.fetch.filter (fun e => e.1 ≠ p) } }

/-- Forget every read of a kind; answers of theirs still on their way belong to nothing. -/
def State.dropFetches (s : State) (p : Purpose → Bool) : State :=
  { s with
    tq := { s.tq with fetch := s.tq.fetch.filter (fun e => !(p e.1)) },
    fab := { s.fab with waits := s.fab.waits.map (fun w => if w.len ≠ 0 && p w.purpose then { w with purpose := .dropped } else w) } }

/-- Read `len` bytes at an endpoint pointer for a tenant: LOADs, each ordered behind the stores of this module to its lines, or
CXL.io reads (R278, R282). The read fails at once where nothing can leave (R455). -/
def State.readEp (s : State) (tenant ptr len : Nat) (p : Purpose) : State :=
  let n := ptrPort ptr
  match s.epRefusal n with
  | some (st, d) => s.setFetch p (.failed st d)
  | none =>
    let a := ptrAddr ptr
    let ep := s.epAt n tenant
    let ulp := (s.port n).role = roleUlp
    let ps := if ulp then (pieces a len).flatMap (fun q => s.loadParts ep q.1 q.2) else pieces a len
    let s := s.setFetch p (.waiting ps.length [])
    foldS (fun s q =>
      let (tag, s) := s.newTag
      let d := if ulp then (s.depsOf ep 0 0 q.1 q.2).getLast? else none
      let w : Wait := { tag := tag, dst := BitVec.ofNat 16 ep, port := n, purpose := p,
                        ptr := BitVec.ofNat 64 (ptr - a + q.1), off := q.1 - a, len := q.2,
                        tc := (match d with | some x => x.1 | none => 2), dep := d.map Prod.snd, sentAt := s.now }
      if ulp then s.sendLoad n w else (s.addWait w).emit (.load (BitVec.ofNat 64 (ptr - a + q.1)) q.2)) s ps

/-- A piece of a read has come: when it was the last, the bytes are put together. -/
def State.fetchPiece (s : State) (p : Purpose) (off : Nat) (bytes : List Byte) : State :=
  match s.fetchOf p with
  | some (.waiting left parts) =>
    let parts := Tbl.ins off bytes parts
    if left ≤ 1 then s.setFetch p (.got (Tbl.vals parts).flatten) else s.setFetch p (.waiting (left - 1) parts)
  | _ => s

/-- A read has failed; a failure already noted stands. -/
def State.fetchFail (s : State) (p : Purpose) (st d : Nat) : State :=
  match s.fetchOf p with
  | some (.waiting _ _) => s.setFetch p (.failed st d)
  | _ => s

/-- Requests and accesses for a purpose that still await their answer. -/
def State.outstanding (s : State) (p : Purpose → Bool) : Nat :=
  (s.fab.waits.filter (fun w => p w.purpose)).length +
    ((Tbl.vals s.fab.tx).map (fun t => ((t.una ++ t.doubt).filter (fun r => p r.purpose)).length)).foldl (· + ·) 0

/-! ### Answers -/

/-- Answer a request: same class, tag, number and extension, this module's current epoch (R275, R276). -/
def State.answer (s : State) (port ty : Nat) (h : Hdr) (status detail : Nat) (poison : Bool) (len : Nat)
    (data : List Byte) : State :=
  s.sendBy port (.msg port ty
    { s.hdr h.tc.val h.src.toNat with
      seq := h.seq, tag := h.tag, addr := h.addr, status := BitVec.ofNat 8 status, detail := BitVec.ofNat 16 detail,
      poison := poison, len := len, ext := h.ext, xRegion := h.xRegion, xVersion := h.xVersion, xTenant := h.xTenant,
      xSecure := h.xSecure, xEdge := h.xEdge } data)

end Sys2Proof.Machine
end

