-- ==== Sys2Proof/Machine/Ledger.lean ====
section
/-! DEFINITION. The ledger's entries and their images, mirror stores (R339–R347), and what the rings read of them
(R27–R36, R47–R53). -/

namespace Sys2Proof.Machine

/-! ### Entries as bytes (R341, R342) -/

def LKind.code : LKind → Nat
  | .desc => 1
  | .version => 2
  | .cert => 3
  | .abort => 4

def LState.code : LState → Nat
  | .free => 0
  | .accepted => 1
  | .started => 2
  | .committed => 3
  | .completing => 4
  | .done => 5
  | .void => 6

def LState.ofCode (c : Nat) : LState :=
  match c with
  | 1 => .accepted
  | 2 => .started
  | 3 => .committed
  | 4 => .completing
  | 5 => .done
  | 6 => .void
  | _ => .free

/-- The slot of an entry: l.lsn mod 2^20 (R339). -/
def lsnSlot (lsn : Nat) : Nat := lsn % 2 ^ 20

/-- l.link: the parameter copy's block of a started INVOKE, ÷ 64 (R339, R341; the block's choice, log entry 16). -/
def Entry.link (e : Entry) : Nat :=
  if e.opcode = opInvoke && e.state = .started then (0x08000000 + 4096 * (e.lsn % 4096)) / 64 else 0

/-- Bytes 0–59 of an entry (R341). -/
def Entry.head (e : Entry) : List Byte :=
  leBytes 8 e.lsn ++ leBytes 2 (e.pair % 2048) ++ leBytes 1 e.kind.code ++
  leBytes 1 (e.state.code + 8 * b2n e.replayed) ++ leBytes 4 e.index.toNat ++ leBytes 4 e.cidx.toNat ++
  leBytes 4 e.ident ++ leBytes 8 e.workId.toNat ++ leBytes 2 e.job ++ leBytes 1 (e.retries % 16 + 16 * (e.used % 16)) ++
  leBytes 1 e.opcode ++ leBytes 4 e.parts ++ leBytes 8 e.result ++ leBytes 4 e.epoch.toNat ++ leBytes 4 e.link ++
  leBytes 4 e.gen

/-- The 64 bytes of an entry, closed by the CRC-32C of bytes 0–59 (R341). -/
def Entry.bytes (e : Entry) : List Byte := e.head ++ leBytes 4 (crc32c e.head)

/-- The 64 bytes of an entry's image: the descriptor, or from COMMITTED the completion record (R339, R342). -/
def Entry.image (e : Entry) : List Byte :=
  match e.cpl with
  | some c => c.bytes ++ List.replicate 32 0
  | none => listFit 0 64 ((e.words.map (fun w => leBytes 8 w.toNat)).flatten)

/-- A completion record read back from its 32 bytes (R47). -/
def Cpl.ofBytes (b : List Byte) : Cpl :=
  let f := leAt b 10 1
  { tag := BitVec.ofNat 32 (leAt b 0 4), index := BitVec.ofNat 32 (leAt b 4 4), status := leAt b 8 1,
    opcode := leAt b 9 1, phase := bit f 0, event := bit f 1, replayed := bit f 2, evtLost := bit f 3,
    prior := bit f 4, pair := leAt b 11 1 % 8, detail := leAt b 12 2, retries := leAt b 14 1 % 16,
    r0 := BitVec.ofNat 64 (leAt b 16 8), r1 := BitVec.ofNat 64 (leAt b 24 8) }

/-- An entry read back from its 64 bytes and its image; none when the CRC is wrong or the kind is neither DESC nor ABORT (R340,
R358, R364). -/
def Entry.ofBytes (b img : List Byte) : Option Entry :=
  if crc32c (b.take 60) ≠ leAt b 60 4 || !(leAt b 10 1 = 1 || leAt b 10 1 = 4) then none
  else
    let st := LState.ofCode (leAt b 11 1 % 8)
    let fixed := st = .committed || st = .completing || st = .done
    some
      { lsn := leAt b 0 8, pair := leAt b 8 2 % 2048, kind := if leAt b 10 1 = 4 then .abort else .desc, state := st, replayed := bit (leAt b 11 1) 3,
        index := BitVec.ofNat 32 (leAt b 12 4), cidx := BitVec.ofNat 32 (leAt b 16 4), ident := leAt b 20 4,
        workId := BitVec.ofNat 64 (leAt b 24 8), job := leAt b 32 2, retries := leAt b 34 1 % 16,
        used := leAt b 34 1 / 16, opcode := leAt b 35 1, parts := leAt b 36 4, result := leAt b 40 8,
        epoch := BitVec.ofNat 32 (leAt b 48 4), gen := leAt b 56 4,
        words := if fixed then [] else descWords img,
        cpl := if fixed then some (Cpl.ofBytes img) else none }

/-! ### Mirror stores (R343, R344) -/

/-- The buddy the current map names (R291). -/
def State.buddy (s : State) : Option Nat :=
  match s.fab.map.buddies.find? (fun p => p.1.toNat = s.self || p.2.toNat = s.self) with
  | some p => some (if p.1.toNat = s.self then p.2.toNat else p.1.toNat)
  | none => none

/-- Writes to the own half are also sent to the buddy in MIRRORED mode and while RESYNC runs (R343, R347). -/
def State.mirrors (s : State) : Bool := s.ldg.mode = .mirrored || s.ldg.mode = .resync

/-- One mirror store. -/
def State.sendMirror (s : State) (b off : Nat) (bytes : List Byte) : State :=
  let s := { s with ldg := { s.ldg with mirrorSent := s.ldg.mirrorSent + 1 } }
  s.sendReq (s.portTo b s.self 2) b 2 .mirror .mirror off bytes false

/-- A write to the own half at a content offset, mirrored by one store or more: none crosses a 4 KiB boundary (R276). A fenced
module sends no mirror store (R363). -/
def State.ownWrite (s : State) (off : Nat) (bytes : List Byte) : State :=
  match s.buddy with
  | some b =>
    if s.mirrors && !s.ldg.fenced then
      foldS (fun s q => s.sendMirror b q.1 ((bytes.drop (q.1 - off)).take q.2)) s (pieces off bytes.length)
    else s
  | none => s

/-- A write becomes a durable point when the buddy's ACK covers mirror store `n`; in other modes at once, unless the answer of
a former buddy is still owed (R344, R346). -/
def State.durable (s : State) (n : Nat) : Bool :=
  s.ldg.bound.isNone && (s.ldg.mode ≠ .mirrored || n ≤ s.ldg.mirrorAcked)

/-- Records of the atomic table go, and their slots are cleared in the own half (R343, R353). -/
def State.dropAtoms (s : State) (p : AtomRec → Bool) : State :=
  let gone := s.ldg.atoms.filter p
  let s := { s with ldg := { s.ldg with atoms := s.ldg.atoms.filter (fun a => !(p a)) } }
  foldS (fun s (a : AtomRec) => s.ownWrite (0x09000000 + 32 * a.slot) (List.replicate 32 0)) s gone

/-- Write an entry and, when it changed, its image to the own half. -/
def State.mirrorEntry (s : State) (old : Option Entry) (e : Entry) : State :=
  let s := s.when (old.map Entry.bytes ≠ some e.bytes) (fun s => s.ownWrite (64 * lsnSlot e.lsn) e.bytes)
  s.when (old.map Entry.image ≠ some e.image) (fun s => s.ownWrite (0x04000000 + 64 * lsnSlot e.lsn) e.image)

/-! ### The entry list -/

def State.entry (s : State) (lsn : Nat) : Option Entry := s.ldg.entries.find? (fun e => e.lsn = lsn)

/-- Put back an entry, without writing it through. -/
def State.putEntry (s : State) (e : Entry) : State :=
  { s with ldg := { s.ldg with entries := listUpd (fun x => x.lsn = e.lsn) (fun _ => e) s.ldg.entries } }

/-- Change an entry; what changes in its bytes or image is written through (R339, R343). -/
def State.modEntry (s : State) (lsn : Nat) (f : Entry → Entry) : State :=
  match s.entry lsn with
  | some e => (s.putEntry (f e)).mirrorEntry (some e) (f e)
  | none => s

/-- Add an entry with the next l.lsn (R341). -/
def State.addEntry (s : State) (e : Entry) : State :=
  let e := { e with lsn := s.ldg.nextLsn, gen := s.ldg.gen, epoch := s.fab.map.epoch }
  let s := { s with ldg := { s.ldg with entries := s.ldg.entries ++ [e], nextLsn := s.ldg.nextLsn + 1 } }
  s.mirrorEntry none e

/-- An entry becomes FREE: its slot holds no live entry (R342). -/
def State.freeEntry (s : State) (lsn : Nat) : State :=
  { s with ldg := { s.ldg with entries := s.ldg.entries.filter (fun e => e.lsn ≠ lsn) } }

/-- A ledger entry is free for the next l.lsn (R35, R339). -/
def State.slotFree (s : State) : Bool :=
  s.ldg.entries.all (fun e => lsnSlot e.lsn ≠ lsnSlot s.ldg.nextLsn)

/-- An accepted descriptor: a DESC entry that is not staged and not VOID (R345). -/
def Entry.acceptedDesc (e : Entry) : Bool := e.kind = .desc && e.staged.isNone && e.state ≠ .void

/-- Accepted and not yet completed: no completion record is fixed (P of R35). -/
def Entry.live (e : Entry) : Bool :=
  e.acceptedDesc && (e.state = .accepted || e.state = .started || e.state = .committed)

/-- A running descriptor: started, its result not fixed. -/
def Entry.running (e : Entry) : Bool := e.acceptedDesc && e.state = .started

/-! ### Rings -/

def State.ring (s : State) (pair : Nat) : Ring := s.tq.rings.rd {} pair

def State.modRing (s : State) (pair : Nat) (f : Ring → Ring) : State :=
  { s with tq := { s.tq with rings := Tbl.upd {} pair f s.tq.rings } }

def State.ten (s : State) (t : Nat) : Ten := s.tq.tens.rd {} t

def State.modTen (s : State) (t : Nat) (f : Ten → Ten) : State :=
  { s with tq := { s.tq with tens := Tbl.upd {} t f s.tq.tens } }

/-- Stage codes (R20). -/
def stReplay : Nat := 8
def stRun : Nat := 9
def stFault : Nat := 15

/-- The module is in stage RUN. -/
def State.running (s : State) : Bool := s.gen.stage = stRun

/-- The pair is live (R24, R30); a pair in reset is handled as one that is not (R33). -/
def State.liveP (s : State) (pair : Nat) : Bool :=
  (s.ring pair).resetting.isNone && s.flag F.tqRingCtlEnable pair && s.flag F.tqTenCtlEnable (pair / 8) && s.running &&
    pair % 8 ≤ s.fld F.tqTenCtlPairsM1 (pair / 8)

/-- Ring size of a LOG2 field: 2^v, and 0 stands for 16 (R60). -/
def ringSize (v : Nat) : Nat := if v = 0 then 65536 else 2 ^ v

def State.sqSize (s : State) (pair : Nat) : Nat := ringSize (s.fld F.tqRingCtlSqLog2 pair)
def State.cqSize (s : State) (pair : Nat) : Nat := ringSize (s.fld F.tqRingCtlCqLog2 pair)

/-- P: accepted descriptors of the pair whose completion slot is not yet released (R35, R55). -/
def State.pendingOf (s : State) (pair : Nat) : Nat :=
  (s.ldg.entries.filter (fun e => e.pair = pair && (e.live || (e.kind = .desc && e.unwritten)))).length

/-- Staged entries of the pair (R345). -/
def State.stagedOf (s : State) (pair : Nat) : Nat :=
  (s.ldg.entries.filter (fun e => e.kind = .desc && e.staged.isSome && e.pair = pair)).length

/-- Records written and not consumed: (WIDX − HEAD) mod 2^32. -/
def Ring.unread (r : Ring) : Nat := (r.widx - r.head).toNat

/-- A completion slot is free beside the P reserved ones (R35, R51). -/
def State.cqRoom (s : State) (pair extra : Nat) : Bool :=
  (s.ring pair).unread + s.pendingOf pair + extra < s.cqSize pair

/-- The ring context of a pair in 64 bytes: its pointers, its settings as TQ_RING_CTL holds them, its indices and its fault; the
layout is the model's (R38, R339; log entry 16). -/
def State.ringBytes (s : State) (pair : Nat) : List Byte :=
  let r := s.ring pair
  leBytes 8 (s.fld F.tqRingSqBasePtr pair) ++ leBytes 8 (s.fld F.tqRingCqBasePtr pair) ++
  leBytes 8 (s.fld F.tqRingAidxAddrPtr pair) ++ leBytes 8 (s.fld F.tqRingNotifyAddrPtr pair) ++
  leBytes 4 (b2n (s.flag F.tqRingCtlEnable pair) + 256 * s.fld F.tqRingCtlSqLog2 pair + 4096 * s.fld F.tqRingCtlCqLog2 pair) ++
  leBytes 4 r.aidx.toNat ++ leBytes 4 r.widx.toNat ++ leBytes 4 r.head.toNat ++
  leBytes 1 (b2n r.faulted + 2 * b2n r.lost) ++ leBytes 15 r.code

/-- Where a pair's ring context lies in the own half. -/
def ringAt (pair : Nat) : Nat := 0x0F000000 + 64 * (pair % 2048)

/-- A ring context that has changed is written to the own half; a pair taken over from a buddy has none there. -/
def State.noteRing (s : State) (pair : Nat) : State :=
  if pair < 2048 then s.ownWrite (ringAt pair) (s.ringBytes pair) else s

/-- Write a record's bytes at completion index WIDX and advance WIDX; the failure of R455 when nothing can leave. -/
def State.writeRecord (s : State) (pair : Nat) (c : Cpl) (p : Purpose) : State × Option (Nat × Nat) :=
  let w := (s.ring pair).widx.toNat
  let ptr := s.fld F.tqRingCqBasePtr pair + 32 * (w % s.cqSize pair)
  let s := (s.modRing pair (fun r => { r with widx := r.widx + 1, lost := false })).noteRing pair
  s.writeEp (pair / 8 % 256) ptr 2 c.bytes false p

/-- The pair's completion ring cannot be written: a record of it stays unwritten, so later ones stay behind it (R40,
R53, R55). -/
def State.cqBad (s : State) (pair : Nat) : Bool :=
  ((s.ring pair).faulted && (s.ring pair).code = 0x04) ||
    s.ldg.entries.any (fun e => e.pair = pair && e.kind = .desc && e.unwritten)

/-- Post an event record (R51): it takes a free completion slot of a live pair, or is lost and counted; lost
also where the record could not be written (log entry 160). -/
def State.postEvent (s : State) (pair : Nat) (c : Cpl) : State :=
  if s.liveP pair && s.cqRoom pair 0 && !s.cqBad pair && !s.ldg.fenced &&
      (s.epRefusal (ptrPort (s.fld F.tqRingCqBasePtr pair))).isNone then
    let r := s.ring pair
    let c := { c with event := true, evtLost := r.lost, pair := pair % 8,
                      phase := phaseOf r.widx.toNat (s.cqSize pair) }
    (s.writeRecord pair c (.event pair)).1
  else (s.bump F.tqRingEvtLostCount pair).modRing pair (fun r => { r with lost := true })

/-- An event that concerns no descriptor: fields without a stated content are open (log entry 15). -/
def evtRecord (kind status r0 r1 : Nat) : Cpl :=
  { tag := Config.evtTag kind, index := Config.evtIndex kind, status := status, opcode := kind,
    detail := detailOf status (if status = St.ok then 0 else Config.evtDetail kind % 65536),
    r0 := BitVec.ofNat 64 r0, r1 := BitVec.ofNat 64 r1 }

/-- A ring pair faults (R53): the first cause keeps its code and posts one RING_FAULT event to tenant 0's pair 0. -/
def State.faultPair (s : State) (pair code : Nat) : State :=
  if (s.ring pair).faulted then s
  else
    let s := (s.modRing pair (fun r => { r with faulted := true, code := code })).noteRing pair
    s.postEvent 0 (evtRecord 0x04 St.denied pair code)

/-- Write the accepted index as one 8-byte store (R36); a write that cannot leave faults the pair (R53). -/
def State.writeAidx (s : State) (pair : Nat) : State :=
  let v := (s.ring pair).aidx.toNat
  match s.writeEp (pair / 8 % 256) (s.fld F.tqRingAidxAddrPtr pair) 2 (leBytes 8 v) false (.aidxWrite pair) with
  | (s, none) => s
  | (s, some _) => s.faultPair pair 0x05

/-- A fetch from a pair's submission ring. -/
def isFetchOf (pair : Nat) (p : Purpose) : Bool :=
  match p with
  | .sqFetch q _ => q = pair
  | _ => false

/-- The tenant of a pair (R23). -/
def pairTenant (pair : Nat) : Nat := pair / 8 % 256

end Sys2Proof.Machine
end

