-- ==== Sys2Proof/Machine/Regions.lean ====
section
/-! DEFINITION. Shelves, regions, versions and pages as tables (R61–R86, R92–R94): resolution, reading, copy-on-write,
charges, placement, and what goes when its last reference goes. -/

namespace Sys2Proof.Machine

/-! ### Shelves (R61–R64) -/

/-- Pages of 64 KiB in a shelf of 1 GiB. -/
def shelfPages : Nat := 16384

/-- The key of a shelf: tier and index. -/
def shelfKey (tier idx : Nat) : Nat := tier * 2 ^ 20 + idx

/-- Number of shelf indices of a tier: 1,536 near; one per whole GiB the decoders map below (R61). -/
def State.shelfCount (s : State) (tier : Nat) : Nat :=
  if tier = 0 then 1536
  else if tier = 3 then 0
  else ((s.rgn.decoders.filter (fun d => d.2.2.1 = tier)).map (fun d => d.2.2.2)).foldl (· + ·) 0

/-- A near-tier shelf 127 of its stack (R12, R62). -/
def isSystemShelf (tier idx : Nat) : Bool := tier = 0 && idx % 128 = 127

/-- A shelf, if its index exists. -/
def State.shelf (s : State) (tier idx : Nat) : Option Shelf :=
  if idx < s.shelfCount tier then
    some (if isSystemShelf tier idx then { st := .system } else s.rgn.shelves.rd {} (shelfKey tier idx))
  else none

/-- Change a shelf. -/
def State.modShelf (s : State) (tier idx : Nat) (f : Shelf → Shelf) : State :=
  { s with rgn := { s.rgn with shelves := Tbl.upd {} (shelfKey tier idx) f s.rgn.shelves } }

/-- The stack of a near-tier shelf: index 128n + s (R61). -/
def nearStack (idx : Nat) : Nat := idx / 128

/-- The quadrant of a stack (R11). -/
def stackQuad (n : Nat) : Nat := n / 3

/-- A quadrant is faulted or held in reset, or waits for its return to service (R16, R391). -/
def State.quadOut (s : State) (q : Nat) : Bool :=
  bit s.pwr.fault.toNat q || bit s.rst.quads.toNat q || bit s.rst.away.toNat q

/-- The decoder of a lower tier that holds an index, numbered from 0 in decoder order (R61, R94). -/
def decoderGo : List (Nat × Nat × Nat × Nat) → Nat → Nat → Nat
  | [], n, _ => n
  | d :: rest, n, idx => if idx < d.2.2.2 then n else decoderGo rest (n + 1) (idx - d.2.2.2)

/-- Decoders of a tier in decoder order. -/
def State.decodersOf (s : State) (tier : Nat) : List (Nat × Nat × Nat × Nat) :=
  s.rgn.decoders.filter (fun d => d.2.2.1 = tier)

/-- The port behind which a tray or cellar shelf lies (R61). -/
def State.trayPort (s : State) (tier idx : Nat) : Option Nat :=
  if tier = 0 then none
  else ((s.decodersOf tier)[decoderGo (s.decodersOf tier) 0 idx]?).map (fun d => d.1)

/-- A shelf below the near tier lies behind a port that is held or in block reset: no access reaches it (R306, R390). -/
def State.trayShut (s : State) (tier idx : Nat) : Bool :=
  match s.trayPort tier idx with | some n => s.shut n | none => false

/-- Shelf indices of a tier (those that exist). -/
def State.shelfIdxs (s : State) (tier : Nat) : List Nat :=
  (s.rgn.shelves.filter (fun e => e.1 / 2 ^ 20 = tier && e.1 % 2 ^ 20 < s.shelfCount tier)).map (fun e => e.1 % 2 ^ 20)

/-- A region ID of the common range (R64). -/
def isCommon (id : Nat) : Bool := 1 ≤ id && id ≤ 0xFFFF

/-- Shelves of a tenant's partition in a tier; tenant 0's common shelves are a partition of their own (R63, R64). -/
def State.partition (s : State) (tier owner : Nat) (common : Bool) : List Nat :=
  (s.shelfIdxs tier).filter (fun i =>
    match s.shelf tier i with
    | some h => h.st = .assigned && h.tenant = owner && (h.common = common)
    | none => false)

/-! ### Regions, versions and pages -/

def State.region (s : State) (id : Nat) : Option Region := s.rgn.regions.look id

def State.modRegion (s : State) (id : Nat) (f : Region → Region) : State :=
  { s with rgn := { s.rgn with regions := Tbl.alter id f s.rgn.regions } }

def State.version (s : State) (id v : Nat) : Option Version :=
  match s.region id with
  | some r => r.vers.look v
  | none => none

def State.modVersion (s : State) (id v : Nat) (f : Version → Version) : State :=
  s.modRegion id (fun r => { r with vers := Tbl.alter v f r.vers })

def State.page (s : State) (p : Nat) : Option Page := s.rgn.pages.look p

def State.modPage (s : State) (p : Nat) (f : Page → Page) : State :=
  { s with rgn := { s.rgn with pages := Tbl.alter p f s.rgn.pages } }

/-- Pages of a region: size ÷ 64 KiB. -/
def Region.npages (r : Region) : Nat := r.size / 65536

/-- The page id at a page number of a version. -/
def Version.pageAt (v : Version) (n : Nat) : Option PageRef := v.pages.look n

/-- Page ids a version references. -/
def Version.pageIds (v : Version) : List Nat :=
  (Tbl.vals v.pages).filterMap (fun r => match r with | .page p => some p | .revoked => none)

/-- A version references a page. -/
def Version.hasPage (v : Version) (p : Nat) : Bool := v.pageIds.any (· = p)

/-- A page of the version is revoked (R68). -/
def State.refRevoked (s : State) (r : PageRef) : Bool :=
  match r with
  | .revoked => true
  | .page p => match s.page p with | some g => g.revoked | none => false

/-- DAMAGED: the page table holds a revoked page (R65, R68). -/
def State.damaged (s : State) (v : Version) : Bool := (Tbl.vals v.pages).any s.refRevoked

/-- Versions that reference a page: region, number, version. -/
def State.refsOf (s : State) (p : Nat) : List (Nat × Nat × Version) :=
  ((s.rgn.regions.map (fun e => (e.2.vers.filter (fun x => x.2.hasPage p)).map (fun x => (e.1, x.1, x.2))))).flatten

/-- Some private staging table of a work run references a page (R355). -/
def State.stagingHas (s : State) (p : Nat) : Bool :=
  (Tbl.vals s.slc.invs).any (fun v => v.staging.any (fun t => (Tbl.vals t.2).any (· = .page p)))

/-- A weight window's staging copy is the page (R108). -/
def State.windowHas (s : State) (p : Nat) : Bool :=
  (Tbl.vals s.tier.wins).any (fun w => w.copies.any (fun c => c.2.2.2 = p))

/-- Free the pages of a list that nothing references any more (R71). -/
def State.sweepPages (s : State) (ps : List Nat) : State :=
  let keep := fun p => !(s.refsOf p).isEmpty || s.stagingHas p || s.windowHas p
  { s with rgn := { s.rgn with pages := Tbl.keep (fun p _ => !(ps.any (· = p)) || keep p) s.rgn.pages } }

/-! ### Holders and placement (R14, R91, R94, R291) -/

/-- The holders of a region's pages by the map, and the stripe in pages; a region the map does not stripe lies at its home. -/
def State.holders (s : State) (id : Nat) : List Nat × Nat :=
  match s.fab.map.regions.look id with
  | some r => if r.holders.isEmpty then ([r.home.toNat], 1) else (r.holders.map (·.toNat), max 1 (r.stripe / 65536))
  | none => ([s.self], 1)

/-- The module the map names for page number n of a region: holder ⌊n × 65,536 ÷ u⌋ mod (list length) (R291). -/
def State.mapHolder (s : State) (id n : Nat) : Nat :=
  let (hs, u) := s.holders id
  hs.getD (n / u % hs.length) s.self

/-- The module has been expelled and this one stands in its place, as its buddy (R364). -/
def State.standsFor (s : State) (m : Nat) : Bool := s.ldg.standFor.any (· = m)

/-- The module that holds page number n of a region: the one the map names, or this one in the place of an expelled buddy
(R85, R364). -/
def State.holderOf (s : State) (id n : Nat) : Nat :=
  let m := s.mapHolder id n
  if s.standsFor m then s.self else m

/-- Page number n of an unmirrored region lay on an expelled module: it is lost (R85). -/
def State.pageGone (s : State) (id n : Nat) (r : Region) : Bool :=
  let m := s.mapHolder id n
  !r.mirrored && m ≠ s.self && (s.standsFor m || (s.ldg.peers.rd {} m).expelled)

/-- Page number n of a region is held here. -/
def State.heldHere (s : State) (id n : Nat) : Bool := s.holderOf id n = s.self

/-- This module keeps pages of a region homed elsewhere: it is among its holders by the map, or the buddy of one (R69,
R85). -/
def State.holdsPart (s : State) (id : Nat) : Bool :=
  match s.fab.map.regions.look id with
  | some r =>
    let hs := (s.holders id).1
    r.home.toNat ≠ s.self && (hs.any (· = s.self) || hs.any (fun m => s.buddy = some m))
  | none => false

/-- The writer of a version whose writer is a ring pair of another module: no pair of this one. -/
def farWriter : Nat := 2 ^ 20

/-- A region homed elsewhere as this module knows it: what it has met of it, else its properties as constants that the spec gives
no message for, owned by tenant 0 in the common range and else by the tenant whose requests name it (R64, R69; log entry 146). -/
def State.partRegion (s : State) (id tenant : Nat) : Region :=
  (s.region id).getD
    { owner := if isCommon id then 0 else tenant, size := Config.partSize id, tier := Config.partTier id % 3,
      mirrored := Config.partMirrored id, prot := Config.partProt id, flat := Config.partFlat id, fmt := Config.partFmt id % 256,
      tslot := Config.partSlot id % 16, latest := 0, highest := 0, vers := [],
      home := match s.fab.map.regions.look id with | some r => r.home | none => 0 }

/-- The properties of a region that is known here, or homed elsewhere by the map (R69, R291). -/
def State.attrs (s : State) (id : Nat) : Option Region :=
  match s.region id with
  | some r => some r
  | none =>
    match s.fab.map.regions.look id with
    | some m => if m.home.toNat = s.self then none else some (s.partRegion id (Config.partOwner id))
    | none => none

/-- A version joins a part of a region homed elsewhere, with the page table of its base here (R69, R71; log entry 146). -/
def Region.joined (r : Region) (id n : Nat) : Region :=
  let base := Config.partBase id n
  let pages := match r.vers.look base with | some v => v.pages | none => []
  let v : Version := { state := .opened, writer := farWriter, base := base, pages := pages }
  { r with highest := max r.highest n, vers := Tbl.ins n v r.vers }

/-- A request of a tenant reaches a version of a region homed elsewhere, for the first time or again: the page table of its
pages held here begins, on a base that the spec gives no message for (R69; log entry 146). -/
def State.meet (s : State) (id n tenant : Nat) : State :=
  let r := s.partRegion id tenant
  if n = 0 || !(s.holdsPart id) || r.home.toNat = s.self then s
  else
    let r := { r with owner := if isCommon id then 0 else tenant }
    let r := if (r.vers.look n).isSome then r else r.joined id n
    { s with rgn := { s.rgn with regions := Tbl.ins id r s.rgn.regions } }

/-- Pages whose holder by the map is `m` lie on this module too: its own, and the second copies of a mirrored region's pages
that its buddy holds (R85, R94). -/
def State.keeps (s : State) (id m : Nat) : Bool :=
  let mirrored := match s.attrs id with | some r => r.mirrored | none => false
  m = s.self || s.standsFor m || (mirrored && s.buddy = some m)

/-- Rank of a page number among the region's pages on this module, from 0 in order of offsets (R94). -/
def State.rank (s : State) (id n : Nat) : Nat :=
  let (hs, u) := s.holders id
  n / u / hs.length * u * (hs.filter (s.keeps id)).length + u * ((hs.take (n / u % hs.length)).filter (s.keeps id)).length + n % u

/-- Pages that lie on a shelf. -/
def State.pagesOn (s : State) (tier idx : Nat) : Nat :=
  (s.rgn.pages.filter (fun e => (e.2.tier = tier && e.2.shelf = idx) ||
    (match e.2.mv with | some m => m.tier = tier && m.shelf = idx | none => false))).length

/-- A stack takes new pages: its quadrant is not out and no mark keeps placement away (R94, R390, R405). -/
def State.stackOpen (s : State) (n : Nat) : Bool :=
  !(s.quadOut (stackQuad n)) && !(s.stk.rd {} n).noPlace && (s.rst.hbmAt.look n).isNone &&
    !(bit (s.fld F.rstBlkHbmAssert) n)

/-- Shelves of a partition with a free page that still belong to the allocation pool (R65, R67). -/
def State.roomIn (s : State) (tier owner : Nat) (common : Bool) : List Nat :=
  (s.partition tier owner common).filter (fun i =>
    (match s.shelf tier i with | some h => !h.evac | none => false) && s.pagesOn tier i < shelfPages)

/-- The stack (near) or decoder (below) number of a shelf index. -/
def State.bankOf (s : State) (tier idx : Nat) : Nat :=
  if tier = 0 then nearStack idx else decoderGo (s.decodersOf tier) 0 idx

/-- The first of the banks (a + start) mod d, in ascending order from `start`, that has room. -/
def bankGo (p : Nat → Bool) (d : Nat) : Nat → Nat → Option Nat
  | 0, _ => none
  | left + 1, b => if p (b % d) then some (b % d) else bankGo p d left (b + 1)

/-- The shelf a page of a region takes in a tier (R94): stack (p + h) mod 12 near, decoder (p + g) mod D below, then the
following ones, on secure shelves for a PROTECTED region and on normal ones for every other (R371); any shelf there with a free page serves, and which one is open (log entry 3). -/
def State.place (s : State) (tier owner id n : Nat) : Option Nat :=
  let prot := match s.region id with | some r => r.prot | none => false
  let room := (s.roomIn tier owner (isCommon id)).filter (fun i =>
    match s.shelf tier i with | some h => h.secure = prot | none => false)
  let d := if tier = 0 then 12 else (s.decodersOf tier).length
  let ok := fun b => room.any (fun i => s.bankOf tier i = b) && (tier ≠ 0 || s.stackOpen b)
  if d = 0 then none
  else
    match bankGo ok d d (s.rank id n + id % d) with
    | some b =>
      let c := room.filter (fun i => s.bankOf tier i = b)
      (c.drop (s.free % c.length)).head?
    | none => none

/-! ### Charges (R70, R71, R93, R108) -/

/-- A region is charged to the pool (owner, common). -/
def poolOf (id : Nat) (r : Region) : Nat × Bool := (r.owner, isCommon id)

/-- Copy-on-write pages of a region on this module: every page its versions allocated. -/
def State.regionPages (s : State) (id : Nat) : List Page :=
  (Tbl.vals s.rgn.pages).filter (fun p => p.region = id)

/-- Pages charged to a pool in a tier on this module (R93, R108). -/
def State.charged (s : State) (tier owner : Nat) (common : Bool) : Nat :=
  let rs := s.rgn.regions.filter (fun e => poolOf e.1 e.2 = (owner, common))
  (rs.map (fun e =>
    (if e.2.tier = tier && e.2.home.toNat = s.self then e.2.npages else 0) +
      ((s.regionPages e.1).map (fun p => b2n (e.2.tier = tier) + b2n (p.tier ≠ e.2.tier && p.tier = tier) +
        (match p.mv with
         | some m => b2n (m.tier = tier && m.tier ≠ e.2.tier && m.tier ≠ p.tier)
         | none => 0))).foldl (· + ·) 0)).foldl (· + ·) 0 +
  (if tier = 0 then
    ((List.range 16).map (fun w =>
      match s.region (s.fld F.tierWinCtlRegion w) with
      | some r => if (Tbl.rd ({} : WinSt) s.tier.wins w).on && poolOf (s.fld F.tierWinCtlRegion w) r = (owner, common)
          then (Tbl.rd ({} : WinSt) s.tier.wins w).reserve else 0
      | none => 0)).foldl (· + ·) 0
   else 0)

/-- Capacity of a pool in a tier, in pages (R63). -/
def State.capacity (s : State) (tier owner : Nat) (common : Bool) : Nat :=
  (s.partition tier owner common).length * shelfPages

/-- `n` more pages fit the pool's quota in a tier (R63). -/
def State.fits (s : State) (tier owner : Nat) (common : Bool) (n : Nat) : Bool :=
  s.charged tier owner common + n ≤ s.capacity tier owner common

/-! ### Resolution (R64, R69, R72, R74–R77, R82, R86) -/

/-- The world of a ring pair (R370): its SEC_PAIR_WORLD bit. -/
def State.pairSecure (s : State) (pair : Nat) : Bool :=
  bit (s.fld F.secPairWorldSecure (pair % 2048 / 64)) (pair % 64)

/-- Who asks: tenant, ring pair, world, and the time its request was accepted. -/
structure Caller where
  tenant : Nat
  pair : Nat
  secure : Bool
  at_ : Nat
  deriving DecidableEq, Repr

/-- The caller of a descriptor. -/
def State.callerOf (s : State) (e : Entry) : Caller :=
  { tenant := e.tenant, pair := e.pair, secure := s.pairSecure e.pair, at_ := e.acceptAt }

/-- What a descriptor of an expelled buddy gets that names a region unknown here: its pages were held by the expelled module only
(R364); another gets 0x0301. -/
def State.unknownRegion (s : State) (c : Caller) (id : Nat) : Nat × Nat :=
  let elsewhere := match s.fab.map.regions.look id with
    | some r => r.home.toNat ≠ s.self && !(s.ldg.standFor.any (· = r.home.toNat))
    | none => false
  if c.pair ≥ 2048 && !elsewhere then (St.poisoned, 0x0331) else (St.denied, 0x0301)

/-- Rights on a region: 0x0301 unknown, homed elsewhere (log entry 77), freed before the request was accepted, or another tenant's; 0x0304 common range
without right; 0x0E01 PROTECTED from the normal world (R64, R69, R72, R86). `late` lets a freed region through (R72,
R101). -/
def State.rights (s : State) (c : Caller) (id : Nat) (read late : Bool) : Except (Nat × Nat) Region :=
  match s.region id with
  | none => .error (s.unknownRegion c id)
  | some r =>
    if isCommon id && c.tenant ≠ 0 && !(read && s.flag F.rgnTenCtlCommonRd c.tenant) then .error (St.denied, 0x0304)
    else if !(isCommon id) && r.owner ≠ c.tenant then .error (St.denied, 0x0301)
    else if !late && (match r.freeing with | some t => decide (t < c.at_) | none => false) then
      .error (St.denied, 0x0301)
    else if r.prot && !c.secure then .error (St.denied, 0x0E01)
    else if r.home.toNat ≠ s.self then .error (s.unknownRegion c id)
    else .ok r

/-- The version a desc.ref names (R45, R74): an exact number, the latest published, or the pair's open version. -/
def pickVersion (r : Region) (ref : Ref) (pair : Nat) : Option (Nat × Version) :=
  match ref.vsel with
  | 0 => (r.vers.look ref.number).map (fun v => (ref.number, v))
  | 1 => if r.freeing.isSome then none else (r.vers.look r.latest).map (fun v => (r.latest, v))
  | _ => r.vers.find? (fun e => e.2.state = .opened && e.2.writer = pair)

/-- Resolve a desc.ref to a region and version the caller may name. -/
def State.named (s : State) (c : Caller) (ref : Ref) (read late : Bool) :
    Except (Nat × Nat) (Region × Nat × Version) :=
  match s.rights c ref.region read late with
  | .error e => .error e
  | .ok r =>
    match pickVersion r ref c.pair with
    | none => .error (St.denied, 0x0301)
    | some (n, v) => .ok (r, n, v)

/-- The detail of naming a RETIRING version: an orphan whose hold has expired is unknown (R81, R82). -/
def Version.retiredDetail (v : Version) : Nat := if v.expired then 0x0301 else 0x0302

/-- A version may be written: it is OPEN, and no PUBLISH is sealing its parts (R75, R79). -/
def Version.writable (v : Version) : Bool := v.state = .opened && !v.parted

/-- Resolve for reading (R64, R82): no new reference on a RETIRING version (0x0302); an orphan whose hold has expired is
unknown (0x0301, R81); other tenants read only sealed and published versions of common regions. -/
def State.resolveRead (s : State) (c : Caller) (ref : Ref) : Except (Nat × Nat) (Region × Nat × Version) :=
  match s.named c ref true false with
  | .error e => .error e
  | .ok (r, n, v) =>
    if v.state = .retiring then .error (St.denied, v.retiredDetail)
    else if r.owner ≠ c.tenant && v.state ≠ .sealed && v.state ≠ .published then .error (St.denied, 0x0304)
    else .ok (r, n, v)

/-- A write accepted before the open version it names was discarded is queued to it (R76). -/
def State.queuedTo (s : State) (id : Nat) (p : Nat → Nat → Bool) (at_ : Nat) : Bool :=
  s.rgn.discarded.any (fun d => d.1 = id && p d.2.1 d.2.2.1 && at_ ≤ d.2.2.2)

/-- Resolve for writing (R75): only vsel 0x02 names the pair's own open version; any other write is denied with 0x0306. A
write queued to a version that has been discarded since is ABORTED (R76). -/
def State.resolveWrite (s : State) (c : Caller) (ref : Ref) : Except (Nat × Nat) (Region × Nat × Version) :=
  match s.named c ref false false with
  | .error e =>
    .error (if ref.vsel = 2 && s.queuedTo ref.region (fun _ w => w = c.pair) c.at_ then (St.aborted, 0x0341) else e)
  | .ok (r, n, v) =>
    if ref.vsel ≠ 2 || !v.writable || v.writer ≠ c.pair then .error (St.denied, 0x0306) else .ok (r, n, v)

/-- Take a read reference (R82). -/
def State.addRef (s : State) (id v : Nat) : State :=
  s.modVersion id v (fun x => { x with refs := x.refs + 1, readAt := s.now })

/-! ### What keeps a version alive (R71, R72, R76, R81) -/

/-- Nothing holds the version: no read reference, hold or pin. -/
def Version.idle (v : Version) : Bool := v.refs = 0 && v.holds.isEmpty && v.pins.isEmpty

/-- A version is gone: its pages that nothing else references are freed, a key of the work table it kept goes (R357), and
a freed region without versions goes with it (R72). -/
def State.dropVersion (s : State) (id n : Nat) : State :=
  match s.version id n with
  | none => s
  | some v =>
    let ps := v.pageIds
    let s := s.modRegion id (fun r => { r with vers := Tbl.del n r.vers })
    let s := s.sweepPages ps
    match s.region id with
    | some r =>
      if r.freeing.isSome && r.vers.isEmpty then { s with rgn := { s.rgn with regions := Tbl.del id s.rgn.regions } } else s
    | none => s

/-- A version transition is recorded in the ledger, and in MIRRORED mode the record of the descriptor `lsn` waits for the buddy's
copy (R78, R85). -/
def State.logVersion (s : State) (lsn id n : Nat) : State :=
  let l := s.ldg.nextLsn
  let s := s.addEntry { lsn := l, kind := .version, index := BitVec.ofNat 32 id, result := n, note := [id, n] }
  if s.durable s.ldg.mirrorSent then s.freeEntry l
  else
    let till := s.ldg.mirrorSent
    { s with ldg := { s.ldg with entries := s.ldg.entries.map (fun (e : Entry) =>
      if e.lsn = l then { e with staged := some till } else if e.lsn = lsn then { e with till := till } else e) } }

/-- A transition that no descriptor asked for is recorded (R85). -/
def State.logSelf (s : State) (id n : Nat) : State := s.logVersion s.ldg.nextLsn id n

/-- A RETIRING version goes when its last read reference, hold and pin are released (R76). -/
def State.reap (s : State) (id n : Nat) : State :=
  match s.version id n with
  | some v => if v.state = .retiring && v.idle then (s.dropVersion id n).logSelf id n else s
  | none => s

/-- Release a read reference (R82). -/
def State.dropRef (s : State) (id n : Nat) : State :=
  (s.modVersion id n (fun v => { v with refs := v.refs - 1 })).reap id n

/-- A version turns RETIRING, or goes at once when nothing holds it (R76). -/
def State.retireVersion (s : State) (id n : Nat) : State :=
  (s.modVersion id n (fun v => { v with state := .retiring })).reap id n

/-- Discard an open version (R76): gone, its own pages freed, and logged; writes queued to it will find it so. -/
def State.discardVersion (s : State) (id n : Nat) : State :=
  match s.version id n with
  | some v =>
    let t := s.dropVersion id n
    { t with rgn := { t.rgn with discarded := s.rgn.discarded ++ [(id, n, v.writer, s.now)] } }.logSelf id n
  | none => s

/-- Every live version of every region: region, number, version. -/
def State.allVersions (s : State) : List (Nat × Nat × Version) :=
  (s.rgn.regions.map (fun e => e.2.vers.map (fun x => (e.1, x.1, x.2)))).flatten

/-! ### Reading (R68, R70, R83, R107, R165, R287) -/

/-- Failure of a page whose shelf is being revoked, for a request accepted after the transition to DRAINING (R67). -/
def State.shelfStop (s : State) (g : Page) (at_ : Nat) : Option (Nat × Nat) :=
  match s.shelf g.tier g.shelf with
  | some h =>
    if at_ ≤ h.drainAt then none
    else if h.st = .draining then some (St.revoked, 0x0321)
    else if h.st = .scrubbing then some (St.revoked, 0x0322)
    else none
  | none => none

/-- A revoked page whose shelf has not been scrubbed yet, met by a request accepted before the transition: the request
completes normally on it (R67). -/
def State.stillThere (s : State) (r : PageRef) (at_ : Nat) : Bool :=
  match r with
  | .revoked => false
  | .page p =>
    match s.page p with
    | some g =>
      (match s.shelf g.tier g.shelf with | some h => h.st = .draining || h.st = .scrubbing | none => false) &&
        (s.shelfStop g at_).isNone
    | none => false

/-- The page lies in a faulted quadrant's stack (R16). -/
def State.pageOut (s : State) (g : Page) : Bool :=
  g.tier = 0 && (s.quadOut (stackQuad (nearStack g.shelf)) || (s.stk.rd {} (nearStack g.shelf)).st = 3)

/-- A stored LP page decoded: its output, and the detail of the event that poisons it. Without the recorded identity in the
slot there is none (R165, R168). -/
def State.lpOutput (s : State) (f : LpForm) : List Byte × Option Nat :=
  let c := s.codec.rd {} f.slot
  if c.st ≠ .loaded || c.ident ≠ f.ident then ([], some 0x0605) else lpDecode c.body f.cls f.stream

/-- The bytes of a stored LP page, or the detail with which it is poisoned. -/
def State.lpBytes (s : State) (f : LpForm) : Except Nat (List Byte) :=
  match s.lpOutput f with
  | (b, none) => .ok b
  | (_, some d) => .error d

/-- The page a failed decode leaves: its output, never zero-filled; the bytes behind it are open (R165; log entry 3). -/
def State.lpPoisoned (s : State) (f : LpForm) : Bytes :=
  let out := (s.lpOutput f).1
  Bytes.wr [] 0 (out ++ (List.range (65536 - out.length)).map (Config.freeByte s.freeIdx))

/-- A tier key slot holds no key: copies it encrypted cannot be read (R377). -/
def State.keyGone (s : State) (g : Page) : Bool :=
  match g.key with
  | some k => (s.sec.keys.look (keyNo 0 k 0)).isNone
  | none => false

/-- The tier key slot a tenant owns (R376). -/
def State.tierSlot (s : State) (t : Nat) : Option Nat :=
  (List.range 64).find? (fun k => match s.sec.keys.look (keyNo 0 k 0) with | some x => x.owner = t | none => false)

/-- What reading one page gives: its bytes and its poisoned lines, or a failure (R16, R67, R68, R85, R165, R306). A mirrored page
of a quadrant that is out is served with its bytes also where the map names no buddy (the model's choice, log entry 158). -/
def State.readPage (s : State) (mirrored : Bool) (r : Option PageRef) (at_ : Nat) :
    Except (Nat × Nat) (Bytes × List Nat) :=
  match r with
  | none => .ok ([], [])
  | some .revoked => .error (St.revoked, 0x0307)
  | some (.page p) =>
    match s.page p with
    | none => .error (St.revoked, 0x0307)
    | some g =>
      match s.shelfStop g at_ with
      | some f => .error f
      | none =>
        let shelfBusy := match s.shelf g.tier g.shelf with
          | some h => h.st = .draining || h.st = .scrubbing
          | none => false
        if g.revoked && !shelfBusy then .error (St.revoked, 0x0307)
        else if g.lost || (s.pageOut g && !mirrored) then .error (St.poisoned, 0x0331)
        else if s.trayShut g.tier g.shelf then .error (St.denied, 0x0B04)
        else if s.keyGone g then .error (St.poisoned, 0x0E03)
        else
          match g.lp with
          | some f =>
            if f.raw then .ok (g.bytes, g.poison)
            else
              match s.lpBytes f with
              | .ok _ => .ok (g.bytes, g.poison)
              | .error d => .error (St.poisoned, d)
          | none => .ok (g.bytes, g.poison)

/-- The LP engines count a failed decode (R165, R174). -/
def State.countLp (s : State) (d : Nat) : State :=
  match d with
  | 0x0601 => s.bump F.codecCnt1PoisonLong
  | 0x0602 => s.bump F.codecCnt1PoisonShort
  | 0x0603 => s.bump F.codecCnt2PoisonStream
  | 0x0604 => s.bump F.codecCnt2PoisonCrc
  | 0x0605 => s.bump F.codecCnt3IdentMismatch
  | _ => s

/-- The pieces of a byte range by page: page number, offset in the page, length. -/
def pageSpansGo : Nat → Nat → Nat → List (Nat × Nat × Nat)
  | 0, _, _ => []
  | fuel + 1, off, len =>
    if len = 0 then []
    else
      let k := min len (65536 - off % 65536)
      (off / 65536, off % 65536, k) :: pageSpansGo fuel (off + k) (len - k)

def pageSpans (off len : Nat) : List (Nat × Nat × Nat) := pageSpansGo (len / 65536 + 2) off len

/-- Read a byte range through a page table: the bytes and the numbers (byte offset ÷ 64) of its poisoned lines. -/
def State.readSpans (s : State) (mirrored : Bool) (pages : Tbl PageRef) (at_ : Nat) :
    List (Nat × Nat × Nat) → Except (Nat × Nat) (List Byte × List Nat)
  | [] => .ok ([], [])
  | (n, o, k) :: rest =>
    match s.readPage mirrored (pages.look n) at_, State.readSpans s mirrored pages at_ rest with
    | .ok (m, ps), .ok (bs, qs) =>
      .ok (Bytes.rd m o k ++ bs,
        (ps.filter (fun l => o / 64 ≤ l && l ≤ (o + k - 1) / 64)).map (fun l => n * 1024 + l) ++ qs)
    | .error e, _ => .error e
    | _, .error e => .error e

/-- Put the parts of a read together, page by page. -/
def joinSpans (l : List (Except (Nat × Nat) (List Byte × List Nat))) : Except (Nat × Nat) (List Byte × List Nat) :=
  match l with
  | [] => .ok ([], [])
  | .error e :: _ => .error e
  | .ok a :: rest =>
    match joinSpans rest with
    | .ok b => .ok (a.1 ++ b.1, a.2 ++ b.2)
    | .error e => .error e

/-- Read `len` bytes of a version from `off` on the pages held here; the places of pages that other modules hold stand empty until
their loads are answered (R282). -/
def State.readVersion (s : State) (id n off len at_ : Nat) : Except (Nat × Nat) (List Byte × List Nat) :=
  match s.region id, s.version id n with
  | some r, some v =>
    joinSpans ((pageSpans off len).map (fun q =>
      if s.pageGone id q.1 r then .error (St.poisoned, 0x0331)
      else if s.heldHere id q.1 then s.readSpans r.mirrored v.pages at_ [q] else .ok (List.replicate q.2.2 0, [])))
  | _, _ => .error (St.aborted, 0x0341)

/-- The detail with which the first of some poisoned lines of a version is reported: that of the decode that poisoned its
page (R165); otherwise open (log entry 3). -/
def State.poisonWhy (s : State) (id n : Nat) (lines : List Nat) : Nat :=
  let page := match s.version id n, lines with
    | some v, l :: _ => (match v.pages.look (l / 1024) with | some (.page p) => s.page p | _ => none)
    | _, _ => none
  ((page.bind (fun g => g.why)).getD (s.free % 65536))

/-- Pages of a range that were answered with POISONED because their quadrant is out stay poisoned (R16, R410). -/
def State.losePages (s : State) (id n off len : Nat) : State :=
  match s.region id, s.version id n with
  | some r, some v =>
    if r.mirrored then s
    else foldS (fun s (q : Nat × Nat × Nat) =>
      match v.pages.look q.1 with
      | some (.page p) => s.modPage p (fun g => { g with lost := g.lost || s.pageOut g })
      | _ => s) s (pageSpans off len)
  | _, _ => s

/-- 64-byte lines of a page's stored copy (R163, R300). -/
def Page.storedLines (g : Page) : Nat :=
  match g.lp with
  | some f => if f.raw then 1024 else f.cls * 64
  | none => 1024

/-- The 64-byte lines of a page's stored copy that a range of the page needs: all of an LP copy (R163). -/
def Page.readLines (g : Page) (o k : Nat) : List Nat :=
  match g.lp with
  | some f => if f.raw then rangeFrom (o / 64) ((o + k - 1) / 64 + 1 - o / 64) else List.range g.storedLines
  | none => rangeFrom (o / 64) ((o + k - 1) / 64 + 1 - o / 64)

/-- A read of a version reaches the tray pages of its range: one CXL.mem read for each line, whose answer may be poisoned (R300;
log entry 192). -/
def State.trayRead (s : State) (id n off len : Nat) : State :=
  match s.version id n with
  | none => s
  | some v =>
    foldS (fun s (q : Nat × Nat × Nat) =>
      match v.pages.look q.1 with
      | some (.page p) =>
        (match s.page p with
         | none => s
         | some g =>
           match s.trayPort g.tier g.shelf with
           | none => s
           | some port =>
             foldS (fun s i =>
               let (tag, s) := s.newTag
               (s.addWait { tag := tag, dst := 0xFFFF#16, port := port, purpose := .line p, ptr := BitVec.ofNat 64 p, off := 64 * i,
                            len := 64, tc := 4, sentAt := s.now }).emit (.tray port tag.toNat p i false []))
               s (g.readLines q.2.1 q.2.2))
      | _ => s) s (pageSpans off len)

/-- What a read of a version does beside its bytes: the CXL.mem reads of its tray pages (R300); a failed one is counted by the LP
engines when their decode failed (R174), and marks the pages of a quadrant that is out. -/
def State.countRead (s : State) (r : Except (Nat × Nat) (List Byte × List Nat)) (id n off len : Nat) : State :=
  match r with
  | .error e => (s.countLp e.2).when (e = (St.poisoned, 0x0331)) (fun s => s.losePages id n off len)
  | .ok _ => s.trayRead id n off len

/-! ### Writing: copy-on-write (R71, R85, R92) -/

/-- Write bytes into a page, marking its lines poisoned or clean. -/
def Page.write (g : Page) (o : Nat) (data : List Byte) (poison : Bool) : Page :=
  let lines := rangeFrom (o / 64) ((o + data.length - 1) / 64 + 1 - o / 64)
  { g with
    bytes := Bytes.wr g.bytes o data,
    poison := if poison then lines.foldl (fun l x => listAdd x l) g.poison
      else g.poison.filter (fun l => !(lines.any (fun x => x = l && 64 * x ≥ o && 64 * x + 64 ≤ o + data.length))) }

/-- A new near-tier page for page number `n` of a region (R71, R92, R94): a copy of `base`'s content, or zeros. -/
def State.newPage (s : State) (id n : Nat) (r : Region) (base : Bytes × List Nat) : Option (Nat × State) :=
  let (o, c) := poolOf id r
  if !(s.fits r.tier o c 1) || (r.tier ≠ 0 && !(s.fits 0 o c 1)) then none
  else
    match s.place 0 o id n with
    | none => none
    | some sh =>
      let p := s.rgn.nextPage
      let g : Page := { bytes := base.1, poison := base.2, tier := 0, shelf := sh, region := id }
      some (p, { s.tickFree with rgn := { s.rgn with pages := Tbl.ins p g s.rgn.pages, nextPage := p + 1 } })

/-- The writable page at a page number of a page table: the table's own, or a new copy (R68, R71). `own` are the numbers
already allocated. A page of the version's own that was revoked is replaced like one shared with its base (log entry
148). -/
def State.ownPage (s : State) (id n : Nat) (r : Region) (pages : Tbl PageRef) (own : List Nat) (at_ : Nat) :
    Except (Nat × Nat) (Nat × State) :=
  match pages.look n, own.any (· = n) with
  | some (.page p), true =>
    match s.page p with
    | some g =>
      match s.shelfStop g at_ with
      | some f => .error f
      | none =>
        if s.refRevoked (.page p) && !(s.stillThere (.page p) at_) then
          if r.mirrored && s.buddy.isNone then .error (St.denied, 0x0309)
          else (match s.newPage id n r ([], []) with | some x => .ok x | none => .error (St.quota, 0x0311))
        else if s.pageOut g && !r.mirrored then .error (St.poisoned, 0x0331) else .ok (p, s)
    | none => .error (St.quota, 0x0311)
  | ref, _ =>
    if r.mirrored && s.buddy.isNone then .error (St.denied, 0x0309)
    else
      let base : Except (Nat × Nat) (Bytes × List Nat) :=
        match ref with
        | some x => if s.refRevoked x && !(s.stillThere x at_) then .ok ([], []) else s.readPage r.mirrored (some x) at_
        | none => .ok ([], [])
      match base with
      | .error e => .error e
      | .ok b =>
        match s.newPage id n r b with
        | some x => .ok x
        | none => .error (St.quota, 0x0311)

/-- Write spans into a page table; the table, its own pages, and the state, or the first failure. -/
def State.writeSpans (s : State) (id : Nat) (r : Region) (poison : Bool) (at_ : Nat) :
    Tbl PageRef → List Nat → List Byte → List (Nat × Nat × Nat) → Except (Nat × Nat) (Tbl PageRef × List Nat × State)
  | pages, own, _, [] => .ok (pages, own, s)
  | pages, own, data, (n, o, k) :: rest =>
    match s.ownPage id n r pages own at_ with
    | .error e => .error e
    | .ok (p, s) =>
      let s := s.modPage p (fun g => g.write o (data.take k) poison)
      State.writeSpans s id r poison at_ (Tbl.ins n (.page p) pages) (listAdd n own) (data.drop k) rest

/-- The bytes of one span of a write go to a module as stores (R14, R275, R277). -/
def State.sendSpan (s : State) (m id n owner off : Nat) (data : List Byte) (poison secure : Bool) (p : Purpose)
    (q : Nat × Nat × Nat) : State :=
  foldS (fun s r => s.sendReq (s.portTo m s.self 2) m 2 .store p r.1 ((data.drop (r.1 - off)).take r.2) poison
    (id, n, owner, secure)) s (pieces (q.1 * 65536 + q.2.1) q.2.2)

/-- Bytes for pages that other modules hold go to their holders. -/
def State.sendRemote (s : State) (id n owner off : Nat) (data : List Byte) (poison secure : Bool) (p : Purpose) : State :=
  foldS (fun s q =>
    if s.heldHere id q.1 then s else s.sendSpan (s.holderOf id q.1) id n owner off data poison secure p q)
    s (pageSpans off data.length)

/-- The module that keeps the second copy of the mirrored pages held here: the buddy, unless the module runs SOLO (R85,
R347; log entry 145). -/
def State.copyBuddy (s : State) : Option Nat := if s.ldg.mode = .solo then none else s.buddy

/-- Bytes for mirrored pages held here go to the buddy's copies too: the write is done when both hold them (R85). -/
def State.sendCopies (s : State) (id n owner off : Nat) (data : List Byte) (poison secure : Bool) (p : Purpose) : State :=
  match s.copyBuddy with
  | none => s
  | some b =>
    foldS (fun s q => if s.heldHere id q.1 then s.sendSpan b id n owner off data poison secure p q else s)
      s (pageSpans off data.length)

/-- The spans of a write that lie on pages held here, each with its bytes put one after another. -/
def State.localPart (s : State) (id off : Nat) (data : List Byte) : List (Nat × Nat × Nat) × List Byte :=
  let qs := (pageSpans off data.length).filter (fun q => s.heldHere id q.1)
  (qs, (qs.map (fun q => (data.drop (q.1 * 65536 + q.2.1 - off)).take q.2.2)).flatten)

/-- Write bytes into the pages of a version that are kept here: all of them, or none with the failure. A base page that cannot
be decoded is counted (R174). -/
def State.writePages (s : State) (id n : Nat) (r : Region) (v : Version) (poison : Bool) (at_ job : Nat) (bytes : List Byte)
    (qs : List (Nat × Nat × Nat)) : State × Option (Nat × Nat) :=
  match s.writeSpans id r poison at_ v.pages v.own bytes qs with
  | .error e => (s.countLp e.2, some e)
  | .ok (pages, own, t) =>
    let t := t.modVersion id n (fun x => { x with
      pages := pages, own := own, jobs := if job = 0xFFFF then x.jobs else listAdd job x.jobs })
    (t.sweepPages v.pageIds, none)

/-- Write bytes into the pages of an open version that are kept here (R71, R75–R77). -/
def State.writeHere (s : State) (id n : Nat) (r : Region) (v : Version) (poison : Bool) (at_ job : Nat) (bytes : List Byte)
    (qs : List (Nat × Nat × Nat)) : State × Option (Nat × Nat) :=
  if !v.writable then (s, some (St.denied, 0x0306)) else s.writePages id n r v poison at_ job bytes qs

/-- Write bytes into an open version: here, at the other holders, and in the copies of mirrored pages. Stores that leave
work for `p`. -/
def State.writeVersion (s : State) (id n off : Nat) (data : List Byte) (poison : Bool) (at_ job : Nat) (p : Purpose) :
    State × Option (Nat × Nat) :=
  match s.region id, s.version id n with
  | some r, some v =>
    if (pageSpans off data.length).any (fun q => s.pageGone id q.1 r) then (s, some (St.poisoned, 0x0331)) else
    let (qs, bytes) := s.localPart id off data
    match s.writeHere id n r v poison at_ job bytes qs with
    | (s, some e) => (s, some e)
    | (s, none) =>
      let s := s.sendRemote id n r.owner off data poison r.prot p
      (s.when r.mirrored (fun s => s.sendCopies id n r.owner off data poison r.prot p), none)
  | _, _ => (s, some (St.aborted, 0x0341))

/-- A store from the holder of mirrored pages brings this module's copies of them up to date, whatever state the version is in
(R85, R347). -/
def State.writeCopy (s : State) (id n off : Nat) (data : List Byte) (poison : Bool) (at_ : Nat) : State × Option (Nat × Nat) :=
  match s.region id, s.version id n with
  | some r, some v =>
    let r := { r with mirrored := true }
    { s with rgn := { s.rgn with regions := Tbl.ins id r s.rgn.regions } }.writePages id n r v poison at_ 0xFFFF data
      (pageSpans off data.length)
  | _, _ => (s, some (St.denied, 0x0301))

/-- A page of a version goes to a module as stores, its poisoned lines as stores of their own (R85, R287, R347). -/
def State.sendPage (s : State) (m id n : Nat) (r : Region) (pg : Nat) (g : Page) : State :=
  let parts := if g.poison.isEmpty then pieces 0 65536 else linePieces 0 65536
  foldS (fun s (q : Nat × Nat) =>
    s.sendReq (s.portTo m s.self 2) m 2 .store .resync (65536 * pg + q.1) (Bytes.rd g.bytes q.1 q.2)
      (g.poison.any (· = q.1 / 64) && q.2 = 64) (id, n, r.owner, r.prot)) s parts

/-- The copies of mirrored pages held here go to the buddy, in the order of regions, versions and offsets (R347). -/
def State.sendMirroredPages (s : State) (m : Nat) : State :=
  foldS (fun s (x : Nat × Region) =>
    if !x.2.mirrored then s
    else
      foldS (fun s (y : Nat × Version) =>
        foldS (fun s (z : Nat × PageRef) =>
          match (match z.2 with | .page p => s.page p | .revoked => none) with
          | some g => s.when (s.heldHere x.1 z.1) (fun s => s.sendPage m x.1 y.1 x.2 z.1 g)
          | none => s) s y.2.pages) s x.2.vers) s s.rgn.regions

/-! ### Drain counts (R66) -/

/-- Shelves on which a region has pages, as keys. -/
def State.shelvesOf (s : State) (id : Nat) : List Nat :=
  (s.regionPages id).foldl (fun l p => listAdd (shelfKey p.tier p.shelf) l) []

/-- Fabric requests that wait here: in their streams, for a store they depend on, for an epoch. -/
def State.waitingReqs (s : State) : List RxReq :=
  ((Tbl.vals s.fab.rx).map (fun r => r.held ++ r.depLoads)).flatten ++
    ((Tbl.vals s.fab.later).map Prod.fst).filter (fun q => q.kind = .load)

/-- The drain count of a shelf: accepted descriptors, waiting and stalled fabric requests that may touch it, and loads
sent on to another holder of their region (R66). -/
def State.drainCount (s : State) (tier idx : Nat) : Nat :=
  let on : List Nat → Bool := fun l => l.any (· = shelfKey tier idx)
  (s.ldg.entries.filter (fun e => on e.drains)).length + (s.waitingReqs.filter (fun q => on q.drains)).length +
    ((Tbl.vals s.tier.stalls).filter (fun t => on t.drains)).length +
    (s.fab.waits.filter (fun w => match w.purpose with | .fwd _ h => on (s.shelvesOf h.xRegion) | _ => false)).length

/-! ### Regions and versions as counts (R90) -/

/-- Regions homed here. -/
def State.homes (s : State) : Tbl Region := Tbl.keep (fun _ r => r.home.toNat = s.self) s.rgn.regions

def State.homed (s : State) : Nat := s.homes.length
def State.liveVersions (s : State) : Nat := (s.homes.map (fun e => e.2.vers.length)).foldl (· + ·) 0

/-- Regions a tenant has homed here (R70). -/
def State.tenantRegions (s : State) (t : Nat) : Nat := (s.homes.filter (fun e => e.2.owner = t)).length

end Sys2Proof.Machine
end

