-- ==== Sys2Proof/Machine/Sched.lean ====
section
/-! DEFINITION. The queues of the output schedulers: sources in turn, gates, weights, tags, and the transfer units of tier copies
(R142, R323–R327, R332). -/

namespace Sys2Proof.Machine

/-! ### Queues and tags (R323, R325, R326) -/

def State.queue (s : State) (k : Nat) : SQueue := s.sw.queues.rd {} k

def State.modQueue (s : State) (k : Nat) (f : SQueue → SQueue) : State :=
  { s with sw := { s.sw with queues := Tbl.upd {} k f s.sw.queues } }

/-- Cells of a message of `b` bytes (R313). -/
def cellCount (b : Nat) : Nat := ceilDiv b 240

/-- The counted length of a message of `b` bytes (R327). -/
def State.counted (s : State) (n b : Nat) : Nat := b + s.fld F.schPortCtlOvh n * cellCount b

/-- A port's virtual time (R325). -/
def State.vt (s : State) (n : Nat) : Nat := s.sw.vt.rd 0 n

/-- Tag a is earlier than tag b, modulo 2^64 (R325). -/
def tagBefore (a b : Nat) : Bool := (b + 2 ^ 64 - a) % 2 ^ 64 < 2 ^ 63 && a ≠ b

/-- The later of two tags. -/
def tagMax (a b : Nat) : Nat := if tagBefore a b then b else a

/-- The weight of a class (R326). -/
def State.classWeight (s : State) (c : Nat) : Nat := s.fld F.schClassWeight c

/-- The scheduling class of a tenant's queue: that of SCH_TEN_CTL, and 7 for TC3 (R324, R326). -/
def State.classOf (s : State) (t tc : Nat) : Nat :=
  match tc with
  | 0 => s.fld F.schTenCtlClassTc0 t
  | 1 => s.fld F.schTenCtlClassTc1 t
  | 2 => s.fld F.schTenCtlClassTc2 t
  | _ => 7

/-- The weight of a queue: its tenant's class, or a raised one when higher; TC3 has that of class 7 (R324, R326). -/
def State.weight (s : State) (k : Nat) : Nat :=
  let t := k / 4 % 256
  let tc := k % 4
  if tc = 3 then s.classWeight 7
  else
    let own := s.classWeight (s.classOf t tc)
    let raised := (s.tier.raises.filter (fun (r : Raise) => (s.queue k).units.any (fun (u : SUnit) => u.stream = r.src))).map
      (fun (r : Raise) => s.classWeight r.cls)
    raised.foldl max own

/-! ### Eligible heads (R324, R332) -/

/-- The gate of a queue lets a unit start (R142, R332). -/
def State.gateLets (s : State) (k : Nat) : Bool := gatesAllow (s.queueGates (k / 1024) (k / 4 % 256) (k % 4))

/-- CXL port n carries no CXL.mem traffic before its IDE stream is active (R379). -/
def State.ideWaits (s : State) (n : Nat) : Bool :=
  ((s.port n).role = roleDown || (s.port n).role = roleUp) && bit (s.fld F.secPortIdeRequire) n && (s.port n).ide.isNone

/-- The gates of a unit's move source let it start (R142, R323, R332). -/
def State.sourceLets (s : State) (u : SUnit) : Bool := u.copy.isNone || gatesAllow (s.sourceGates u.stream)

/-- The units of a queue with the one of the next source in turn at the head, after the source served last; units of a source
that may not start are passed over and keep their order (R323, R332). -/
def SQueue.inTurn (q : SQueue) (lets : SUnit → Bool) : List SUnit :=
  let may := q.units.filter lets
  let after := may.filter (fun (u : SUnit) => u.stream > q.last)
  let from_ := if after.isEmpty then may else after
  match from_.foldl (fun (m : Option SUnit) u => match m with
    | none => some u
    | some x => if u.stream < x.stream then some u else some x) none with
  | none => q.units
  | some u => u :: listDrop1 (fun x => x = u) q.units

/-- At a CXL-down port a tenant's TC0 queue draws its move requests from its sources in turn; every other queue is FIFO
(R323). -/
def State.turnHead (s : State) (k : Nat) : State :=
  if (s.port (k / 1024)).role = roleDown && k % 4 = 0 && (s.queue k).headTag.isNone then
    s.modQueue k (fun q => { q with units := q.inTurn s.sourceLets })
  else s

/-- A queue's head unit is eligible (R324): its gate, its shaper and its link let it start. One for an agent of the module takes no
link, and a tier copy waits for the port's IDE stream (R314, R379). -/
def State.eligible (s : State) (k : Nat) : Bool :=
  match (s.queue k).units with
  | [] => false
  | u :: _ =>
    s.gateLets k && s.sourceLets u && (!(s.queue k).on || (s.queue k).credit ≥ 0) &&
      (u.here || s.hasCredit (k / 1024) (k % 4) u.len) && !(u.copy.isSome && s.ideWaits (k / 1024))

/-- A head unit takes its tag when it is an eligible head, and holds none while it is not: it earns nothing for the time it waits
(R325, R332). -/
def State.tagHead (s : State) (k : Nat) : State :=
  let s := if s.eligible k then s else s.modQueue k (fun q => { q with headTag := none })
  let s := s.turnHead k
  match (s.queue k).headTag, (s.queue k).units with
  | none, u :: _ =>
    if s.eligible k then
      let q := s.queue k
      let tag := (tagMax (s.vt (k / 1024)) q.tag + u.bytes * 65536 / s.weight k) % 2 ^ 64
      s.modQueue k (fun q => { q with headTag := some tag })
    else s
  | _, _ => s

/-- The queues of a port that hold units, by index. -/
def State.queuesOf (s : State) (n : Nat) : List Nat :=
  (s.sw.queues.filter (fun (x : Nat × SQueue) => x.1 / 1024 = n && !x.2.units.isEmpty)).map Prod.fst

/-- Every head of a port that may take its tag has it. -/
def State.tagHeads (s : State) (n : Nat) : State := foldS (fun s k => s.tagHead k) s (s.queuesOf n)

/-- A unit enters a queue. -/
def State.addUnit (s : State) (k : Nat) (u : SUnit) : State := (s.modQueue k (fun q => { q with units := q.units ++ [u] })).tagHead k

/-! ### Tier copies (R95, R142, R300, R323) -/

/-- The units of a copy's accesses through a port: up to 256 lines of 64 bytes each, of the copy of page `p`, as it is stored for
page `at_` (log entry 22). -/
def State.queueLines (s : State) (port tenant src p at_ : Nat) (write : Bool) (n : Nat) (image : List Byte) : State :=
  foldS (fun s i =>
    let m := min 256 (n - 256 * i)
    s.addUnit (schedKey port tenant 0)
      { bytes := m * s.counted port 64, len := 64 * m, stream := src,
        copy := some { page := p, at_ := at_, line := 256 * i, lines := m, write := write,
                       data := (image.drop (16384 * i)).take (64 * m) } }) s (List.range (ceilDiv n 256))

/-- A unit of a copy starts: its CXL.mem accesses leave, each with a completion of its own (R300). -/
def State.sendCopy (s : State) (port : Nat) (c : CopyUnit) : State :=
  foldS (fun s i =>
    let (tag, s) := s.newTag
    (s.addWait { tag := tag, dst := 0xFFFF#16, port := port, purpose := .tray c.page, ptr := BitVec.ofNat 64 c.at_,
                 off := 64 * (c.line + i), len := if c.write then 0 else 64, tc := 4, sentAt := s.now }).emit
      (.tray port tag.toNat c.at_ (c.line + i) c.write ((c.data.drop (64 * i)).take 64))) s (List.range c.lines)

/-- A unit belongs to the copy of a page. -/
def SUnit.copies (u : SUnit) (p : Nat) : Bool := match u.copy with | some c => c.page = p | none => false

/-- The copy of a page is not whole: a unit of it has not started (R142), or a tray access of it has no completion (R300). -/
def State.trayOpen (s : State) (p : Nat) : Bool :=
  s.fab.waits.any (fun (w : Wait) => w.purpose = .tray p) || (Tbl.vals s.sw.queues).any (fun q => q.units.any (fun u => u.copies p))

/-- The copy of a page is given up: its units never start, and completions of its tray accesses belong to nothing. -/
def State.dropTray (s : State) (p : Nat) : State :=
  { s with
    fab := { s.fab with waits := s.fab.waits.map (fun (w : Wait) =>
      if w.purpose = .tray p then { w with purpose := .dropped } else w) },
    sw := { s.sw with queues := s.sw.queues.mapV (fun _ (q : SQueue) =>
      if q.units.any (fun u => u.copies p) then
        { q with units := q.units.filter (fun u => !(u.copies p)), headTag := none }
      else q) } }

end Sys2Proof.Machine
end

