-- ==== Sys2Proof/Machine/Clock.lean ====
section
/-! DEFINITION. The passing of time (R12, R125, R142, R149, R305, R337): the module's clocks and what Tollbook counts by time (R416). -/

namespace Sys2Proof.Machine

/-- Tenants that have a shelf or a region here. -/
def State.tolled (s : State) : List Nat :=
  let a := ((Tbl.vals s.rgn.shelves).filter (fun h => h.st = .assigned)).foldl (fun l h => listAdd h.tenant l) []
  (Tbl.vals s.rgn.regions).foldl (fun l r => listAdd r.owner l) a

/-- Shelves assigned to a tenant in a tier (R416). -/
def State.assignedIn (s : State) (tier t : Nat) : Nat :=
  (s.partition tier t false).length + (s.partition tier t true).length

/-- Pages charged to a tenant in a tier (R90, R416). -/
def State.chargedTo (s : State) (tier t : Nat) : Nat := s.charged tier t false + (if t = 0 then s.charged tier t true else 0)

/-- Composition and residency of `dt` nanoseconds are counted for a tenant. -/
def State.tollTime (s : State) (dt t : Nat) : State :=
  let tiers := [0, 1, 2]
  let upd := fun (c : TollCnt) =>
    { c with
      shelfMs := tiers.map (fun k => c.shelfMs.getD k 0 + dt * s.assignedIn k t),
      pageMs := tiers.map (fun k => c.pageMs.getD k 0 + dt * s.chargedTo k t) }
  { s with toll := { s.toll with cnt := Tbl.upd {} t upd s.toll.cnt } }

/-- A shaper's credit after `dt` nanoseconds (R330): it rises while a unit waits, the gate lets it and the queue is not
sending, up to HI_CREDIT, and while the queue is empty only up to 0. -/
def SQueue.rise (q : SQueue) (dt : Nat) (free : Bool) : SQueue :=
  if !q.on || !free then q
  else if q.units.isEmpty then { q with credit := min 0 (q.credit + (q.rate * dt : Nat)) }
  else { q with credit := max q.credit (min (1000 * q.hi : Nat) (q.credit + (q.rate * dt : Nat))) }

/-- The shapers of all queues over `dt` nanoseconds: a queue does not earn while its own unit is being sent (R330). -/
def State.shaperTime (s : State) (dt : Nat) : State :=
  let upd := fun (k : Nat) (q : SQueue) =>
    let busy := match s.sw.sending.look (k / 1024) with
      | some (k', t, _) => if k' = k then min dt (t - s.time.mono) else 0
      | none => 0
    q.rise (dt - busy) (s.gateLets k && (q.units.isEmpty || q.units.any s.sourceLets))
  { s with sw := { s.sw with queues := s.sw.queues.mapV upd } }

/-- Time under power and thermal throttling over `dt` nanoseconds, counted in whole milliseconds (R403). -/
def State.throttleTime (s : State) (dt : Nat) : State :=
  let a := s.pwr.thrNs + dt * b2n (s.pwr.step ≠ 0)
  let b := s.pwr.thermNs + dt * b2n (s.pwr.hubThr || s.pwr.hbmThr)
  let s := { s with pwr := { s.pwr with thrNs := a % 1000000, thermNs := b % 1000000 } }
  let s := s.when (a ≥ 1000000) (fun s => s.bump F.pwrCntThrottleMs 0 0 (a / 1000000))
  s.when (b ≥ 1000000) (fun s => s.bump F.pwrCntThermalMs 0 0 (b / 1000000))

/-- A whole second of TIME_MONO restarts the count of violations of every port (R305). -/
def State.secondTime (s : State) (dt : Nat) : State :=
  if s.time.mono / 1000000000 = (s.time.mono + dt) / 1000000000 then s
  else { s with fab := { s.fab with ports := s.fab.ports.mapV (fun _ (p : PortSt) => { p with vsec := 0 }) } }

/-- `dt` nanoseconds pass, a whole number of ticks. -/
def State.advance (s : State) (dt : Nat) : State :=
  let s := if dt = 0 then s else ((s.shaperTime dt).throttleTime dt).secondTime dt
  let s := foldS (fun s t => s.tollTime dt t) s (if dt = 0 then [] else s.tolled)
  { s with time := { s.time with mono := s.time.mono + dt, wall := s.time.wall + dt } }

/-- An evaluation tick of 8 ns, which an empty queue lets pass (R12, R125; log entry 2). -/
def idle (s : State) : State := s.advance 8

/-- Time has passed up to the first tick at or after `t`: the command of a timer is the event of its expiry, and timers are
evaluated at ticks (R125; log entry 2). -/
def State.waitTill (s : State) (t : Nat) : State := s.advance (8 * ceilDiv t 8 - s.time.mono)

/-- Slice cycles of a tenant's context (R416). -/
def State.tollCycles (s : State) (t n : Nat) : State :=
  { s with toll := { s.toll with cnt := Tbl.upd {} t (fun c => { c with cycles := c.cycles + n }) s.toll.cnt } }

end Sys2Proof.Machine
end

