-- ==== Sys2Proof/Machine/Alerts.lean ====
section
/-! DEFINITION. Alert causes, ALERT_N and the in-band interrupt (R429). -/

namespace Sys2Proof.Machine

/-- The alert bits that follow a condition (R429): 2, 4, 8 and 9. -/
def State.alertLevels (s : State) : Nat :=
  4 * b2n (s.pwr.step ≠ 0) + 16 * b2n s.ldg.fenced + 256 * b2n (!(s.pwr.refA && s.pwr.refB)) +
    512 * b2n (s.pwr.auxGood && !s.pwr.good48)

/-- GEN_ALERT_STS: latched bits and levels. -/
def State.alertBits (s : State) : Nat := Nat.lor s.gen.alerts.toNat s.alertLevels

/-- ALERT_N is low: a cause is set and not masked. -/
def State.alertLow (s : State) : Bool := (List.range 12).any (fun n => bit s.alertBits n && !(bit (s.fld F.genAlertMaskMask) n))

/-- The pins as `Out.pin` numbers them. -/
def pinAlert : Nat := 0
def pinRstOut : Nat := 1
def pinPwrGood : Nat := 2

/-- What follows a change from `old`: a bit that rose while ALERT_N was high interrupts the I3C controller, and ALERT_N
follows its causes. -/
def State.alertFrom (s old : State) : State :=
  let rose := (List.range 12).any (fun n => bit s.alertBits n && !(bit old.alertBits n))
  let s := s.when (rose && !old.alertLow && s.gen.i3cDyn.isSome) (fun s => s.emit (.i3cIbi 0xA1))
  s.when (s.alertLow ≠ old.alertLow) (fun s => s.emit (.pin pinAlert (!s.alertLow)))

/-- A latched cause is set. -/
def State.latchAlert (s : State) (n : Nat) : State :=
  { s with gen := { s.gen with alerts := s.gen.alerts ||| (1#12 <<< n) } }.alertFrom s

/-- A write from the normal world to a secure field or shelf has been refused (R371, R372, R452). -/
def State.worldViol (s : State) : State := (s.setFld F.secStsWorldViol 1).latchAlert 10

end Sys2Proof.Machine
end

