-- ==== Sys2Proof/Machine/Bbx.lean ====
section
/-! DEFINITION. Strongbox records: forming, queueing and writing them (R411–R415). -/

namespace Sys2Proof.Machine

/-- Severity of a record kind (R413): 0 INFO, 1 WARN, 2 FAULT, 3 FATAL. -/
def bbxSev (kind : Nat) : Nat :=
  match kind with
  | 0x02 => 3
  | 0x03 => 2
  | 0x05 => 2
  | 0x06 => 3
  | 0x07 => 2
  | 0x08 => 3
  | 0x09 => 2
  | 0x0A => 3
  | 0x0B => 1
  | 0x0C => 1
  | _ => 0

/-- Slots of the record ring and of the sticky area (R411). -/
def bbxRing : Nat := 122880
def bbxSticky : Nat := 4096

/-- A record of a kind about a part (class and index) as it is formed now (R412). -/
def State.bbxForm (s : State) (kind cls index : Nat) (data : List Byte) (ident tenant job position : Nat) :
    BbxRec :=
  { seq := 0, kind := kind, sev := bbxSev kind, gen := s.ldg.gen, wall := s.time.wall, mono := s.now, cls := cls,
    index := index, stage := s.gen.stage, tj := s.pwr.tj, vcore := s.pwr.vcore, mhz := s.pwr.mhz, ident := ident,
    tenant := tenant, job := job, position := BitVec.ofNat 64 position,
    load := (s.ldg.entries.filter (fun (e : Entry) => e.running && e.opcode = opInvoke)).length,
    p48 := s.pwr.avg, data := data }

/-- The next waiting record takes its number and its first pulse begins (R412, R414). -/
def State.bbxPulse (s : State) : State :=
  match s.bbx.pulse, s.bbx.queue with
  | none, r :: rest =>
    let r := { r with seq := s.bbx.next }
    { s with bbx := { s.bbx with
      next := s.bbx.next + 1, queue := rest, pulse := some false,
      ring := s.bbx.ring.filter (fun x => x.seq % bbxRing ≠ r.seq % bbxRing) ++ [r] } }
  | _, _ => s

/-- Records dropped or displaced are counted (R411, R414). -/
def State.bbxDrop (s : State) : State := s.bump F.bbxStsDropped

/-- A record joins the queue of 64; a full queue loses its newest record of lowest severity to one of higher severity
(R414). -/
def State.bbxQueue (s : State) (r : BbxRec) : State :=
  let q := s.bbx.queue
  if q.length < 64 then { s with bbx := { s.bbx with queue := q ++ [r] } }
  else
    let low := q.foldl (fun m x => min m x.sev) r.sev
    if r.sev ≤ low then s.bbxDrop
    else
      let q := (listDrop1 (fun (x : BbxRec) => x.sev = low) q.reverse).reverse ++ [r]
      { s with bbx := { s.bbx with queue := q } }.bbxDrop

/-- Write a strongbox record (R412–R414). -/
def State.bbxLog (s : State) (kind cls index : Nat) (data : List Byte) (ident : Nat := 0) (tenant : Nat := 0)
    (job : Nat := 0xFFFF) (position : Nat := 0) : State :=
  (s.bbxQueue (s.bbxForm kind cls index data ident tenant job position)).bbxPulse

/-- Mark the record being written valid in one copy. -/
def BbxRec.written (b : Bool) (r : BbxRec) : BbxRec := if b then { r with okB := true } else { r with okA := true }

/-- A pulse ends (R414): copy A, and with it the sticky copy of a FAULT or FATAL record (R411); then copy B, after which
the next record begins. -/
def State.bbxPulseEnd (s : State) : State :=
  match s.bbx.pulse with
  | none => s
  | some b =>
    let mine : BbxRec → Bool := fun r => r.seq = s.bbx.next - 1
    let ring := s.bbx.ring.map (fun r => if mine r then r.written b else r)
    let s := { s with bbx := { s.bbx with ring := ring } }
    if b then
      let s := { s with bbx := { s.bbx with
        pulse := none, sticky := s.bbx.sticky.map (fun r => if mine r then r.written true else r) } }
      (s.when (ring.any (fun r => mine r && r.sev ≥ 2)) (fun s => s.latchAlert 3)).bbxPulse
    else
      let s := { s with bbx := { s.bbx with pulse := some true } }
      match ring.find? (fun r => mine r && r.sev ≥ 2) with
      | some r =>
        if s.bbx.sticky.length < bbxSticky then { s with bbx := { s.bbx with sticky := s.bbx.sticky ++ [r] } }
        else s.bbxDrop
      | none => s

end Sys2Proof.Machine
end

