-- ==== Sys2Proof/Machine/Half.lean ====
section
/-! DEFINITION. The areas of the own half beside entries, images, parameter copies and the atomic table (R207, R339, R350, R355):
phase records, redo images, end bitmaps, stream table and work identity table. The spec gives their places and sizes; the
layout inside them is the model's (log entry 16). -/

namespace Sys2Proof.Machine

/-! ### Phase records and redo images (R207, R208) -/

/-- The slots of phase records, 16 KiB each, and of redo images, 256 KiB each: one for each of the 1,024 contexts (R195). -/
def phaseAt (slot : Nat) : Nat := 0x0B000000 + 16384 * (slot % 1024)
def redoAt (slot : Nat) : Nat := 0x10000000 + 262144 * (slot % 1024)

/-- A lane of a Quern bank in 48 bytes. -/
def Lane.bytes (a : Lane) : List Byte :=
  leBytes 40 (a.v % (2 ^ 320 : Int)).toNat ++ leBytes 1 (b2n a.nan + 2 * b2n a.pinf + 4 * b2n a.ninf) ++ leBytes 7 a.n

def Lane.ofBytes (b : List Byte) : Lane :=
  let f := leAt b 40 1
  { v := sext 320 (leAt b 0 40), nan := bit f 0, pinf := bit f 1, ninf := bit f 2, n := leAt b 41 7 }

/-- A loop of the sequencer in 16 bytes. -/
def LoopSt.bytes (l : LoopSt) : List Byte :=
  leBytes 1 l.first ++ leBytes 1 l.last ++ leBytes 2 l.reg ++ leBytes 4 l.idx ++ leBytes 8 l.count

def LoopSt.ofBytes (b : List Byte) : LoopSt :=
  { first := leAt b 0 1, last := leAt b 1 1, reg := leAt b 2 2, idx := leAt b 4 4, count := leAt b 8 8 }

/-- The phase record of a sub-part, written at a time. -/
def PhaseRec.bytes (p : PhaseRec) (lsn sub now : Nat) : List Byte :=
  leBytes 8 lsn ++ leBytes 8 now ++ leBytes 4 sub ++ leBytes 1 1 ++ leBytes 1 p.pc ++ leBytes 1 p.loops.length ++
  leBytes 1 (b2n p.lib.isSome) ++ leBytes 4 p.used ++ leBytes 4 p.ordinal ++
  (match p.lib with | some l => leBytes 4 l.phase ++ leBytes 4 l.reads | none => leBytes 8 0) ++
  (p.loops.map LoopSt.bytes).flatten ++ (p.regs.map (fun w => leBytes 8 w.toNat)).flatten ++
  ((p.quern.map (fun bank => (bank.map Lane.bytes).flatten)).flatten)

/-- A phase record read back: for which INVOKE and sub-part, when written; `banks` is the image's number of Quern banks. -/
def PhaseRec.ofBytes (b : List Byte) : Option (Nat × Nat × Nat × PhaseRec) :=
  if leAt b 20 1 ≠ 1 then none
  else
    let k := leAt b 22 1
    let regs := 40 + 16 * k
    let lanes := fun n => (List.range 64).map (fun i => Lane.ofBytes ((b.drop (regs + 256 + 48 * (64 * n + i))).take 48))
    some (leAt b 0 8, leAt b 16 4, leAt b 8 8,
      { pc := leAt b 21 1, loops := (List.range k).map (fun i => LoopSt.ofBytes ((b.drop (40 + 16 * i)).take 16)),
        regs := (List.range 32).map (fun i => BitVec.ofNat 64 (leAt b (regs + 8 * i) 8)), used := leAt b 24 4,
        ordinal := leAt b 28 4, lib := if leAt b 23 1 = 1 then some { phase := leAt b 32 4, reads := leAt b 36 4 } else none,
        quern := (List.range 4).map lanes })

/-- Write the phase record of a context. -/
def State.writePhase (s : State) (c : Ctx) (p : PhaseRec) : State :=
  s.ownWrite (phaseAt c.slot) (p.bytes c.lsn c.sub s.now)

/-- The redo image of a phase: the stage entries it commits. -/
def redoBytes (c : Ctx) : List Byte :=
  (leBytes 8 c.lsn ++ leBytes 4 c.sub ++ leBytes 4 c.stage.length ++
    (c.stage.map (fun e => leBytes 1 e.bind ++ leBytes 3 e.mode ++ leBytes 4 e.bytes.length ++ leBytes 8 e.off ++ e.bytes)).flatten).take
    262144

/-- Stage entries read back from a redo image. -/
def redoEnts : Nat → List Byte → List StageEnt
  | 0, _ => []
  | n + 1, b =>
    let len := leAt b 4 4
    { bind := leAt b 0 1, mode := leAt b 1 3, off := leAt b 8 8, bytes := (b.drop 16).take len } :: redoEnts n (b.drop (16 + len))

/-! ### End bitmaps -/

/-- The line of an INVOKE's end bitmap that holds a sub-part's bit. -/
def endsAt (lsn sub : Nat) : Nat := 0x0C000000 + 8192 * (lsn % 4096) + 64 * (sub / 512)

/-- The 64 bytes of a bitmap line: bit i of line k stands for sub-part 512k + i. -/
def endsLine (v : Inv) (k : Nat) : List Byte :=
  leBytes 64 ((v.ended.filter (fun x => x.1 / 512 = k)).foldl (fun a x => a + 2 ^ (x.1 % 512)) 0)

/-! ### The stream table (R350) -/

def streamAt (src tc : Nat) : Nat := 0x0E000000 + 16 * streamKey src tc

/-- The 16 bytes of a stream: the contiguous number received, the next number this module sends on the stream back, and
whether a request has been received. -/
def State.streamBytes (s : State) (src tc : Nat) : List Byte :=
  let r := s.rx src tc
  leBytes 4 r.contig.toNat ++ leBytes 4 (s.tx src tc).next.toNat ++ leBytes 8 (b2n r.known)

/-- A stream's new contiguous number is written to the own half. Streams received for an expelled buddy are not (R364). -/
def State.noteStream (s : State) (src tc : Nat) : State :=
  if src < 65536 then s.ownWrite (streamAt src tc) (s.streamBytes src tc) else s

/-! ### The work identity table (R355–R357) -/

def workAt (slot : Nat) : Nat := 0x0F100000 + 64 * (slot % 65536)

/-- The 64 bytes of a key; of the versions its winner wrote into, the first four. -/
def WorkKey.bytes (k : WorkKey) : List Byte :=
  leBytes 1 (1 + 2 * b2n k.winner.isSome + 4 * b2n k.writes) ++ leBytes 1 k.tenant ++ leBytes 2 (min 4 k.wrote.length) ++
  leBytes 4 (match k.winner with | some w => w.2 | none => 0) ++ leBytes 8 k.work.toNat ++
  leBytes 8 (match k.winner with | some w => w.1 | none => 0) ++ leBytes 8 k.wonAt ++
  listFit 0 32 (((k.wrote.take 4).map (fun x => leBytes 4 x.1 ++ leBytes 4 x.2)).flatten)

/-- A key with a winner read back; the rest of the table says nothing after a loss. -/
def WorkKey.ofBytes (b : List Byte) : Option WorkKey :=
  let f := leAt b 0 1
  if bit f 0 && bit f 1 then
    some
      { tenant := leAt b 1 1, work := BitVec.ofNat 64 (leAt b 8 8), winner := some (leAt b 16 8, leAt b 4 4), writes := bit f 2,
        wrote := (List.range (min 4 (leAt b 2 2))).map (fun i => (leAt b (32 + 8 * i) 4, leAt b (36 + 8 * i) 4)),
        wonAt := leAt b 24 8 }
  else none

/-- A slot of the table that no key holds. -/
def freeWork (l : List WorkKey) : Nat :=
  ((List.range (l.length + 1)).find? (fun k => !(l.any (fun x => x.slot = k)))).getD 0

/-- The work identity table changes; its changed slots are written. -/
def State.setWorks (s : State) (l : List WorkKey) : State :=
  let old := s.ldg.works
  let gone := old.filter (fun k => !(l.any (fun x => x.slot = k.slot)))
  let new := l.filter (fun k => !(old.any (fun x => x.slot = k.slot && x.bytes = k.bytes)))
  let s := { s with ldg := { s.ldg with works := l } }
  let s := foldS (fun s (k : WorkKey) => s.ownWrite (workAt k.slot) (List.replicate 64 0)) s gone
  foldS (fun s (k : WorkKey) => s.ownWrite (workAt k.slot) k.bytes) s new

end Sys2Proof.Machine
end

