-- ==== Sys2Proof/Machine/Life.lean ====
section
/-! DEFINITION. The life of a descriptor after its start: fixing its result, giving back what it holds, writing its record
(R39–R56, R342). -/

namespace Sys2Proof.Machine

/-! ### Results and records (R47, R48) -/

/-- The result words of a record by its status (R48): under EPOCH the epoch of the module that refused, where its answer carried
one, else this module's (R292). -/
def State.resultWords (s : State) (r : Res) : Nat × Nat :=
  if r.status = St.ok || r.status = St.okShort || r.status = St.partialFail || r.status = St.conflict then (r.r0, r.r1)
  else if r.status = St.superseded then (r.r0, 0)
  else if r.status = St.epoch then (if r.detail < 65536 then s.fab.map.epoch.toNat else r.detail / 65536 - 1, 0)
  else (0, 0)

/-- The completion record of a descriptor, its PHASE not yet fixed (R47). -/
def State.record (s : State) (e : Entry) (r : Res) : Cpl :=
  { tag := BitVec.ofNat 32 e.tag, index := e.index, status := r.status, opcode := e.opcode, replayed := e.replayed,
    pair := e.pair % 8, detail := detailOf r.status (r.detail % 65536), retries := e.used,
    r0 := BitVec.ofNat 64 (s.resultWords r).1, r1 := BitVec.ofNat 64 (s.resultWords r).2 }

/-- The descriptor an access to endpoint memory works for. -/
def Purpose.lsn : Purpose → Option Nat
  | .image l => some l
  | .params l => some l
  | .moveRead l => some l
  | .moveWrite l => some l
  | .query l => some l
  | .emit l _ => some l
  | _ => none

/-- A fabric request of the descriptor is outstanding (R56). -/
def State.hasFabric (s : State) (lsn : Nat) : Bool := s.outstanding (fun p => p.lsn = some lsn) ≠ 0

/-! ### The end of a descriptor's work -/

/-- Mark a version INCOMPLETE (R209). -/
def State.markIncomplete (s : State) (id n : Nat) : State := s.modVersion id n (fun v => { v with incomplete := true })

/-- The parameters carry a collective key, as one of their 64-bit words (R215). -/
def paramsHave (params : List Byte) (key : W64) : Bool :=
  (List.range (params.length / 8)).any (fun i => leAt params (8 * i) 8 = key.toNat)

/-- A message matches an invocation: key 0 names the invocation itself, another key those of its tenant whose parameters
carry it (R215). -/
def Inv.takes (v : Inv) (lsn : Nat) (m : RMsg) : Bool :=
  if m.key = 0 then m.lsn = lsn else m.tenant = v.pair / 8 % 256 && paramsHave v.params m.key

/-- Some running invocation matches a message. -/
def State.hasTaker (s : State) (m : RMsg) : Bool := s.slc.invs.any (fun e => e.2.takes e.1 m)

/-- Messages of an ended invocation that nothing else matches are discarded and counted (R215). -/
def State.dropMessages (s : State) (v : Inv) (lsn : Nat) : State :=
  let gone : RMsg × Nat → Bool := fun h => v.takes lsn h.1 && !(s.hasTaker h.1)
  let n := (s.slc.held.filter gone).length
  let s := { s with slc := { s.slc with held := s.slc.held.filter (fun h => !(gone h)) } }
  if n = 0 then s else s.bump F.slcCnt1LateRecv 0 0 n

/-- A version is OPEN. -/
def State.isOpen (s : State) (x : Nat × Nat) : Bool :=
  match s.version x.1 x.2 with
  | some v => v.state = .opened
  | none => false

/-- Keys of the work identity table whose winner wrote only into versions that are no longer OPEN go, and keys without a
winner and without a run (R355, R357). -/
def State.sweepKeys (s : State) : State :=
  s.setWorks (s.ldg.works.filter (fun (k : WorkKey) =>
    match k.winner with
    | some _ => !k.writes || k.wrote.any s.isOpen
    | none => !k.runs.isEmpty))

/-- The cycles of a context from its start to now are counted for its tenant; a shadow's are not (R408, R416). -/
def State.ctxToll (s : State) (c : Ctx) : State :=
  match s.slc.invs.look c.lsn, c.shadowOf with
  | some v, none => s.tollCycles (v.pair / 8 % 256) ((s.now - c.startAt) * s.pwr.mhz.getD (c.slice / 8) 0 / 1000)
  | _, _ => s

/-- The port sieve slots of an invocation are free (R261). -/
def State.freeSieves (s : State) (lsn : Nat) : State :=
  { s with fab := { s.fab with ports := s.fab.ports.mapV (fun _ (p : PortSt) => { p with sieve := p.sieve.filter (· ≠ lsn) }) } }

/-- An invocation ends: its contexts, staging, messages and parameter copy go; open versions it stored into turn
INCOMPLETE when it failed, unless it was a work run (R209, R215, R356). -/
def State.endInv (s : State) (e : Entry) (status : Nat) : State :=
  match s.slc.invs.look e.lsn with
  | none => s
  | some v =>
    let ps := (v.staging.map (fun t => ((Tbl.vals t.2).filterMap
      (fun r => match r with | .page p => some p | .revoked => none)))).flatten
    let mine := (Tbl.vals s.slc.ctxs).filter (fun (c : Ctx) => c.lsn = e.lsn)
    let got := mine.map (fun (c : Ctx) => c.recvd.map (fun m => (m, s.now)))
    let s := foldS (fun s c => s.ctxToll c) s mine
    let s := { s with slc := { s.slc with
      invs := Tbl.del e.lsn s.slc.invs, late := s.slc.late.filter (fun x => !(x.key = 0 && x.lsn = e.lsn)), ctxs := Tbl.keep (fun _ (c : Ctx) => c.lsn ≠ e.lsn) s.slc.ctxs,
      held := got.flatten ++ s.slc.held } }
    let s := ((s.sweepPages ps).dropMessages v e.lsn).freeSieves e.lsn
    let s := { s with ldg := { s.ldg with
      works := s.ldg.works.map (fun (k : WorkKey) => { k with runs := k.runs.filter (· ≠ e.lsn) }) } }.sweepKeys
    if statusGood status || e.workId ≠ 0 then s
    else foldS (fun s b =>
      match v.binds.getD b none with
      | some x => s.markIncomplete x.region x.version
      | none => s) s v.stored

/-- Tier moves of a descriptor end: pages not yet switched stay where they are (R95, R100). -/
def State.endMoves (s : State) (lsn : Nat) : State :=
  let mine := (s.tier.moves.filter (fun m => m.2.mover = .promote lsn || m.2.mover = .demote lsn)).map Prod.fst
  { s with
    tier := { s.tier with moves := Tbl.keep (fun k _ => !(mine.any (· = k))) s.tier.moves },
    rgn := { s.rgn with pages := s.rgn.pages.mapV (fun _ g =>
      match g.mv with
      | some m => if mine.any (· = m.job) then { g with mv := none } else g
      | none => g) } }

/-- A table slot that was being loaded keeps what it held (R167, R170); a recipe slot likewise (R222). -/
def State.endLoad (s : State) (e : Entry) : State :=
  match e.note with
  | [slot, was, _] =>
    if e.opcode = opLoadTable && (s.codec.rd {} slot).st = .loading then
      { s with codec := Tbl.upd {} slot (fun c => if was = 0 then {} else { c with st := .loaded }) s.codec }
    else if e.opcode = opLoadRecipe && (s.slc.slots.rd {} slot).st = .loading then
      { s with slc := { s.slc with
        slots := Tbl.upd {} slot (fun (c : RecipeSlot) =>
          if was = 0 || c.img.isNone then {} else { c with st := .loaded }) s.slc.slots } }
    else s
  | _ => s

/-- The working state of a descriptor goes with its result: reads in flight, contexts, moves. -/
def State.endWork (s : State) (e : Entry) (status : Nat) : State :=
  let s := s.dropFetches (fun p => p.lsn = some e.lsn)
  ((s.endInv e status).endMoves e.lsn).endLoad e

/-- Fix a descriptor's result: its entry turns COMMITTED and its completion record replaces the descriptor in the image
(R342). -/
def State.fixResult (s : State) (lsn : Nat) (r : Res) : State :=
  match s.entry lsn with
  | none => s
  | some e =>
    if e.acceptedDesc && (e.state = .accepted || e.state = .started) then
      let c := s.record e r
      let s := s.endWork e r.status
      s.modEntry lsn (fun e => { e with
        state := .committed, cpl := some c,
        result := if r.status = St.ok && (e.opcode = opOpen || e.opcode = opPublish || e.opcode = opAlloc) then r.r0
          else e.result })
    else s

/-- A descriptor goes no further than the access it waits for: the module is in neither stage REPLAY nor stage RUN, or a ring or
tenant reset of its pair or a durable step abort of its job stops it (R20, R22, R56, R57, R358). -/
def State.halting (s : State) (e : Entry) : Bool :=
  !(s.running || s.gen.stage = stReplay) || (s.ring e.pair).resetting.isSome ||
    s.ldg.aborts.any (fun a => e.tenant = a.tenant && e.job = a.job && e.lsn < a.lsn && s.durable a.till)

/-- Work on a running descriptor of one opcode that nothing stops; any other entry is left alone. -/
def State.onOp (s : State) (lsn op : Nat) (f : Entry → State → State) : State :=
  match s.entry lsn with
  | some e => if e.running && e.opcode = op && !s.ldg.fenced && !(s.halting e) then f e s else s
  | none => s

/-- Keep the working notes of a running descriptor. -/
def State.setNote (s : State) (lsn : Nat) (note : List Nat) : State :=
  match s.entry lsn with
  | some e => s.putEntry { e with note := note }
  | none => s

/-! ### Releases at completion (R66, R82, R102, R222, R353) -/

/-- References to a recipe slot: accepted, uncompleted INVOKEs that hold one (R222). -/
def State.slotRefs (s : State) (slot : Nat) : Nat :=
  (s.ldg.entries.filter (fun (e : Entry) => e.slotRef && bits (e.w 2) 7 0 = slot)).length

/-- An UNLOADING slot turns EMPTY when its last reference goes (R222). -/
def State.sweepSlot (s : State) (slot : Nat) : State :=
  if (s.slc.slots.rd {} slot).st = .unloading && s.slotRefs slot = 0 then
    { s with slc := { s.slc with slots := Tbl.del slot s.slc.slots } }
  else s

/-- What a completing descriptor gives back: read references, pins, its share of drain counts and its recipe slot. -/
def State.release (s : State) (e : Entry) : State :=
  let s := foldS (fun s r => s.dropRef r.1 r.2) s (e.ref.toList ++ e.refs)
  let pinned := (s.allVersions.filter (fun x => x.2.2.pins.any (fun p => p.lsn = e.lsn))).map (fun x => (x.1, x.2.1))
  let s := foldS (fun s r =>
    (s.modVersion r.1 r.2 (fun v => { v with pins := v.pins.filter (fun p => p.lsn ≠ e.lsn) })).reap r.1 r.2) s pinned
  let s := s.putEntry { e with ref := none, refs := [], drains := [], slotRef := false }
  if e.slotRef then s.sweepSlot (bits (e.w 2) 7 0) else s

/-! ### Writing the record (R40, R47, R52–R56) -/

/-- The ring's HEAD covers a completion index. -/
def Ring.covers (r : Ring) (cidx : W32) : Bool := (r.head - (cidx + 1)).toNat < 2 ^ 31

/-- Write the record of an entry at the next completion index, or keep it with the entry (R55, R56). -/
def State.sendRecord (s : State) (lsn : Nat) (prior : Bool) : State :=
  match s.entry lsn with
  | none => s
  | some e =>
    match e.cpl with
    | none => s
    | some c =>
      let r := s.ring e.pair
      let bad := s.epRefusal (ptrPort (s.fld F.tqRingCqBasePtr e.pair))
      if bad.isSome || (!prior && s.cqBad e.pair) then
        let behind := (s.ldg.entries.filter (fun x => x.pair = e.pair && x.kind = .desc && x.unwritten)).length
        let s := s.modEntry lsn (fun e => { e with
          state := .completing, unwritten := true, cidx := r.widx + BitVec.ofNat 32 behind })
        s.when bad.isSome (fun s => s.faultPair e.pair 0x04)
      else
        let c := { c with prior := prior, evtLost := c.evtLost || r.lost, phase := phaseOf r.widx.toNat (s.cqSize e.pair) }
        let s := s.modEntry lsn (fun e => { e with
          state := .completing, cpl := some c, cidx := r.widx, unwritten := false, prior := false })
        (s.writeRecord e.pair c (.cqWrite e.pair lsn)).1

/-- A descriptor completes: what it held is given back and its record is written (R47). -/
def State.completeRec (s : State) (lsn : Nat) : State :=
  match s.entry lsn with
  | none => s
  | some e =>
    if e.acceptedDesc && e.state = .committed && s.durable e.till && !(e.opcode = opInvoke && s.hasFabric lsn) then
      (s.release e).sendRecord lsn false
    else s

/-- A DONE entry becomes FREE when HEAD covers its l.cidx (R342). -/
def State.freeDone (s : State) (pair : Nat) : State :=
  let r := s.ring pair
  { s with ldg := { s.ldg with
    entries := s.ldg.entries.filter (fun (e : Entry) => !(e.pair = pair && e.kind = .desc && e.state = .done && r.covers e.cidx)) } }

/-- The record is visible: its entry is DONE, its recipe atomics need no record any more, and a notification follows (R52, R216,
R342, R353). -/
def State.recordSeen (s : State) (pair lsn : Nat) : State :=
  match s.entry lsn with
  | none => s
  | some e =>
    if e.state = .completing then
      let s := s.dropAtoms (fun a => a.recipe && a.k0 = lsn % 2 ^ 31)
      let s := (s.modEntry lsn (fun e => { e with state := .done })).freeDone pair
      let at_ := s.fld F.tqRingNotifyAddrPtr pair
      if e.wantsNotify && at_ ≠ 0 then
        (s.writeEp (pairTenant pair) at_ 2 (leBytes 8 (e.index.toNat + pair % 8 * 2 ^ 32)) false .notify).1
      else s
    else s

/-- The record could not be written: it stays with its entry and the pair faults (R53, R55). -/
def State.recordFailed (s : State) (pair lsn : Nat) : State :=
  (s.modEntry lsn (fun e => if e.state = .completing then { e with unwritten := true } else e)).faultPair pair 0x04

/-- Entries in the order of their completion indices, which run on past 2^32 − 1 to 0 (R27, R40). -/
def cidxOrder (l : List Entry) : List Entry :=
  match l with
  | [] => []
  | b :: _ => sortOn (fun (e : Entry) => (e.cidx - b.cidx + 0x80000000#32).toNat) l

/-- Records withheld from before a reset are delivered first, in their order, while the ring has room and its records can be
written (R56). -/
def State.sendPrior (s : State) (pair : Nat) : State :=
  let es := cidxOrder (s.ldg.entries.filter (fun (e : Entry) => e.pair = pair && e.kind = .desc && e.unwritten && e.prior))
  foldS (fun s e =>
    s.when ((s.ring pair).unread < s.cqSize pair && !((s.ring pair).faulted && (s.ring pair).code = 0x04))
      (fun s => s.sendRecord e.lsn true)) s es

end Sys2Proof.Machine
end

