-- ==== Sys2Proof/Machine/Jobs.lean ====
section
/-! DEFINITION. Job contexts as the other blocks read them: live jobs, positions and their arithmetic, and gate entries
(R126–R130, R139–R142). -/

namespace Sys2Proof.Machine

/-- Change a job slot. -/
def State.modJob (s : State) (j : Nat) (f : Job → Job) : State :=
  { s with time := { s.time with jobs := Tbl.upd {} j f s.time.jobs } }

/-- Layers C and phases P of a job slot (R126). -/
def State.jobC (s : State) (j : Nat) : Nat := s.fld F.timeJobCtlLayersM1 j + 1
def State.jobP (s : State) (j : Nat) : Nat := s.fld F.timeJobCtlPhasesM1 j + 1

/-- A position as 48 bits (R129). -/
def posWord (step layer phase : Nat) : Nat := step % 2 ^ 32 + layer % 4096 * 2 ^ 32 + phase % 16 * 2 ^ 44

/-- Step, layer and phase of a position. -/
def posStep (p : Nat) : Nat := bits p 31 0
def posLayer (p : Nat) : Nat := bits p 43 32
def posPhase (p : Nat) : Nat := bits p 47 44

/-- The position of a job. -/
def State.jobPos (s : State) (j : Nat) : Nat := posWord (s.job j).step (s.job j).layer (s.job j).phase

/-- Position a is later than position b (R129). -/
def posLater (a b : Nat) : Bool :=
  let d := (posStep a + 2 ^ 32 - posStep b) % 2 ^ 32
  if d = 0 then posLayer b < posLayer a || (posLayer a = posLayer b && posPhase b < posPhase a) else d < 2 ^ 31

/-- The layer distance from a to b (R130). -/
def layerDist (c a b : Nat) : Int :=
  sext 32 (posStep b + 2 ^ 32 - posStep a) * c + ((posLayer b : Int) - posLayer a)

/-- The phase distance from a to b (R130). -/
def phaseDist (c p a b : Nat) : Int := layerDist c a b * p + ((posPhase b : Int) - posPhase a)

/-! ### Gate instances (R141) -/

/-- A step before. -/
def stepBack (s : Nat) : Nat := (s + 2 ^ 32 - 1) % 2 ^ 32

/-- The position at which the instance of an entry opened that holds a position, if one does (R141). -/
def Gate.instAt (g : Gate) (c p pos : Nat) : Option Nat :=
  let s := posStep pos
  let l := posLayer pos
  let x := posPhase pos
  let at_ : Option Nat :=
    if g.every then
      if g.openPhase < g.closePhase then
        if g.openPhase ≤ x && x < g.closePhase then some (posWord s l g.openPhase) else none
      else if g.openPhase ≤ x then some (posWord s l g.openPhase)
      else if x < g.closePhase then
        some (if l = 0 then posWord (stepBack s) (c - 1) g.openPhase else posWord s (l - 1) g.openPhase)
      else none
    else
      let q := l * p + x
      let o := g.openLayer * p + g.openPhase
      let e := g.closeLayer * p + g.closePhase
      if o < e then if o ≤ q && q < e then some (posWord s g.openLayer g.openPhase) else none
      else if o ≤ q then some (posWord s g.openLayer g.openPhase)
      else if q < e then some (posWord (stepBack s) g.openLayer g.openPhase)
      else none
  match at_ with
  | some i => if g.valid && (!g.oneStep || posStep i = bits g.w1.toNat 31 0) then some i else none
  | none => none

/-- The position at which an instance closes (R141). -/
def Gate.closeOf (g : Gate) (c p inst : Nat) : Nat :=
  let s := posStep inst
  let l := posLayer inst
  if g.every then
    if g.openPhase < g.closePhase then posWord s l g.closePhase
    else if l + 1 < c then posWord s (l + 1) g.closePhase else posWord (s + 1) 0 g.closePhase
  else if g.openLayer * p + g.openPhase < g.closeLayer * p + g.closePhase then
    posWord s g.closeLayer g.closePhase
  else posWord (s + 1) g.closeLayer g.closePhase

/-- The instances of a target's entries that are open now (R142). -/
def openInsts (l : List (Nat × Gate)) : List (Nat × Nat) :=
  l.filterMap (fun g => match g.2.inst with | some i => some (g.1, i) | none => none)

/-- An instance noted earlier is still open. -/
def State.instOpen (s : State) (x : Nat × Nat) : Bool :=
  match (s.job (x.1 / 1024)).gates.look (x.1 % 1024) with
  | some g => (s.job (x.1 / 1024)).live && g.inst = some x.2
  | none => false

end Sys2Proof.Machine
end

