-- ==== Sys2Proof/Machine/Moves.lean ====
section
/-! DEFINITION. Moves of pages between tiers and shelves: which pages may move, where their copies go, when a move ends
(R65, R92–R106, R119). -/

namespace Sys2Proof.Machine

/-- A move in progress, by number. -/
def State.move? (s : State) (k : Nat) : Option MoveJob := s.tier.moves.look k

def State.modMove (s : State) (k : Nat) (f : MoveJob → MoveJob) : State :=
  { s with tier := { s.tier with moves := Tbl.alter k f s.tier.moves } }

/-- The page number at which a version references a page. -/
def Version.numberOf (v : Version) (p : Nat) : Option Nat :=
  (v.pages.find? (fun e => e.2 = .page p)).map Prod.fst

/-- A version pins a page number (R102). -/
def Version.pinned (v : Version) (n : Nat) : Bool := v.pins.any (fun p => p.lo ≤ n && n < p.hi)

/-- Some version pins the page. -/
def State.pagePinned (s : State) (p : Nat) : Bool :=
  (s.refsOf p).any (fun x => match x.2.2.numberOf p with | some n => x.2.2.pinned n | none => false)

/-- A page is eligible to move down, its pins apart (R103). -/
def State.downOk (s : State) (p : Nat) : Bool :=
  (s.refsOf p).all (fun x => x.2.2.state ≠ .opened && x.2.2.holds.isEmpty)

/-- The window and page number a staging copy serves. -/
def State.copyOf (s : State) (p : Nat) : Option (Nat × Nat) :=
  s.tier.wins.findSome? (fun w => (w.2.copies.find? (fun c => c.2.2.2 = p)).map (fun c => (w.1, c.2.2.1)))

/-- The region and page number of a page: of the first version that references it, of the window it is staged for, or of
the region it was written for. -/
def State.pageNumber (s : State) (p : Nat) : Nat × Nat :=
  match s.refsOf p with
  | x :: _ => (x.1, (x.2.2.numberOf p).getD 0)
  | [] =>
    match s.copyOf p with
    | some (w, n) => (s.fld F.tierWinCtlRegion w, n)
    | none => ((match s.page p with | some g => g.region | none => 0), 0)

/-- The move brings pages down. -/
def MoveJob.down (m : MoveJob) : Bool :=
  match m.mover with
  | .evacuate _ => false
  | _ => !m.up

/-- A copy of the page in the target tier fits the owner's quota there; a copy in the region's own tier is charged
already (R63, R93). -/
def State.copyFits (s : State) (tier owner id : Nat) : Bool :=
  (match s.region id with | some r => r.tier = tier | none => false) || s.fits tier owner (isCommon id) 1

/-- What a waiting page of a move does next. -/
inductive MvNext where
  | wait | drop | full | bad (why : Option Nat) | go (shelf : Nat)
  deriving DecidableEq, Repr

/-- A page whose copy cannot be made: it is revoked or lost, its key is gone, or it lies behind a held port (R67, R68, R85, R306,
R377). -/
def State.copyBad (s : State) (g : Page) (mirrored : Bool) : Bool :=
  g.revoked || g.lost || (s.pageOut g && !mirrored) || s.keyGone g || s.trayShut g.tier g.shelf

/-- The page belongs to a region with a flag. -/
def State.pageReg (s : State) (g : Page) (p : Region → Bool) : Bool :=
  match s.region g.region with | some r => p r | none => false

/-- A page that cannot be read now because its quadrant is out, and has no second copy (R16, R85). -/
def State.unreadable (s : State) (g : Page) : Bool := s.pageOut g && !(s.pageReg g (fun r => r.mirrored))

/-- An autonomous move of a tenant whose PLACE is no longer ON: nothing moves by itself (R118). -/
def State.autoOff (s : State) (m : MoveJob) : Bool := m.mover = .auto && s.fld F.tierTenCtlPlace m.tenant ≠ 2

/-- The fate of a page not yet copied: it waits while it is pinned (R105), gated (R142) or another move has it, drops out when it is gone
or no longer eligible (R103), finds no room (R94, R100), cannot be copied or encrypted (R377), or is copied to a shelf. An
evacuation goes on in stage RUN (R454), and waits for a page whose quadrant is out. Autonomous moves pause under limiter step 1
(R396). -/
def State.mvNext (s : State) (k : Nat) (m : MoveJob) (p : Nat) : MvNext :=
  match s.page p with
  | none => .drop
  | some g =>
    if g.mv.isSome then .wait
    else
      match m.mover with
      | .evacuate _ =>
        if !s.running || s.unreadable g || s.trayShut g.tier g.shelf then .wait else
        match s.place g.tier m.tenant (s.pageNumber p).1 (s.pageNumber p).2 with
        | some sh => if s.trayShut g.tier sh then .wait else .go sh
        | none => .wait
      | _ =>
        let locked := m.down && s.pageReg g (fun r => r.prot) && (s.tierSlot m.tenant).isNone
        if s.autoOff m then .drop
        else if m.mover = .auto && s.pwr.step ≠ 0 then .wait
        else if !(gatesAllow (s.moveGates k)) || (m.down && s.pagePinned p) then .wait
        else if m.down && (!(s.downOk p) || g.tier ≥ m.target) then .drop
        else if !m.down && g.tier ≤ m.target then .drop
        else if locked && m.mover = .auto then .drop
        else if locked then .bad (some 0x0E02)
        else if s.copyBad g (s.pageReg g (fun r => r.mirrored)) then .bad none
        else if !(s.copyFits m.target m.tenant m.region) then .full
        else
          match s.place m.target m.tenant m.region (s.pageNumber p).2 with
          | some sh => if s.trayShut m.target sh then .bad none else .go sh
          | none => .full

/-- The LP form a copy gets on its way out of the near tier, and whether it had to be stored RAW (R95, R163, R164). A page
already below keeps the form it has. -/
def State.copyForm (s : State) (m : MoveJob) (g : Page) : Option LpForm :=
  if m.target = 0 then none
  else if g.tier ≠ 0 then g.lp
  else
    match m.recode with
    | none => none
    | some (slot, ident) =>
      let c := s.codec.rd {} slot
      match lpEncode c.body c.cls (Bytes.rd g.bytes 0 65536) with
      | some b => some { cls := c.cls, raw := false, slot := slot, ident := ident, stream := b }
      | none => some { cls := 16, raw := true, slot := slot, ident := ident }

/-- The tweak of data unit `u` on a shelf (R376). -/
def xtsTweak (u shelf tier self : Nat) : BitVec 128 :=
  BitVec.ofNat 128 (u + shelf * 2 ^ 18 + tier * 2 ^ 36 + self * 2 ^ 38)

/-- The tier key slot a copy is encrypted under: the owner's, for a PROTECTED region below the near tier (R376). -/
def State.copyKey (s : State) (m : MoveJob) (g : Page) (tier : Nat) : Option Nat :=
  if tier ≠ 0 && s.pageReg g (fun r => r.prot) then s.tierSlot m.tenant else none

/-- The bytes of a copy below the near tier: the LP form, or the page, encrypted for a PROTECTED region. Where on its shelf
the copy lies is open (log entry 3). -/
def State.copyImage (s : State) (m : MoveJob) (g : Page) (tier shelf : Nat) : List Byte :=
  let plain := match s.copyForm m g with
    | some f => if f.raw then Bytes.rd g.bytes 0 65536 else f.stream
    | none => Bytes.rd g.bytes 0 65536
  match s.copyKey m g tier with
  | none => plain
  | some k =>
    match s.sec.keys.look (keyNo 0 k 0) with
    | none => plain
    | some x =>
      let base := s.free % shelfPages * 16
      ((chunks 4096 plain).zipIdx.map (fun c =>
        Config.xts x.a x.b (xtsTweak (base + c.2) shelf tier s.self) c.1)).flatten

/-- The CXL.mem accesses for the copy of page `p`, at a shelf below the near tier: one for each 64-byte line of what is stored
there for page `at_`, in units of a move source that wait in the queue of its tenant at the shelf's port (R300, R323). -/
def State.trayLines (s : State) (src tenant p at_ tier shelf : Nat) (write : Bool) (n : Nat) (image : List Byte) : State :=
  match s.trayPort tier shelf with
  | none => s
  | some port => s.queueLines port tenant src p at_ write n image

/-- The tenant a move's traffic runs for: the one that asked for it, or the owner (R119, R323). -/
def MoveJob.payer (m : MoveJob) : Nat :=
  match m.mover with
  | .pending => m.tenant
  | .evacuate _ => m.tenant
  | _ => m.asker

/-- Copy one waiting page of a move, if it may go. A tray page is written or read over CXL (R300). -/
def State.pumpPage (s : State) (k : Nat) (p : Nat) : State :=
  match s.move? k, s.page p with
  | some m, some g =>
    if m.quota then s
    else
      match s.mvNext k m p with
      | .wait => s
      | .drop => s.modMove k (fun m => { m with todo := m.todo.filter (· ≠ p) })
      | .bad why => s.modMove k (fun m =>
          { m with todo := m.todo.filter (· ≠ p), failed := m.failed + 1, why := if m.failed = 0 then why else m.why })
      | .full => s.modMove k (fun m => { m with quota := true, todo := m.todo.filter (fun p =>
          match (s.page p).bind (fun g => g.mv) with | some v => v.job = k | none => false) })
      | .go sh =>
        let tier := match m.mover with | .evacuate _ => g.tier | _ => m.target
        let t := s.tickFree.modPage p (fun g => { g with mv := some { tier := tier, shelf := sh, job := k, key := s.copyKey m g tier } })
        let image := s.copyImage m g tier sh
        (t.trayLines (srcMove k) m.payer p p g.tier g.shelf false g.storedLines []).trayLines (srcMove k) m.payer p p tier sh true
          (ceilDiv image.length 64) image
  | some _, none => s.modMove k (fun m => { m with todo := m.todo.filter (· ≠ p) })
  | none, _ => s

/-- Slack of a stored LP copy (R164). -/
def LpForm.slack (f : LpForm) : Nat := if f.raw then 0 else f.cls * 4096 - f.stream.length

/-- Slack bytes under LP of a move's pages that remain below (R98, R105): those a promotion has taken over do not count. -/
def State.moveSlack (s : State) (m : MoveJob) : Nat :=
  m.slack + sumOf (m.moved.map (fun p =>
    match s.page p with
    | some g =>
      let taken := (Tbl.vals s.tier.moves).any (fun x =>
        x.up && x.todo.any (· = p))
      if g.tier = 0 || taken then 0 else (match g.lp with | some f => f.slack | none => 0)
    | none => 0))

/-- A move without pages left: no copy is under way (a move that ran out of room stops, R100), and every other holder has
answered. -/
def State.moveOver (s : State) (k : Nat) (m : MoveJob) : Bool :=
  m.remote.isEmpty &&
    (if m.quota then !((Tbl.vals s.rgn.pages).any (fun g => match g.mv with | some v => v.job = k | none => false))
     else m.todo.isEmpty)

/-- Sub-parts of a move that failed, by number (R97). -/
def State.moveBad (s : State) (m : MoveJob) (parts : List Nat) : List Nat :=
  (if m.quota || m.failed ≠ 0 then [parts.findIdx (· = s.self)] else []) ++
    m.remoteFailed.map (fun x => parts.findIdx (· = x))

/-- The result of a PROMOTE or DEMOTE (R97, R98, R100): sub-part k is the holder with the k-th lowest module ID. QUOTA stands
where room ran out and no sub-part succeeded. A PARTIAL carries the detail of its lowest failed sub-part where the spec gives one
(R377), and otherwise an open one (log entries 3 and 191). -/
def State.moveResult (s : State) (m : MoveJob) (parts : List Nat) (slack : Nat) : Res :=
  let bad := s.moveBad m parts
  if bad.isEmpty then { r0 := slack }
  else if (m.quota || m.remoteFull) && bad.length ≥ parts.length then Res.fail St.quota 0x0311
  else
    let first := bad.all (fun k => parts.findIdx (· = s.self) ≤ k)
    let d := match m.why with | some d => if first then d else s.free % 65536 | none => s.free % 65536
    { status := St.partialFail, detail := d, r0 := parts.length, r1 := partialBitmap bad }

/-- The holders of a range that a PROMOTE or DEMOTE works on, lowest ID first (R97). -/
def State.rangeHolders (s : State) (id lo hi : Nat) : List Nat :=
  sortOn (fun m => m) ((rangeFrom lo (hi - lo)).foldl (fun l n => listAdd (s.holderOf id n) l) [])

/-- The number under which a promotion asked for by another module pins its pages (R102). -/
def remotePin (home tag : Nat) : Nat := (home + 1) * 2 ^ 64 + tag

/-- The descriptor a move works for has its result (R97, R98). -/
def State.endMove (s : State) (k lsn : Nat) (m : MoveJob) (slack : Nat) : State :=
  match s.entry lsn with
  | some e =>
    let parts := if e.note.isEmpty then [s.self] else e.note
    let s := s.putEntry { e with failedParts := s.moveBad m parts }
    (s.fixResult lsn (s.moveResult m parts slack)).tickFree
  | none => { s with tier := { s.tier with moves := Tbl.del k s.tier.moves } }

/-- A move ends: its descriptor has its result, or the module that asked has its answer. -/
def State.finishMove (s : State) (k : Nat) : State :=
  match s.move? k with
  | none => s
  | some m =>
    if !(s.moveOver k m) then s
    else
      let slack := s.moveSlack m
      match m.mover with
      | .promote lsn => s.endMove k lsn m 0
      | .demote lsn => s.endMove k lsn m slack
      | .evacuate _ => s
      | .remote home tag =>
        let s := { s with tier := { s.tier with moves := Tbl.del k s.tier.moves } }
        let s := s.modVersion m.region m.version (fun v => { v with pins := v.pins.filter (fun p => p.lsn ≠ remotePin home tag) })
        (s.reap m.region m.version).emit (.moveAns home tag (m.failed = 0 && !m.quota) m.quota slack)
      | _ => { s with tier := { s.tier with moves := Tbl.del k s.tier.moves } }

/-- Pages whose copies may be made now: all waiting ones, in stages REPLAY and RUN (R454). -/
def State.pumpMove (s : State) (k : Nat) : State :=
  match s.move? k with
  | some m => if !(s.running || s.gen.stage = stReplay) then s else (foldS (fun s p => s.pumpPage k p) s m.todo).finishMove k
  | none => s

/-- Every move goes on as far as it can. -/
def State.pumpMoves (s : State) : State := foldS (fun s k => s.pumpMove k) s (Tbl.keys s.tier.moves)

/-- Begin a move. -/
def State.addMove (s : State) (m : MoveJob) : State :=
  let k := s.tier.nextMove
  { s with tier := { s.tier with moves := Tbl.ins k m s.tier.moves, nextMove := k + 1 } }.pumpMove k

/-- Page ids a version references at the page numbers of a list. -/
def Version.idsAt (v : Version) (ns : List Nat) : List Nat :=
  ns.filterMap (fun n => match v.pageAt n with | some (.page p) => some p | _ => none)

/-- A pending demotion runs when the last hold is released (R104). -/
def State.runPending (s : State) (id n : Nat) : State :=
  match s.region id, s.version id n with
  | some r, some v =>
    match v.pend with
    | some d =>
      if v.holds.isEmpty then
        let s := s.modVersion id n (fun v => { v with pend := none })
        let others := (s.rangeHolders id d.lo d.hi).filter (· ≠ s.self)
        let s := s.emits (others.map (fun m => .moveReq m (2 ^ 63 + s.tier.nextMove)
          { promote := false, tenant := r.owner, region := id, version := n, off := 65536 * d.lo,
            len := 65536 * (d.hi - d.lo), tier := d.tier, recode := d.recode.isSome,
            tslot := match d.recode with | some x => x.1 | none => 0 }))
        s.addMove
          { mover := .pending, tenant := r.owner, region := id, version := n, target := d.tier,
            todo := v.idsAt (rangeFrom d.lo (d.hi - d.lo)), recode := d.recode }
      else s
    | none => s
  | _, _ => s

end Sys2Proof.Machine
end

