-- ==== Sys2Proof/Machine/Halt.lean ====
section
/-! DEFINITION. Stopping work: ring resets, tenant resets and step aborts (R56–R58, R345, R358). -/

namespace Sys2Proof.Machine

/-! ### Stopping work (R56, R57, R358, R363) -/

/-- A descriptor is aborted with a detail: it completes at once. -/
def State.abortDesc (s : State) (lsn detail : Nat) : State :=
  (s.fixResult lsn (Res.fail St.aborted detail)).completeRec lsn

/-- Stop a set of descriptors: those not started complete ABORTED, running ones too unless a fabric request of theirs is
outstanding, those past their commit point complete with their own result. -/
def State.stopWork (s : State) (p : Entry → Bool) (detail : Nat) : State :=
  foldS (fun s e =>
    if e.state = .committed then s.completeRec e.lsn
    else if e.state = .started && s.hasFabric e.lsn then s
    else s.abortDesc e.lsn detail) s (s.ldg.entries.filter (fun (e : Entry) => e.live && p e))

/-- Open versions that satisfy a test are discarded (R76). -/
def State.discardOpen (s : State) (p : Nat → Nat → Version → Bool) : State :=
  let l := s.allVersions.filter (fun x => x.2.2.state = .opened && p x.1 x.2.1 x.2.2)
  foldS (fun s x => s.discardVersion x.1 x.2.1) s l

/-- Accesses of a kind still awaiting their answer. -/
def State.awaits (s : State) (p : Purpose → Bool) : Bool := s.outstanding p ≠ 0

/-- The pair has an accepted index to write at its reset: it is enabled, or has been used (log entry 142). -/
def State.aidxOwed (s : State) (pair : Nat) : Bool :=
  s.flag F.tqRingCtlEnable pair || (s.ring pair).tail ≠ 0 || (s.ring pair).aidx ≠ 0

/-- Steps 4 and 5 of a ring reset (R56): open versions and pins go, and the final accepted index is written. -/
def State.closeRing (s : State) (pair : Nat) : State :=
  let s := s.discardOpen (fun _ _ v => v.writer = pair)
  let s := { s with rgn := { s.rgn with regions := s.rgn.regions.mapV (fun _ r =>
    { r with vers := r.vers.mapV (fun _ v => { v with pins := v.pins.filter (fun p => p.pair ≠ pair) }) }) } }
  let owed := s.aidxOwed pair
  (s.modRing pair (fun r => { r with closing := true })).when owed (fun s => s.writeAidx pair)

/-- Steps 6 and 7 of a ring reset (R56): ENABLE, the four indices and FAULTED are cleared, with FAULT_CODE (log entry 140), and
DONE entries become FREE. Records not written are marked to go first after the next enable, at the first completion indices of
the new numbering, in their order. -/
def State.endRingReset (s : State) (pair : Nat) : State :=
  let s := (s.setFld F.tqRingCtlEnable 0 pair).dropFetches (isFetchOf pair)
  let s := { s with ldg := { s.ldg with
    entries := s.ldg.entries.filter (fun (e : Entry) => !(e.pair = pair && e.kind = LKind.desc && e.state = LState.done)) } }
  let kept := cidxOrder (s.ldg.entries.filter (fun (e : Entry) => e.pair = pair && e.kind = .desc && e.unwritten))
  let s := foldS (fun s (x : Entry × Nat) =>
    s.modEntry x.1.lsn (fun e => { e with prior := true, cidx := BitVec.ofNat 32 x.2 })) s kept.zipIdx
  (s.modRing pair (fun r => { lost := r.lost })).noteRing pair

/-- The write of a pair's final accepted index is over: the reset ends (R56). -/
def State.pumpClosing (s : State) (pair : Nat) : State :=
  if s.awaits (fun p => p = .aidxWrite pair) then s else s.endRingReset pair

/-- A ring reset goes as far as it can (R56). Staged entries are voided (R345). Before stage REPLAY the final accepted index
cannot be written yet, and the reset waits at step 5 (log entry 185). -/
def State.pumpRing (s : State) (pair : Nat) : State :=
  match (s.ring pair).resetting with
  | none => s
  | some d =>
    if (s.ring pair).closing then s.pumpClosing pair
    else
    let mine : Entry → Bool := fun e => e.pair = pair
    let staged := s.ldg.entries.filter (fun (e : Entry) => mine e && e.kind = .desc && e.staged.isSome && e.state ≠ .void)
    let s := foldS (fun s e =>
      let s := s.modEntry e.lsn (fun e => { e with state := .void, staged := none })
      if s.durable s.ldg.mirrorSent then s.freeEntry e.lsn
      else s.putEntry { e with state := .void, staged := none, voiding := some s.ldg.mirrorSent }) s staged
    let before := (s.ldg.entries.filter (fun (e : Entry) => mine e && e.live && e.state ≠ .committed)).length
    let s := s.stopWork mine d
    let after := (s.ldg.entries.filter (fun (e : Entry) => mine e && e.live && e.state ≠ .committed)).length
    let s := s.when (d = 0x0202) (fun s => s.modTen (pairTenant pair) (fun t => { t with aborted := t.aborted + (before - after) }))
    if s.ldg.entries.any (fun (e : Entry) => mine e && e.live) ||
        s.awaits (fun p => match p with | .cqWrite q _ => q = pair | _ => false) ||
        (s.aidxOwed pair && s.gen.stage < stReplay) then s
    else (s.closeRing pair).pumpClosing pair

/-- A tenant reset ends when its pairs are reset, the final accepted indices are written and the marks are in the buddy's
mirror (R57, R345). -/
def State.pumpTenant (s : State) (t : Nat) : State :=
  if (s.ten t).resetBusy && (List.range 8).all (fun p => (s.ring (8 * t + p)).resetting.isNone) &&
      !(s.awaits (fun p => match p with | .aidxWrite q => q / 8 = t | _ => false)) then
    let s := s.when ((s.ten t).busyTill = 0) (fun s => s.modTen t (fun x => { x with busyTill := s.ldg.mirrorSent }))
    if s.durable (s.ten t).busyTill then s.modTen t (fun x => { x with resetBusy := false, busyTill := 0 }) else s
  else s

/-! ### Step abort (R358) -/

/-- A version belongs to the step of job `j` of tenant `t`: a descriptor of the job opened it or wrote into it. -/
def stepVersion (t j : Nat) (v : Version) : Bool := pairTenant v.writer = t && v.jobs.any (· = j)

/-- Work keys that a discarded version keeps go with it (R357, R358). -/
def State.dropKeys (s : State) (vs : List (Nat × Nat)) : State :=
  s.setWorks (s.ldg.works.filter (fun k => !(k.wrote.any (fun x => vs.any (· = x)))))

/-- A step abort is over, or was not durable before a reset: its entry goes, and its slot in the own half is cleared. -/
def State.endAbort (s : State) (a : AbortJob) : State :=
  let s := (s.freeEntry a.lsn).ownWrite (64 * lsnSlot a.lsn) (List.replicate 64 0)
  { s with ldg := { s.ldg with aborts := s.ldg.aborts.filter (fun x => x.lsn ≠ a.lsn) } }

/-- A step abort goes as far as it can: it stops the job's descriptors accepted before its entry, discards the step's open
versions and drops their keys, and ends when none of them is left running. -/
def State.pumpAbort (s : State) (a : AbortJob) : State :=
  if !(s.durable a.till) then s
  else
    let mine : Entry → Bool := fun e => e.tenant = a.tenant && e.job = a.job && e.lsn < a.lsn
    let s := s.stopWork mine 0x0D02
    let vs := (s.allVersions.filter (fun x => x.2.2.state = .opened && stepVersion a.tenant a.job x.2.2)).map
      (fun x => (x.1, x.2.1))
    let s := s.dropKeys vs
    let s := s.discardOpen (fun _ _ v => stepVersion a.tenant a.job v)
    if s.ldg.entries.any (fun (e : Entry) => e.live && mine e) then s
    else s.endAbort a

/-- The replay of the expelled buddy's entries ends when each has reached COMPLETING or DONE; each pair's final accepted index
is then written (R364). -/
def State.pumpTakeover (s : State) : State :=
  let mine := s.ldg.entries.filter (fun (e : Entry) => s.ldg.taken.any (· = e.lsn))
  if !s.ldg.takeover || mine.any (fun (e : Entry) => e.live) then s
  else
    let pairs := (s.tq.rings.filter (fun x => x.1 ≥ 2048)).map Prod.fst
    let s := { s with ldg := { s.ldg with takeover := false, taken := [] } }
    foldS (fun s p => s.writeAidx p) s pairs

/-- Moves, resets and step aborts in progress go on as far as they can. -/
def State.settle (s : State) : State :=
  let s := s.pumpMoves.sweepKeys
  let s := foldS (fun s p => s.pumpRing p) s ((s.tq.rings.filter (fun x => x.2.resetting.isSome)).map Prod.fst)
  let s := foldS (fun s a => s.pumpAbort a) s s.ldg.aborts
  let s := foldS (fun s t => s.pumpTenant t) s ((s.tq.tens.filter (fun x => x.2.resetBusy)).map Prod.fst)
  s.pumpTakeover

/-- Request a step abort; while one is in progress a request has no effect. An ABORT entry names its tenant by the pair 8t (log
entry 16). -/
def State.requestAbort (s : State) (t j : Nat) : State :=
  if !s.ldg.aborts.isEmpty || s.ldg.fenced then s
  else
    let lsn := s.ldg.nextLsn
    let s := s.addEntry { lsn := 0, pair := 8 * t, kind := .abort, job := j, note := [t, j] }
    let s := s.bump F.ldgCnt2StepAborts
    let s := { s with ldg := { s.ldg with
      aborts := [{ tenant := t, job := j, lsn := lsn, till := s.ldg.mirrorSent }] } }
    s.settle

/-- After a record: a failed descriptor of a job under AUTO_ABORT aborts its step (R358). -/
def State.autoAbort (s : State) (e : Entry) (status : Nat) : State :=
  s.when ((status = St.partialFail || status = St.poisoned || status = St.timeout) && e.job ≠ 0xFFFF &&
    s.flag F.ldgTenCtlAutoAbort e.tenant) (fun s => s.requestAbort e.tenant e.job)

/-! ### Ring and tenant reset requests (R56–R58) -/

/-- A ring reset begins; fetched descriptors are dropped. A tenant reset takes over a ring reset that runs (R56, R57). -/
def State.startRingReset (s : State) (pair detail : Nat) : State :=
  if (s.ring pair).resetting.isSome && detail ≠ 0x0202 then s
  else (s.modRing pair (fun r => { r with resetting := some detail })).dropFetches (isFetchOf pair)

/-- Recipe images of a tenant are unloaded (R57, R222). -/
def State.unloadRecipes (s : State) (t : Nat) : State :=
  let left := Tbl.keep (fun i (r : RecipeSlot) => !(r.st = .loaded && r.owner = t && s.slotRefs i = 0)) s.slc.slots
  let slots := left.mapV (fun _ r =>
    if r.st = .loaded && r.owner = t then { r with st := .unloading }
    else if r.st = .loading && r.owner = t then { r with img := none } else r)
  { s with slc := { s.slc with slots := slots } }

/-- Orphan versions of a tenant are dropped (R57, R76); one that is still read stays until its readers end (R82; log
entry 18). -/
def State.dropOrphans (s : State) (t : Nat) : State :=
  let l := s.allVersions.filter (fun x => x.2.2.state = .orphan &&
    (match s.region x.1 with | some r => r.owner = t | none => false))
  foldS (fun s x => (s.retireVersion x.1 x.2.1).logSelf x.1 x.2.1) s l

/-- A tenant reset begins: all eight pairs, its recipes and its orphans (R57). -/
def State.startTenantReset (s : State) (t : Nat) : State :=
  let s := s.modTen t (fun x => { x with resetBusy := true, aborted := 0, busyTill := 0, resetHeld := false })
  let s := foldS (fun s p => s.startRingReset (8 * t + p) 0x0202) s (List.range 8)
  let s := (s.unloadRecipes t).dropOrphans t
  s.settle

end Sys2Proof.Machine
end

