-- ==== Sys2Proof/Machine/Rings.lean ====
section
/-! DEFINITION. Doorbells, acceptance, start and completion of descriptors, NOP and FENCE (R28–R42, R46, R47, R53). -/

namespace Sys2Proof.Machine

/-! ### Doorbells (R28–R33) -/

/-- The endpoint may act for the tenant of a doorbell page: its port is open and names it in PORT_EP (R29, R285); on a
CXL-up port the host is entry 0's endpoint (R301). -/
def State.entitled (s : State) (src : DbSrc) (tenant : Nat) : Bool :=
  let n := src.port.val
  s.epPort n && (s.port n).st ≠ .held &&
    (match s.epEntryGo n (fun k => s.fld F.portEpEp n k = src.ep.toNat && s.fld F.portEpTenant n k = tenant)
        (if (s.port n).role = roleUp then 1 else 16) 0 with
     | some _ => true
     | none => false)

/-- A submission tail reaches its live pair (R31). -/
def State.submitTail (s : State) (pair : Nat) (t : W32) : State :=
  let r := s.ring pair
  if t = r.tail then s
  else if (t - r.tail).toNat ≤ s.sqSize pair && (t - r.aidx).toNat ≤ s.sqSize pair then
    s.modRing pair (fun r => { r with tail := t })
  else s.faultPair pair 0x01

/-- Shelves a descriptor may touch, by the regions its desc.refs name (R66). -/
def State.drainsOf (s : State) (words : List W64) : List Nat :=
  (descRefs (fun k => (words.getD k 0).toNat)).foldl
    (fun l w => (s.shelvesOf (refOf w).region).foldl (fun l k => listAdd k l) l) []

/-- The codec slot a descriptor's words name in desc.alloc_fmt, desc.xform or desc.demote, when a format needs one (R169). -/
def namedSlot (words : List W64) : Option Nat :=
  let w := fun k => (words.getD k 0).toNat
  match bits (w 0) 7 0 with
  | 0x01 => if bits (w 7) 15 8 = fmtKc || bits (w 7) 23 16 = fmtKc then some (bits (w 7) 27 24) else none
  | 0x02 => if bits (w 4) 7 0 = fmtKc then some (bits (w 4) 11 8) else none
  | 0x0B => if bit (w 5) 2 then some (bits (w 5) 19 16) else none
  | _ => none

/-- A reference and a load that reach a slot in one tick: the reference counts first. The load gives back the slot it took
from its own tenant and looks for a slot again (R170, R222). -/
def State.yieldLoad (s : State) (op slot : Nat) : State :=
  match s.ldg.entries.find? (fun (e : Entry) => e.running && e.opcode = op && e.note = [slot, 1, s.now]) with
  | some e => ((s.endLoad e).dropFetches (fun p => p = .image e.lsn)).setNote e.lsn []
  | none => s

/-- The slots a descriptor refers to are settled before its references count. -/
def State.yieldLoads (s : State) (e : Entry) : State :=
  let s := match namedSlot e.words with | some n => s.yieldLoad opLoadTable n | none => s
  s.when (e.opcode = opInvoke) (fun s => s.yieldLoad opLoadRecipe (bits (e.w 2) 7 0))

/-- An entry is replayed: it is marked and counted, and the record a COMMITTED one carries says so (R349). -/
def State.markReplayed (s : State) (lsn : Nat) : State :=
  (s.modEntry lsn (fun e =>
    { e with replayed := true, cpl := e.cpl.map (fun c => { c with replayed := true }) })).bump F.ldgCnt0Replayed

/-- A staged or new entry is accepted: what it refers to counts from now on (R66, R222, R106), and the accepted index covers
it and is written back (R34, R36). One accepted in stage REPLAY, before which nothing is fetched, is replayed (R345). -/
def State.acceptEntry (s : State) (lsn : Nat) : State :=
  match s.entry lsn with
  | none => s
  | some e =>
    let s := s.yieldLoads e
    let slot := s.slc.slots.rd {} (bits (e.w 2) 7 0)
    let loaded := e.opcode = opInvoke && slot.st = .loaded
    let s := s.putEntry { e with
      staged := none, acceptAt := s.now, accepted := s.ldg.accepts, drains := s.drainsOf e.words, jobLive := (s.jobSlot e.job).isSome,
      slotRef := loaded, ident := if loaded then (match slot.img with | some i => i.ident | none => 0) else 0 }
    let s := { s with ldg := { s.ldg with accepts := s.ldg.accepts + 1 } }
    let s := s.when (s.gen.stage = stReplay) (fun s => s.markReplayed lsn)
    ((s.modRing e.pair (fun r => { r with aidx := r.aidx + 1 })).noteRing e.pair).writeAidx e.pair

/-- A staged descriptor may be accepted (R34, R35, R345): the buddy's ACK covers it, every lower index is accepted, and in RUN
its pair is live and has a completion slot left, a fault of the pair stopping fetch only (R53); before RUN it is accepted to be
replayed. -/
def State.mayCover (s : State) (e : Entry) (n : Nat) : Bool :=
  s.durable n && e.index = (s.ring e.pair).aidx && (!s.running || (s.liveP e.pair && s.cqRoom e.pair 0))

/-- An entry's mirror stores are covered, or need none any more: a staged descriptor is accepted, the entry of a version's
transition and a voided entry are FREE. -/
def State.coverEntry (s : State) (e : Entry) : State :=
  match e.staged, e.voiding with
  | _, some n => if s.durable n then s.freeEntry e.lsn else s
  | some n, none =>
    if e.kind = .desc then (if s.mayCover e n then s.acceptEntry e.lsn else s)
    else if s.durable n then s.freeEntry e.lsn else s
  | none, none => s

/-- Entries that wait for the buddy's ACK go on, in the order of their l.lsn. -/
def State.pumpMirror (s : State) : State :=
  if s.ldg.fenced then s
  else foldS (fun s e => s.coverEntry e) s (s.ldg.entries.filter (fun (e : Entry) => e.staged.isSome || e.voiding.isSome))

/-- A completion head reaches its live pair (R32); DONE entries it covers become FREE (R342), and what waited for a slot goes
on. -/
def State.completionHead (s : State) (pair : Nat) (h : W32) : State :=
  let r := s.ring pair
  if (h - r.head).toNat ≤ r.unread then
    ((((s.modRing pair (fun r => { r with head := h })).noteRing pair).freeDone pair).sendPrior pair).pumpMirror
  else s.faultPair pair 0x02

/-- A write of an entitled endpoint to an offset of the doorbell aperture (R28–R32). -/
def State.ringBell (s : State) (off size : Nat) (value : W64) : State :=
  let o := off % 4096
  let pair := 8 * (off / 4096) + o / 8 % 8
  if size ≠ 8 || o % 8 ≠ 0 || o ≥ 0x80 || value.toNat ≥ 2 ^ 32 then s.bump F.tqDbErrCount
  else if !(s.liveP pair) then s.bump F.tqDbDropCount
  else if o < 0x40 then s.submitTail pair (BitVec.ofNat 32 value.toNat)
  else s.completionHead pair (BitVec.ofNat 32 value.toNat)

/-- A write in the doorbell aperture (R28–R32); which doorbell it is, its offset says. -/
def State.doorbell (s : State) (src : DbSrc) (off size : Nat) (value : W64) : State :=
  if s.ldg.fenced then s
  else if !(off < 2 ^ 20 && s.entitled src (off / 4096)) then s.bump F.portEcntEdgeDeny src.port.val
  else s.ringBell off size value

/-- SUBMISSION_DOORBELL (R31). -/
def execSubmissionDoorbell (src : DbSrc) (off size : Nat) (value : W64) (s : State) :
    Host.Outcome State Fault Refusal :=
  checked s (.submissionDoorbell src off size value) (s.doorbell src off size value)

/-- COMPLETION_DOORBELL (R32). -/
def execCompletionDoorbell (src : DbSrc) (off size : Nat) (value : W64) (s : State) :
    Host.Outcome State Fault Refusal :=
  checked s (.completionDoorbell src off size value) (s.doorbell src off size value)

/-! ### Acceptance (R34–R37, R66, R222, R345) -/

/-- The submission index the module fetches next: behind accepted and staged ones (R34). -/
def State.nextIndex (s : State) (pair : Nat) : W32 := (s.ring pair).aidx + BitVec.ofNat 32 (s.stagedOf pair)

/-- The conditions of R35, and no fault and no withheld record on the pair (R53, R56). -/
def State.mayAccept (s : State) (pair : Nat) : Bool :=
  let r := s.ring pair
  s.liveP pair && !r.faulted && !s.ldg.fenced && s.nextIndex pair ≠ r.tail && s.slotFree &&
    s.cqRoom pair (s.stagedOf pair) && !(s.cqBad pair)

/-- The entry of a fetched descriptor (R341). -/
def State.newEntry (s : State) (pair : Nat) (words : List W64) : Entry :=
  let w := fun k => (words.getD k 0).toNat
  let op := bits (w 0) 7 0
  { lsn := s.ldg.nextLsn, pair := pair, index := s.nextIndex pair, words := words, opcode := op,
    workId := BitVec.ofNat 64 (w 1), job := bits (w 0) 31 16,
    retries := if op ≠ opInvoke then 0 else if bits (w 2) 15 12 = 0 then s.fld F.tqCtlDefRetries else bits (w 2) 15 12,
    acceptAt := s.now }

/-- The ledger entry of a fetched descriptor is written; in MIRRORED mode it stays staged until the buddy's ACK (R343,
R345). -/
def State.takeDescriptor (s : State) (pair : Nat) (words : List W64) : State :=
  let e := s.newEntry pair words
  let s := s.addEntry e
  if s.ldg.mode = .mirrored || s.ldg.bound.isSome then
    match s.entry e.lsn with
    | some e => s.putEntry { e with staged := some s.ldg.mirrorSent }
    | none => s
  else s.acceptEntry e.lsn

/-- Where a submission slot lies (R27). -/
def State.slotPtr (s : State) (pair : Nat) (i : W32) : Nat :=
  s.fld F.tqRingSqBasePtr pair + 64 * (i.toNat % s.sqSize pair)

/-- Fetch the next descriptor of a pair, or accept it when it has come (R34, R35, R54). Bytes that come while it may not be
accepted are not kept: the ring is read again (R25). -/
def State.accept (s : State) (pair : Nat) : State :=
  let i := s.nextIndex pair
  let p : Purpose := .sqFetch pair i.toNat
  if !(s.mayAccept pair) then
    match s.fetchOf p with
    | some (.got _) => s.dropFetch p
    | _ => s
  else
    match s.fetchOf p with
    | some (.got bytes) => (s.dropFetch p).takeDescriptor pair (descWords bytes)
    | some _ => s
    | none =>
      let s := s.readEp (pairTenant pair) (s.slotPtr pair i) 64 p
      match s.fetchOf p with
      | some (.failed _ _) => (s.dropFetch p).faultPair pair 0x03
      | _ => s

/-- DESCRIPTOR_ACCEPT (R35). -/
def execDescriptorAccept (pair : Pair) (s : State) : Host.Outcome State Fault Refusal := .next (s.accept pair.val)

/-! ### Start (R39, R42, R355) -/

/-- Every earlier descriptor of the ring that must have completed has completed (R39). -/
def State.ringOrder (s : State) (e : Entry) : Bool :=
  !(s.ldg.entries.any (fun (x : Entry) => x.pair = e.pair && x.live && x.lsn < e.lsn && !(e.unordered && x.unordered)))

/-- Running invocations. -/
def State.invocations (s : State) (p : Entry → Bool) : Nat :=
  (s.ldg.entries.filter (fun (x : Entry) => x.running && x.opcode = opInvoke && p x)).length

/-- Fabric transactions in flight (R42); tray accesses are none (log entry 166). -/
def State.inFlight (s : State) : Nat := s.outstanding (fun p => match p with | .tray _ | .line _ => false | _ => true)

/-- The limits of R42 and of the work identity table (R355) let an INVOKE start. -/
def State.invokeMay (s : State) (e : Entry) : Bool :=
  e.opcode ≠ opInvoke ||
    (s.invocations (fun x => x.tenant = e.tenant) < s.fld F.tqTenCtlInflight e.tenant &&
      s.invocations (fun _ => true) < 4096 && s.inFlight < 262144 &&
      (e.workId = 0 || s.ldg.works.length < 65536 ||
        s.ldg.works.any (fun k => k.tenant = e.tenant && k.work = e.workId)))

/-- A descriptor may start in its ring order. -/
def State.startable (s : State) (e : Entry) : Bool :=
  e.acceptedDesc && e.state = .accepted && (s.running || s.gen.stage = stReplay) && !s.ldg.fenced &&
    (s.ring e.pair).resetting.isNone && s.ringOrder e && s.invokeMay e

/-- An entry is being replayed: the module's own in stage REPLAY, or one of an expelled buddy's (R349, R364). -/
def State.inReplay (s : State) (e : Entry) : Bool := s.gen.stage = stReplay || s.ldg.taken.any (· = e.lsn)

/-- A descriptor may start; replay interleaves pairs in l.lsn order (R349). -/
def State.mayStart (s : State) (e : Entry) : Bool :=
  s.startable e && !(s.inReplay e &&
    s.ldg.entries.any (fun (x : Entry) => x.lsn < e.lsn && s.inReplay x && s.startable x))

/-- A descriptor starts: its entry turns STARTED; one that breaks R44 or R45 has its result at once (R44, R50). -/
def State.start (s : State) (lsn : Nat) : State :=
  match s.entry lsn with
  | none => s
  | some e =>
    if s.mayStart e then
      let s := s.modEntry lsn (fun e => { e with state := .started, startAt := s.now })
      match descBad e.words with
      | some d => s.fixResult lsn (Res.fail St.malformed d)
      | none => s
    else s

/-- DESCRIPTOR_START (R39). -/
def execDescriptorStart (lsn : Nat) (s : State) : Host.Outcome State Fault Refusal := .next (s.start lsn)

/-! ### Completion (R40, R47) -/

/-- A descriptor whose result is fixed completes (R47), an INVOKE after every store it released has been applied (R219); a fenced
MIRRORED module writes no record (R363). A failure under AUTO_ABORT aborts its step (R358). -/
def State.complete (s : State) (lsn : Nat) : State :=
  match s.entry lsn with
  | none => s
  | some e =>
    if e.acceptedDesc && e.state = .committed && s.durable e.till && !(e.opcode = opInvoke && s.hasFabric lsn) &&
        !(s.ldg.fenced && s.ldg.mode = .mirrored) then
      ((s.completeRec lsn).autoAbort e (match e.cpl with | some c => c.status | none => 0)).settle
    else s

/-- DESCRIPTOR_COMPLETE (R47). -/
def execDescriptorComplete (lsn : Nat) (s : State) : Host.Outcome State Fault Refusal := .next (s.complete lsn)

/-! ### NOP and FENCE (R44, R46) -/

/-- NOP (R44). -/
def execNop (lsn : Nat) (s : State) : Host.Outcome State Fault Refusal :=
  .next (s.onOp lsn opNop (fun _ s => s.fixResult lsn Res.ok))

/-- Every earlier descriptor in the FENCE's scope has completed (R46): those of its ring, and under scope 1 those the module
accepted before it. -/
def State.fenceMet (s : State) (e : Entry) : Bool :=
  !(s.ldg.entries.any (fun (x : Entry) => x.live &&
    ((x.pair = e.pair && x.lsn < e.lsn) || (bit (e.w 2) 0 && x.tenant = e.tenant && x.accepted < e.accepted))))

/-- The timeout of a FENCE in ns (R45). -/
def State.fenceNs (s : State) (e : Entry) : Nat :=
  1000 * (if bits (e.w 2) 63 32 = 0 then s.fld F.tqTenCtlFenceTmo e.tenant else bits (e.w 2) 63 32)

/-- A ring pair lies in the FENCE's scope. -/
def inScope (e : Entry) (pair : Nat) : Bool := pair = e.pair || (bit (e.w 2) 0 && pairTenant pair = e.tenant)

/-- The streams, by their keys, on which descriptors of the scope have stored since their last completed fence (R280). -/
def State.fenceStreams (s : State) (e : Entry) : List Nat :=
  (s.fab.tx.filter (fun x => x.2.stored.any (inScope e))).map Prod.fst

/-- The port a stream of the module leaves by. -/
def State.streamPort (s : State) (ep tc : Nat) : Nat := if isModule ep then s.portTo ep s.self tc else (s.tx ep tc).port

/-- What a FENCE on TC2 tells the buddy in u.addr: 0 that this module mirrors to it, 1 that it does not (R347; log entry 144). -/
def State.buddyWord (s : State) (ep tc : Nat) : W64 :=
  if tc = 2 && s.buddy = some ep && s.ldg.mode ≠ .mirrored then 1 else 0

/-- FENCE on a stream of the module, its fence point the last number used (R280, R359). -/
def State.sendFence (s : State) (n ep tc : Nat) (p : Purpose) : State :=
  let q := (s.tx ep tc).next - 1
  let (e, s) := s.stampOn ep tc
  (s.modTx ep tc (fun t => { t with fence := t.fence ++ [{ seq := q, purpose := p, sentAt := s.now }] })).sendBy n
    (.msg n tyFence { s.hdr tc ep with seq := q, epoch := e, addr := s.buddyWord ep tc } [])

/-- The module contacts its mirror buddy with a FENCE on TC2, which says whether it mirrors and whose answer says that the buddy
lives (R20, R347, R359; the message is the model's choice, log entry 144). -/
def State.contactBuddy (s : State) : State :=
  match s.buddy with
  | some b => s.sendFence (s.portTo b s.self 2) b 2 .probe
  | none => s

/-- FENCEs of a purpose not answered yet. -/
def State.fencesOut (s : State) (p : Purpose) : Nat :=
  sumOf ((Tbl.vals s.fab.tx).map (fun t => (t.fence.filter (fun f => f.purpose = p)).length))

/-- Every FENCE of a FENCE descriptor has been answered: it completes, and its scope's stores lie behind a completed fence
(R280). -/
def State.fenceDone (s : State) (lsn : Nat) : State :=
  s.onOp lsn opFence (fun e s =>
    ({ s with fab := { s.fab with tx := s.fab.tx.mapV (fun _ t =>
        { t with stored := t.stored.filter (fun p => !(inScope e p)) }) } }).fixResult lsn Res.ok)

/-- A FENCE looks at its scope: once every earlier descriptor there has completed, it sends a FENCE on each stream they have
stored on, and completes when all are answered (R46, R280). -/
def State.fence (s : State) (lsn : Nat) : State :=
  s.onOp lsn opFence (fun e s =>
    if !(s.fenceMet e) || !e.note.isEmpty then s
    else
      match s.fenceStreams e with
      | [] => s.fixResult lsn Res.ok
      | l =>
        foldS (fun s k => s.sendFence (s.streamPort (k / 4) (k % 4)) (k / 4) (k % 4) (.fenceOp lsn)) (s.setNote lsn [1]) l)

/-- FENCE (R46). -/
def execFence (lsn : Nat) (s : State) : Host.Outcome State Fault Refusal := .next (s.fence lsn)

/-- FENCE_TIMEOUT (R46, R337): arrivals of the tick come first, so a FENCE that has only to look is in time; one whose FENCEs are
not answered is not. The timeout runs from its start (log entry 165); the detail of the TIMEOUT is open (log entry 3). -/
def execFenceTimeout (lsn : Nat) (s : State) : Host.Outcome State Fault Refusal :=
  .next (s.onOp lsn opFence (fun e s =>
    let s := s.waitTill (e.startAt + s.fenceNs e)
    if s.fenceMet e && (s.fenceStreams e).isEmpty then s.fixResult lsn Res.ok
    else (s.fixResult lsn (Res.fail St.timeout (s.free % 65536))).tickFree))

end Sys2Proof.Machine
end

