-- ==== Sys2Proof/Machine/Tables.lean ====
section
/-! DEFINITION. Codec table slots, LOAD_TABLE, and MOVE with its conversions (R166–R172, R181, R455). -/

namespace Sys2Proof.Machine

/-! ### Slots (R168, R169, R171) -/

/-- The codec slot of a number. -/
def State.cslot (s : State) (n : Nat) : CodecSlot := s.codec.rd {} n

/-- The failure of naming a slot for a table kind (R169, R172): EMPTY, LOADING or another kind; another tenant's. A slot that is
both fails with the first (log entry 196). -/
def State.nameSlot (s : State) (tenant slot kind : Nat) : Option (Nat × Nat) :=
  let c := s.cslot slot
  if c.st ≠ .loaded || c.kind ≠ kind then some (St.denied, 0x0611)
  else if c.owner ≠ tenant && c.owner ≠ 0 then some (St.denied, 0x0613)
  else none

/-- REFS of a codec slot (R169): live versions, stored LP pages, pending demotions, also while they are carried out, and
accepted descriptors. -/
def State.codecRefs (s : State) (n : Nat) : Nat :=
  let names : Option (Nat × Nat) → Bool := fun r => match r with | some x => x.1 = n | none => false
  (s.allVersions.filter (fun x => match x.2.2.slotRec with | some r => r.1 = n | none => false)).length +
  ((Tbl.vals s.rgn.pages).filter (fun g => match g.lp with | some f => f.slot = n && !f.raw | none => false)).length +
  (s.allVersions.filter (fun x => match x.2.2.pend with | some p => names p.recode | none => false)).length +
  (s.tier.moves.filter (fun x => x.2.mover = .pending && names x.2.recode)).length +
  (s.ldg.entries.filter (fun (e : Entry) => e.live && namedSlot e.words = some n)).length

/-- The code books of a KC slot. -/
def State.kcOf (s : State) (n : Nat) : KcTable := { count := (s.cslot n).count, body := (s.cslot n).body }

/-- Slots a tenant owns (R174). -/
def State.slotsOwned (s : State) (t : Nat) : Nat :=
  ((Tbl.vals s.codec).filter (fun c => c.st ≠ .empty && c.owner = t)).length

/-! ### LOAD_TABLE (R167, R170) -/

/-- The codec slot a load takes, or its failure (R170; log entry 174). -/
def State.loadTarget (s : State) (tenant want : Nat) : Except (Nat × Nat) Nat :=
  if want = 0x1F then
    match (List.range 16).find? (fun n => (s.cslot n).st = .empty) with
    | some n => if s.slotsOwned tenant ≥ s.fld F.codecTenCtlMaxSlots tenant then .error (St.quota, 0x0615) else .ok n
    | none =>
      match (List.range 16).find? (fun n =>
          (s.cslot n).st = .loaded && (s.cslot n).owner = tenant && s.codecRefs n = 0) with
      | some n => .ok n
      | none => .error (St.quota, 0x0615)
  else
    let c := s.cslot want
    if c.st = .empty then .ok want
    else if c.owner ≠ tenant then .error (St.denied, 0x0613)
    else if c.st ≠ .loaded || s.codecRefs want > 0 then .error (St.denied, 0x0612)
    else .ok want

/-- The image has come: the slot takes it, or keeps what it held (R167). -/
def State.takeTable (s : State) (e : Entry) (slot : Nat) (img : List Byte) : State :=
  let t := tabImg img
  if t.good (bits (e.w 4) 31 0) (bits (e.w 2) 15 8) then
    let c : CodecSlot :=
      { st := .loaded, kind := t.kind, owner := e.tenant, cls := t.cls, count := t.count, ident := t.ident, body := t.body }
    let s := { s with codec := Tbl.put {} slot (if t.kind = 0 then {} else c) s.codec }
    let s := s.modEntry e.lsn (fun e => { e with ident := t.ident })
    s.fixResult e.lsn { r0 := slot }
  else s.fixResult e.lsn (Res.fail St.malformed 0x0003)

/-- A LOAD_TABLE goes on: it takes its slot and asks for the image, or takes the image that came. An image length no image
has is refused without a fetch (R167). -/
def State.loadTable (s : State) (lsn : Nat) : State :=
  s.onOp lsn opLoadTable (fun e s =>
    match e.note with
    | [slot, _, _] =>
      match s.fetchOf (.image lsn) with
      | some (.got b) => s.takeTable e slot b
      | some (.failed st d) => s.fixResult lsn (Res.fail st d)
      | _ => s
    | _ =>
      match s.loadTarget e.tenant (bits (e.w 2) 4 0) with
      | .error (st, d) => s.fixResult lsn (Res.fail st d)
      | .ok slot =>
        let len := bits (e.w 4) 31 0
        if len < 64 || len > 8256 then s.fixResult lsn (Res.fail St.malformed 0x0003)
        else
          let s := s.setNote lsn [slot, if (s.cslot slot).st = SlotState.empty then 0 else 1, s.now]
          let s := { s with codec := Tbl.upd {} slot (fun c =>
            { c with st := .loading, owner := if c.st = SlotState.empty then e.tenant else c.owner }) s.codec }
          let s := s.readEp e.tenant (e.w 3) len (.image lsn)
          match s.fetchOf (.image lsn) with
          | some (.failed st d) => s.fixResult lsn (Res.fail st d)
          | _ => s)

/-- LOAD_TABLE (R170). -/
def execLoadTable (lsn : Nat) (s : State) : Host.Outcome State Fault Refusal := .next (s.loadTable lsn)

/-! ### MOVE (R45, R171, R181, R455) -/

/-- Bytes a MOVE's operand covers in its own format, for a source length (R181). -/
def dstLen (sf df len : Nat) : Nat :=
  match fmtUnit sf, fmtUnit df with
  | some (se, sb), some (de, db) => if sf = df then len else len / sb * se / de * db
  | _, _ => len

/-- A read of bytes of a version failed or met poisoned lines. -/
def State.readFault (s : State) (id n : Nat) (r : Except (Nat × Nat) (List Byte × List Nat)) : Option (Nat × Nat) :=
  match r with
  | .error e => some e
  | .ok (_, ps) => if ps.isEmpty then none else some (St.poisoned, s.poisonWhy id n ps)

/-- A UZ-KC read through a version that records another identity (R168). -/
def State.kcMismatch (s : State) (v : Version) (slot : Nat) : Bool :=
  match v.slotRec with
  | some r => r.2 ≠ (s.cslot slot).ident
  | none => false

/-- A write of UZ-KC data into an open version records its slot, or fails on another one (R171). -/
def State.recordSlot (s : State) (id n slot : Nat) : State × Option (Nat × Nat) :=
  match s.version id n with
  | none => (s, some (St.aborted, 0x0341))
  | some v =>
    match v.slotRec with
    | none => (s.modVersion id n (fun v => { v with slotRec := some (slot, (s.cslot slot).ident) }), none)
    | some r => if r.1 = slot then (s, none) else (s, some (St.denied, 0x0614))

/-- The converted bytes of a MOVE reach their destination: a version, or endpoint memory. -/
def State.moveOut (s : State) (e : Entry) (dst : Nat) (data : List Byte) : State :=
  let x := e.w 7
  let (out, nans) := convert (s.kcOf (bits x 27 24)) (s.kcOf (bits x 27 24)) (bits x 15 8) (bits x 23 16) data
  if bit x 1 then
    match s.writeEp e.tenant (e.w 4) 2 out false (.moveWrite e.lsn) with
    | (s, some (st, d)) => s.fixResult e.lsn (Res.fail st d)
    | (s, none) => (s.bump F.codecCnt0NanBlocks 0 0 nans).setNote e.lsn [1]
  else
    let id := (refOf (e.w 4)).region
    let (s, bad) := if bits x 23 16 = fmtKc then s.recordSlot id dst (bits x 27 24) else (s, none)
    match bad with
    | some (st, d) => s.fixResult e.lsn (Res.fail st d)
    | none =>
      match s.writeVersion id dst (bits (e.w 5) 55 0) out false e.acceptAt e.job (.moveWrite e.lsn) with
      | (s, some (st, d)) => s.fixResult e.lsn (Res.fail st d)
      | (s, none) =>
        let s := s.bump F.codecCnt0NanBlocks 0 0 nans
        if s.hasFabric e.lsn then s.setNote e.lsn [1] else s.fixResult e.lsn Res.ok

/-- The failure of a MOVE before any byte moves: destination, range and slot (R75, R169, R171, R181). -/
def State.moveDst (s : State) (e : Entry) : Except (Nat × Nat) Nat :=
  let x := e.w 7
  let slot := bits x 27 24
  let kc := bits x 15 8 = fmtKc || bits x 23 16 = fmtKc
  match (if kc then s.nameSlot e.tenant slot 2 else none) with
  | some f => .error f
  | none =>
    if bit x 1 then .ok 0
    else
      match s.resolveWrite (s.callerOf e) (refOf (e.w 4)) with
      | .error f => .error f
      | .ok (r, n, _) =>
        if bits (e.w 5) 55 0 + dstLen (bits x 15 8) (bits x 23 16) (bits (e.w 6) 39 0) > r.size then
          .error (St.denied, 0x030A)
        else .ok n

/-- The parts of a range that lie on pages other modules hold. -/
def State.farSpans (s : State) (id : Nat) (r : Region) (off len : Nat) : List (Nat × Nat × Nat) :=
  (pageSpans off len).filter (fun q => !(s.heldHere id q.1) && !(s.pageGone id q.1 r))

/-- The bytes of a MOVE's source that other modules hold are loaded from them, each page from its holder, beside those read here
(R278, R282). -/
def State.loadRest (s : State) (e : Entry) (id n : Nat) (r : Region) (off len : Nat) (b : List Byte) : State :=
  let far := s.farSpans id r off len
  let mine := ((pageSpans off len).filter (fun q => !(far.any (· = q)))).map (fun q =>
    let o := q.1 * 65536 + q.2.1 - off
    (o, (b.drop o).take q.2.2))
  let ps := far.flatMap (fun q => (pieces (q.1 * 65536 + q.2.1) q.2.2).map (fun p => (s.holderOf id q.1, p)))
  let s := s.setFetch (.moveRead e.lsn) (.waiting ps.length (mine.foldl (fun t x => Tbl.ins x.1 x.2 t) []))
  foldS (fun s p =>
    let (tag, s) := s.newTag
    let (m, a, k) := p
    let d := (s.depsOf m id n a k).getLast?
    let tc := match d with | some x => x.1 | none => 2
    let port := s.portTo m s.self tc
    s.sendLoad port { tag := tag, dst := BitVec.ofNat 16 m, port := port, purpose := .moveRead e.lsn, off := a - off, len := k,
                      ptr := BitVec.ofNat 64 a, tc := tc, dep := d.map Prod.snd, sentAt := s.now,
                      xr := (id, n, e.tenant, s.pairSecure e.pair) }) s ps

/-- A MOVE begins: both operands are resolved and checked before any byte is written. Its reads never stall (R113; log entry
161). -/
def State.moveBegin (s : State) (e : Entry) : State :=
  let x := e.w 7
  let len := bits (e.w 6) 39 0
  let fail := fun (s : State) (f : Nat × Nat) => s.fixResult e.lsn (Res.fail f.1 f.2)
  if bit x 0 then
    match s.moveDst e with
    | .error f => fail s f
    | .ok dst =>
      let s := (s.setNote e.lsn [2, dst]).readEp e.tenant (e.w 2) len (.moveRead e.lsn)
      match s.fetchOf (.moveRead e.lsn) with
      | some (.failed st d) => fail s (st, d)
      | _ => s
  else
    let off := bits (e.w 3) 55 0
    match s.resolveRead (s.callerOf e) (refOf (e.w 2)) with
    | .error f => fail s f
    | .ok (r, n, v) =>
      if off + len > r.size then fail s (St.denied, 0x030A)
      else
        match s.moveDst e with
        | .error f => fail s f
        | .ok dst =>
          if bits x 15 8 = fmtKc && s.kcMismatch v (bits x 27 24) then
            fail (s.bump F.codecCnt3IdentMismatch) (St.poisoned, 0x0605)
          else
            let id := (refOf (e.w 2)).region
            let s := (s.addRef id n).putEntry { e with ref := some (id, n) }
            let got := s.readVersion id n off len e.acceptAt
            let s := s.countRead got id n off len
            match s.readFault id n got with
            | some f => fail s f |>.tickFree
            | none =>
              match got with
              | .ok (b, _) =>
                if (s.farSpans id r off len).isEmpty then s.moveOut e dst b
                else (s.setNote e.lsn [2, dst]).loadRest e id n r off len b
              | .error f => fail s f

/-- A MOVE goes on. -/
def State.move (s : State) (lsn : Nat) : State :=
  s.onOp lsn opMove (fun e s =>
    match e.note with
    | [2, dst] =>
      match s.fetchOf (.moveRead lsn) with
      | some (.got b) => (s.dropFetch (.moveRead lsn)).moveOut e dst b
      | some (.failed st d) => s.fixResult lsn (Res.fail st d)
      | _ => s
    | [1] =>
      if s.hasFabric lsn then s
      else
        match s.fetchOf (.moveWrite lsn) with
        | some (.failed st d) => s.fixResult lsn (Res.fail st d)
        | _ => s.fixResult lsn Res.ok
    | _ => s.moveBegin e)

/-- MOVE (R181). -/
def execMove (lsn : Nat) (s : State) : Host.Outcome State Fault Refusal := .next (s.move lsn)

end Sys2Proof.Machine
end

