-- ==== Sys2Proof/Machine/RegionOps.lean ====
section
/-! DEFINITION. Region and version commands: ALLOC, FREE, OPEN, SEAL, PUBLISH, RETIRE, QUERY REGION and QUERY VERSIONS,
the holders' part of a PUBLISH, and the orphan hold (R69–R84, R88). -/

namespace Sys2Proof.Machine

/-- Complete a descriptor with a failure. -/
def State.failDesc (s : State) (lsn : Nat) (f : Nat × Nat) : State := s.fixResult lsn (Res.fail f.1 f.2)

/-! ### ALLOC (R69, R70) -/

/-- A region ID is in use: a region of that ID lives here, or the map homes it elsewhere (R69). -/
def State.idUsed (s : State) (id : Nat) : Bool :=
  (s.region id).isSome ||
    (match s.fab.map.regions.look id with | some r => r.home.toNat ≠ s.self | none => false)

/-- The first unused ID outside the common range from a start that is open (R69; log entry 3). -/
def State.freshId (s : State) : Nat → Nat → Nat
  | 0, k => 0x10000 + k % 0xFF0000
  | left + 1, k => if s.idUsed (0x10000 + k % 0xFF0000) then State.freshId s left (k + 1) else 0x10000 + k % 0xFF0000

/-- The first row of R70's table that applies (the codec slot of R169 before the quotas). -/
def State.allocFail (s : State) (e : Entry) : Option (Nat × Nat) :=
  let id := bits (e.w 2) 23 0
  let t := e.tenant
  if bit (e.w 2) 27 && !(s.pairSecure e.pair) then some (St.denied, 0x0E01)
  else if isCommon id && t ≠ 0 then some (St.denied, 0x0304)
  else if id ≠ 0 && s.idUsed id then some (St.denied, 0x0308)
  else if bit (e.w 2) 26 && s.buddy.isNone then some (St.denied, 0x0309)
  else
    match (if bits (e.w 4) 7 0 = fmtKc then s.nameSlot t (bits (e.w 4) 11 8) 2 else none) with
    | some f => some f
    | none =>
      if s.homed ≥ 262144 || s.tenantRegions t ≥ s.fld F.rgnTenCtlMaxRegions t then some (St.quota, 0x0312)
      else if !(s.fits (bits (e.w 2) 25 24) t (isCommon id) (bits (e.w 3) 55 0 / 65536)) then some (St.quota, 0x0311)
      else none

/-- The region an ALLOC makes, with version 1 PUBLISHED and empty (R70, R171). -/
def State.newRegion (s : State) (e : Entry) : Region :=
  let slot := bits (e.w 4) 11 8
  let v : Version :=
    { slotRec := if bits (e.w 4) 7 0 = fmtKc then some (slot, (s.cslot slot).ident) else none }
  { owner := e.tenant, size := bits (e.w 3) 55 0, tier := bits (e.w 2) 25 24, mirrored := bit (e.w 2) 26,
    prot := bit (e.w 2) 27, flat := bit (e.w 2) 28, fmt := bits (e.w 4) 7 0, tslot := slot,
    home := BitVec.ofNat 12 s.self, vers := [(1, v)] }

/-- An ALLOC (R70). -/
def State.alloc (s : State) (lsn : Nat) : State :=
  s.onOp lsn opAlloc (fun e s =>
    match s.allocFail e with
    | some f => s.failDesc lsn f
    | none =>
      let want := bits (e.w 2) 23 0
      let id := if want = 0 then s.freshId (s.rgn.regions.length + s.fab.map.regions.length + 1) s.free else want
      let s := if want = 0 then s.tickFree else s
      let s := { s with rgn := { s.rgn with regions := Tbl.ins id (s.newRegion e) s.rgn.regions } }
      (s.logVersion lsn id 1).fixResult lsn { r0 := id })

/-- ALLOC (R70). -/
def execAlloc (lsn : Nat) (s : State) : Host.Outcome State Fault Refusal := .next (s.alloc lsn)

/-! ### FREE (R72) -/

/-- A region is freed: open versions are discarded, the others turn RETIRING, none is latest; q.latest then reads 0 (log
entry 149). -/
def State.freeRegion (s : State) (id : Nat) : State :=
  match s.region id with
  | none => s
  | some r =>
    let s := s.modRegion id (fun r => { r with freeing := some (r.freeing.getD s.now), latest := 0 })
    foldS (fun s x => if x.2.state = .opened then s.discardVersion id x.1 else s.retireVersion id x.1) s r.vers

/-- A FREE (R72). -/
def State.freeOp (s : State) (lsn : Nat) : State :=
  s.onOp lsn opFree (fun e s =>
    let id := (refOf (e.w 2)).region
    match s.rights (s.callerOf e) id false false with
    | .error f => s.failDesc lsn f
    | .ok _ => ((s.freeRegion id).logVersion lsn id 0).fixResult lsn Res.ok)

/-- FREE (R72). -/
def execFree (lsn : Nat) (s : State) : Host.Outcome State Fault Refusal := .next (s.freeOp lsn)

/-! ### OPEN (R73, R76) -/

/-- The failure of an OPEN on a base (R73, R76). -/
def openFail (r : Region) (v : Version) (pair : Nat) : Option (Nat × Nat) :=
  if v.state = .opened then some (St.denied, 0x0302)
  else if v.state = .retiring then some (St.denied, v.retiredDetail)
  else if r.vers.any (fun x => x.2.state = .opened && x.2.writer = pair) then some (St.denied, 0x0303)
  else if r.vers.length ≥ 64 then some (St.quota, 0x0313)
  else if r.highest ≥ 0xFFFFFFFF then some (St.quota, 0x0314)
  else none

/-- The open version on a base: its page table starts as a copy of the base's (R71, R171, R358). -/
def openedOn (base : Nat) (v : Version) (pair job : Nat) : Version :=
  { state := .opened, writer := pair, base := base, pages := v.pages, slotRec := v.slotRec,
    jobs := if job = 0xFFFF then [] else [job] }

/-- An OPEN (R76). -/
def State.openOp (s : State) (lsn : Nat) : State :=
  s.onOp lsn opOpen (fun e s =>
    let id := (refOf (e.w 2)).region
    match s.named (s.callerOf e) (refOf (e.w 2)) false false with
    | .error f => s.failDesc lsn f
    | .ok (r, b, v) =>
      match openFail r v e.pair with
      | some f => s.failDesc lsn f
      | none =>
        let n := r.highest + 1
        let s := s.modRegion id (fun r => { r with
          highest := n, vers := Tbl.ins n (openedOn b v e.pair e.job) r.vers })
        (s.logVersion lsn id n).fixResult lsn { r0 := n })

/-- OPEN (R76). -/
def execOpenVersion (lsn : Nat) (s : State) : Host.Outcome State Fault Refusal := .next (s.openOp lsn)

/-! ### SEAL (R77) -/

/-- A SEAL takes effect once every earlier descriptor of its ring has completed (R77). One of a version its writer has
sealed already finds it in the wrong state (log entry 150). -/
def State.sealOp (s : State) (lsn : Nat) : State :=
  s.onOp lsn opSeal (fun e s =>
    if s.ldg.entries.any (fun (x : Entry) => x.pair = e.pair && x.live && x.lsn < e.lsn) then s
    else
      let id := (refOf (e.w 2)).region
      match s.named (s.callerOf e) (refOf (e.w 2)) false false with
      | .error f => s.failDesc lsn f
      | .ok (_, n, v) =>
        if (v.state = .opened || v.state = .sealed) && v.writer ≠ e.pair then s.failDesc lsn (St.denied, 0x0306)
        else if v.state = .retiring then s.failDesc lsn (St.denied, v.retiredDetail)
        else if !v.writable then s.failDesc lsn (St.denied, 0x0302)
        else
          ((s.modVersion id n (fun v => { v with state := .sealed })).logVersion lsn id n).fixResult lsn Res.ok)

/-- SEAL (R77). -/
def execSeal (lsn : Nat) (s : State) : Host.Outcome State Fault Refusal := .next (s.sealOp lsn)

/-! ### PUBLISH (R68, R76, R78–R80, R209) -/

/-- Modules that hold parts of a version, lowest ID first (R79): the holders by the map that the region's pages reach, this
module when it holds pages of the version. What another holder holds of it, only that holder knows (R69; log entry 151). -/
def State.holderList (s : State) (id n : Nat) : List Nat :=
  let (hs, u) := s.holders id
  let reach := match s.region id with | some r => hs.take (ceilDiv r.npages u) | none => hs
  let mine := match s.version id n with
    | some v => v.pages.any (fun x => s.heldHere id x.1)
    | none => false
  sortOn (fun m => m) ((reach.filter (fun m => m ≠ s.self || mine)).foldl (fun l m => listAdd m l) [])

/-- An OPEN version that a PUBLISH failed to publish is SEALED (R76). -/
def State.sealFailed (s : State) (id n : Nat) : State :=
  s.modVersion id n (fun v => { v with parted := false, state := if v.state = .opened then .sealed else v.state })

/-- The failure of a PUBLISH before any holder is asked, and again at its compare (R68, R76). -/
def State.publishFail (s : State) (e : Entry) (v : Version) : Option (Nat × Nat) :=
  if v.state = .retiring then some (St.denied, v.retiredDetail)
  else if v.state ≠ .opened && v.state ≠ .sealed then some (St.denied, 0x0302)
  else if v.writer ≠ e.pair then some (St.denied, 0x0306)
  else if s.damaged v then some (St.revoked, 0x0307)
  else none

/-- The compare point: the version is still one that may be published, and the declared base is the latest published
version, or the version turns ORPHAN (R68, R74, R76, R78, R80). A version refused here keeps its state. -/
def State.publishCompare (s : State) (e : Entry) (id n : Nat) : State :=
  match s.region id, s.version id n with
  | some r, some v =>
    match s.publishFail e v with
    | some f => (s.modVersion id n (fun v => { v with parted := false })).failDesc e.lsn f
    | none =>
    if bits (e.w 3) 31 0 = r.latest then
      let s := s.modVersion id n (fun v => { v with state := .published, parted := false })
      let s := s.modRegion id (fun r => { r with latest := n })
      let s := s.emits (((s.holderList id n).filter (· ≠ s.self)).map (fun m => .commitTell m id n))
      (s.logVersion e.lsn id n).fixResult e.lsn { r0 := n }
    else
      let till := s.now + 1000000 * s.fld F.rgnCtlOrphanHold
      let s := s.modVersion id n (fun v => { v with state := .orphan, orphanUntil := till, parted := false })
      (s.logVersion e.lsn id n).fixResult e.lsn { status := St.conflict, r0 := n, r1 := r.latest }
  | _, _ => s.failDesc e.lsn (St.denied, 0x0301)

/-- Every holder has answered: a failed one makes the PUBLISH PARTIAL, else the compare is made (R79); QUERY SUBPARTS lists
the failed holders by module ID. The detail of that PARTIAL is open (log entry 3). -/
def State.publishAnswered (s : State) (e : Entry) (id n : Nat) : State :=
  if e.failedParts.isEmpty then s.publishCompare e id n
  else
    let r : Res := { status := St.partialFail, detail := s.free % 65536, r0 := (s.holderList id n).length,
                     r1 := partialBitmap e.failedParts }
    let s := s.putEntry { e with failedParts := e.failedParts.map (fun k => (s.holderList id n).getD k s.self) }
    ((((s.sealFailed id n).logVersion e.lsn id n).fixResult e.lsn r)).tickFree

/-- A PUBLISH begins: this module's part takes no more writes, and the other holders are asked to seal theirs (R79). -/
def State.publishOp (s : State) (lsn : Nat) : State :=
  s.onOp lsn opPublish (fun e s =>
    if e.note ≠ [] then s
    else
      let id := (refOf (e.w 2)).region
      match s.named (s.callerOf e) (refOf (e.w 2)) false false with
      | .error f => s.failDesc lsn f
      | .ok (_, n, v) =>
        match s.publishFail e v with
        | some f => s.failDesc lsn f
        | none =>
          if v.incomplete then
            let k := max 1 (s.holderList id n).length
            let s := s.putEntry { e with failedParts := s.holderList id n }
            ((s.sealFailed id n).logVersion lsn id n).fixResult lsn
              { status := St.partialFail, detail := 0x0841, r0 := k, r1 := partialBitmap (List.range k) }
          else
            let others := (s.holderList id n).filter (· ≠ s.self)
            if others.isEmpty then s.publishCompare e id n
            else
              let s := s.modVersion id n (fun v => { v with parted := true })
              (s.setNote lsn ([n] ++ others)).emits (others.map (fun m => .sealReq m id n)))

/-- PUBLISH (R78). -/
def execPublish (lsn : Nat) (s : State) : Host.Outcome State Fault Refusal := .next (s.publishOp lsn)

/-- A holder has answered a PUBLISH (R79); its number is its place among the holders by module ID. -/
def State.publishAnswer (s : State) (lsn m : Nat) (ok : Bool) : State :=
  s.onOp lsn opPublish (fun e s =>
    match e.note with
    | n :: left =>
      if left.any (· = m) then
        let id := (refOf (e.w 2)).region
        let k := (s.holderList id n).findIdx (· = m)
        let e := { e with
          note := n :: left.filter (· ≠ m), failedParts := if ok then e.failedParts else e.failedParts ++ [k] }
        let s := s.putEntry e
        if e.note.length = 1 then s.publishAnswered e id n else s
      else s
    | [] => s)

/-- PUBLISH_HOLDER_SEAL (R79): this module, as holder, seals its part of a version; a part it held nothing of takes no write
from then on. A fenced module answers as failed (R363). -/
def execPublishHolderSeal (home : ModId) (region version tag : Nat) (s : State) : Host.Outcome State Fault Refusal :=
  checked s (.publishHolderSeal home region version tag) (
    let owner := (s.partRegion region (Config.partOwner region)).owner
    let s := s.when (!s.ldg.fenced) (fun s => (s.meet region version owner).sealFailed region version)
    s.emit (.sealAns home.toNat tag (!s.ldg.fenced)))

/-! ### RETIRE and the orphan hold (R76, R80, R81) -/

/-- A RETIRE (R76). -/
def State.retireOp (s : State) (lsn : Nat) : State :=
  s.onOp lsn opRetire (fun e s =>
    let id := (refOf (e.w 2)).region
    match s.named (s.callerOf e) (refOf (e.w 2)) false false with
    | .error f => s.failDesc lsn f
    | .ok (r, n, v) =>
      if v.state = .opened then s.failDesc lsn (St.denied, 0x0302)
      else if v.state = .retiring then s.failDesc lsn (St.denied, v.retiredDetail)
      else if n = r.latest then s.failDesc lsn (St.denied, 0x0305)
      else ((s.retireVersion id n).logVersion lsn id n).fixResult lsn Res.ok)

/-- RETIRE (R76). -/
def execRetire (lsn : Nat) (s : State) : Host.Outcome State Fault Refusal := .next (s.retireOp lsn)

/-- ORPHAN_HOLD_EXPIRY (R81): the orphan is gone, or RETIRING while it is read, held or pinned; it can no longer be
named. -/
def execOrphanHoldExpiry (region version : Nat) (s : State) : Host.Outcome State Fault Refusal :=
  .next (
    match s.version region version with
    | some v =>
      if v.state = .orphan then
        (((s.waitTill v.orphanUntil).modVersion region version (fun v => { v with expired := true })).retireVersion region
          version).logSelf region version
      else s
    | none => s)

/-! ### QUERY results (R45, R48, R88, R455) -/

/-- Write a QUERY's result: whole entries that fit; the number of bytes is the result (R48, R88). -/
def State.queryWrite (s : State) (e : Entry) (entries : List (List Byte)) : State :=
  let room := bits (e.w 5) 31 0
  let fit := entries.foldl (fun acc x =>
    if acc.2 && acc.1.length + x.length ≤ room then (acc.1 ++ x, true) else (acc.1, false)) (([] : List Byte), true)
  if fit.1.isEmpty then s.fixResult e.lsn Res.ok
  else
    match s.writeEp e.tenant (e.w 4) 2 fit.1 false (.query e.lsn) with
    | (s, some f) => s.failDesc e.lsn f
    | (s, none) => s.setNote e.lsn [1, fit.1.length]

/-- A QUERY of one kind: it writes its result once, then waits until the bytes are visible (R46). -/
def State.queryOp (s : State) (lsn kind : Nat) (f : Entry → State → State) : State :=
  s.onOp lsn opQuery (fun e s =>
    if bits (e.w 2) 7 0 ≠ kind then s
    else
      match e.note with
      | [1, n] =>
        if s.hasFabric lsn then s
        else
          match s.fetchOf (.query lsn) with
          | some (.failed st d) => s.failDesc lsn (st, d)
          | _ => s.fixResult lsn { r0 := n }
      | _ => f e s)

/-- The 64-byte record of QUERY REGION (R88). -/
def State.regionRecord (s : State) (id : Nat) (r : Region) : List Byte :=
  leBytes 3 id ++ leBytes 1 r.owner ++ leBytes 2 (r.home.toNat) ++
  leBytes 1 (r.tier + 4 * b2n r.mirrored + 8 * b2n r.prot + 16 * b2n r.flat + 32 * b2n r.freeing.isSome +
    64 * b2n (isCommon id)) ++
  leBytes 1 r.vers.length ++ leBytes 8 r.size ++ leBytes 4 r.latest ++ leBytes 4 r.highest ++
  leBytes 2 (r.fmt + 256 * r.tslot) ++ leBytes 6 0 ++ leBytes 8 (65536 * (r.npages + (s.regionPages id).length)) ++
  leBytes 24 0

/-- QUERY_REGION (R88). -/
def State.queryRegion (s : State) (lsn : Nat) : State :=
  s.queryOp lsn 1 (fun e s =>
    let id := (refOf (e.w 3)).region
    match s.rights (s.callerOf e) id true false with
    | .error f => s.failDesc lsn f
    | .ok r => s.queryWrite e [s.regionRecord id r])

/-- QUERY_REGION (R88). -/
def execQueryRegion (lsn : Nat) (s : State) : Host.Outcome State Fault Refusal := .next (s.queryRegion lsn)

/-- v.state (R88). -/
def VState.code : VState → Nat
  | .opened => 1
  | .sealed => 2
  | .published => 3
  | .orphan => 4
  | .retiring => 5

/-- The 16-byte entry of QUERY VERSIONS (R88). -/
def State.versionRecord (s : State) (n : Nat) (v : Version) : List Byte :=
  leBytes 4 n ++ leBytes 1 (v.state.code + 128 * b2n (s.damaged v)) ++
  leBytes 1 (if v.state = .opened then v.writer % 8 else 0) ++ leBytes 2 (min v.refs 0xFFFF) ++ leBytes 4 v.base ++
  leBytes 2 (min v.holds.length 0xFFFF) ++
  leBytes 2 (if v.state = .orphan then min (max 1 (ceilDiv (v.orphanUntil - s.now) 1000000)) 0xFFFF else 0)

/-- QUERY_VERSIONS (R88). -/
def State.queryVersions (s : State) (lsn : Nat) : State :=
  s.queryOp lsn 2 (fun e s =>
    match s.rights (s.callerOf e) (refOf (e.w 3)).region true false with
    | .error f => s.failDesc lsn f
    | .ok r => s.queryWrite e (r.vers.map (fun x => s.versionRecord x.1 x.2)))

/-- QUERY_VERSIONS (R88). -/
def execQueryVersions (lsn : Nat) (s : State) : Host.Outcome State Fault Refusal := .next (s.queryVersions lsn)

/-- QUERY SUBPARTS (R49): the full list of the failed sub-parts of a completed descriptor of the tenant whose entry is
retained; the list's form, and the words that name the descriptor, are open. -/
def State.querySubparts (s : State) (lsn : Nat) : State :=
  s.queryOp lsn 4 (fun e s =>
    let kept := s.ldg.entries.filter (fun (x : Entry) => x.kind = .desc && x.tenant = e.tenant && x.cpl.isSome)
    let l := Config.subpartList e.words (kept.map (fun (x : Entry) => (x.index.toNat, x.failedParts)))
    s.queryWrite e [l.take (bits (e.w 5) 31 0)])

/-- A result whose layout the spec does not give: open bytes, as many as are open, within the buffer (log entry 3). -/
def State.queryOpen (s : State) (lsn kind : Nat) : State :=
  s.queryOp lsn kind (fun e s =>
    let n := s.free % (bits (e.w 5) 31 0 + 1)
    (s.tickFree).queryWrite e [(List.range n).map (fun i => Config.freeByte s.freeIdx i)])

/-- QUERY_SUBPARTS (R49). -/
def execQuerySubparts (lsn : Nat) (s : State) : Host.Outcome State Fault Refusal := .next (s.querySubparts lsn)

/-- QUERY_USAGE (R45): the result's layout is open. -/
def execQueryUsage (lsn : Nat) (s : State) : Host.Outcome State Fault Refusal := .next (s.queryOpen lsn 5)

end Sys2Proof.Machine
end

