-- ==== Sys2Proof/Machine/Serve.lean ====
section
/-! DEFINITION. Serving a load (R276, R287, R301), stalls of reads and what they cause: late layers, raised streams, LATE
records, proposals and the lead of a window (R113–R120). -/

namespace Sys2Proof.Machine

/-! ### Load answers (R287, R301) -/

/-- The status of a window of a CXL-up port's window page keeps the first failure since the previous read (R301). -/
def State.bar2Note (s : State) (port w st d : Nat) : State :=
  { s with fab := { s.fab with bar2 := Tbl.upd {} (256 * port + w) (fun x =>
    { x with failed := x.failed.or (some (st, d)) }) s.fab.bar2 } }

/-- Byte 63:56 of an address in the presented space: the window (R283). -/
def addrWin (a : Nat) : Nat := bits a 63 56
def addrOff (a : Nat) : Nat := bits a 55 0

/-- Bytes in which those of poisoned lines are open (R287; log entry 3). -/
def State.maskPoison (s : State) (off : Nat) (b : List Byte) (ps : List Nat) : List Byte :=
  b.zipIdx.map (fun x => if ps.any (· = (off + x.2) / 64) then Config.freeByte s.freeIdx x.2 else x.1)

/-- The poison bitmap of a payload: bit i is set when its i-th 64-byte line is poisoned (R287). -/
def poisonBitmap (off : Nat) (ps : List Nat) : Nat :=
  (ps.foldl (fun l p => listAdd (p - off / 64) l) []).foldl (fun acc i => acc + 2 ^ i) 0

/-- Answer a load, with data, with poisoned data, or with a failure (R287). A CXL-up port returns data, marked poisoned
when the load failed, and notes the failure in its window page (R301). `why` is the detail of poisoned data. -/
def State.loadReply (s : State) (port : Nat) (h : Hdr) (off why : Nat)
    (got : Except (Nat × Nat) (List Byte × List Nat)) : State :=
  let lines := rangeFrom (off / 64) ((off + h.len - 1) / 64 + 1 - off / 64)
  let r : Nat × Nat × List Byte × List Nat :=
    match got with
    | .ok (b, []) => (St.ok, 0, b, [])
    | .ok (b, ps) => (St.poisoned, why, s.maskPoison off b ps, ps)
    | .error (st, d) =>
      if st = St.poisoned then (st, d, s.maskPoison off (List.replicate h.len 0) lines, lines) else (st, d, [], [])
  let (st, d, b, ps) := r
  let s := s.tickFree
  if (s.port port).role = roleUp then
    let s := s.when (st ≠ St.ok) (fun s => s.bar2Note port (addrWin h.addr.toNat) st d)
    let b := if b.isEmpty then (List.range h.len).map (fun i => Config.freeByte s.freeIdx i) else b
    s.tickFree.emit (.cxlData port b (st ≠ St.ok))
  else
    let poison := st = St.poisoned
    let data := if poison then b ++ leBytes 8 (poisonBitmap off ps) else b
    s.answer port tyLoadRsp h st d poison (if b.isEmpty then 0 else h.len) data

/-- Serve a load of a region version that was accepted at a time. -/
def State.serveLoad (s : State) (port : Nat) (h : Hdr) (id n at_ : Nat) : State :=
  let off := addrOff h.addr.toNat
  let got := s.readVersion id n off h.len at_
  let why := match got with | .ok (_, ps) => s.poisonWhy id n ps | .error _ => 0
  (s.countRead got id n off h.len).loadReply port h off why got

/-! ### Proposals (R120) -/

/-- Post a proposal: an ADVISE event to pair 0 of a tenant, kept among its newest 64 (R120). -/
def State.postAdvice (s : State) (t r0 r1 : Nat) : State :=
  let no := (s.ten t).adviceNo
  let s := s.modTen t (fun x =>
    let l := x.advice ++ [(BitVec.ofNat 64 r0, BitVec.ofNat 64 r1, s.now)]
    { x with adviceNo := no + 1, advice := l.drop (l.length - 64) })
  s.postEvent (8 * t) { evtRecord 0x02 St.ok r0 r1 with tag := BitVec.ofNat 32 no, index := 0xFFFFFFFF#32 }

/-! ### Late layers (R115–R117) -/

def State.win (s : State) (w : Nat) : WinSt := Tbl.rd ({} : WinSt) s.tier.wins w

def State.modWin (s : State) (w : Nat) (f : WinSt → WinSt) : State :=
  { s with tier := { s.tier with wins := Tbl.upd {} w f s.tier.wins } }

/-- The job slot a window follows, while its job is live. -/
def State.winSlot (s : State) (w : Nat) : Option Nat := s.jobSlot (s.fld F.tierWinCtlJob w)

/-- The lead changes under the tenant's LEAD mode (R117): by itself under ON, as a proposal of kind 3 under ADVISE;
under OFF it stays as it is (log entry 162). -/
def State.leadTo (s : State) (w n : Nat) : State :=
  let t := s.fld F.tierWinCtlTenant w
  match s.fld F.tierTenCtlLead t with
  | 2 => s.modWin w (fun x => { x with cur := n })
  | 1 => s.postAdvice t (w + 256 * n + 3 * 2 ^ 60) 0
  | _ => s

/-- Raise the stream that stages a layer (R115). -/
def State.raise (s : State) (src tenant slot : Nat) (gates : List (Nat × Nat)) : State :=
  let r : Raise := { src := src, cls := s.fld F.tierTenCtlLateClass tenant, slot := slot, gates := gates }
  { s with tier := { s.tier with raises := s.tier.raises.filter (fun x => x.src ≠ src) ++ [r] } }

/-- The first stall or NOT_READY in a window layer: the layer is late (R115, R117). -/
def State.lateWin (s : State) (w : Nat) (key : Nat × Nat) (gates : List (Nat × Nat)) : State :=
  if (s.win w).late.any (· = key) then s
  else
    let t := s.fld F.tierWinCtlTenant w
    let s := s.modWin w (fun x => { x with late := x.late ++ [key], run := 0 })
    let s := match s.winSlot w with | some j => s.raise (srcWin w) t j gates | none => s
    let s := (s.bump F.tierWinStsLateLayers w).bump F.tierTenStsLate t
    let n := (s.win w).cur
    s.when (n < s.fld F.tierWinLeadMax w) (fun s => s.leadTo w (n + 1))

/-- The same for a layer of a paced PROMOTE (R115); one of another module too (log entry 163). -/
def State.lateMove (s : State) (k layer : Nat) (gates : List (Nat × Nat)) : State :=
  match s.move? k with
  | none => s
  | some m =>
    if m.late.any (· = layer) then s
    else
      let s := s.modMove k (fun m => { m with late := m.late ++ [layer] })
      let t := match m.mover with
        | .promote _ => m.asker
        | .remote _ _ => m.asker
        | _ => m.tenant
      let s := match m.paced with
        | some (_, _, job, _) => (match s.jobSlot job with | some j => s.raise (srcMove k) t j gates | none => s)
        | none => s
      s.bump F.tierTenStsLate t

/-! ### Stalls (R113, R114) -/

/-- The step and layer of a window that a page number belongs to, counted on from the job's position (R108, R110). -/
def State.winLayer (s : State) (w j pg : Nat) : Option (Nat × Nat) :=
  let off := s.fld F.tierWinBaseOffset w
  let str := s.fld F.tierWinStrideBytes w
  let c := s.jobC j
  let l := (pg * 65536 - off) / str
  if str = 0 || pg * 65536 < off || l ≥ c then none
  else
    let cur := (s.job j).layer
    if (l + c - cur) % c ≤ (s.win w).cur then
      some (if l < cur then (((s.job j).step + 1) % 2 ^ 32, l) else ((s.job j).step, l))
    else none

/-- The version a window uses for a step: the one it took, or the latest (R111). -/
def State.winVersion (s : State) (w step : Nat) : Option Nat :=
  match (s.win w).vers.find? (fun x => x.1 = step) with
  | some x => some x.2
  | none =>
    match s.region (s.fld F.tierWinCtlRegion w) with
    | some r => if r.freeing.isSome then none else some r.latest
    | none => none

/-- A page number lies below the near tier here and has not been staged. -/
def State.below (s : State) (id n pg : Nat) : Option Nat :=
  match s.version id n with
  | some v =>
    match v.pageAt pg with
    | some (.page p) => (match s.page p with | some g => if g.tier ≠ 0 && !g.revoked then some p else none | none => none)
    | _ => none
  | none => none

/-- The window and its layer that a read of a page number waits for, by whatever version it reads the page (R113). -/
def State.winStall (s : State) (id n pg : Nat) : Option (Nat × (Nat × Nat)) :=
  if (s.below id n pg).isNone then none
  else
    (List.range 16).findSome? (fun w =>
      if (s.win w).on && s.fld F.tierWinCtlRegion w = id then
        match s.winSlot w with
        | some j =>
          match s.winLayer w j pg with
          | some key =>
            if (match s.winVersion w key.1 with | some m => decide (s.below id m pg = s.below id n pg) | none => false) && !((s.win w).copies.any (fun c => c.1 = key.1 && c.2.1 = key.2 && c.2.2.1 = pg &&
                !(match (s.win w).staging with | some x => (x.1, x.2.1) = key && x.2.2.any (· = pg) | none => false)))
            then some (w, key) else none
          | none => none
        | none => none
      else none)

/-- The running paced PROMOTE and the layer block that a read of a page number waits for, by whatever version it reads the page
(R107, R113). -/
def State.moveStall (s : State) (id n pg : Nat) : Option (Nat × Nat) :=
  match s.below id n pg with
  | none => none
  | some p =>
    s.tier.moves.findSome? (fun e =>
      match e.2.paced with
      | some (first, per, _, _) =>
        if e.2.region = id && e.2.todo.any (· = p) then some (e.1, (pg - first) / max 1 per) else none
      | none => none)

/-- A read stalls (R113): the stall is noted, and counted on a window. -/
def State.addStall (s : State) (t : Stall) : State :=
  let k := s.tier.nextStall
  let s := { s with tier := { s.tier with stalls := Tbl.ins k t s.tier.stalls, nextStall := k + 1 } }
  match t.win with
  | some w => s.bump F.tierWinStallsCount w
  | none => s

/-- Shelves that a stalled read of a region may touch: a fabric load counts itself, an INVOKE is counted already (R66). -/
def Staller.drains (who : Staller) (s : State) (id : Nat) : List Nat :=
  match who with
  | .load _ _ => s.shelvesOf id
  | .ctx _ => []

/-- The pair, tag and index of the PROMOTE a move works for (R116); of another module's sub-part they are not known here. -/
def State.moveOwner (s : State) (k : Nat) : Option (Nat × W32 × W32) :=
  match s.move? k with
  | some m =>
    (match m.mover with
     | .promote lsn => (s.entry lsn).map (fun e => (e.pair, BitVec.ofNat 32 e.tag, e.index))
     | _ => none)
  | none => none

/-- A read of a page arrives while the page is late: it stalls, or returns NOT_READY under NR_MODE (R114, R115). Its gate
window is formed by the open instances of every entry that carries the page (R142); a page of a window and of a paced
PROMOTE is late in the window's layer (log entry 155). -/
def State.stallOn (s : State) (who : Staller) (tenant id n pg : Nat) (nr : Bool) : Option State :=
  match s.winStall id n pg with
  | some (w, key) =>
    let gates := openInsts (s.winGates w ++ (match s.moveStall id n pg with | some x => s.moveGates x.1 | none => []))
    let s := s.lateWin w key gates
    if nr then some s
    else
      let first := !((s.win w).stalledIn.any (· = key))
      let s := s.modWin w (fun x => { x with stalledIn := listAdd key x.stalledIn })
      let pos := match s.winSlot w with | some j => s.jobPos j | none => 0
      some (s.addStall { who := who, tenant := tenant, region := id, version := n, page := pg, since := s.now,
                         position := BitVec.ofNat 64 pos, win := some w, gates := gates, first := first,
                         drains := who.drains s id })
  | none =>
    match s.moveStall id n pg with
    | none => none
    | some (k, layer) =>
      let slot := match s.move? k with
        | some m => (match m.paced with | some (_, _, job, _) => s.jobSlot job | none => none)
        | none => none
      let gates := openInsts (s.moveGates k)
      let s := s.lateMove k layer gates
      if nr then some s
      else
        let first := match s.move? k with | some m => !(m.stalledIn.any (· = layer)) | none => false
        let s := s.modMove k (fun m => { m with stalledIn := listAdd layer m.stalledIn })
        let pos := match slot with | some j => s.jobPos j | none => 0
        some (s.addStall { who := who, tenant := tenant, region := id, version := n, page := pg, since := s.now,
                           position := BitVec.ofNat 64 pos, move := some k, gates := gates, first := first,
                           drains := who.drains s id, owed := s.moveOwner k })

/-- What a read that reached some pages met. -/
inductive ReadWait where
  | go | stalled | notReady
  deriving DecidableEq, Repr

/-- A read of several page numbers: the first late one decides. -/
def State.tryStall (s : State) (who : Staller) (tenant id n : Nat) : List Nat → State × ReadWait
  | [] => (s, .go)
  | pg :: rest =>
    let nr := s.flag F.tqTenCtlNrMode tenant
    match s.stallOn who tenant id n pg nr with
    | some t => if nr then (t.bump F.tierTenStsNotReady tenant, .notReady) else (t, .stalled)
    | none => State.tryStall s who tenant id n rest

/-- The LATE record of a layer's first stall (R115, R116). -/
def State.lateRecord (s : State) (t : Stall) : State :=
  let ns := s.now - t.since
  let post := fun (s : State) (pair : Nat) (tag index : W32) =>
    s.postEvent pair { evtRecord 0x01 St.late t.position.toNat ns with tag := tag, index := index }
  let ofEntry := fun (s : State) (lsn : Nat) =>
    match s.entry lsn with
    | some e => post s e.pair (BitVec.ofNat 32 e.tag) e.index
    | none => s
  match t.who, t.win, t.move with
  | .ctx cx, _, _ => (match s.slc.ctxs.look cx with | some c => ofEntry s c.lsn | none => s)
  | .load _ _, some w, _ =>
    post s (8 * s.fld F.tierWinCtlTenant w + s.fld F.tierWinCtlPair w) (BitVec.ofNat 32 w) 0xFFFFFFFF#32
  | .load _ _, none, some _ => (match t.owed with | some x => post s x.1 x.2.1 x.2.2 | none => s)
  | .load _ _, none, none => s

/-- The bound of a stall on a window is taken (R113). -/
def State.boundTaken (s : State) (w : Nat) (t : Stall) : State :=
  let cx := match t.who with | .ctx cx => some cx | .load _ _ => none
  { s.bump F.tierWinStsBoundHits w with tier := { (s.bump F.tierWinStsBoundHits w).tier with
    bounds := s.tier.bounds.filter (fun b => b.2.2.1 = s.now) ++ [(w, t.page, s.now, cx)] } }

/-- A page lands in the tick in which bounds of stalls on it were taken: those stalls count as in time (R113). -/
def State.inTime (s : State) (w pg : Nat) : State :=
  let l := s.tier.bounds.filter (fun b => b.1 = w && b.2.1 = pg && b.2.2.1 = s.now)
  if l.isEmpty then s
  else
    let s := s.setFld F.tierWinStsBoundHits (s.fld F.tierWinStsBoundHits w - l.length) w
    { s with
      tier := { s.tier with bounds := s.tier.bounds.filter (fun b => !(b.1 = w && b.2.1 = pg)) },
      slc := { s.slc with ctxs := s.slc.ctxs.mapV (fun k c =>
        if l.any (fun b => b.2.2.2 = some k) then { c with pass := false } else c) } }

/-- A stall ends: its layer's LATE record is written if it was the first, and the read is served (R113, R115). `pass`
serves it from the tier where the page lies. -/
def State.endStall (s : State) (k : Nat) (pass : Bool) : State :=
  match s.tier.stalls.look k with
  | none => s
  | some t =>
    let s := { s with tier := { s.tier with stalls := Tbl.del k s.tier.stalls } }
    let s := match t.win with
      | some w =>
        let m := max (s.fld F.tierWinStallsMaxNs w) (min (s.now - t.since) (2 ^ 32 - 1))
        (s.setFld F.tierWinStallsMaxNs m w).when pass (fun s => s.boundTaken w t)
      | none => s
    let s := s.when t.first (fun s => s.lateRecord t)
    match t.who with
    | .ctx cx => { s with slc := { s.slc with ctxs := Tbl.alter cx (fun c =>
        if c.status = .stalled then { c with status := .ready, pass := pass } else c) s.slc.ctxs } }
    | .load port h => s.serveLoad port h t.region t.version t.since

/-- End the stalls that satisfy a test. -/
def State.endStalls (s : State) (p : Stall → Bool) (pass : Bool) : State :=
  foldS (fun s x => s.endStall x.1 pass) s (s.tier.stalls.filter (fun x => p x.2))

end Sys2Proof.Machine
end

