-- ==== Sys2Proof/Machine/Tiers.lean ====
section
/-! DEFINITION. Holds, PROMOTE and DEMOTE, the switch of a moved page, and the bound of a stall (R91–R107, R113). -/

namespace Sys2Proof.Machine

/-! ### Holds (R101) -/

/-- Drop a tenant's hold; when it was the last one a pending demotion runs (R104). -/
def State.dropHold (s : State) (id n t : Nat) : State :=
  ((s.modVersion id n (fun v => { v with holds := v.holds.filter (· ≠ t) })).reap id n).runPending id n

/-- The version a HOLD, PROMOTE or DEMOTE names, in one of the states it may be in (R64, R96, R101): other tenants reach
only sealed and published versions of common regions. A RELEASE, which `retiring` marks, reaches every version that a hold
can stay on. -/
def State.heldRef (s : State) (e : Entry) (opened late retiring : Bool) :
    Except (Nat × Nat) (Region × Nat × Version) :=
  match s.named (s.callerOf e) (refOf (e.w 2)) true late with
  | .error f => .error f
  | .ok (r, n, v) =>
    if v.state = .retiring && !retiring then .error (St.denied, v.retiredDetail)
    else if v.state = .opened && !opened then .error (St.denied, 0x0302)
    else if r.owner ≠ e.tenant && (v.state = .opened || (v.state = .orphan && !retiring)) then .error (St.denied, 0x0304)
    else .ok (r, n, v)

/-- HOLD (R101). -/
def State.holdOp (s : State) (lsn : Nat) : State :=
  s.onOp lsn opHold (fun e s =>
    match s.heldRef e false false false with
    | .error f => s.failDesc lsn f
    | .ok (_, n, _) =>
      (s.modVersion (refOf (e.w 2)).region n (fun v => { v with holds := listAdd e.tenant v.holds })).fixResult lsn Res.ok)

/-- HOLD (R101). -/
def execHold (lsn : Nat) (s : State) : Host.Outcome State Fault Refusal := .next (s.holdOp lsn)

/-- RELEASE (R72, R101). -/
def State.releaseOp (s : State) (lsn : Nat) : State :=
  s.onOp lsn opRelease (fun e s =>
    match s.heldRef e false true true with
    | .error f => s.failDesc lsn f
    | .ok (_, n, v) =>
      if v.holds.any (· = e.tenant) then (s.dropHold (refOf (e.w 2)).region n e.tenant).fixResult lsn Res.ok
      else s.failDesc lsn (St.denied, 0x0401))

/-- RELEASE (R101). -/
def execRelease (lsn : Nat) (s : State) : Host.Outcome State Fault Refusal := .next (s.releaseOp lsn)

/-! ### PROMOTE (R96, R101, R102, R104–R107) -/

/-- Layers C of the job of a descriptor, live or not (R106). -/
def State.jobLayers (s : State) (job : Nat) : Nat :=
  match s.jobSlot job with
  | some j => s.jobC j
  | none => (match (List.range 64).find? (fun j => s.fld F.timeJobCtlJob j = job) with | some j => s.jobC j | none => 1)

/-- The failure of a paced PROMOTE before its version is resolved (R106). -/
def State.pacedFail (s : State) (e : Entry) : Option (Nat × Nat) :=
  let len := bits (e.w 4) 55 0
  if !(bit (e.w 5) 2) then none
  else if len = 0 then some (St.malformed, 0x0003)
  else if !e.jobLive then some (St.denied, 0x0402)
  else if len % (s.jobLayers e.job * 65536) ≠ 0 || bits (e.w 5) 27 16 ≥ s.jobLayers e.job then
    some (St.malformed, 0x0003)
  else none

/-- The range of a move as page numbers, lo to hi − 1; none when it runs past the region's end (R96). -/
def moveRange (e : Entry) (r : Region) : Option (Nat × Nat) :=
  let off := bits (e.w 3) 55 0
  let len := bits (e.w 4) 55 0
  if off + len > r.size then none else some (off / 65536, if len = 0 then r.npages else (off + len) / 65536)

/-- A switch to a lower tier in this very tick gives way to a promotion: the page keeps the place it had, if a page still fits
there, and its slack no longer counts in the record of a DEMOTE that has ended with it (R105; log entry 164). -/
def State.takeBack (s : State) (p : Nat) (g : Page) : State :=
  match g.was with
  | some (t, tier, shelf, lp, key) =>
    if t = s.now && g.tier > tier && s.pagesOn tier shelf < shelfPages then
      let slack := match g.lp with | some f => f.slack | none => 0
      let s := match g.wasBy with
        | some lsn => s.modEntry lsn (fun (e : Entry) =>
            if e.state = LState.committed then
              { e with cpl := e.cpl.map (fun (c : Cpl) => if c.status = St.ok then { c with r0 := BitVec.ofNat 64 (c.r0.toNat - slack) } else c) }
            else e)
        | none => s
      let s := s.modPage p (fun g => { g with tier := tier, shelf := shelf, lp := lp, key := key, was := none, wasBy := none })
      { s with tier := { s.tier with moves := s.tier.moves.mapV (fun _ m =>
        if m.up then m else { m with moved := m.moved.filter (· ≠ p) }) } }
    else s
  | none => s

/-- A promotion of page numbers reaches them: a pending demotion of any part is cancelled (R104), and a copy on its way
down is stopped before its switch, or at it when both come in one tick (R105). -/
def State.takeUp (s : State) (id n lo hi : Nat) : State :=
  match s.version id n with
  | none => s
  | some v =>
    let s := match v.pend with
      | some d => if d.lo < hi && lo < d.hi then s.modVersion id n (fun v => { v with pend := none }) else s
      | none => s
    foldS (fun s p =>
      match s.page p with
      | some g =>
        (match g.mv with
         | some m =>
           if m.tier > g.tier then
             ((s.modPage p (fun g => { g with mv := none })).dropTray p).modMove m.job (fun x =>
               { x with todo := x.todo.filter (· ≠ p) })
           else s
         | none => s.takeBack p g)
      | none => s) s (v.idsAt (rangeFrom lo (hi - lo)))

/-- Page numbers in the order a PROMOTE takes them: by offset, or from the block of layer F on (R106). -/
def promoteOrder (lo hi per first : Nat) : List Nat :=
  if per = 0 then rangeFrom lo (hi - lo)
  else rangeFrom (lo + per * first) (hi - lo - per * first) ++ rangeFrom lo (per * first)

/-- Pages of a list that lie below a tier here. -/
def State.belowTier (s : State) (id tier : Nat) (v : Version) (ns : List Nat) : List Nat :=
  (v.idsAt (ns.filter (fun n => s.heldHere id n))).filter (fun p =>
    match s.page p with | some g => g.tier > tier | none => false)

/-- Requests to the other holders of a range (R97). -/
def State.askHolders (s : State) (others : List Nat) (tag : Nat) (r : MoveReq) : State :=
  s.emits (others.map (fun m => .moveReq m tag r))

/-- A PROMOTE begins (R96, R97, R101, R102). -/
def State.promoteBegin (s : State) (e : Entry) (r : Region) (n : Nat) (v : Version) (lo hi : Nat) : State :=
  let id := (refOf (e.w 2)).region
  let target := bits (e.w 5) 1 0
  let paced := bit (e.w 5) 2
  let per := if paced then (hi - lo) / s.jobLayers e.job else 0
  let first := bits (e.w 5) 27 16
  let s := s.takeUp id n lo hi
  let s := s.modVersion id n (fun v => { v with
    holds := if v.state = .opened then v.holds else listAdd e.tenant v.holds,
    pins := v.pins ++ [{ pair := e.pair, lsn := e.lsn, lo := lo, hi := hi }] })
  let parts := s.rangeHolders id lo hi
  let others := parts.filter (· ≠ s.self)
  let s := s.setNote e.lsn parts
  let s := s.askHolders others e.lsn
    { promote := true, tenant := e.tenant, region := id, version := n, off := 65536 * lo, len := 65536 * (hi - lo),
      tier := target, paced := paced, job := e.job, first := first, layers := s.jobLayers e.job }
  s.addMove
    { mover := .promote e.lsn, up := true, asker := e.tenant, tenant := r.owner, region := id, version := n, target := target,
      todo := s.belowTier id target v (promoteOrder lo hi per first), remote := others,
      paced := if paced then some (lo, per, e.job, first) else none }

/-- A PROMOTE; one already begun goes on as its pages are switched. -/
def State.promoteOp (s : State) (lsn : Nat) : State :=
  s.onOp lsn opPromote (fun e s =>
    if s.tier.moves.any (fun m => m.2.mover = .promote lsn) then s.pumpMoves
    else
      match s.pacedFail e with
      | some f => s.failDesc lsn f
      | none =>
        match s.heldRef e true false false with
        | .error f => s.failDesc lsn f
        | .ok (r, n, v) =>
          match moveRange e r with
          | none => s.failDesc lsn (St.denied, 0x030A)
          | some (lo, hi) => s.promoteBegin e r n v lo hi)

/-- PROMOTE (R96). -/
def execPromote (lsn : Nat) (s : State) : Host.Outcome State Fault Refusal := .next (s.promoteOp lsn)

/-! ### DEMOTE (R96, R98, R99, R103, R104) -/

/-- The failure of a DEMOTE on the version it names: LP coding of a PROTECTED region, and its codec slot (R99, R169). -/
def State.demoteFail (s : State) (e : Entry) (r : Region) : Option (Nat × Nat) :=
  if !(bit (e.w 5) 2) then none
  else if r.prot then some (St.denied, 0x0403)
  else s.nameSlot e.tenant (bits (e.w 5) 19 16) 1

/-- A DEMOTE moves the eligible pages of its range (R97, R104). -/
def State.demoteMove (s : State) (e : Entry) (r : Region) (n : Nat) (v : Version) (lo hi : Nat) : State :=
  let id := (refOf (e.w 2)).region
  let slot := bits (e.w 5) 19 16
  let recode := bit (e.w 5) 2
  let parts := s.rangeHolders id lo hi
  let others := parts.filter (· ≠ s.self)
  let s := s.setNote e.lsn parts
  let s := s.askHolders others e.lsn
    { promote := false, tenant := e.tenant, region := id, version := n, off := 65536 * lo, len := 65536 * (hi - lo),
      tier := bits (e.w 5) 1 0, recode := recode, tslot := slot }
  s.addMove
    { mover := .demote e.lsn, asker := e.tenant, tenant := r.owner, region := id, version := n, target := bits (e.w 5) 1 0,
      todo := v.idsAt ((rangeFrom lo (hi - lo)).filter (fun k => s.heldHere id k)), remote := others,
      recode := if recode then some (slot, (s.cslot slot).ident) else none }

/-- A DEMOTE drops the caller's hold, and acts by the caller (R104). When that was the last hold, an earlier pending demotion
runs too; while holds remain, a version keeps one pending demotion, the latest (log entry 153). -/
def State.demoteAct (s : State) (e : Entry) (r : Region) (n lo hi : Nat) : State :=
  let id := (refOf (e.w 2)).region
  if e.tenant ≠ r.owner then (s.dropHold id n e.tenant).fixResult e.lsn Res.ok
  else
    let s := s.dropHold id n e.tenant
    match s.version id n with
    | none => s.fixResult e.lsn Res.ok
    | some v =>
      if v.holds.isEmpty then s.demoteMove e r n v lo hi
      else
        let slot := bits (e.w 5) 19 16
        let d : PendDemote := { tier := bits (e.w 5) 1 0, lo := lo, hi := hi,
                                recode := if bit (e.w 5) 2 then some (slot, (s.cslot slot).ident) else none }
        (s.modVersion id n (fun v => { v with pend := some d })).fixResult e.lsn Res.ok

/-- A DEMOTE; one already begun goes on as its pages are switched. -/
def State.demoteOp (s : State) (lsn : Nat) : State :=
  s.onOp lsn opDemote (fun e s =>
    if s.tier.moves.any (fun m => m.2.mover = .demote lsn) then s.pumpMoves
    else
      match s.heldRef e false false false with
      | .error f => s.failDesc lsn f
      | .ok (r, n, _) =>
        match moveRange e r with
        | none => s.failDesc lsn (St.denied, 0x030A)
        | some (lo, hi) =>
          match s.demoteFail e r with
          | some f => s.failDesc lsn f
          | none => s.demoteAct e r n lo hi)

/-- DEMOTE (R104). -/
def execDemote (lsn : Nat) (s : State) : Host.Outcome State Fault Refusal := .next (s.demoteOp lsn)

/-! ### Sub-parts for and from other modules (R79, R97) -/

/-- A move sub-part asked for by another module (R97): this module moves its own pages of the range. A fenced module
answers as failed (R363); a module that holds nothing of the region has nothing to move; a sub-part that already runs goes
on. A paced one takes its pages in layer order (R106). A recoding one uses the slot named as it finds it (log entry 197). -/
def State.moveSubpart (s : State) (home tag : Nat) (q : MoveReq) : State :=
  if s.ldg.fenced then s.emit (.moveAns home tag false false 0)
  else if s.tier.moves.any (fun x => x.2.mover = .remote home tag) then s
  else
    let s := s.meet q.region q.version q.tenant
    match s.region q.region, s.version q.region q.version with
    | some r, some v =>
      let lo := q.off / 65536
      let hi := (q.off + q.len) / 65536
      let pin : Pin := { pair := 2048, lsn := remotePin home tag, lo := lo, hi := hi }
      let s := if q.promote then
          (s.takeUp q.region q.version lo hi).modVersion q.region q.version (fun v => { v with pins := v.pins ++ [pin] })
        else s
      let per := if q.paced then (hi - lo) / q.layers else 0
      let here := (rangeFrom lo (hi - lo)).filter (fun k => s.heldHere q.region k)
      s.addMove
        { mover := .remote home tag, up := q.promote, asker := q.tenant, tenant := r.owner, region := q.region,
          version := q.version, target := q.tier,
          todo := if q.promote then s.belowTier q.region q.tier v (promoteOrder lo hi per q.first) else v.idsAt here,
          paced := if q.promote && q.paced then some (lo, per, q.job, q.first) else none,
          recode := if q.recode then some (q.tslot, (s.cslot q.tslot).ident) else none }
    | _, _ => s.emit (.moveAns home tag true false 0)

/-- MOVE_SUBPART_REQUEST (R97). -/
def execMoveSubpartRequest (home : ModId) (tag : Nat) (q : MoveReq) (s : State) : Host.Outcome State Fault Refusal :=
  checked s (.moveSubpartRequest home tag q) (s.moveSubpart home.toNat tag q)

/-- The answer of a holder to a move sub-part (R97, R98). -/
def State.moveAnswer (s : State) (lsn m : Nat) (ok full : Bool) (slack : Nat) : State :=
  match s.tier.moves.find? (fun x => (x.2.mover = .promote lsn || x.2.mover = .demote lsn) && x.2.remote.any (· = m)) with
  | some (k, _) =>
    (s.modMove k (fun x => { x with
      remote := x.remote.filter (· ≠ m), remoteFailed := if ok then x.remoteFailed else x.remoteFailed ++ [m],
      remoteFull := x.remoteFull || full, slack := x.slack + slack })).finishMove k
  | none => s

/-- HOLDER_ANSWER (R79, R97): it belongs to the PUBLISH, or to the PROMOTE or DEMOTE, whose number the tag gives. -/
def execHolderAnswer (home : ModId) (tag : Nat) (res : HolderEnd) (slack : Nat) (s : State) :
    Host.Outcome State Fault Refusal :=
  .next ((s.publishAnswer tag home.toNat (res = .good)).moveAnswer tag home.toNat (res = .good) (res = .full) slack)

/-! ### The switch (R95, R105, R110, R113) -/

/-- A page's entry is switched to its copy: place, stored form and key follow; a page brought up loses its LP coding, and
holds what a failed decode gave, poisoned (R95, R165, R376, R377). -/
def State.switchPage (s : State) (m : MoveJob) (p : Nat) (g : Page) (v : PageMv) : State :=
  let form := s.copyForm m g
  let up := v.tier = 0
  let bad : Option Nat := match g.lp with
    | some f => if !up || f.raw then none else (match s.lpBytes f with | .ok _ => none | .error d => some d)
    | none => none
  let evac := match m.mover with | .evacuate _ => true | _ => false
  let s := s.modPage p (fun g => { g with
    tier := v.tier, shelf := v.shelf, mv := none,
    was := if evac || v.tier < g.tier then none else some (s.now, g.tier, g.shelf, g.lp, g.key),
    wasBy := match m.mover with | .demote lsn => some lsn | _ => none,
    lp := if evac then g.lp else if up then none else form, key := v.key,
    bytes := match bad, g.lp with | some _, some f => s.lpPoisoned f | _, _ => g.bytes,
    why := match bad with | some d => some d | none => g.why,
    poison := if bad.isSome then List.range 1024 else g.poison })
  let s := match bad with | some d => s.tickFree.countLp d | none => s
  let s := s.when (!evac && !up && g.tier = 0 && (match form with | some f => f.raw | none => false))
    (fun s => s.bump F.codecCnt0RawPages)
  s.when (!evac) (fun s => match s.region g.region with | some r => s.tollBytes r.owner 65536 | none => s)

/-- The page is the next its move may switch: a paced PROMOTE brings its pages up in order (R106). -/
def MoveJob.next (m : MoveJob) (p : Nat) : Bool := m.paced.isNone || m.todo.head? = some p

/-- The page of a window's staging copy lands by itself. -/
def State.landCopy (s : State) (p : Nat) : State :=
  foldS (fun s w =>
    match (s.win w).staging with
    | some (st, l, left) =>
      (match (s.win w).copies.find? (fun c => c.1 = st && c.2.1 = l && c.2.2.2 = p) with
       | some c =>
         let rest := left.filter (· ≠ c.2.2.1)
         let s := s.modWin w (fun x => { x with staging := some (st, l, rest) })
         (s.inTime w c.2.2.1).endStalls (fun t => t.win = some w && t.page = c.2.2.1) false
       | none => s)
    | none => s) s (List.range 16)

/-- A window's staging copy could not be made: the page is not staged (R110). -/
def State.failCopy (s : State) (p : Nat) : State :=
  foldS (fun s w =>
    match (s.win w).copies.find? (fun c => c.2.2.2 = p) with
    | some c =>
      (s.modWin w (fun x => { x with
        copies := x.copies.filter (fun y => y ≠ c),
        staging := x.staging.map (fun t => if t.1 = c.1 && t.2.1 = c.2.1 then (t.1, t.2.1, t.2.2.filter (· ≠ c.2.2.1)) else t)
        })).sweepPages [p]
    | none => s) s (List.range 16)

/-- A page that a promotion has switched near: bounds of window stalls on it taken in this very tick count as in time (R113). -/
def State.boundsMet (s : State) (p : Nat) : State :=
  let x := s.pageNumber p
  if (s.page p).any (fun g => g.tier = 0) then
    foldS (fun s w => s.when (s.fld F.tierWinCtlRegion w = x.1) (fun s => s.inTime w x.2)) s (List.range 16)
  else s

/-- A page's copy has been verified, or could not be (R95, R97). A copy is not whole while a unit of it waits in its queue (R142)
or a tray access of it has no completion (R300). On the way down a page that has lost its eligibility stays (R103, R105). -/
def State.moveSwitch (s : State) (p : Nat) (verified : Bool) : State :=
  if verified && s.trayOpen p then s
  else
  match s.page p with
  | none => s.dropTray p
  | some g =>
    match g.mv with
    | none => if verified then s.landCopy p else (s.dropTray p).failCopy p
    | some v =>
      match s.move? v.job with
      | none => s
      | some m =>
        if verified && !(m.next p) then s
        else
          let drop := fun (m : MoveJob) => { m with todo := m.todo.filter (· ≠ p) }
          let stay := fun (s : State) => s.modPage p (fun g => { g with mv := none })
          if s.autoOff m then ((stay (s.dropTray p)).modMove v.job drop).pumpMoves
          else if !verified || s.unreadable g then
            ((stay (s.dropTray p)).modMove v.job (fun m =>
              { m with todo := m.todo.filter (· ≠ p), failed := m.failed + 1 })).pumpMoves
          else if m.down && s.pagePinned p then (stay s).pumpMoves
          else if m.down && !(s.downOk p) then ((stay s).modMove v.job drop).pumpMoves
          else
            let s := s.switchPage m p g v
            let s := s.modMove v.job (fun m => { drop m with moved := m.moved ++ [p] })
            let s := if m.up then
                (s.boundsMet p).endStalls (fun t => match s.version t.region t.version with
                  | some x => x.pageAt t.page = some (.page p)
                  | none => false) false
              else s
            s.pumpMoves

/-- PAGE_MOVE_SWITCH (R95). -/
def execPageMoveSwitch (page : Nat) (verified : Bool) (s : State) : Host.Outcome State Fault Refusal :=
  .next (s.moveSwitch page verified)

/-! ### The bound of a stall (R113, R142) -/

/-- STALL_BOUND_EXPIRY (R113): without a gate window the bound is STALL_MAX from the stall's start; with one, its close. A
stall already ended is left alone. -/
def execStallBoundExpiry (stall : Nat) (s : State) : Host.Outcome State Fault Refusal :=
  .next (
    match s.tier.stalls.look stall with
    | none => s
    | some t =>
      if t.gates.isEmpty then (s.waitTill (t.since + 1000 * s.fld F.tierCtlStallMax)).endStall stall true
      else if t.gates.any s.instOpen then s
      else s.endStall stall true)

/-- Stalls whose gate window has closed reach their bound (R113). -/
def State.endGateStalls (s : State) : State :=
  s.endStalls (fun t => !t.gates.isEmpty && !(t.gates.any s.instOpen)) true

/-- Raises whose gate window has closed end, and those of a job without one when its layer changes (R115). -/
def State.endRaises (s : State) (slot : Nat) (layer : Bool) : State :=
  { s with tier := { s.tier with raises := s.tier.raises.filter (fun r =>
    if r.gates.isEmpty then !(layer && r.slot = slot) else r.gates.any s.instOpen) } }

end Sys2Proof.Machine
end

