-- ==== Sys2Proof/Machine/Windows.lean ====
section
/-! DEFINITION. Weight windows and autonomous placement, with the QUERY results of the tiers (R108–R112, R117–R121). -/

namespace Sys2Proof.Machine

/-! ### Enabling and turning off (R108, R109, R128) -/

/-- Page numbers of layer l's block that this module holds (R108). -/
def State.blockPages (s : State) (w l : Nat) : List Nat :=
  let str := s.fld F.tierWinStrideBytes w / 65536
  (rangeFrom (s.fld F.tierWinBaseOffset w / 65536 + l * str) str).filter
    (fun n => s.heldHere (s.fld F.tierWinCtlRegion w) n)

/-- The largest block of a window here, in pages. -/
def State.blockMost (s : State) (w c : Nat) : Nat :=
  (List.range c).foldl (fun m l => max m (s.blockPages w l).length) 0

/-- Staging pages reserved: DEPTH blocks' worth (R108). -/
def State.winReserve (s : State) (w : Nat) : Nat :=
  s.fld F.tierWinCtlDepth w * s.blockMost w (match s.winSlot w with | some j => s.jobC j | none => 0)

/-- The first check of R109 that fails, by its code; 0 when all hold. -/
def State.winCheck (s : State) (w : Nat) : Nat :=
  let id := s.fld F.tierWinCtlRegion w
  let off := s.fld F.tierWinBaseOffset w
  let str := s.fld F.tierWinStrideBytes w
  let init := s.fld F.tierWinLeadInit w
  let lo := s.fld F.tierWinLeadMin w
  let hi := s.fld F.tierWinLeadMax w
  match s.region id with
  | none => 1
  | some r =>
    if !r.flat then 1
    else if (s.winSlot w).isNone then 2
    else if off = 0 || str = 0 || off % 65536 ≠ 0 || str % 65536 ≠ 0 then 3
    else if !(1 ≤ lo && lo ≤ init && init ≤ hi && hi < s.fld F.tierWinCtlDepth w) then 4
    else if !(s.fits 0 (poolOf id r).1 (poolOf id r).2 (s.winReserve w)) then 5
    else 0

/-- ENABLE is set: the window turns on, or ERR names the first failed check (R109, R117). -/
def State.winOn (s : State) (w : Nat) : State :=
  match s.winCheck w with
  | 0 => s.modWin w (fun _ => { on := true, reserve := s.winReserve w, cur := s.fld F.tierWinLeadInit w })
  | e + 1 => s.modWin w (fun x => { x with on := false, err := e + 1 })

/-- Staging copies of a window are freed. -/
def State.freeCopies (s : State) (w : Nat) (p : Nat × Nat → Bool) : State :=
  let gone := (s.win w).copies.filter (fun c => p (c.1, c.2.1))
  let s := foldS (fun s c => s.dropTray c.2.2.2) s gone
  (s.modWin w (fun x => { x with copies := x.copies.filter (fun c => !(p (c.1, c.2.1))) })).sweepPages
    (gone.map (fun c => c.2.2.2))

/-- The version references a window holds for steps are released (R111). -/
def State.dropSteps (s : State) (w : Nat) (p : Nat → Bool) : State :=
  let gone := (s.win w).vers.filter (fun v => p v.1)
  let s := s.modWin w (fun x => { x with vers := x.vers.filter (fun v => !(p v.1)) })
  foldS (fun s v => s.dropRef (s.fld F.tierWinCtlRegion w) v.2) s gone

/-- A window turns off: its copies and references go, and reads stalled on it are served where their pages lie. -/
def State.winOff (s : State) (w err : Nat) : State :=
  if (s.win w).on then
    let s := (s.freeCopies w (fun _ => true)).dropSteps w (fun _ => true)
    let s := s.modWin w (fun _ => { err := err })
    let s := { s with tier := { s.tier with raises := s.tier.raises.filter (fun r => r.src ≠ srcWin w) } }
    s.endStalls (fun t => t.win = some w) false
  else s

/-! ### Staging (R110–R112, R142) -/

/-- The layers a window keeps staged, as step and layer: the current one and `n` on (R110). -/
def State.winDue (s : State) (w j : Nat) : List (Nat × Nat) :=
  let c := s.jobC j
  (List.range ((s.win w).cur + 1)).map (fun i =>
    let x := (s.job j).layer + i
    (((s.job j).step + x / c) % 2 ^ 32, x % c))

/-- The window takes its version for a step, when it has none yet (R111). -/
def State.winTake (s : State) (w step : Nat) : State :=
  if (s.win w).vers.any (fun v => v.1 = step) then s
  else
    match s.winVersion w step with
    | some n =>
      (s.modWin w (fun x => { x with vers := x.vers ++ [(step, n)] })).addRef (s.fld F.tierWinCtlRegion w) n
    | none => s

/-- The content of a page as a near-tier copy: bytes, poisoned lines and the detail of a failed decode (R95, R165). -/
def State.nearCopy (s : State) (g : Page) : State × Bytes × List Nat × Option Nat :=
  match g.lp with
  | some f =>
    if f.raw then (s, g.bytes, g.poison, g.why)
    else
      (match s.lpBytes f with
       | .ok _ => (s, g.bytes, g.poison, g.why)
       | .error d => (s.countLp d, s.lpPoisoned f, List.range 1024, some d))
  | none => (s, g.bytes, if s.keyGone g then List.range 1024 else g.poison, g.why)

/-- Start the staging copy of one page number: a near-tier page of the owner's partition (R94, R108). A page for which no
shelf has room is not staged. -/
def State.stageOne (s : State) (w step l n : Nat) : State :=
  let id := s.fld F.tierWinCtlRegion w
  match s.region id, s.winVersion w step with
  | some r, some ver =>
    match s.below id ver n with
    | none => s
    | some p =>
      match s.page p, s.place 0 r.owner id n with
      | some g, some sh =>
        let k := s.rgn.nextPage
        let (s, b, ps, why) := s.tickFree.nearCopy g
        let s := { s with rgn := { s.rgn with
          pages := Tbl.ins k { bytes := b, poison := ps, why := why, shelf := sh } s.rgn.pages, nextPage := k + 1 } }
        let s := s.modWin w (fun x => { x with
          copies := x.copies ++ [(step, l, n, k)],
          staging := x.staging.map (fun t => (t.1, t.2.1, t.2.2 ++ [n])) })
        s.trayLines (srcWin w) (s.fld F.tierWinCtlTenant w) k p g.tier g.shelf false g.storedLines []
      | _, _ => s
  | _, _ => s

/-- A window begins to stage its next layer, once the previous one has landed and its gates allow: the units of its copies queue
at their ports, where they start one by one (R110, R142, R323). -/
def State.winStage (s : State) (w : Nat) : State :=
  let x := s.win w
  match s.winSlot w with
  | none => s
  | some j =>
    if !x.on || x.staging.isSome || !(gatesAllow (s.winGates w)) then s
    else
      match (s.winDue w j).find? (fun k => !(x.landed.any (· = k))) with
      | none => s
      | some (st, l) =>
        let s := s.winTake w st
        if (s.winVersion w st).isNone then s
        else
          let s := s.modWin w (fun x => { x with staging := some (st, l, []) })
          foldS (fun s n => s.stageOne w st l n) s (s.blockPages w l)

/-- WINDOW_LAYER_STAGE (R110). -/
def execWindowLayerStage (win : Win) (s : State) : Host.Outcome State Fault Refusal := .next (s.winStage win.val)

/-- Push a layer's staged bytes to the members of the window's group: one TC0 STORE stream per member (R112, R318). A
group of another owner or kind is refused and counted. A copy in a quadrant that is out goes poisoned (R16). -/
def State.pushLayer (s : State) (w step l : Nat) : State :=
  let g := s.fld F.tierWinLeadMcast w
  if g = 0 then s
  else
    match s.fab.map.groups.look g, s.region (s.fld F.tierWinCtlRegion w) with
    | some grp, some r =>
      if grp.mark || grp.owner ≠ r.owner then s.bump F.swCnt2McastRefused
      else
        let str := s.fld F.tierWinStrideBytes w
        let base := s.fld F.tierWinBaseOffset w + l * str
        foldS (fun s m =>
          foldS (fun s c =>
            match s.page c.2.2.2 with
            | none => s
            | some q =>
              let a := m.base.toNat + l % max 1 m.slots * str + (c.2.2.1 * 65536 - base)
              let ep := m.ep.toNat
              foldS (fun s x => (s.tollBytes r.owner x.2).sendReq (s.outPort ep s.self 0) ep 0 .store .push x.1
                  (Bytes.rd q.bytes (x.1 - a) x.2) (s.pageOut q || q.poison.any (fun y => (x.1 - a) / 64 ≤ y && y < (x.1 - a + x.2 + 63) / 64)))
                s (pieces a 65536))
            s ((s.win w).copies.filter (fun c => c.1 = step && c.2.1 = l))) s grp.members
    | _, _ => s.bump F.swCnt2McastRefused

/-- A staged layer has landed, its units all sent and its tray reads completed (R300): reads stalled on it are served, and it is pushed (R110, R112, R113,
R142). -/
def State.winLanded (s : State) (w : Nat) : State :=
  match (s.win w).staging with
  | none => s
  | some (st, l, left) =>
    if (s.win w).copies.any (fun c => c.1 = st && c.2.1 = l && s.trayOpen c.2.2.2) then s else
    let s := s.modWin w (fun x => { x with staging := none, landed := x.landed ++ [(st, l)] })
    let s := foldS (fun s pg => s.inTime w pg) s left
    let s := s.endStalls (fun t => t.win = some w && left.any (· = t.page)) false
    s.pushLayer w st l

/-- WINDOW_LAYER_LANDED (R112). -/
def execWindowLayerLanded (win : Win) (s : State) : Host.Outcome State Fault Refusal := .next (s.winLanded win.val)

/-- The count of consecutive layers that are not late over `d` layers passed, of which those at the distances `lates` were late,
and how often it reached 256 and began anew (R117). -/
def leadRun (run d : Nat) (lates : List Nat) : Nat × Nat :=
  let (run, at_, falls) := lates.foldl (fun (acc : Nat × Nat × Nat) k => (0, k + 1, acc.2.2 + (acc.1 + (k - acc.2.1)) / 256)) (run, 0, 0)
  ((run + (d - at_)) % 256, falls + (run + (d - at_)) / 256)

/-- The job of a window has moved on from a position (R110, R111, R117): layers left behind give up their copies, steps left
behind their version; layers passed that were not late count towards a lower lead. -/
def State.winAdvance (s : State) (w j old : Nat) : State :=
  let pos := s.jobPos j
  let now := posWord (posStep pos) (posLayer pos) 0
  let past := fun (k : Nat × Nat) => posLater now (posWord k.1 k.2 0)
  let d := (layerDist (s.jobC j) old pos).toNat
  if d = 0 then s
  else
    let x := s.win w
    let lates := sortOn (fun n => n) ((x.late.filter past).map (fun k => (layerDist (s.jobC j) old (posWord k.1 k.2 0)).toNat))
    let (run, falls) := leadRun x.run d lates
    let low := s.fld F.tierWinLeadMin w
    let s := s.modWin w (fun x => { x with run := run })
    let s := s.when (falls > 0 && x.cur > low) (fun s => s.leadTo w (max low (x.cur - falls)))
    let s := (s.freeCopies w past).dropSteps w (fun t => past (t, s.jobC j - 1) && t ≠ posStep pos)
    let gone := match x.staging with | some t => past (t.1, t.2.1) | none => false
    s.modWin w (fun x => { x with
      landed := x.landed.filter (fun k => !(past k)), late := x.late.filter (fun k => !(past k)),
      stalledIn := x.stalledIn.filter (fun k => !(past k)),
      staging := if gone then none else x.staging })

/-! ### Autonomous placement (R118–R120) -/

/-- Versions of a pool's regions that a scan moves: region, number, version; least recently read first. -/
def State.scanVersions (s : State) (t : Nat) (common : Bool) (p : Nat → Version → Bool) : List (Nat × Nat × Version) :=
  sortOn (fun x => x.2.2.readAt) (s.allVersions.filter (fun x =>
    (match s.region x.1 with | some r => poolOf x.1 r = (t, common) | none => false) && p x.1 x.2.2))

/-- A page no scan moves: PROTECTED without a loaded tier key (R377). -/
def State.scanLocked (s : State) (t : Nat) (g : Page) (down : Bool) : Bool :=
  (down && s.pageReg g (fun r => r.prot) && (s.tierSlot t).isNone) || s.copyBad g true

/-- Pages a scan may move out of a tier: eligible, unpinned, not moving, every version of them unread for `idle` ns. -/
def State.scanDown (s : State) (t tier idle : Nat) (v : Version) : List Nat :=
  v.pageIds.filter (fun p =>
    match s.page p with
    | some g =>
      g.tier = tier && g.mv.isNone && s.downOk p && !(s.pagePinned p) && !(s.scanLocked t g true) &&
        (s.refsOf p).all (fun x => x.2.2.refs = 0 && x.2.2.readAt + idle ≤ s.now)
    | none => false)

/-- Charged pages of a pool in a tier, apart from those on their way out of it. -/
def State.scanLoad (s : State) (tier t : Nat) (common : Bool) : Nat :=
  s.charged tier t common - ((Tbl.vals s.rgn.pages).filter (fun g =>
    g.tier = tier && (match g.mv with | some m => m.tier ≠ tier | none => false) &&
      (match s.region g.region with
       | some r => r.tier ≠ tier && poolOf g.region r = (t, common)
       | none => false))).length

/-- One version's pages move by themselves (ON), or are proposed (ADVISE); nothing when there are none. -/
def State.scanAct (s : State) (t id n from_ tgt kind : Nat) (pages : List Nat) : State :=
  if pages.isEmpty then s
  else if s.fld F.tierTenCtlPlace t = 2 then
    s.addMove { mover := .auto, up := kind = 2, asker := t, tenant := t, region := id, version := n, target := tgt, todo := pages }
  else
    s.postAdvice t (n + 2 ^ 32 * id + 2 ^ 56 * from_ + 2 ^ 58 * tgt + 2 ^ 60 * kind) pages.length

/-- Demotions out of a tier above HIGH until occupancy is at or below LOW: `need` pages of the charge still to go. -/
def State.scanTier (s : State) (t tier idle : Nat) (common : Bool) (dstOf : Region → Option Nat) : State :=
  let cap := s.capacity tier t common
  let load := s.scanLoad tier t common
  if load * 100 ≤ s.fld F.tierTenCtlHigh t * cap then s
  else
    let need := load - s.fld F.tierTenCtlLow t * cap / 100
    ((s.scanVersions t common (fun _ _ => true)).foldl (fun (acc : State × Nat) x =>
      match acc.1.region x.1 with
      | none => acc
      | some r =>
        match dstOf r with
        | none => acc
        | some dst =>
          let ps := if acc.2 = 0 then [] else
            let all := acc.1.scanDown t tier idle x.2.2
            if r.tier = tier then all else all.take acc.2
          (acc.1.scanAct t x.1 x.2.1 tier dst 1 ps, if r.tier = tier then acc.2 else acc.2 - ps.length)) (s, need)).1

/-- Promotions into a near tier below LOW of versions the tenant holds, most recently read first, until the charge reaches LOW;
pages of near regions are charged there already and add nothing. The From field of a proposal is the tier of the version's
first such page (log entry 188). -/
def State.scanUp (s : State) (t : Nat) (common : Bool) : State :=
  let cap := s.capacity 0 t common
  let load := s.charged 0 t common
  let goal := ceilDiv (s.fld F.tierTenCtlLow t * cap) 100
  if load ≥ goal then s
  else
    ((s.scanVersions t common (fun _ v => v.holds.any (· = t))).reverse.foldl (fun (acc : State × Nat) x =>
      let all := x.2.2.pageIds.filter (fun p =>
        match acc.1.page p with
        | some g => g.tier ≠ 0 && g.mv.isNone && !(acc.1.scanLocked t g false)
        | none => false)
      let near := (acc.1.region x.1).any (fun r => r.tier = 0)
      let ps := if acc.2 = 0 then [] else if near then all else all.take acc.2
      let src := match ps.head?.bind acc.1.page with | some g => g.tier | none => 1
      (acc.1.scanAct t x.1 x.2.1 src 0 2 ps, if near then acc.2 else acc.2 - ps.length)) (s, goal - load)).1

/-- The scan of one tenant: its partitions, near demotions, tray demotions, near promotions (R119). -/
def State.scanTenant (s : State) (t : Nat) : State :=
  let idle := 1000000000 * s.fld F.tierTenCtlIdleS t
  let pools := if t = 0 then [false, true] else [false]
  foldS (fun s common =>
    let hasTray := !(s.partition 1 t common).isEmpty
    let s := s.scanTier t 0 idle common (fun r =>
      if r.tier ≠ 0 then some r.tier else if hasTray then some 1 else none)
    let s := s.scanTier t 1 (16 * idle) common (fun _ => some 2)
    s.scanUp t common) s pools

/-- The autonomous moves of a tenant end where they stand: what has switched stays, what is being copied is given up (R118). -/
def State.stopAuto (s : State) (t : Nat) : State :=
  foldS (fun s (e : Nat × MoveJob) =>
    let ps := (s.rgn.pages.filter (fun x => match x.2.mv with | some v => v.job = e.1 | none => false)).map Prod.fst
    let s := foldS (fun s p => (s.dropTray p).modPage p (fun g => { g with mv := none })) s ps
    { s with tier := { s.tier with moves := Tbl.del e.1 s.tier.moves } }) s
    (s.tier.moves.filter (fun e => e.2.mover = .auto && e.2.tenant = t))

/-- PLACEMENT_SCAN (R119): the period's end. -/
def execPlacementScan (s : State) : Host.Outcome State Fault Refusal :=
  .next (
    let s := s.waitTill (s.tier.lastScan + 1000000 * s.fld F.tierCtlScanMs)
    let s := { s with tier := { s.tier with lastScan := s.now } }
    foldS (fun s t => s.when (s.fld F.tierTenCtlPlace t ≠ 0) (fun s => s.scanTenant t)) s (List.range 256))

/-- ADVICE_EXPIRY (R120): a tenant's oldest proposal reaches its lifetime. -/
def execAdviceExpiry (tenant : Tenant) (s : State) : Host.Outcome State Fault Refusal :=
  .next (
    match (s.ten tenant.val).advice with
    | [] => s
    | a :: rest =>
      (s.waitTill (a.2.2 + 1000000000 * s.fld F.tierCtlAdviceS)).modTen tenant.val (fun x => { x with advice := rest }))

/-! ### QUERY HOLDS and QUERY ADVICE (R121) -/

/-- Pages of a version that lie here in a tier. -/
def State.inTier (s : State) (v : Version) (p : Page → Bool) : Nat :=
  min ((v.pageIds.filter (fun k => match s.page k with | some g => p g | none => false)).length) (2 ^ 32 - 1)

/-- Pinned pages of a version here. -/
def Version.pinCount (v : Version) : Nat :=
  (v.pages.filter (fun x => (match x.2 with | .page _ => true | .revoked => false) && v.pinned x.1)).length

/-- The 64-byte record of QUERY HOLDS. -/
def State.holdsRecord (s : State) (r : Region) (n : Nat) (v : Version) (t : Nat) : List Byte :=
  let pend := match v.pend with | some d => d.tier + 4 | none => 0
  let all := v.holds.foldl (fun a h => a + 2 ^ h) 0
  leBytes 4 n ++ leBytes 2 v.holds.length ++ leBytes 2 (min v.pinCount 0xFFFF) ++ leBytes 1 pend ++
  leBytes 1 (b2n (v.holds.any (· = t))) ++ leBytes 6 0 ++ leBytes 4 (s.inTier v (fun g => g.tier = 0)) ++
  leBytes 4 (s.inTier v (fun g => g.tier = 1)) ++ leBytes 4 (s.inTier v (fun g => g.tier = 2)) ++
  leBytes 4 (s.inTier v (fun g => g.mv.isSome)) ++ leBytes 32 (if r.owner = t then all else 0)

/-- QUERY_HOLDS (R121). -/
def execQueryHolds (lsn : Nat) (s : State) : Host.Outcome State Fault Refusal :=
  .next (s.queryOp lsn 3 (fun e s =>
    match s.named (s.callerOf e) (refOf (e.w 3)) true false with
    | .error f => s.failDesc lsn f
    | .ok (r, n, v) => s.queryWrite e [s.holdsRecord r n v e.tenant]))

/-- QUERY_ADVICE (R121): the kept proposals, oldest first. -/
def execQueryAdvice (lsn : Nat) (s : State) : Host.Outcome State Fault Refusal :=
  .next (s.queryOp lsn 6 (fun e s =>
    s.queryWrite e ((s.ten e.tenant).advice.map (fun a => leBytes 8 a.1.toNat ++ leBytes 8 a.2.1.toNat))))

end Sys2Proof.Machine
end

