-- ==== Sys2Proof/Machine/Shelves.lean ====
section
/-! DEFINITION. Shelf commands, draining, scrubbing and shelf worlds (R61–R68, R371). -/

namespace Sys2Proof.Machine

/-! ### Commands (R65, R90) -/

/-- The result of a shelf command (R90): 0 done, 1 no such shelf, 2 wrong state, 3 no room, 4 system shelf, 5 COMMON. -/
def State.shelfResult (s : State) (n : Nat) : State := { s with rgn := { s.rgn with cmdResult := n, cmdBusy := false } }

/-- Copies under way towards a shelf, or away from it when its pages are revoked, are given up. -/
def State.stopCopies (s : State) (tier idx : Nat) (away : Bool) : State :=
  { s with rgn := { s.rgn with pages := s.rgn.pages.mapV (fun _ g =>
    match g.mv with
    | some m => if (m.tier = tier && m.shelf = idx) || (away && g.tier = tier && g.shelf = idx) then { g with mv := none } else g
    | none => g) } }

/-- Page ids on a shelf. -/
def State.idsOn (s : State) (tier idx : Nat) : List Nat :=
  (s.rgn.pages.filter (fun e => e.2.tier = tier && e.2.shelf = idx)).map Prod.fst

/-- Free pages that an evacuation may use: on the other shelves of the partition and of the same world. -/
def State.evacRoom (s : State) (tier idx : Nat) (h : Shelf) : Nat :=
  sumOf (((s.roomIn tier h.tenant h.common).filter (fun i =>
    i ≠ idx && (match s.shelf tier i with | some x => x.secure = h.secure | none => false))).map
      (fun i => shelfPages - s.pagesOn tier i))

/-- A shelf turns DRAINING (R65, R66). -/
def State.drainShelf (s : State) (tier idx : Nat) : State :=
  s.modShelf tier idx (fun h => { h with st := .draining, evac := false, drainAt := s.now })

/-- ASSIGN (R65): a FREE shelf joins a partition, keeping its world (R371). -/
def State.assignShelf (s : State) (tier idx tenant : Nat) (common : Bool) : State :=
  (s.modShelf tier idx (fun h => { h with st := .assigned, tenant := tenant, common := common })).shelfResult 0

/-- REVOKE with EVACUATE (R65): the shelf leaves the allocation pool and its pages are copied away. -/
def State.evacuate (s : State) (tier idx : Nat) (h : Shelf) : State :=
  let ps := s.idsOn tier idx
  if ps.length > s.evacRoom tier idx h then s.shelfResult 3
  else
    let s := (s.stopCopies tier idx false).modShelf tier idx (fun h => { h with evac := true })
    let s := { s with rgn := { s.rgn with cmdBusy := true } }
    (s.addMove
      { mover := .evacuate (shelfKey tier idx), tenant := h.tenant, region := 0, version := 0, target := tier,
        todo := ps }).pumpMoves

/-- Staging copies of windows on a shelf are given up. -/
def State.dropCopiesOn (s : State) (ps : List Nat) : State :=
  foldS (fun s w => s.modWin w (fun x => { x with
    landed := x.landed.filter (fun k => !(x.copies.any (fun c => (c.1, c.2.1) = k && ps.any (· = c.2.2.2)))),
    copies := x.copies.filter (fun c => !(ps.any (· = c.2.2.2))) })) s (Tbl.keys s.tier.wins)

/-- REVOKE with FORCE (R65, R68): pages stay and are revoked; every version holding one is DAMAGED. -/
def State.forceRevoke (s : State) (tier idx : Nat) : State :=
  let ps := s.idsOn tier idx
  let s := (s.stopCopies tier idx true).dropCopiesOn ps
  let s := foldS (fun s p => s.modPage p (fun g => { g with revoked := true })) s ps
  ((s.drainShelf tier idx).shelfResult 0).pumpMoves

/-- A shelf turns SCRUBBING (R65, R67). -/
def State.startScrub (s : State) (tier idx : Nat) : State :=
  s.modShelf tier idx (fun h => { h with st := .scrubbing, scrubAt := s.now })

/-- A shelf command (R65, R90, R371): `secure` says whether a secure source wrote it. Of several errors the first of no such
shelf, the shelf's world, a system shelf, COMMON with a tenant, a wrong state decides (log entry 152). -/
def State.shelfCmd (s : State) (secure : Bool) (op tier idx : Nat) (force common : Bool) (tenant : Nat) : State :=
  let h := s.shelf tier idx
  if (match h with | some h => h.secure | none => false) && !secure then s.worldViol
  else if s.rgn.cmdBusy || op = 0 || op > 3 then s
  else
    match h with
    | none => s.shelfResult 1
    | some h =>
      if h.st = .system then s.shelfResult 4
      else if op = 1 && common && tenant ≠ 0 then s.shelfResult 5
      else if op = 1 then if h.st = .free then s.assignShelf tier idx tenant common else s.shelfResult 2
      else if op = 2 then
        if h.st ≠ .assigned then s.shelfResult 2
        else if force then s.forceRevoke tier idx else s.evacuate tier idx h
      else if h.st = .offline then (s.startScrub tier idx).shelfResult 0 else s.shelfResult 2

/-- A word written to RGN_SHELF_CMD (R90). -/
def State.shelfCmdWord (s : State) (secure : Bool) (v : Nat) : State :=
  s.shelfCmd secure (bits v 3 0) (bits v 5 4) (bits v 33 16) (bit v 6) (bit v 7) (bits v 15 8)

/-- The word that gives a shelf command (R90). -/
def shelfWord (op tier idx : Nat) (force common : Bool) (tenant : Nat) : W64 :=
  BitVec.ofNat 64 (op + 16 * (tier % 4) + 64 * b2n force + 128 * b2n common + 256 * tenant + 65536 * (idx % 2 ^ 18))

/-! ### Draining and scrubbing (R65–R68) -/

/-- The move that evacuates a shelf. -/
def State.evacMove (s : State) (tier idx : Nat) : Option (Nat × MoveJob) :=
  s.tier.moves.find? (fun m => m.2.mover = .evacuate (shelfKey tier idx))

/-- An evacuation has copied and switched every page: the shelf turns DRAINING. One that finds no room for a page any more
gives the shelf back to the pool. Neither happens before stage RUN (R454). -/
def State.evacDone (s : State) (tier idx : Nat) : State :=
  match s.evacMove tier idx with
  | none => s
  | some (k, m) =>
    if !s.running then s else
    let s' := { s with tier := { s.tier with moves := Tbl.del k s.tier.moves } }
    if (s.idsOn tier idx).isEmpty then (s'.drainShelf tier idx).shelfResult 0
    else if m.todo.any (fun p => match s.page p with
        | some g => g.mv.isNone && (s.place g.tier m.tenant (s.pageNumber p).1 (s.pageNumber p).2).isNone
        | none => false) then
      let s' := { s' with rgn := { s'.rgn with pages := s'.rgn.pages.mapV (fun _ g =>
        match g.mv with | some v => if v.job = k then { g with mv := none } else g | none => g) } }
      (s'.modShelf tier idx (fun h => { h with evac := false })).shelfResult 3
    else s

/-- EVACUATION_DONE (R65). -/
def execEvacuationDone (tier : Tier) (idx : Nat) (s : State) : Host.Outcome State Fault Refusal :=
  .next (s.evacDone tier.val idx)

/-- A DRAINING shelf whose drain count is zero is scrubbed (R67). -/
def State.drained (s : State) (tier idx : Nat) : State :=
  match s.shelf tier idx with
  | some h => if h.st = .draining && s.drainCount tier idx = 0 then s.startScrub tier idx else s
  | none => s

/-- DRAIN_COMPLETE (R67). -/
def execDrainComplete (tier : Tier) (idx : Nat) (s : State) : Host.Outcome State Fault Refusal :=
  .next (s.drained tier.val idx)

/-- A page table without the pages of a list: they are revoked for good (R68). -/
def revokeIn (ps : List Nat) (t : Tbl PageRef) : Tbl PageRef :=
  t.mapV (fun _ r => match r with | .page p => if ps.any (· = p) then .revoked else r | .revoked => .revoked)

/-- Page numbers of a table that the pages of a list stood at. -/
def numbersOf (ps : List Nat) (t : Tbl PageRef) : List Nat :=
  (t.filter (fun e => match e.2 with | .page p => ps.any (· = p) | .revoked => false)).map Prod.fst

/-- The pages of a shelf are gone: every version that had one keeps it as revoked (R68). -/
def State.wipeShelf (s : State) (tier idx : Nat) : State :=
  let ps := s.idsOn tier idx
  let s := { s with rgn := { s.rgn with
    pages := Tbl.keep (fun p _ => !(ps.any (· = p))) s.rgn.pages,
    regions := s.rgn.regions.mapV (fun _ r => { r with vers := r.vers.mapV (fun _ v =>
      { v with pages := revokeIn ps v.pages, own := v.own.filter (fun n => !((numbersOf ps v.pages).any (· = n))) }) }) } }
  { s with slc := { s.slc with invs := s.slc.invs.mapV (fun _ v =>
    { v with staging := v.staging.map (fun t => (t.1, revokeIn ps t.2)) }) } }

/-- A scrub ends: zeros everywhere, no tenant, no COMMON flag, the normal world; the shelf is FREE (R67). -/
def State.scrubbed (s : State) (tier idx : Nat) : State :=
  match s.shelf tier idx with
  | some h => if h.st = .scrubbing then (s.wipeShelf tier idx).modShelf tier idx (fun _ => {}) else s
  | none => s

/-- SCRUB_COMPLETE (R67): scrubs pause under limiter step 1 (R396). -/
def execScrubComplete (tier : Tier) (idx : Nat) (s : State) : Host.Outcome State Fault Refusal :=
  .next (if s.pwr.step ≠ 0 then s else s.scrubbed tier.val idx)

/-- A scrub has run for 10 s (R67): the shelf is OFFLINE and SCRUB_FAIL is set and recorded (R413; the packing of b.data
is log entry 19). -/
def State.scrubLate (s : State) (tier idx : Nat) : State :=
  match s.shelf tier idx with
  | some h =>
    if h.st = .scrubbing then
      let s := s.waitTill (h.scrubAt + 10000000000)
      let s := (s.modShelf tier idx (fun h => { h with st := .offline })).setFld F.rgnStsScrubFail 1
      s.bbxLog 0x0C 0 0 (leBytes 1 tier ++ leBytes 4 idx)
    else s
  | none => s

/-- SCRUB_TIMEOUT (R67). -/
def execScrubTimeout (tier : Tier) (idx : Nat) (s : State) : Host.Outcome State Fault Refusal :=
  .next (s.scrubLate tier.val idx)

/-- A word written to SEC_SHELF_CMD sets the world of a FREE shelf (R371, R384). -/
def State.shelfWorld (s : State) (v : Nat) : State :=
  match s.shelf (bits v 1 0) (bits v 35 16) with
  | some h => if h.st = .free then s.modShelf (bits v 1 0) (bits v 35 16) (fun h => { h with secure := bit v 2 }) else s
  | none => s

end Sys2Proof.Machine
end

