-- ==== Sys2Proof/Machine/Ctxs.lean ====
section
/-! DEFINITION. Slices and sub-part contexts: placement, starting, running one step, ending and restarting (R14, R195–R201,
R205–R208, R217, R407–R410). -/

namespace Sys2Proof.Machine

/-! ### Slices (R14, R195, R197, R225, R407) -/

/-- A slice is in service (R16, R410). -/
def State.sliceUp (s : State) (n : Nat) : Bool :=
  bit s.slc.inService.toNat n && !(bit s.slc.quarantined.toNat n) && !(s.quadOut (n / 8))

/-- The temperature bin of a quadrant: ⌊T ÷ 10⌋, limited to 0–15 (R407). -/
def State.binOf (s : State) (q : Nat) : Nat := (max 0 (min 15 (s.pwr.tj.getD q 0 / 10))).toNat

/-- The slice has passed its known-answer test in the present bin; until then it takes no sub-part and its contexts pause
(R407). -/
def State.sliceTested (s : State) (n : Nat) : Bool := bit (s.slc.bins.rd 0 n).toNat (s.binOf (n / 8))

def State.ctx (s : State) (cx : Nat) : Option Ctx := s.slc.ctxs.look cx

def State.modCtx (s : State) (cx : Nat) (f : Ctx → Ctx) : State :=
  { s with slc := { s.slc with ctxs := Tbl.alter cx f s.slc.ctxs } }

def State.inv (s : State) (lsn : Nat) : Option Inv := s.slc.invs.look lsn

def State.modInv (s : State) (lsn : Nat) (f : Inv → Inv) : State :=
  { s with slc := { s.slc with invs := Tbl.alter lsn f s.slc.invs } }

/-- Contexts on a slice. -/
def State.ctxsOn (s : State) (n : Nat) : List Ctx := (Tbl.vals s.slc.ctxs).filter (fun (c : Ctx) => c.slice = n)

/-- The load of a slice: its busy contexts. -/
def State.sliceLoad (s : State) (n : Nat) : Nat := (s.ctxsOn n).length

/-- A sum over the images of the contexts on a slice. -/
def State.sliceUse (s : State) (n : Nat) (f : Image → Nat) : Nat :=
  sumOf ((s.ctxsOn n).map (fun c => match s.inv c.lsn with | some v => f v.img | none => 0))

/-- Free scratch tiles of a slice (R195, R225). -/
def State.freeTiles (s : State) (n : Nat) : Nat := 192 - s.sliceUse n (fun i => i.scratch + i.stage)

/-- A context, tiles, heap entries and banks for an image are free on a slice (R197). -/
def State.sliceRoom (s : State) (n : Nat) (i : Image) : Bool :=
  s.sliceTested n && s.sliceLoad n < 32 && i.scratch + i.stage ≤ s.freeTiles n &&
    s.sliceUse n (fun i => i.heap) + i.heap ≤ 1024 && s.sliceUse n (fun i => i.banks) + i.banks ≤ 4

/-- Slices in service. -/
def State.slicesUp (s : State) : List Nat := (List.range 32).filter s.sliceUp

/-- Slices among which the least loaded is chosen: the quadrant's, or all when it has none in service or no stack holds the
data (R14). -/
def State.slicesFor (s : State) (q : Option Nat) : List Nat :=
  match q with
  | some q =>
    let l := s.slicesUp.filter (fun n => n / 8 = q)
    if l.isEmpty then s.slicesUp else l
  | none => s.slicesUp

/-- A slice of a list is least loaded among it. -/
def State.leastOf (s : State) (l : List Nat) (n : Nat) : Bool :=
  l.any (· = n) && l.all (fun m => s.sliceLoad n ≤ s.sliceLoad m)

/-- Number of the final section (R196). -/
def finalSub : Nat := 0x10000

/-- The split offset of a sub-part (R196, R198); the final section is placed like sub-part 0. -/
def Inv.splitOff (v : Inv) (k : Nat) : Nat :=
  if v.img.stride then (v.base + (if k = finalSub then 0 else k) * v.stride) % 2 ^ 64 else 0

/-- The quadrant whose stack holds the page at a sub-part's split offset, when one does (R14, R196). -/
def State.subQuad (s : State) (v : Inv) (k : Nat) : Option Nat :=
  if !v.img.stride then none
  else
    match v.binds.getD v.img.splitBind none with
    | none => none
    | some b =>
      match s.version b.region b.version with
      | none => none
      | some x =>
        match x.pageAt (v.splitOff k / 65536) with
        | some (.page p) =>
          (match s.page p with
           | some g => if g.tier = 0 then some (stackQuad (nearStack g.shelf)) else none
           | none => none)
        | _ => none

/-! ### Ends and restarts (R208, R217, R416) -/

/-- Messages a context received in its uncommitted phase are held again, ahead of the others (R215). -/
def State.unreceive (s : State) (c : Ctx) : State :=
  { s with slc := { s.slc with held := c.recvd.map (fun m => (m, s.now)) ++ s.slc.held } }

/-- A context and its shadow leave their slices. -/
def State.dropCtx (s : State) (cx : Nat) : State :=
  { s with
    slc := { s.slc with ctxs := Tbl.keep (fun k (c : Ctx) => k ≠ cx && c.shadowOf ≠ some cx) s.slc.ctxs },
    tier := { s.tier with stalls := Tbl.keep (fun _ t => t.who ≠ .ctx cx) s.tier.stalls } }

/-- The line of a running INVOKE's end bitmap in which a sub-part has ended is written to the own half (R339). -/
def State.writeEnds (s : State) (lsn sub : Nat) : State :=
  match s.inv lsn with
  | some v => if sub < 65536 then s.ownWrite (endsAt lsn sub) (endsLine v (sub / 512)) else s
  | none => s

/-- A sub-part without a context ends. -/
def State.noteEnd (s : State) (lsn sub st d : Nat) : State :=
  let s := s.modInv lsn (fun v =>
    if sub = finalSub then { v with finalDone := some (st, d) } else { v with ended := v.ended ++ [(sub, st, d)] })
  (s.writeEnds lsn sub).when (match s.inv lsn with | some v => v.ended.length ≥ v.count | none => false) (fun s => s.freeSieves lsn)

/-- A sub-part ends with a status and a detail (R217); a shadow's end is its primary's to notice (R408). -/
def State.endSub (s : State) (cx st d : Nat) : State :=
  match s.ctx cx with
  | none => s
  | some c =>
    if c.shadowOf.isSome then s.modCtx cx (fun c => { c with status := .ended st d })
    else (((s.ctxToll c).unreceive c).dropCtx cx).noteEnd c.lsn c.sub st d

/-- A step fault ends its sub-part and is counted (R217, R225). -/
def State.faultSub (s : State) (cx st d : Nat) : State := (s.bump F.slcCnt0Faults).endSub cx st d

/-- A sub-part will restart on another slice, from its last committed phase (R208). -/
def State.restartSub (s : State) (cx : Nat) : State :=
  match s.ctx cx with
  | none => s
  | some c =>
    let s := (s.unreceive c).dropCtx cx
    let s := s.modInv c.lsn (fun v =>
      let n := v.tries.rd 0 c.sub + 1
      { v with restarts := v.restarts ++ [(c.sub, c.record)], tries := Tbl.ins c.sub n v.tries, used := max v.used n })
    s.bump F.slcCnt0Retries

/-- A slice hardware fault under a context: its sub-part restarts up to the retry count, and then fails (R208, R217). A
shadow that loses its slice is dropped. -/
def State.hwFault (s : State) (cx : Nat) : State :=
  match s.ctx cx with
  | none => s
  | some c =>
    if c.shadowOf.isSome then s.dropCtx cx
    else
      match s.inv c.lsn, s.entry c.lsn with
      | some v, some e =>
        let s := s.bump F.slcCnt0Faults
        if v.tries.rd 0 c.sub < e.retries then s.restartSub cx else s.endSub cx St.poisoned 0x080D
      | _, _ => s.dropCtx cx

/-- Contexts on slices that satisfy a test lose their slice. -/
def State.loseSlices (s : State) (p : Nat → Bool) : State :=
  foldS (fun s cx => s.hwFault cx) s ((s.slc.ctxs.filter (fun e => p e.2.slice)).map Prod.fst)

/-! ### Running one step (R200, R201, R206, R211) -/

/-- The last step of the section a sub-part runs (R196, R220). -/
def Image.lastStep (i : Image) (sub : Nat) : Nat :=
  if sub ≠ finalSub && i.final ≠ 0 then i.final - 1 else i.steps.length - 1

/-- A register (R198, R200). -/
def Ctx.g (c : Ctx) (x : Nat) : Nat := (c.regs.getD (x % 32) 0).toNat

def Ctx.setG (c : Ctx) (x v : Nat) : Ctx := { c with regs := listMod c.regs (x % 32) (fun _ => BitVec.ofNat 64 v) }

/-- Where control goes when it falls past the last body step of its loops: the innermost loop runs again or ends (R211). -/
def closeLoops : List LoopSt → Nat → List W64 → Nat × List LoopSt × List W64
  | [], n, r => (n, [], r)
  | l :: rest, n, r =>
    if n = l.last + 1 then
      if l.idx + 1 < l.count then
        (l.first, { l with idx := l.idx + 1 } :: rest, listMod r l.reg (fun _ => BitVec.ofNat 64 (l.idx + 1)))
      else closeLoops rest n r
    else (n, l :: rest, r)

/-- What a step does to its context: it retires, retires with a jump, faults, or has not retired yet. -/
inductive StepOut where
  | next (s : State) (c : Ctx)
  | goto (s : State) (c : Ctx) (pc : Nat)
  | fault (s : State) (st d : Nat)
  | hold (s : State)

/-- A step about to run: its context, invocation, descriptor and the step. -/
structure Run where
  cx : Nat
  c : Ctx
  v : Inv
  e : Entry
  st : Step

/-- A step retires: it counts against the budget, control goes on, and a COMMIT step or the section's end ends the phase
(R206, R211). -/
def State.retire (s : State) (r : Run) (c : Ctx) (pc : Nat) : State :=
  let (pc, loops, regs) := closeLoops c.loops pc c.regs
  let status : CtxStatus := if r.st.commit || pc > r.v.img.lastStep c.sub then .commit 0 else .ready
  s.modCtx r.cx (fun _ =>
    { c with pc := pc, loops := loops, regs := regs, used := c.used + 1, status := status, pass := false })

/-- The outcome of a step takes effect. -/
def Run.finish (r : Run) (o : StepOut) : State :=
  match o with
  | .next s c => s.retire r c (c.pc + 1)
  | .goto s c pc => s.retire r c pc
  | .fault s st d => if d = 0x080D then s.hwFault r.cx else s.faultSub r.cx st d
  | .hold t => t

/-- The step a context stands at, when it may run: the descriptor runs, the slice is in service and has passed the present
bin (R407), and the budget allows it (R217). -/
def State.runOf (s : State) (cx : Nat) : Option Run :=
  match s.ctx cx with
  | none => none
  | some c =>
    match s.inv c.lsn, s.entry c.lsn with
    | some v, some e =>
      match v.img.steps[c.pc]? with
      | some st =>
        if e.running && !s.ldg.fenced && !(s.halting e) && s.sliceUp c.slice && s.sliceTested c.slice && c.used < v.img.budget &&
            c.lib.isNone then
          some { cx := cx, c := c, v := v, e := e, st := st }
        else none
      | none => none
    | _, _ => none

/-- Run a context's step when it is the primitive `p` names and the context stands ready, or waits as `w` allows. -/
def State.onStep (s : State) (cx : Nat) (p : Step → Bool) (f : Run → StepOut) (w : CtxStatus → Bool := fun _ => false) :
    State :=
  match s.runOf cx with
  | some r => if p r.st && (r.c.status = .ready || w r.c.status) then r.finish (f r) else s
  | none => s

/-- A step on registers and scratch alone. -/
def StepOut.ofExcept (s : State) (x : Except (Nat × Nat) Ctx) : StepOut :=
  match x with
  | .ok c => .next s c
  | .error (st, d) => .fault s st d

/-- A step that decodes: a table of another identity is counted (R168, R174). -/
def StepOut.ofDecode (s : State) (x : Except (Nat × Nat) Ctx) : StepOut :=
  match x with
  | .ok c => .next s c
  | .error (st, d) => .fault (s.when (d = 0x0605) (fun s => s.bump F.codecCnt3IdentMismatch)) st d

/-- 0x0801: operand out of range, invalid format pairing, length or alignment (R217). -/
def badOp : Nat × Nat := (St.malformed, 0x0801)

/-! ### Scratch (R198, R217) -/

/-- Bytes of a tile: 16 KiB (R195). -/
def tileSize : Nat := 16384

/-- A tile operand of `n` bytes lies in the context's tiles; otherwise 0x0802 (R198). -/
def Run.tileOk (r : Run) (t n : Nat) : Bool := t < r.v.img.scratch && tileSize * t + n ≤ tileSize * r.v.img.scratch

/-- Read `n` bytes from byte `off` of a tile. -/
def Run.rdTile (r : Run) (t off n : Nat) : Except (Nat × Nat) (List Byte) :=
  if r.tileOk t (off + n) then .ok (Bytes.rd r.c.scratch (tileSize * t + off) n) else .error (St.malformed, 0x0802)

/-- Write bytes from byte 0 of a tile. -/
def Run.wrTile (r : Run) (c : Ctx) (t : Nat) (data : List Byte) : Except (Nat × Nat) Ctx :=
  if r.tileOk t data.length then .ok { c with scratch := Bytes.wr c.scratch (tileSize * t) data }
  else .error (St.malformed, 0x0802)

/-- Little-endian words of `b` bytes. -/
def wordsOf (b : Nat) (l : List Byte) : List Nat := (chunks b l).map leNat

end Sys2Proof.Machine
end

