-- ==== Sys2Proof/Machine/Prims.lean ====
section
/-! DEFINITION. The compute primitives (R182–R192, R211–R213, R457): decode and encode, MAC, vector and scalar unit, softmax,
Quern, Sieve, selection, loops and branches. -/

namespace Sys2Proof.Machine

/-! ### Shared operand forms -/

/-- Bits [hi:lo] of a step's immediate word. -/
def Step.i (st : Step) (hi lo : Nat) : Nat := bits st.imm.toNat hi lo

/-- Bits [hi:lo] of a step's modifiers. -/
def Step.m (st : Step) (hi lo : Nat) : Nat := bits st.mod hi lo

/-- Continue where the first part succeeds. -/
def andThen {α β : Type} (x : Except (Nat × Nat) α) (f : α → Except (Nat × Nat) β) : Except (Nat × Nat) β :=
  match x with
  | .ok a => f a
  | .error e => .error e

/-- A step with an operand outside its range faults with 0x0801 (R211, R217). -/
def require {α : Type} (b : Bool) (x : Except (Nat × Nat) α) : Except (Nat × Nat) α := if b then x else .error badOp

/-- `n` FP32 elements from byte 0 of a tile, as bit patterns. -/
def Run.rd32 (r : Run) (t n : Nat) : Except (Nat × Nat) (List Nat) :=
  andThen (r.rdTile t 0 (4 * n)) (fun b => .ok (wordsOf 4 b))

/-- Bytes of FP32 patterns. -/
def bytes32 (l : List Nat) : List Byte := (l.map (leBytes 4)).flatten

/-- Write FP32 patterns from byte 0 of a tile. -/
def Run.wr32 (r : Run) (c : Ctx) (t : Nat) (l : List Nat) : Except (Nat × Nat) Ctx := r.wrTile c t (bytes32 l)

/-- The codec slot and identity a binding's version records for UZ-KC, while that slot still holds them; otherwise 0x0611 or
0x0605 (R168, R169, R172, R211). -/
def State.kcBind (s : State) (r : Run) (k : Nat) : Except (Nat × Nat) KcTable :=
  match r.v.binds.getD k none with
  | none => .error (St.denied, 0x0803)
  | some b =>
    match (match s.version b.region b.version with | some v => v.slotRec | none => none) with
    | none => .error (St.denied, 0x0611)
    | some (slot, ident) =>
      if (s.cslot slot).st ≠ .loaded || (s.cslot slot).kind ≠ 2 then .error (St.denied, 0x0611)
      else if (s.cslot slot).ident ≠ ident then .error (St.poisoned, 0x0605)
      else .ok (s.kcOf slot)

/-- The code books a format needs: none unless it is UZ-KC. -/
def State.kcFor (s : State) (r : Run) (fmt k : Nat) : Except (Nat × Nat) KcTable :=
  if fmt = fmtKc then s.kcBind r k else .ok {}

/-- Block formats: 0x10–0x14 and 0x20–0x23 (R150). -/
def fmtBlock (c : Nat) : Bool := (fmtUnit c).isSome && 0x10 ≤ c

/-- Element formats: 0x01–0x07 (R175). -/
def fmtElem (c : Nat) : Bool := 1 ≤ c && c ≤ 7

/-- Elements and bytes of a unit, of a format that has them. -/
def unitOf (c : Nat) : Nat × Nat := (fmtUnit c).getD (1, 1)

/-! ### DECODE and ENCODE (R211, R157, R180) -/

/-- DECODE: whole source units into elements, each rounded once. -/
def Run.decode (r : Run) (kc : KcTable) : Except (Nat × Nat) Ctx :=
  let sf := r.st.m 7 0
  let ef := r.st.m 15 8
  let n := r.st.i 15 0
  let (se, sb) := unitOf sf
  let eb := (unitOf ef).2
  require (fmtBlock sf && fmtElem ef && n % se = 0 && n * eb ≤ tileSize)
    (andThen (r.rdTile r.st.b 0 (n / se * sb)) (fun b =>
      r.wrTile r.c r.st.a (((rangeDec kc sf b).map (fun x => leBytes eb (elemEnc ef x))).flatten)))

/-- DECODE (R211). -/
def execDecode (cx : Nat) (s : State) : Host.Outcome State Fault Refusal :=
  .next (s.onStep cx (fun st => st.op = 0x03) (fun r =>
    .ofDecode s (andThen (s.kcFor r (r.st.m 7 0) r.st.d) (fun kc => r.decode kc))))

/-- ENCODE: FP32 elements into whole target units; the number counts blocks written as NaN. -/
def Run.encode (r : Run) (kc : KcTable) : Except (Nat × Nat) (Ctx × Nat) :=
  let tf := r.st.m 15 8
  let n := r.st.i 15 0
  require (fmtBlock tf && n % (unitOf tf).1 = 0)
    (andThen (r.rd32 r.st.b n) (fun xs =>
      let (out, nans) := rangeEnc kc tf (xs.map f32.dec)
      andThen (r.wrTile r.c r.st.a out) (fun c => .ok (c, nans))))

/-- The slot of an ENCODE into UZ-KC: the named slot, recorded in the WRITE binding's open version (R169, R171). -/
def State.encodeSlot (s : State) (r : Run) : State × Option (Nat × Nat) :=
  if r.st.m 15 8 ≠ fmtKc then (s, none)
  else
    match r.v.binds.getD r.st.d none with
    | none => (s, some (St.denied, 0x0803))
    | some b =>
      if !b.write then (s, some (St.denied, 0x0803))
      else
        match s.nameSlot r.e.tenant (r.st.i 19 16) 2 with
        | some f => (s, some f)
        | none => s.recordSlot b.region b.version (r.st.i 19 16)

/-- ENCODE (R211). -/
def execEncode (cx : Nat) (s : State) : Host.Outcome State Fault Refusal :=
  .next (s.onStep cx (fun st => st.op = 0x04) (fun r =>
    match s.encodeSlot r with
    | (_, some (st, d)) => .fault s st d
    | (t, none) =>
      match r.encode (s.kcOf (r.st.i 19 16)) with
      | .error (st, d) => .fault s st d
      | .ok (c, nans) => .next (t.bump F.codecCnt0NanBlocks 0 0 nans) c))

/-! ### MAC_TILE (R182, R183, R457) -/

/-- Products per group of a format pairing, if R182, R183 and R211 allow the pairing. -/
def macGroupOf (fa fb : Nat) : Option Nat :=
  let fp8 := fun (c : Nat) => c = 4 || c = 5
  let wide := fun (c : Nat) => c = 2 || c = 3
  let uzk := fun (c : Nat) => c = 0x20 || c = 0x21 || c = 0x22
  if fa = 6 && fb = 6 then some 8
  else if fa = 0x14 && (fb = 0x14 || fb = 0x23) then some 16
  else if (fp8 fa || wide fa) && uzk fb then some 8
  else if (fp8 fa && (fp8 fb || wide fb)) || (wide fa && (fp8 fb || fa = fb)) then some 8
  else none

/-- A matrix in a tile from a byte offset: row after row with no gap, rows in block formats in whole blocks; one that does
not fit its tile faults with 0x0801 (R457). -/
def Run.matrix (r : Run) (kc : KcTable) (t off fmt rows cols : Nat) : Except (Nat × Nat) (List (List Num)) :=
  if fmt = 0x23 then
    require (off = 0 && rows ≤ 120 && cols ≤ 256)
      (andThen (r.rdTile t 0 tileSize) (fun b =>
        .ok (((chunks 256 (w4Dec b)).take rows).map (fun l => l.take cols))))
  else
    let (n, b) := unitOf fmt
    let rb := cols / n * b
    require (cols % n = 0 && off + rb * rows ≤ tileSize)
      (andThen (r.rdTile t off (rb * rows)) (fun m => .ok ((chunks rb m).map (rangeDec kc fmt))))

/-- Column j of a matrix. -/
def column (m : List (List Num)) (j : Nat) : List Num := m.map (fun l => l.getD j .zero)

/-- The integer an exact INT8 value stands for. -/
def Num.toI (x : Num) : Int := toIntSat (-128) 127 x

/-- One output of MAC_TILE. -/
def macOut (fa g c0 : Nat) (a b : List Num) : Nat :=
  if fa = 6 then macDotInt c0 (a.map Num.toI) (b.map Num.toI) else f32.enc (macDot g (f32.dec c0) a b)

/-- MAC_TILE: C = C0 + A × B. -/
def Run.mac (r : Run) (kc : KcTable) : Except (Nat × Nat) Ctx :=
  let st := r.st
  let fa := st.i 7 0
  let fb := st.i 15 8
  let k := st.i 28 16
  let m := 8 * (st.i 35 32 + 1)
  let n := 8 * (st.i 39 36 + 1)
  let bt := st.i 40 40 = 1
  match macGroupOf fa fb with
  | none => .error badOp
  | some g =>
    require (8 ≤ k && k ≤ 4096 && k % g = 0 && m * n ≤ 4096 && (fb ≠ 0x23 || bt))
      (andThen (r.matrix kc st.a 0 fa m k) (fun am =>
        andThen (if bt then r.matrix kc st.b (st.m 13 0) fb n k else r.matrix kc st.b (st.m 13 0) fb k n) (fun bm =>
          andThen (if st.i 41 41 = 1 then .ok (List.replicate (m * n) 0) else r.rd32 st.c (m * n)) (fun c0 =>
            let cols := if bt then bm else (List.range n).map (column bm)
            let out := (am.zipIdx.map (fun row => cols.zipIdx.map (fun col =>
              macOut fa g (c0.getD (row.2 * n + col.2) 0) row.1 col.1))).flatten
            r.wr32 r.c st.c out))))

/-- MAC_TILE (R457). -/
def execMacTile (cx : Nat) (s : State) : Host.Outcome State Fault Refusal :=
  .next (s.onStep cx (fun st => st.op = 0x05) (fun r =>
    .ofDecode s (andThen (s.kcFor r (r.st.i 15 8) r.st.d) (fun kc => r.mac kc))))

/-! ### VEC_ALU, vector forms (R184, R212) -/

/-- An operation code of R212. -/
def vecCode (c : Nat) : Bool := c ≤ 0x0F || (0x80 ≤ c && c ≤ 0x8B)

/-- The step is VEC_ALU with an operation; an operation code outside R212 faults whichever form meets it. -/
def isVec (code : Nat) (st : Step) : Bool := st.op = 0x06 && (st.m 7 0 = code || !(vecCode (st.m 7 0)))

/-- Elements of a vector form. -/
def Step.n (st : Step) : Nat := st.i 15 0

/-- A form on one tile. -/
def Run.vec1 (r : Run) (f : Nat → Nat) : Except (Nat × Nat) Ctx :=
  andThen (r.rd32 r.st.b r.st.n) (fun b => r.wr32 r.c r.st.a (b.map f))

/-- A form on two tiles. -/
def Run.vec2 (r : Run) (f : Nat → Nat → Nat) : Except (Nat × Nat) Ctx :=
  andThen (r.rd32 r.st.b r.st.n) (fun b => andThen (r.rd32 r.st.c r.st.n) (fun c => r.wr32 r.c r.st.a (List.zipWith f b c)))

/-- A form on rows of W elements: W divides n, and is not 0; otherwise the operands are refused (log entry 200). -/
def Run.vecRows (r : Run) (f : List Nat → Except (Nat × Nat) (List Nat)) : Except (Nat × Nat) Ctx :=
  let w := r.st.i 31 16
  require (w ≠ 0 && r.st.n % w = 0)
    (andThen (r.rd32 r.st.b r.st.n) (fun b => andThen (f b) (fun out => r.wr32 r.c r.st.a out)))

/-- A NaN pattern becomes the canonical NaN (R179). -/
def canon32 (a : Nat) : Nat := f32.enc (f32.dec a)

/-- Run a VEC_ALU step. -/
def State.vec (s : State) (cx code : Nat) (f : Run → Except (Nat × Nat) Ctx) : State :=
  s.onStep cx (isVec code) (fun r => .ofExcept s (require (r.st.m 7 0 = code) (f r)))

/-- VEC_ADD (R212). -/
def execVecAdd (cx : Nat) (s : State) : Host.Outcome State Fault Refusal := .next (s.vec cx 0x00 (fun r => r.vec2 add32))

/-- VEC_SUB (R212). -/
def execVecSub (cx : Nat) (s : State) : Host.Outcome State Fault Refusal := .next (s.vec cx 0x01 (fun r => r.vec2 sub32))

/-- VEC_MUL (R212). -/
def execVecMul (cx : Nat) (s : State) : Host.Outcome State Fault Refusal := .next (s.vec cx 0x02 (fun r => r.vec2 mul32))

/-- VEC_FMA: B × C + D (R212). -/
def Run.vecFma (r : Run) : Except (Nat × Nat) Ctx :=
  andThen (r.rd32 r.st.b r.st.n) (fun b => andThen (r.rd32 r.st.c r.st.n) (fun c => andThen (r.rd32 r.st.d r.st.n) (fun d =>
    r.wr32 r.c r.st.a ((b.zip (c.zip d)).map (fun x => fma32 x.1 x.2.1 x.2.2)))))

/-- VEC_FMA (R212). -/
def execVecFma (cx : Nat) (s : State) : Host.Outcome State Fault Refusal := .next (s.vec cx 0x03 Run.vecFma)

/-- VEC_DIV (R212). -/
def execVecDiv (cx : Nat) (s : State) : Host.Outcome State Fault Refusal := .next (s.vec cx 0x04 (fun r => r.vec2 div32))

/-- VEC_SQRT (R212). -/
def execVecSqrt (cx : Nat) (s : State) : Host.Outcome State Fault Refusal := .next (s.vec cx 0x05 (fun r => r.vec1 sqrt32))

/-- VEC_EXP2 (R212). -/
def execVecExp2 (cx : Nat) (s : State) : Host.Outcome State Fault Refusal := .next (s.vec cx 0x06 (fun r => r.vec1 exp232))

/-- VEC_LOG2 (R212). -/
def execVecLog2 (cx : Nat) (s : State) : Host.Outcome State Fault Refusal := .next (s.vec cx 0x07 (fun r => r.vec1 log232))

/-- VEC_RCP (R212). -/
def execVecRcp (cx : Nat) (s : State) : Host.Outcome State Fault Refusal := .next (s.vec cx 0x08 (fun r => r.vec1 rcp32))

/-- VEC_RSQRT (R212). -/
def execVecRsqrt (cx : Nat) (s : State) : Host.Outcome State Fault Refusal := .next (s.vec cx 0x09 (fun r => r.vec1 rsqrt32))

/-- VEC_MIN (R212). -/
def execVecMin (cx : Nat) (s : State) : Host.Outcome State Fault Refusal := .next (s.vec cx 0x0A (fun r => r.vec2 min32))

/-- VEC_MAX (R212). -/
def execVecMax (cx : Nat) (s : State) : Host.Outcome State Fault Refusal := .next (s.vec cx 0x0B (fun r => r.vec2 max32))

/-- MUL_ROW: each W-element row of B times the row's element in C. -/
def Run.vecMulRow (r : Run) : Except (Nat × Nat) Ctx :=
  let w := r.st.i 31 16
  r.vecRows (fun b => andThen (r.rd32 r.st.c (r.st.n / w)) (fun c =>
    .ok (b.zipIdx.map (fun x => mul32 x.1 (c.getD (x.2 / w) 0)))))

/-- VEC_MUL_ROW (R212). -/
def execVecMulRow (cx : Nat) (s : State) : Host.Outcome State Fault Refusal := .next (s.vec cx 0x0C Run.vecMulRow)

/-- Combine a row from its first element on, in ascending order (R184). -/
def foldRow (f : Nat → Nat → Nat) (l : List Nat) : Nat :=
  match l with
  | [] => 0
  | a :: rest => canon32 (rest.foldl f a)

/-- VEC_SUM_ROW (R212). -/
def execVecSumRow (cx : Nat) (s : State) : Host.Outcome State Fault Refusal :=
  .next (s.vec cx 0x0D (fun r => r.vecRows (fun b => .ok ((chunks (r.st.i 31 16) b).map (foldRow add32)))))

/-- VEC_MAX_ROW (R212). -/
def execVecMaxRow (cx : Nat) (s : State) : Host.Outcome State Fault Refusal :=
  .next (s.vec cx 0x0E (fun r => r.vecRows (fun b => .ok ((chunks (r.st.i 31 16) b).map (foldRow max32)))))

/-- VEC_SCALE (R212). -/
def execVecScale (cx : Nat) (s : State) : Host.Outcome State Fault Refusal :=
  .next (s.vec cx 0x0F (fun r => r.vec1 (fun x => mul32 x (r.st.i 63 32))))

/-! ### VEC_ALU, scalar forms (R212) -/

/-- GA receives a value, modulo 2^64. -/
def Run.setA (r : Run) (v : Nat) : Except (Nat × Nat) Ctx := .ok (r.c.setG r.st.a v)

/-- Registers GB and GC. -/
def Run.gb (r : Run) : Nat := r.c.g r.st.b
def Run.gc (r : Run) : Nat := r.c.g r.st.c

/-- SCALAR_MOVI (R212). -/
def execScalarMovi (cx : Nat) (s : State) : Host.Outcome State Fault Refusal :=
  .next (s.vec cx 0x80 (fun r => r.setA r.st.imm.toNat))

/-- SCALAR_ADD (R212). -/
def execScalarAdd (cx : Nat) (s : State) : Host.Outcome State Fault Refusal :=
  .next (s.vec cx 0x81 (fun r => r.setA (r.gb + r.gc)))

/-- SCALAR_ADDI (R212). -/
def execScalarAddi (cx : Nat) (s : State) : Host.Outcome State Fault Refusal :=
  .next (s.vec cx 0x82 (fun r => r.setA (r.gb + r.st.imm.toNat)))

/-- SCALAR_SUB (R212). -/
def execScalarSub (cx : Nat) (s : State) : Host.Outcome State Fault Refusal :=
  .next (s.vec cx 0x83 (fun r => r.setA (r.gb + 2 ^ 64 - r.gc)))

/-- SCALAR_MUL (R212). -/
def execScalarMul (cx : Nat) (s : State) : Host.Outcome State Fault Refusal :=
  .next (s.vec cx 0x84 (fun r => r.setA (r.gb * r.gc)))

/-- SCALAR_SHL (R212). -/
def execScalarShl (cx : Nat) (s : State) : Host.Outcome State Fault Refusal :=
  .next (s.vec cx 0x85 (fun r => r.setA (r.gb * 2 ^ (r.gc % 64))))

/-- SCALAR_SHR (R212). -/
def execScalarShr (cx : Nat) (s : State) : Host.Outcome State Fault Refusal :=
  .next (s.vec cx 0x86 (fun r => r.setA (r.gb / 2 ^ (r.gc % 64))))

/-- SCALAR_AND (R212). -/
def execScalarAnd (cx : Nat) (s : State) : Host.Outcome State Fault Refusal :=
  .next (s.vec cx 0x87 (fun r => r.setA (Nat.land r.gb r.gc)))

/-- SCALAR_OR (R212). -/
def execScalarOr (cx : Nat) (s : State) : Host.Outcome State Fault Refusal :=
  .next (s.vec cx 0x88 (fun r => r.setA (Nat.lor r.gb r.gc)))

/-- SCALAR_XOR (R212). -/
def execScalarXor (cx : Nat) (s : State) : Host.Outcome State Fault Refusal :=
  .next (s.vec cx 0x89 (fun r => r.setA (Nat.xor r.gb r.gc)))

/-- The scratch address of LD and ST: 8-byte aligned and inside the context's tiles. -/
def Run.scalarAddr (r : Run) : Except (Nat × Nat) Nat :=
  let a := (r.gb + r.st.imm.toNat) % 2 ^ 64
  require (a % 8 = 0 && a + 8 ≤ tileSize * r.v.img.scratch) (.ok a)

/-- SCALAR_LD (R212). -/
def execScalarLd (cx : Nat) (s : State) : Host.Outcome State Fault Refusal :=
  .next (s.vec cx 0x8A (fun r => andThen r.scalarAddr (fun a => r.setA (leNat (Bytes.rd r.c.scratch a 8)))))

/-- SCALAR_ST (R212). -/
def execScalarSt (cx : Nat) (s : State) : Host.Outcome State Fault Refusal :=
  .next (s.vec cx 0x8B (fun r => andThen r.scalarAddr (fun a =>
    .ok { r.c with scratch := Bytes.wr r.c.scratch a (leBytes 8 r.gc) })))

/-! ### SOFTMAX_STEP (R213) -/

/-- One row: the new state (m, l, c) and the probabilities as FP32 patterns before they are rounded into A. -/
def softmaxRow (m l : Nat) (row : List Nat) : Nat × Nat × Nat × List Nat :=
  let m2 := row.foldl max32 m
  if f32.dec m2 = .inf true then
    let p := row.map (fun _ => 0)
    (m2, add32 (mul32 l (f32.enc (.ofInt 1))) (foldRow add32 p), f32.enc (.ofInt 1), p)
  else
    let c := exp232 (sub32 m m2)
    let p := row.map (fun x => exp232 (sub32 x m2))
    (m2, add32 (mul32 l c) (foldRow add32 p), c, p)

/-- SOFTMAX_STEP: the online update of every row. -/
def Run.softmax (r : Run) : Except (Nat × Nat) Ctx :=
  let f := r.st.m 7 0
  let rows := r.st.i 7 0
  let cols := r.st.i 23 8
  require ((f = 1 || f = 2 || f = 4) && 1 ≤ rows && rows ≤ 64 && 1 ≤ cols && cols ≤ 4096)
    (andThen (r.rd32 r.st.b (rows * cols)) (fun sc => andThen (r.rd32 r.st.c (3 * rows)) (fun m =>
      let out := ((chunks cols sc).zip (chunks 3 m)).map (fun x => softmaxRow (x.2.getD 0 0) (x.2.getD 1 0) x.1)
      let p := (out.map (fun o => (o.2.2.2.map (fun x => leBytes (unitOf f).2 (elemEnc f (f32.dec x)))).flatten)).flatten
      andThen (r.wrTile r.c r.st.a p) (fun c =>
        r.wr32 c r.st.c ((out.map (fun o => [o.1, o.2.1, o.2.2.1])).flatten)))))

/-- SOFTMAX_STEP (R213). -/
def execSoftmaxStep (cx : Nat) (s : State) : Host.Outcome State Fault Refusal :=
  .next (s.onStep cx (fun st => st.op = 0x07) (fun r => .ofExcept s r.softmax))

/-! ### Quern (R185–R190) -/

/-- The bank of EXACT_ACC and EXACT_ROUND: one of the declared ones. -/
def Run.bank (r : Run) : Except (Nat × Nat) (List Lane) :=
  match r.c.quern[r.st.m 9 8]? with
  | some b => .ok b
  | none => .error badOp

/-- A cleared bank of 64 lanes (R185). -/
def clearBank : List Lane := List.replicate 64 {}

/-- An addend of a lane (R186): an exact value, or a QW40 element. -/
inductive Addend where
  | num (x : Num)
  | qw (b : Nat)
  deriving DecidableEq, Repr

/-- Add an addend to a lane (R186, R190). -/
def Lane.addOne (l : Lane) : Addend → Lane
  | .num x => l.addNum x
  | .qw b => l.addQw b

/-- The addends of a row of elements: integers as they are, QW40 partials whole, every other element as the FP32 value it
converts to (R186). -/
def addends (kc : KcTable) (fmt : Nat) (row : List Byte) : List Addend :=
  if fmt = fmtQw then (wordsOf 40 row).map Addend.qw
  else (rangeDec kc fmt row).map (fun x => Addend.num (if fmt = 6 || fmt = 7 then x else toF32 x))

/-- Add rows of addends to a bank's first lanes; none when a lane's N would pass 2^31 (R187). -/
def addRows : List Lane → List (List Addend) → Option (List Lane)
  | ls, [] => some ls
  | ls, row :: rest =>
    if (ls.zip row).any (fun x => x.1.n ≥ 2 ^ 31) then none
    else addRows (ls.zipIdx.map (fun x => match row[x.2]? with | some a => x.1.addOne a | none => x.1)) rest

/-- The formats EXACT_ACC takes: element formats, QW40, and block formats (R186; log entry 60). -/
def accFormat (f : Nat) : Bool := fmtElem f || f = fmtQw || fmtBlock f

/-- EXACT_ACC: rows of elements, one after another in whole units, added lane by lane (R186; log entry 60). -/
def Run.exactAcc (r : Run) (kc : KcTable) : Except (Nat × Nat) Ctx :=
  let f := r.st.m 7 0
  let rows := r.st.i 15 0
  let lanes := r.st.i 22 16
  let (n, b) := unitOf f
  andThen r.bank (fun bank =>
    require (accFormat f && rows ≤ 4096 && (rows = 0 || (1 ≤ lanes && lanes ≤ 64 && rows * lanes % n = 0)))
      (andThen (r.rdTile r.st.a 0 (rows * lanes / n * b)) (fun m =>
        let bank := if r.st.m 10 10 = 1 then clearBank else bank
        match addRows bank (chunks lanes (addends kc f m)) with
        | none => .error (St.malformed, 0x0804)
        | some l => .ok { r.c with quern := listMod r.c.quern (r.st.m 9 8) (fun _ => l) })))

/-- EXACT_ACC (R186). -/
def execExactAcc (cx : Nat) (s : State) : Host.Outcome State Fault Refusal :=
  .next (s.onStep cx (fun st => st.op = 0x08) (fun r =>
    .ofDecode s (andThen (s.kcFor r (r.st.m 7 0) r.st.d) (fun kc => r.exactAcc kc))))

/-- The bytes of lanes in an output format: QW40, an element format, or whole blocks of one, with the number of blocks
written as NaN (R157, R188). UZ-KC, for which the step names no table, is no output format (log entry 60). -/
def roundLanes (f : Nat) (ls : List Lane) : Option (List Byte × Nat) :=
  if f = fmtQw then some ((ls.map (fun l => leBytes 40 l.qw)).flatten, 0)
  else if fmtElem f then some ((ls.map (fun l => leBytes (unitOf f).2 (elemEnc f l.value))).flatten, 0)
  else if fmtBlock f && f ≠ fmtKc && ls.length % (unitOf f).1 = 0 then some (rangeEnc {} f (ls.map Lane.value))
  else none

/-- EXACT_ROUND: lane j as element j; the number counts blocks written as NaN. -/
def Run.exactRound (r : Run) : Except (Nat × Nat) (Ctx × Nat) :=
  let lanes := r.st.i 22 16
  andThen r.bank (fun bank =>
    require (1 ≤ lanes && lanes ≤ 64)
      (match roundLanes (r.st.m 7 0) (bank.take lanes) with
       | none => .error badOp
       | some (out, nans) =>
         andThen (r.wrTile r.c r.st.a out) (fun c =>
           .ok (if r.st.m 10 10 = 1 then { c with quern := listMod c.quern (r.st.m 9 8) (fun _ => clearBank) } else c, nans))))

/-- EXACT_ROUND (R188). -/
def execExactRound (cx : Nat) (s : State) : Host.Outcome State Fault Refusal :=
  .next (s.onStep cx (fun st => st.op = 0x09) (fun r =>
    match r.exactRound with
    | .error (st, d) => .fault s st d
    | .ok (c, nans) => .next (s.bump F.codecCnt0NanBlocks 0 0 nans) c))

/-! ### Sieve (R211) -/

/-- Set bits of a number of at most `n` bits. -/
def popcount (n v : Nat) : Nat := ((List.range n).filter (fun i => bit v i)).length

/-- XOR_POPCOUNT: the distances of candidates to a query. -/
def Run.xorPopcount (r : Run) : Except (Nat × Nat) Ctx :=
  let w := r.st.i 15 0
  let n := r.st.i 31 16
  require (64 ≤ w && w ≤ 4096 && w % 64 = 0)
    (andThen (r.rdTile r.st.b 0 (w / 8)) (fun q => andThen (r.rdTile r.st.c 0 (w / 8 * n)) (fun c =>
      r.wrTile r.c r.st.a (((wordsOf (w / 8) c).map (fun x => leBytes 2 (popcount w (Nat.xor (leNat q) x)))).flatten))))

/-- XOR_POPCOUNT (R211). -/
def execXorPopcount (cx : Nat) (s : State) : Host.Outcome State Fault Refusal :=
  .next (s.onStep cx (fun st => st.op = 0x0C) (fun r => .ofExcept s r.xorPopcount))

/-- The order of FP32 keys as integers; both zeros are equal. -/
def fkey (k : Nat) : Int := if bit k 31 then -(k % 2 ^ 31 : Nat) else (k % 2 ^ 31 : Nat)

/-- Entry a is kept before entry b: the better key, then the lower payload (R211). -/
def heapBefore (fp big : Bool) (a b : Nat × W64) : Bool :=
  let x : Int := if fp then fkey a.1 else a.1
  let y : Int := if fp then fkey b.1 else b.1
  if x = y then a.2.toNat < b.2.toNat else if big then y < x else x < y

/-- Insert into a heap kept best first. -/
def heapIns (before : Nat × W64 → Nat × W64 → Bool) (a : Nat × W64) : List (Nat × W64) → List (Nat × W64)
  | [] => [a]
  | b :: rest => if before a b then a :: b :: rest else b :: heapIns before a rest

/-- HEAP_INSERT: the best img.heap entries stay; NaN keys are skipped. -/
def Run.heapInsert (r : Run) : Except (Nat × Nat) Ctx :=
  let fp := r.st.m 0 0 = 1
  let n := r.st.i 15 0
  let ks := if fp then 4 else 2
  let cap := r.v.img.heap
  andThen (r.rdTile r.st.a 0 (ks * n)) (fun k => andThen (r.rdTile r.st.b 0 (8 * n)) (fun p =>
    let es := ((wordsOf ks k).zip (wordsOf 8 p)).filter (fun x => !(fp && (f32.dec x.1).isNan))
    let h := es.foldl (fun h x =>
      (heapIns (heapBefore fp (r.st.m 1 1 = 1)) (x.1, BitVec.ofNat 64 x.2) h).take cap) r.c.heap
    let worst := if cap = 0 || h.length < cap then 2 ^ 64 - 1 else (match h.getLast? with | some x => x.1 | none => 0)
    .ok ({ r.c with heap := h }.setG r.st.d worst)))

/-- HEAP_INSERT (R211). -/
def execHeapInsert (cx : Nat) (s : State) : Host.Outcome State Fault Refusal :=
  .next (s.onStep cx (fun st => st.op = 0x0D) (fun r => .ofExcept s r.heapInsert))

/-- HEAP_DRAIN: 16-byte entries, best first; the heap is empty afterwards. -/
def Run.heapDrain (r : Run) : Except (Nat × Nat) Ctx :=
  let out := (r.c.heap.map (fun x => leBytes 8 x.1 ++ leBytes 8 x.2.toNat)).flatten
  andThen (r.wrTile r.c r.st.a out) (fun c => .ok ({ c with heap := [] }.setG r.st.b r.c.heap.length))

/-- HEAP_DRAIN (R211). -/
def execHeapDrain (cx : Nat) (s : State) : Host.Outcome State Fault Refusal :=
  .next (s.onStep cx (fun st => st.op = 0x0E) (fun r => .ofExcept s r.heapDrain))

/-! ### Selection (R211) -/

/-- x ≤ y of two values that are not NaN. -/
def Num.le (x y : Num) : Bool := !(y.lt x)

/-- A predicate of COMPARE_SELECT on exact values; NaN fails every one except NE. Predicates 0 to 5 compare with lo. -/
def predHolds (p : Nat) (x lo hi : Num) : Bool :=
  if x.isNan || lo.isNan || (p = 6 && hi.isNan) then p = 3
  else
    match p with
    | 0 => x.lt lo
    | 1 => x.le lo
    | 2 => x.le lo && lo.le x
    | 3 => !(x.le lo && lo.le x)
    | 4 => lo.le x
    | 5 => lo.lt x
    | _ => lo.le x && x.le hi

/-- COMPARE_SELECT: a mask of the elements that satisfy the predicate, and their count. -/
def Run.compareSelect (r : Run) : Except (Nat × Nat) Ctx :=
  let f := r.st.m 7 0
  let p := r.st.m 11 8
  let n := r.gc
  let b := (unitOf f).2
  require ((f = 1 || f = 2 || f = 3 || f = 6 || f = 7) && p ≤ 6)
    (andThen (r.rdTile r.st.b 0 (n * b)) (fun m =>
      let hit := (wordsOf b m).map (fun x => predHolds p (elemDec f x) (f32.dec (r.st.i 31 0)) (f32.dec (r.st.i 63 32)))
      andThen (r.wrTile r.c r.st.a (bitsToBytes hit)) (fun c => .ok (c.setG r.st.d (hit.filter id).length))))

/-- COMPARE_SELECT (R211). -/
def execCompareSelect (cx : Nat) (s : State) : Host.Outcome State Fault Refusal :=
  .next (s.onStep cx (fun st => st.op = 0x0F) (fun r => .ofExcept s r.compareSelect))

/-- COMPACT: the rows a mask selects, in order. -/
def Run.compact (r : Run) : Except (Nat × Nat) Ctx :=
  let rb := r.st.i 15 0
  let rows := r.st.i 31 16
  require (rb % 8 = 0)
    (andThen (r.rdTile r.st.b 0 (rb * rows)) (fun m => andThen (r.rdTile r.st.c 0 ((rows + 7) / 8)) (fun k =>
      let sel := ((chunks rb m).zip (bytesToBits k)).filterMap (fun x => if x.2 then some x.1 else none)
      andThen (r.wrTile r.c r.st.a sel.flatten) (fun c => .ok (c.setG r.st.d sel.length)))))

/-- COMPACT (R211). -/
def execCompact (cx : Nat) (s : State) : Host.Outcome State Fault Refusal :=
  .next (s.onStep cx (fun st => st.op = 0x10) (fun r => .ofExcept s r.compact))

/-! ### Control (R211) -/

/-- LOOP (R211). -/
def execLoop (cx : Nat) (s : State) : Host.Outcome State Fault Refusal :=
  .next (s.onStep cx (fun st => st.op = 0x16) (fun r =>
    let last := r.st.i 7 0
    let count := if r.st.m 0 0 = 1 then r.st.i 47 16 else r.c.g r.st.a
    if count = 0 then .goto s r.c (last + 1)
    else
      let l : LoopSt := { first := r.c.pc + 1, last := last, reg := r.st.b % 32, idx := 0, count := count }
      .next s ({ r.c with loops := l :: r.c.loops }.setG r.st.b 0)))

/-- The condition of BRANCH_IF; none for a code outside the table. -/
def branchTaken (cond x y : Nat) : Option Bool :=
  match cond with
  | 0 => some (x = y)
  | 1 => some (x ≠ y)
  | 2 => some (sext 64 x < sext 64 y)
  | 3 => some (sext 64 y ≤ sext 64 x)
  | 4 => some (x < y)
  | 5 => some (y ≤ x)
  | _ => none

/-- BRANCH_IF (R211). -/
def execBranchIf (cx : Nat) (s : State) : Host.Outcome State Fault Refusal :=
  .next (s.onStep cx (fun st => st.op = 0x17) (fun r =>
    let y := if r.st.m 4 4 = 1 then toTwos 64 (sext 32 (r.st.i 63 32)) else r.gb
    match branchTaken (r.st.m 3 0) (r.c.g r.st.a) y with
    | none => .fault s badOp.1 badOp.2
    | some true => .goto s r.c (r.st.i 7 0)
    | some false => .next s r.c))

end Sys2Proof.Machine
end

