-- ==== Sys2Proof/Machine/MemSteps.lean ====
section
/-! DEFINITION. The memory, message and waiting primitives (R202–R206, R211, R214–R217, R261, R262): tiles, gathers, stage
entries, atomics, messages, marks and EMIT. -/

namespace Sys2Proof.Machine

/-! ### Bindings and hazards (R199, R205, R206, R217) -/

/-- A binding a step uses, for a byte range: absent, not WRITE for a write, or a range outside the region faults with 0x0803;
a page another module holds with 0x080C, a region lost with its module with 0x080B (R364). -/
def State.bindFor (s : State) (r : Run) (k off len : Nat) (write : Bool) : Except (Nat × Nat) Bind :=
  match r.v.binds.getD k none with
  | none => .error (St.denied, 0x0803)
  | some b =>
    if b.version = 0 then .error (St.poisoned, 0x080B) else
    match s.region b.region with
    | none => .error (St.denied, 0x0803)
    | some g =>
      if (write && !b.write) || off + len > g.size then .error (St.denied, 0x0803)
      else if (pageSpans off len).any (fun q => !(s.heldHere b.region q.1)) then .error (St.denied, 0x080C)
      else .ok b

/-- Two byte ranges share a 64-byte line. -/
def shareLine (a n b m : Nat) : Bool := a / 64 ≤ (b + m - 1) / 64 && b / 64 ≤ (a + n - 1) / 64

/-- Two bindings name one version. -/
def sameVersion (v : Inv) (b : Bind) (k : Nat) : Bool :=
  match v.binds.getD k none with
  | some x => x.region = b.region && x.version = b.version
  | none => false

/-- A staged entry on a line of the range makes the access a HAZARD: an ADD entry for a load, any entry for an ATOMIC
(R206). -/
def Run.hazard (r : Run) (b : Bind) (off len : Nat) (any : Bool) : Bool :=
  r.c.stage.any (fun e => (any || e.mode ≠ 0) && sameVersion r.v b e.bind && shareLine off len e.off e.bytes.length)

/-- Bytes of a range with the stage's plain stores in their place (R206). -/
def Run.overlay (r : Run) (b : Bind) (off : Nat) (data : List Byte) : List Byte :=
  r.c.stage.foldl (fun data e =>
    if e.mode = 0 && sameVersion r.v b e.bind then
      data.zipIdx.map (fun x =>
        if e.off ≤ off + x.2 && off + x.2 < e.off + e.bytes.length then e.bytes.getD (off + x.2 - e.off) 0 else x.1)
    else data) data

/-- The page table a binding reads: its version's, under a work run's own staging (R355). -/
def State.runPages (s : State) (v : Inv) (k : Nat) (b : Bind) : Tbl PageRef :=
  let base := match s.version b.region b.version with | some x => x.pages | none => []
  match v.staging.find? (fun t => sameVersion v b t.1 || t.1 = k) with
  | some t => t.2.foldl (fun acc e => Tbl.ins e.1 e.2 acc) base
  | none => base

/-- What the pages of a binding's range that are held here give. -/
def State.runRaw (s : State) (v : Inv) (k : Nat) (b : Bind) (off len : Nat) : Except (Nat × Nat) (List Byte × List Nat) :=
  let mirrored := match s.region b.region with | some g => g.mirrored | none => false
  s.readSpans mirrored (s.runPages v k b) v.startAt (pageSpans off len)

/-- Read a range of a binding held here. Poisoned or lost data is 0x080B (R217). -/
def State.runRead (s : State) (v : Inv) (k : Nat) (b : Bind) (off len : Nat) : Except (Nat × Nat) (List Byte) :=
  match s.runRaw v k b off len with
  | .ok (d, []) => .ok d
  | .ok _ => .error (St.poisoned, 0x080B)
  | .error (st, d) => .error (if st = St.poisoned then (st, 0x080B) else (st, d))

/-- The LP engines count the decode with which the first failing range of a read ended (R165, R174). -/
def State.countRun (s : State) (v : Inv) (k : Nat) (b : Bind) (len : Nat) : List Nat → State
  | [] => s
  | off :: rest =>
    match s.runRaw v k b off len with
    | .ok _ => State.countRun s v k b len rest
    | .error e => s.countLp e.2

/-- Several ranges; the lowest that fails decides. -/
def State.runReads (s : State) (r : Run) (k len : Nat) (b : Bind) : List Nat → Except (Nat × Nat) (List Byte)
  | [] => .ok []
  | off :: rest =>
    andThen (s.runRead r.v k b off len) (fun d => andThen (State.runReads s r k len b rest) (fun ds =>
      .ok (r.overlay b off d ++ ds)))

/-- The checks of a load's ranges, in order: 0x0803, 0x080C, 0x080A. -/
def State.checkLoads (s : State) (r : Run) (k len : Nat) : List Nat → Except (Nat × Nat) Unit
  | [] => .ok ()
  | off :: rest =>
    andThen (s.bindFor r k off len false) (fun b =>
      if r.hazard b off len false then .error (St.malformed, 0x080A) else State.checkLoads s r k len rest)

/-! ### Port sieves (R261, R262) -/

/-- The identity of a library recipe, when the slot is tenant 0's (R226, R248). -/
def State.libIdent (s : State) (e : Entry) : Nat := if (s.slc.slots.rd {} (bits (e.w 2) 7 0)).owner = 0 then e.ident else 0

/-- The CXL-down port behind which a page lies; a merged pair has its even port's sieve (R261). -/
def State.pagePort (s : State) (g : Page) : Nat :=
  match (s.decodersOf g.tier)[s.bankOf g.tier g.shelf]? with
  | some d => if (s.port d.1).x16 then d.1 - d.1 % 2 else d.1
  | none => 0

/-- Sketches of a read range: those that lie wholly in it, with the offset each starts at. -/
def sieveSketches (sk off : Nat) (data : List Byte) (w : Nat) : List (Nat × Nat) :=
  let skip := (w - (off - sk) % w) % w
  ((chunks w (data.drop skip)).zipIdx.filter (fun c => c.1.length = w)).map (fun c => (off + skip + w * c.2, leNat c.1))

/-- A read of HAMMING_TOPK's sketches with PORT_SIEVE set, of a width the sieves compare (R261). -/
def State.sieveOn (s : State) (r : Run) (off len : Nat) : Bool :=
  let p := r.v.params
  let width := leAt p 56 2
  s.libIdent r.e = 0x4B500401 && bit (leAt p 63 1) 0 && (width = 128 || width = 256 || width = 512 || width = 1024) &&
    leAt p 8 8 ≤ off && off + len ≤ leAt p 8 8 + (leAt p 32 8 * width / 8 + 63) / 64 * 64

/-- The port at which a near-tier read counts as fallen back: one whose slot the invocation holds, else the lowest CXL-down
port (R262; log entry 65). -/
def State.fallPort (s : State) (lsn : Nat) : Option Nat :=
  match (List.range 64).find? (fun n => (s.port n).sieve.any (· = lsn)) with
  | some n => some n
  | none => ((s.rgn.decoders.map (fun d => d.1)).foldl (fun m n => some (min n (m.getD n))) none)

/-- The part of a sketch read that lies in one page: through the port's sieve, or past it; counts and the program slot (R261,
R262, R271). -/
def State.sieveSpan (s : State) (r : Run) (b : Bind) (pg : Nat) (sketches : List Nat) : State :=
  let p := r.v.params
  let width := leAt p 56 2
  match (match s.version b.region b.version with | some v => v.pageAt pg | none => none) with
  | some (.page id) =>
    (match s.page id with
     | none => s
     | some g =>
       if g.tier = 0 then
         (match s.fallPort r.c.lsn with
          | some n => s.bump F.portSieveCnt2Fallback n
          | none => s)
       else
         let n := s.pagePort g
         let slots := (s.port n).sieve
         if !(s.flag F.portSieveCtlEnable n) || (slots.length ≥ 16 && !(slots.any (· = r.c.lsn))) then
           s.bump F.portSieveCnt2Fallback n
         else
           let rw := min (leAt p 60 2 + leAt p 62 1 % 16 * leAt p 64 2) width
           let q := leAt p 128 (width / 8)
           let hits := sketches.filter (fun x => popcount width (Nat.xor q x) ≤ rw)
           let s := s.modPort n (fun t => { t with sieve := listAdd r.c.lsn t.sieve })
           (s.bump F.portSieveCnt0Scanned n 0 sketches.length).bump F.portSieveCnt1Passed n 0 hits.length)
  | _ => s

/-- A read of sketches, page by page; a sketch belongs to the page it starts in. -/
def State.sieveRead (s : State) (r : Run) (b : Bind) (off : Nat) (data : List Byte) : State :=
  if !(s.sieveOn r off data.length) then s
  else
    let xs := sieveSketches (leAt r.v.params 8 8) off data (leAt r.v.params 56 2 / 8)
    (pageSpans off data.length).foldl (fun s q =>
      s.sieveSpan r b q.1 ((xs.filter (fun x => x.1 / 65536 = q.1)).map (fun x => x.2))) s

/-! ### Loads (R211) -/

/-- A context's read stalls: the context stands stalled (R113). -/
def State.stallCtx (s : State) (cx : Nat) : State := s.modCtx cx (fun c => { c with status := .stalled })

/-- What the primary of a shadow has logged for its next read (R408). -/
def State.shadowLog (s : State) (c : Ctx) : Option (List Byte) :=
  match c.shadowOf with
  | some p => (match s.ctx p with | some q => q.log[c.taken]? | none => none)
  | none => none

/-- A value a sampled sub-part reads is logged for its shadow; a shadow has taken one more (R408). -/
def Run.logged (r : Run) (c : Ctx) (d : List Byte) : Ctx :=
  if c.shadowOf.isSome then { c with taken := c.taken + 1 }
  else if r.v.shadow = some c.sub then { c with log := c.log ++ [d] }
  else c

/-- A load of ranges of one length into a tile. A shadow receives its primary's bytes (R408); a read below the near tier may
stall or return NOT_READY (R113, R114). -/
def State.loadRanges (s : State) (r : Run) (k len : Nat) (offs : List Nat) : StepOut :=
  let put := fun (s : State) (d : List Byte) =>
    match r.wrTile (r.logged r.c d) r.st.a d with
    | .ok c => StepOut.next s c
    | .error (st, x) => .fault s st x
  if r.c.shadowOf.isSome then
    match s.shadowLog r.c with
    | some d => put s d
    | none => .hold s
  else
    match s.checkLoads r k len offs, r.v.binds.getD k none with
    | .error (st, d), _ => .fault s st d
    | .ok _, none => put s []
    | .ok _, some b =>
      let pages := (offs.map (fun o => (pageSpans o len).map (fun q => q.1))).flatten
      match (if r.c.pass then (s, ReadWait.go) else s.tryStall (.ctx r.cx) r.e.tenant b.region b.version pages) with
      | (t, .stalled) => .hold (t.stallCtx r.cx)
      | (t, .notReady) => .fault t St.notReady 0x0411
      | (t, .go) =>
        match t.runReads r k len b offs with
        | .error (st, d) => .fault (t.countRun r.v k b len offs) st d
        | .ok d => put (offs.zipIdx.foldl (fun t o => (t.sieveRead r b o.1 ((d.drop (len * o.2)).take len)).trayRead b.region b.version o.1 len) t) d

/-- A length of LOAD_TILE and STORE_TILE. -/
def tileLen (n : Nat) : Bool := 64 ≤ n && n ≤ tileSize && n % 64 = 0

/-- LOAD_TILE (R211). -/
def execLoadTile (cx : Nat) (s : State) : Host.Outcome State Fault Refusal :=
  .next (s.onStep cx (fun st => st.op = 0x01) (fun r =>
    let n := r.st.i 15 0
    if !(tileLen n) || r.gb % 64 ≠ 0 then .fault s badOp.1 badOp.2
    else if !(r.tileOk r.st.a n) then .fault s St.malformed 0x0802
    else s.loadRanges r (r.st.m 2 0) n [r.gb]))

/-- The row offsets of GATHER and SCATTER: base + index × row bytes, from 32-bit row numbers in tile B. -/
def Run.rowOffsets (r : Run) (rows rb : Nat) : Except (Nat × Nat) (List Nat) :=
  andThen (r.rdTile r.st.b 0 (4 * rows)) (fun x => .ok ((wordsOf 4 x).map (fun i => r.gc + i * rb)))

/-- GATHER (R211). -/
def execGather (cx : Nat) (s : State) : Host.Outcome State Fault Refusal :=
  .next (s.onStep cx (fun st => st.op = 0x0A) (fun r =>
    let rb := r.st.i 15 0
    let rows := r.c.g r.st.d
    if rb % 8 ≠ 0 || rows * rb > tileSize then .fault s badOp.1 badOp.2
    else if !(r.tileOk r.st.a (rows * rb)) then .fault s St.malformed 0x0802
    else
      match r.rowOffsets rows rb with
      | .error (st, d) => .fault s st d
      | .ok offs => s.loadRanges r (r.st.m 2 0) rb offs))

/-- PREFETCH (R211): it never faults, and the read it starts changes no state. -/
def execPrefetch (cx : Nat) (s : State) : Host.Outcome State Fault Refusal :=
  .next (s.onStep cx (fun st => st.op = 0x11) (fun r => .next s r.c))

/-! ### Stage entries (R206, R211, R214) -/

/-- Add entries to the stage: the binding's checks, then 0x0805 beyond img.stage tiles of entry bytes. -/
def State.stageAll (s : State) (r : Run) (k mode : Nat) : Ctx → List (Nat × List Byte) → Except (Nat × Nat) Ctx
  | c, [] => .ok c
  | c, (off, data) :: rest =>
    andThen (s.bindFor r k off data.length true) (fun _ =>
      if sumOf (c.stage.map (fun e => e.bytes.length)) + data.length > r.v.img.stage * tileSize then
        .error (St.quota, 0x0805)
      else State.stageAll s r k mode { c with stage := c.stage ++ [{ bind := k, off := off, mode := mode, bytes := data }] } rest)

/-- STORE_TILE (R211). -/
def execStoreTile (cx : Nat) (s : State) : Host.Outcome State Fault Refusal :=
  .next (s.onStep cx (fun st => st.op = 0x02) (fun r =>
    let n := r.st.i 15 0
    .ofExcept s (require (tileLen n)
      (andThen (r.rdTile r.st.a 0 n) (fun d => s.stageAll r (r.st.m 2 0) 0 r.c [(r.gb, d)])))))

/-- SCATTER (R214). -/
def execScatter (cx : Nat) (s : State) : Host.Outcome State Fault Refusal :=
  .next (s.onStep cx (fun st => st.op = 0x0B) (fun r =>
    let rb := r.st.i 15 0
    let rows := r.c.g r.st.d
    let mode := r.st.m 5 4
    .ofExcept s (require (mode ≠ 3 && (mode ≠ 1 || rb % 4 = 0) && (mode ≠ 2 || rb % 40 = 0))
      (andThen (r.rdTile r.st.a 0 (rows * rb)) (fun d => andThen (r.rowOffsets rows rb) (fun offs =>
        s.stageAll r (r.st.m 2 0) mode r.c (offs.zip (chunks rb d))))))))

/-! ### Writes of a run (R71, R355) -/

/-- Write bytes of a running invocation into a WRITE binding: into its open version, or into a work run's staging. -/
def State.runWrite (s : State) (e : Entry) (v : Inv) (k off : Nat) (data : List Byte) : State × Option (Nat × Nat) :=
  match v.binds.getD k none with
  | none => (s, some (St.denied, 0x0803))
  | some b =>
    if e.workId = 0 then s.writeVersion b.region b.version off data false v.startAt e.job (.emit e.lsn 0)
    else
      match s.region b.region, s.inv e.lsn with
      | some g, some v =>
        let old := (v.staging.find? (fun t => t.1 = k)).map Prod.snd
        match s.writeSpans b.region g false v.startAt (s.runPages v k b) (Tbl.keys (old.getD [])) data (pageSpans off data.length) with
        | .error f => (s.countLp f.2, some f)
        | .ok (pages, own, t) =>
          let mine := Tbl.keep (fun n _ => own.any (· = n)) pages
          (t.modInv e.lsn (fun v => { v with staging := v.staging.filter (fun t => t.1 ≠ k) ++ [(k, mine)] }), none)
      | _, _ => (s, some (St.aborted, 0x0341))

/-! ### Slice caches and the directory (R195, R202, R203) -/

/-- A line of the directory lies in a byte range of a region's version. -/
def DirLine.on (l : DirLine) (region version off len : Nat) : Bool :=
  l.region = region && l.version = version && shareLine (l.page * 65536 + l.line * 64) 64 off len

/-- All cached copies of a written range are invalidated (R203). -/
def State.dropOwners (s : State) (region version off len : Nat) : State :=
  { s with slc := { s.slc with dir := s.slc.dir.filter (fun l => !(l.on region version off len)) } }

/-- Lines of a slice cache: 128 KiB of 64 bytes (R195). -/
def cacheLines : Nat := 2048

/-- A full slice cache evicts a line, writing it back; which one is open (R203; log entry 156). -/
def State.evict (s : State) (slice : Nat) : State :=
  let mine := s.slc.dir.filter (fun l => bit l.agents.toNat slice)
  if mine.length < cacheLines then s
  else
    match mine[s.free % mine.length]? with
    | some x => { s with slc := { s.slc with dir := s.slc.dir.filter (fun l => l ≠ x) } }.tickFree
    | none => s

/-- An atomic gains its line in M in a slice cache: every other copy goes (R203). -/
def State.gainLine (s : State) (region version off slice : Nat) : State :=
  let s := (s.dropOwners region version off 8).evict slice
  { s with slc := { s.slc with dir := s.slc.dir ++
    [{ region := region, version := version, page := off / 65536, line := off % 65536 / 64, st := .m, agents := BitVec.ofNat 48 (2 ^ slice) }] } }

/-- A control core reads a line: an owner in M or O keeps it in O, a clean line is shared in S, and a line nobody held is
the core's alone in E (R202). No row of the command table has a core read (log entry 156). -/
def State.coreRead (s : State) (region version off core : Nat) : State :=
  let me : BitVec 48 := BitVec.ofNat 48 (2 ^ (32 + core))
  if s.slc.dir.any (fun l => l.on region version off 1) then
    { s with slc := { s.slc with dir := s.slc.dir.map (fun (l : DirLine) =>
      if l.on region version off 1 then
        { l with st := (match l.st with | .m => .o | .o => .o | _ => .s), agents := l.agents ||| me }
      else l) } }
  else
    { s with slc := { s.slc with dir := s.slc.dir ++
      [{ region := region, version := version, page := off / 65536, line := off % 65536 / 64, st := .e, agents := me }] } }

/-! ### ATOMIC (R216, R352–R354) -/

/-- An atomic operation on a 64-bit word (R216). -/
def atomOp (op old x cmp : Nat) : Nat :=
  match op with
  | 0 => (old + x) % 2 ^ 64
  | 1 => x
  | 2 => if old = cmp then x else old
  | 3 => if sext 64 x < sext 64 old then x else old
  | 4 => if sext 64 old < sext 64 x then x else old
  | 5 => min old x
  | 6 => max old x
  | 7 => Nat.land old x
  | 8 => Nat.lor old x
  | _ => Nat.xor old x

/-- a.key of a record (R352). -/
def AtomRec.key (a : AtomRec) : Nat :=
  if a.recipe then a.k0 % 2 ^ 31 + a.k1 % 2 ^ 17 * 2 ^ 31 + a.k2 % 2 ^ 16 * 2 ^ 48
  else a.k0 % 2 ^ 16 + a.k1 % 2 ^ 16 * 2 ^ 16 + a.k2 % 2 ^ 32 * 2 ^ 32

/-- The 32 bytes of a record (R352). -/
def AtomRec.bytes (a : AtomRec) : List Byte :=
  leBytes 8 a.key ++ leBytes 8 a.old.toNat ++ leBytes 8 a.stamp ++ leBytes 1 (b2n a.recipe) ++ leBytes 1 a.status ++
    leBytes 2 a.detail ++ leBytes 4 0

/-- Records of the atomic table (R352). -/
def atomMax : Nat := 1048576

/-- Room for a record: free, or the remote record with the oldest stamp retired early; none when the table holds recipe
records only (R354). -/
def State.atomRoom (s : State) : Option State :=
  if s.ldg.atoms.length < atomMax then some s
  else
    match sortOn (fun (a : AtomRec) => a.stamp) (s.ldg.atoms.filter (fun a => !a.recipe)) with
    | [] => none
    | a :: _ =>
      some ((s.dropAtoms (fun x => x = a)).bump F.ldgAtomStsEarly)

/-- The lowest slot of the atomic table that holds no record (R339, R352). -/
def State.freeAtom (s : State) : Nat :=
  ((List.range (s.ldg.atoms.length + 1)).find? (fun k => !(s.ldg.atoms.any (fun a => a.slot = k)))).getD 0

/-- Record an atomic, durably and in the buddy's mirror (R352). -/
def State.addAtom (s : State) (a : AtomRec) : State :=
  let k := s.freeAtom
  let s := s.ownWrite (0x09000000 + 32 * k) a.bytes
  { s with ldg := { s.ldg with atoms := s.ldg.atoms ++ [{ a with slot := k, till := s.ldg.mirrorSent }] } }

/-- The record of a context's next atomic. -/
def State.recipeAtom (s : State) (c : Ctx) : Option AtomRec :=
  s.ldg.atoms.find? (fun a => a.recipe && a.k0 = c.lsn % 2 ^ 31 && a.k1 = c.sub && a.k2 = c.ordinal)

/-- An atomic retires with its recorded outcome, once the record is durable (R216, R346, R352). -/
def State.atomDone (s : State) (r : Run) (a : AtomRec) : StepOut :=
  if !(s.durable a.till) then .hold s
  else if a.status ≠ St.ok then .fault s a.status a.detail
  else .next s ({ r.c with ordinal := r.c.ordinal + 1 }.setG r.st.a a.old.toNat)

/-- Apply an ATOMIC at once to the 8-byte word (R203, R216). -/
def State.atomApply (s : State) (r : Run) (b : Bind) : StepOut :=
  let k := r.st.m 10 8
  let off := r.gb
  match s.atomRoom with
  | none => .hold s
  | some s =>
    match s.runRead r.v k b off 8 with
    | .error (st, d) => .fault (s.countRun r.v k b 8 [off]) st d
    | .ok d =>
      let old := leNat d
      match s.runWrite r.e r.v k off (leBytes 8 (atomOp (r.st.m 3 0) old r.gc (r.c.g r.st.d))) with
      | (t, some (st, d)) => .fault t st d
      | (s, none) =>
        let s := s.gainLine b.region b.version off r.c.slice
        let a : AtomRec := { recipe := true, k0 := r.c.lsn % 2 ^ 31, k1 := r.c.sub, k2 := r.c.ordinal,
                             old := BitVec.ofNat 64 old, stamp := s.now }
        let s := s.addAtom a
        match s.recipeAtom r.c with
        | some a => s.atomDone r a
        | none => .hold s

/-- ATOMIC (R216): a recorded ordinal is not applied again; a shadow receives the recorded value (R408). -/
def execAtomic (cx : Nat) (s : State) : Host.Outcome State Fault Refusal :=
  .next (s.onStep cx (fun st => st.op = 0x15) (fun r =>
    match s.recipeAtom r.c with
    | some a => s.atomDone r a
    | none =>
      if r.c.shadowOf.isSome then .hold s
      else if r.gb % 8 ≠ 0 || r.st.m 3 0 > 9 then .fault s badOp.1 badOp.2
      else
        match s.bindFor r (r.st.m 10 8) r.gb 8 true with
        | .error (st, d) => .fault s st d
        | .ok b =>
          if r.hazard b r.gb 8 true then .fault s St.malformed 0x080A
          else
            match (if r.c.pass then (s, ReadWait.go)
              else s.tryStall (.ctx r.cx) r.e.tenant b.region b.version [r.gb / 65536]) with
            | (t, .stalled) => .hold (t.stallCtx r.cx)
            | (t, .notReady) => .fault t St.notReady 0x0411
            | (t, .go) => t.atomApply r b))

/-! ### Messages (R215) -/

/-- SEND (R215): held until the phase commits. -/
def execSend (cx : Nat) (s : State) : Host.Outcome State Fault Refusal :=
  .next (s.onStep cx (fun st => st.op = 0x12) (fun r =>
    let n := r.st.i 15 0
    let tc := r.st.m 5 4
    .ofExcept s (require (1 ≤ n && n ≤ tileSize && tc ≠ 3)
      (andThen (r.rdTile r.st.a 0 n) (fun d =>
        let m : RMsg := { tenant := r.e.tenant, lsn := r.c.lsn, key := BitVec.ofNat 64 (r.c.g r.st.d),
                          srcMod := BitVec.ofNat 12 s.self, srcSub := r.c.sub, dstSub := r.gb, chan := r.st.m 3 0,
                          tc := Fin.ofNat 4 tc, data := d }
        .ok { r.c with sends := r.c.sends ++ [(r.gc, m)] })))))

/-- A held message is the one a RECV takes: collective key, sender module, sender sub-part and channel match (R215). -/
def Run.wants (r : Run) (m : RMsg) : Bool :=
  r.v.takes r.c.lsn m && m.key.toNat = r.c.g r.st.d && m.srcMod.toNat = r.gc && m.srcSub = r.gb &&
    m.chan = r.st.m 3 0 && m.dstSub = r.c.sub

/-- A RECV takes the first matching message, in send order; one longer than the maximum faults with 0x0801. -/
def State.takeMessage (s : State) (r : Run) : Option StepOut :=
  match s.slc.held.find? (fun h => r.wants h.1) with
  | none => none
  | some h =>
    let t := { s with slc := { s.slc with held := listDrop1 (fun x => r.wants x.1) s.slc.held } }
    let d := h.1.data
    some (if d.length > r.st.i 15 0 then .fault s badOp.1 badOp.2
      else
        match r.wrTile (r.logged r.c d) r.st.a d with
        | .error (st, x) => .fault s st x
        | .ok c => .next t ({ c with recvd := c.recvd ++ [h.1] }.setG (r.st.m 12 8) d.length))

/-- A step waits in one of the forms given. -/
def isRecv : CtxStatus → Bool
  | .recv _ => true
  | _ => false

/-- RECV (R215): it takes its message or waits for it; a shadow receives its primary's (R408). -/
def execRecv (cx : Nat) (s : State) : Host.Outcome State Fault Refusal :=
  .next (s.onStep cx (fun st => st.op = 0x13) (fun r =>
    let n := r.st.i 15 0
    if !(r.tileOk r.st.a n) then .fault s St.malformed 0x0802
    else if r.c.shadowOf.isSome then
      match s.shadowLog r.c with
      | none => .hold s
      | some d =>
        match r.wrTile (r.logged r.c d) r.st.a d with
        | .error (st, x) => .fault s st x
        | .ok c => .next s (c.setG (r.st.m 12 8) d.length)
    else
      match s.takeMessage r with
      | some o => o
      | none =>
        let us := if r.st.i 47 16 = 0 then s.fld F.slcCtlRecvTmo else r.st.i 47 16
        .hold (s.modCtx cx (fun c =>
          if c.status = .ready then { c with status := .recv (s.now + 1000 * us) } else c))) isRecv)

/-- A RECV has reported its timeout: the message it waited for is never delivered (R215). -/
def State.noteLate (s : State) (tenant lsn : Nat) (key : W64) (srcMod srcSub dstSub chan : Nat) : State :=
  let x : LateRecv := { tenant := tenant, lsn := lsn, key := key, srcMod := srcMod, srcSub := srcSub, dstSub := dstSub,
                        chan := chan }
  { s with slc := { s.slc with late := s.slc.late ++ [x] } }

/-- A message is the one a timed-out RECV waited for. -/
def LateRecv.is (x : LateRecv) (m : RMsg) : Bool :=
  x.tenant = m.tenant && x.key = m.key && (m.key ≠ 0 || x.lsn = m.lsn) && x.srcMod = m.srcMod.toNat &&
    x.srcSub = m.srcSub && x.dstSub = m.dstSub && x.chan = m.chan

/-- A message reaches this module: it is held; one whose invocation has ended, or whose RECV has reported its timeout, is
discarded and counted (R215; log entry 67). -/
def State.arrive (s : State) (m : RMsg) : State :=
  if s.slc.late.any (fun x => x.is m) then
    { s with slc := { s.slc with late := listDrop1 (fun x => x.is m) s.slc.late } }.bump F.slcCnt1LateRecv
  else if m.key = 0 && (s.inv m.lsn).isNone then s.bump F.slcCnt1LateRecv
  else { s with slc := { s.slc with held := s.slc.held ++ [(m, s.now)] } }

/-- MESSAGE_ARRIVE (R215). -/
def execMessageArrive (m : RMsg) (s : State) : Host.Outcome State Fault Refusal := checked s (.messageArrive m) (s.arrive m)

/-- MESSAGE_HOLD_EXPIRY (R215): a message without a matching invocation within RECV_TMO goes, and is counted. -/
def execMessageHoldExpiry (n : Nat) (s : State) : Host.Outcome State Fault Refusal :=
  .next (match s.slc.held[n]? with
    | none => s
    | some h =>
      if s.hasTaker h.1 then s
      else
        let s := s.waitTill (h.2 + 1000 * s.fld F.slcCtlRecvTmo)
        { s with slc := { s.slc with held := s.slc.held.take n ++ s.slc.held.drop (n + 1) } }.bump F.slcCnt1LateRecv)

/-! ### WAIT_MARK (R129, R136, R211, R217) -/

def isMarkWait : CtxStatus → Bool
  | .markWait _ _ => true
  | _ => false

/-- The target of a WAIT_MARK: the 48 position bits of GA (R129). -/
def Run.markTarget (r : Run) : Nat := r.c.g r.st.a % 2 ^ 48

/-- A WAIT_MARK looks at its job: 0x0807 when it is not live, retired when the position is not earlier than the target. -/
def State.lookMark (s : State) (r : Run) : Option StepOut :=
  if r.c.shadowOf.isSome then
    (match s.shadowLog r.c with
     | some _ => some (.next s (r.logged r.c []))
     | none => some (.hold s))
  else
    match (if r.e.jobLive then s.jobSlot r.e.job else none) with
    | none => some (.fault s St.aborted 0x0807)
    | some j => if posLater r.markTarget (s.jobPos j) then none else some (.next s (r.logged r.c []))

/-- WAIT_MARK (R211). -/
def execWaitMark (cx : Nat) (s : State) : Host.Outcome State Fault Refusal :=
  .next (s.onStep cx (fun st => st.op = 0x14) (fun r =>
    match s.lookMark r with
    | some o => o
    | none =>
      let us := if r.st.i 31 0 = 0 then s.fld F.slcCtlWaitTmo else r.st.i 31 0
      .hold (s.modCtx cx (fun c =>
        if c.status = .ready then { c with status := .markWait (BitVec.ofNat 64 r.markTarget) (s.now + 1000 * us) } else c)))
    isMarkWait)

/-- Waiting WAIT_MARKs look again after a change of a position (R136). -/
def State.wakeMarks (s : State) : State :=
  foldS (fun s cx => s.onStep cx (fun st => st.op = 0x14) (fun r => (s.lookMark r).getD (.hold s)) isMarkWait) s
    ((s.slc.ctxs.filter (fun e => isMarkWait e.2.status)).map Prod.fst)

/-- WAIT_MARK_TIMEOUT (R217, R218): a position reached in the tick of the expiry counts. -/
def execWaitMarkTimeout (cx : Nat) (s : State) : Host.Outcome State Fault Refusal :=
  .next (match s.ctx cx with
    | some c =>
      (match c.status with
       | .markWait _ t =>
         let s := s.waitTill t
         s.onStep cx (fun st => st.op = 0x14) (fun r => (s.lookMark r).getD (.fault s St.timeout 0x0809)) isMarkWait
       | _ => s)
    | none => s)

/-! ### EMIT (R211) -/

/-- EMIT_STORE (R211): an endpoint store, held until the phase commits. -/
def execEmitStore (cx : Nat) (s : State) : Host.Outcome State Fault Refusal :=
  .next (s.onStep cx (fun st => st.op = 0x18 && st.m 0 0 = 0) (fun r =>
    let n := r.st.i 15 0
    let tc := r.st.m 2 1
    .ofExcept s (require (1 ≤ n && n ≤ tileSize && tc ≠ 3)
      (andThen (r.rdTile r.st.a 0 n) (fun d =>
        .ok { r.c with emits := r.c.emits ++ [{ ptr := BitVec.ofNat 64 r.gb, tc := tc, bytes := d }] })))))

/-- EMIT_RESULT (R211): the result words, in a final section or under split ONE only. -/
def execEmitResult (cx : Nat) (s : State) : Host.Outcome State Fault Refusal :=
  .next (s.onStep cx (fun st => st.op = 0x18 && st.m 0 0 = 1) (fun r =>
    if r.c.sub ≠ finalSub && r.v.img.stride then .fault s badOp.1 badOp.2
    else .next s { r.c with result := some (BitVec.ofNat 64 (r.c.g r.st.a), BitVec.ofNat 64 r.gb) }))

/-- BUDGET_EXHAUSTED (R217): img.budget steps have executed and the section has not ended. -/
def execBudgetExhausted (cx : Nat) (s : State) : Host.Outcome State Fault Refusal :=
  .next (match s.ctx cx with
    | some c =>
      (match s.inv c.lsn, s.entry c.lsn with
       | some v, some e =>
         if e.running && !s.ldg.fenced && c.status = .ready && c.used ≥ v.img.budget then s.faultSub cx St.timeout 0x0806 else s
       | _, _ => s)
    | none => s)

end Sys2Proof.Machine
end

