-- ==== Sys2Proof/Machine/Library.lean ====
section
/-! DEFINITION. The start checks of the library recipes on their parameter blocks (R227–R229, R236, R239, R240, R247–R249, R251,
R253, R258, R263, R266, R269). Where several fail, the lowest detail code is reported, and a set Res byte counts among the values
out of bounds, 0x0906 and 0x0A03 (log entry 63). -/

namespace Sys2Proof.Machine

/-- Identities of the library recipes (R226, R248). -/
def libDecode : Nat := 0x4B500201
def libAppend : Nat := 0x4B500202
def libReduce : Nat := 0x4B500101
def libScatter : Nat := 0x4B500102
def libAllReduce : Nat := 0x4B500103
def libGatherRows : Nat := 0x4B500301
def libGatherPages : Nat := 0x4B500302
def libScatterAdd : Nat := 0x4B500303
def libCompact : Nat := 0x4B500304
def libFilter : Nat := 0x4B500305
def libHamming : Nat := 0x4B500401
def libGraph : Nat := 0x4B500402
def libRerank : Nat := 0x4B500403

/-- The first failed check, in ascending detail. -/
def firstBad (l : List (Nat × Bool)) : Option Nat := (l.find? (fun x => x.2)).map Prod.fst

/-- A byte of `l` from `lo` up to `hi` is set: Res bytes. -/
def resSet (l : List Byte) (lo hi : Nat) : Bool := ((l.drop lo).take (hi + 1 - lo)).any (· ≠ 0)

/-- A value lies outside lo to hi. -/
def outside (v lo hi : Nat) : Bool := v < lo || hi < v

/-- n rounded up to a multiple of 64. -/
def up64 (n : Nat) : Nat := (n + 63) / 64 * 64

/-- The address of an endpoint pointer, or an offset, is no multiple of 64. -/
def off64 (v : Nat) : Bool := v % 64 ≠ 0

/-- Tile size of a key/value format (R155, R229). -/
def kvTile (c : Nat) : Option Nat :=
  match c with
  | 0x04 => some 16384
  | 0x05 => some 16384
  | 0x20 => some 9216
  | 0x22 => some 9216
  | 0x21 => some 13312
  | _ => none

/-- An FP32 pattern is zero or not finite. -/
def badScale (b : Nat) : Bool :=
  match f32.dec b with
  | .fin _ m _ => m = 0
  | _ => true

/-- ATTN_DECODE (R228, R229). -/
def checkDecode (p : List Byte) : Option Nat :=
  let h := leAt p 32 1
  let g := leAt p 33 1
  let q := leAt p 35 1
  let pf := leAt p 36 1
  let sph := leAt p 37 1
  let t := kvTile (leAt p 34 1)
  let stride := leAt p 16 8
  let qOk := 2 ≤ q && q ≤ 5
  firstBad
    [(0x0904, (match t with | some t => stride = 0 || stride % t ≠ 0 | none => false) || leAt p 24 4 ≠ h * sph ||
        off64 (leAt p 8 8) || off64 (leAt p 48 8)),
     (0x0905, t.isNone || !qOk || (pf ≠ 2 && pf ≠ 4)),
     (0x0906, outside h 1 16 || outside g 1 16 || outside sph 1 64 || p.length > 4096 ||
        (qOk && p.length ≠ 64 + up64 (h * g * 128 * (unitOf q).2)) || badScale (leAt p 40 4) ||
        outside (leAt p 28 4) 1 (sph * (stride / t.getD 1) * 64) || resSet p 38 39 || resSet p 44 47 || resSet p 56 63)]

/-- ATTN_APPEND (R236). -/
def checkAppend (p : List Byte) : Option Nat :=
  let h := leAt p 28 1
  let kf := leAt p 29 1
  let fp8 := kf = 4 || kf = 5
  let t := kvTile kf
  firstBad
    [(0x0904, off64 (leAt p 8 8) || (match t with | some t => leAt p 16 8 % t ≠ 0 | none => false)),
     (0x0905, t.isNone),
     (0x0906, outside h 1 (if fp8 then 15 else 3) || p.length ≠ 64 + h * 256 * (if fp8 then 1 else 4) ||
        leAt p 30 1 > 15 || resSet p 31 63)]

/-- An entry of a member table (R240). -/
def memberAt (p : List Byte) (i : Nat) : Nat := leAt p (128 + 8 * i) 8

/-- The parent chain of a member reaches the root within `fuel` steps. -/
def reachesRoot (p : List Byte) (m : Nat) : Nat → Nat → Bool
  | 0, _ => false
  | fuel + 1, i =>
    let up := bits (memberAt p i) 23 12
    if up = 0xFFF then true else if up < m then reachesRoot p m fuel up else false

/-- The reductions (R239, R240, R244). -/
def checkReduce (p : List Byte) (scatter : Bool) (self : Nat) : Option Nat :=
  let m := leAt p 44 2
  let inF := leAt p 40 1
  let outF := leAt p 41 1
  let mode := leAt p 42 1
  let exact := bit mode 0
  let ce := if exact then 256 else 4096
  let es := (List.range m).map (memberAt p)
  let mods := es.map (fun e => bits e 11 0)
  let roots := (es.filter (fun e => bits e 23 12 = 0xFFF)).length
  firstBad
    [(0x0901, !scatter && (roots ≠ 1 ||
        es.zipIdx.any (fun e => bits e.1 23 12 ≠ 0xFFF && (bits e.1 23 12 ≥ m || bits e.1 23 12 = e.2)) ||
        !((List.range m).all (reachesRoot p m (m + 1))))),
     (0x0902, (mods.filter (· = self)).length ≠ 1 || mods.eraseDups.length ≠ m),
     (0x0903, exact && sumOf (es.map (fun e => bits e 63 32)) > 2 ^ 31),
     (0x0904, leAt p 16 8 ≠ ce * (unitOf inF).2 || off64 (leAt p 8 8) || off64 (leAt p 32 8) || off64 (leAt p 56 8) ||
        (scatter && m ≠ 0 && leAt p 24 4 % m ≠ 0)),
     (0x0905, !((1 ≤ inF && inF ≤ 6) || (exact && inF = fmtQw)) || !((1 ≤ outF && outF ≤ 5) || (exact && outF = fmtQw))),
     (0x0906, outside (leAt p 24 4) 1 65536 || outside m 1 496 || p.length < 128 + 8 * m || p.length > 4096 ||
        es.any (fun e => outside (bits e 63 32) 1 (2 ^ 31) || bits e 31 24 ≠ 0 || (scatter && bits e 23 12 ≠ 0)) ||
        leAt p 64 8 = 0 || bits mode 2 1 = 3 || bits mode 7 3 ≠ 0 || resSet p 28 31 || resSet p 43 43 ||
        resSet p 46 47 || resSet p 76 127)]

/-- A term of FILTER_PRED (R251). -/
def termAt (p : List Byte) (i : Nat) : List Byte := (p.drop (64 + 16 * i)).take 16

/-- FILTER_PRED (R251). -/
def checkFilter (p : List Byte) : Option Nat :=
  let rb := leAt p 28 4
  let n := leAt p 32 8
  let k := leAt p 56 1 % 8
  let ts := (List.range (min k 4)).map (termAt p)
  let size := fun (t : List Byte) => (unitOf (leAt t 2 1)).2
  firstBad
    [(0x0A01, leAt p 16 8 ≠ 4096 * rb || leAt p 24 4 ≠ ceilDiv n 4096 || off64 (leAt p 8 8) || off64 (leAt p 48 8) ||
        ts.any (fun t => leAt t 0 2 + size t > rb || leAt t 0 2 % size t ≠ 0)),
     (0x0A02, ts.any (fun t => !([1, 2, 3, 6, 7].any (· = leAt t 2 1)) || leAt t 3 1 % 16 > 6)),
     (0x0A03, outside rb 8 16384 || rb % 8 ≠ 0 || outside n 1 (2 ^ 28) || outside k 1 4 || p.length ≠ 128 ||
        leAt p 56 1 > 15 || resSet p 57 63 || ts.any (fun t => leAt t 3 1 > 15 || resSet t 4 7) ||
        (rangeFrom k (4 - k)).any (fun i => resSet (termAt p i) 0 15))]

/-- GATHER_ROWS, GATHER_PAGES, SCATTER_ADD and COMPACT_ROWS (R253). -/
def checkGather (ident : Nat) (p : List Byte) : Option Nat :=
  let pages := ident = libGatherPages
  let gather := ident = libGatherRows || pages
  let e := if pages then 64 else 4096
  let rb := leAt p 44 4
  let n := leAt p 48 8
  let mode := leAt p 80 1
  let stride := if ident = libGatherRows || ident = libScatterAdd then 16384 else 512
  firstBad
    [(0x0A01, leAt p 32 8 ≠ stride || leAt p 40 4 ≠ ceilDiv n e || (!pages && off64 (leAt p 8 8)) ||
        (gather && off64 (leAt p 56 8)) || off64 (leAt p 72 8)),
     (0x0A02, (gather && mode > 2) || (ident = libScatterAdd && outside mode 1 2)),
     (0x0A03, (!pages && (outside rb 8 16384 || rb % 8 ≠ 0)) || outside n 1 (65536 * e) || p.length ≠ 128 ||
        resSet p 81 127 || (pages && (resSet p 8 15 || resSet p 44 47)) || (!gather && resSet p 56 63) ||
        (gather && resSet p 64 71) || (ident = libCompact && mode ≠ 0))]

/-- A tombstone offset: a multiple of 64, or all ones for none (R258). -/
def badTomb (v : Nat) : Bool := v ≠ 2 ^ 64 - 1 && off64 v

/-- HAMMING_TOPK (R258). -/
def checkHamming (p : List Byte) : Option Nat :=
  let w := leAt p 56 2
  let per := leAt p 16 8 / (w / 8)
  firstBad
    [(0x0A01, w / 8 = 0 || leAt p 16 8 % (w / 8) ≠ 0 || per = 0 || leAt p 24 4 ≠ ceilDiv (leAt p 32 8) per ||
        off64 (leAt p 8 8) || badTomb (leAt p 40 8) || off64 (leAt p 48 8)),
     (0x0A03, outside w 64 4096 || w % 64 ≠ 0 || outside (leAt p 32 8) 1 (2 ^ 40) || outside (leAt p 58 2) 1 1024 ||
        leAt p 60 2 > w || outside (leAt p 64 2) 1 4096 || p.length ≠ up64 (128 + w / 8) || leAt p 62 1 > 15 ||
        leAt p 63 1 > 1 || resSet p 28 31 || resSet p 66 127)]

/-- GRAPH_WALK (R263). -/
def checkGraph (p : List Byte) : Option Nat :=
  let w := leAt p 48 2
  let beam := leAt p 52 2
  firstBad
    [(0x0A01, off64 (leAt p 8 8) || off64 (leAt p 16 8) || badTomb (leAt p 24 8) || off64 (leAt p 40 8)),
     (0x0A03, outside (leAt p 32 8) 1 (2 ^ 32 - 1) || outside w 64 4096 || w % 64 ≠ 0 || outside beam 1 1024 ||
        outside (leAt p 50 2) 1 beam || outside (leAt p 54 1) 1 64 || outside (leAt p 55 1) 1 32 ||
        outside (leAt p 56 2) 1 4096 || leAt p 58 1 > 8 || p.length ≠ up64 (192 + w / 8) || resSet p 59 63)]

/-- RERANK (R266). -/
def checkRerank (p : List Byte) (self : Nat) : Option Nat :=
  let dim := leAt p 24 2
  let n := leAt p 30 2
  firstBad
    [(0x0A01, off64 (leAt p 8 8) || off64 (leAt p 16 8)),
     (0x0A02, outside (leAt p 26 1) 2 3 || leAt p 27 1 > 1),
     (0x0A03, outside dim 64 4096 || dim % 64 ≠ 0 || n = 0 || outside (leAt p 28 2) 1 n ||
        p.length ≠ up64 (64 + 2 * dim + 8 * n) || p.length > 4096 || resSet p 32 63),
     (0x0A04, (List.range n).any (fun i => bits (leAt p (64 + 2 * dim + 8 * i) 8) 51 40 ≠ self))]

/-- The start check of a library identity (R227, R249): the detail of a failure, always MALFORMED. -/
def libCheck (ident : Nat) (pblock : Bool) (p : List Byte) (self : Nat) : Option Nat :=
  let a := fun (x : Option Nat) => if pblock then x else some 0x0906
  let b := fun (x : Option Nat) => if pblock then x else some 0x0A03
  if ident = libDecode then a (checkDecode p)
  else if ident = libAppend then a (checkAppend p)
  else if ident = libReduce || ident = libAllReduce then a (checkReduce p false self)
  else if ident = libScatter then a (checkReduce p true self)
  else if ident = libFilter then b (checkFilter p)
  else if ident = libGatherRows || ident = libGatherPages || ident = libScatterAdd || ident = libCompact then
    b (checkGather ident p)
  else if ident = libHamming then b (checkHamming p)
  else if ident = libGraph then b (checkGraph p)
  else if ident = libRerank then b (checkRerank p self)
  else none

end Sys2Proof.Machine
end

