-- ==== Sys2Proof/Machine/LibRun.lean ====
section
/-! DEFINITION. What the library recipes compute (R226, R229–R238, R241–R245, R248, R252, R254, R256, R257, R259–R262, R264,
R265, R267). Their images are shipped and are no part of the spec; here a phase of one is computed as a whole from its
parameter block, with the arithmetic of the primitives (log entry 157). -/

namespace Sys2Proof.Machine

/-! ### Image properties (R226, R248) -/

/-- The image properties of a library recipe: split, the parameter words of its base, stride and count, final section, the
parameter words and WRITE flags of its bindings from 0 up, Quern banks and heap. -/
structure LibShape where
  stride : Bool
  base : Nat := 0
  step : Nat := 0
  count : Nat := 0
  splitBind : Nat := 0
  final : Bool := false
  binds : List (Nat × Bool)
  banks : Nat := 0
  heap : Nat := 0

/-- The tables of R226 and R248. -/
def libShape (ident : Nat) : Option LibShape :=
  let reduce : LibShape :=
    { stride := true, base := 1, step := 2, count := 3, binds := [(0, false), (6, true)], banks := 4 }
  let gather : LibShape :=
    { stride := true, splitBind := 1, base := 3, step := 4, count := 5, binds := [(0, false), (2, false)] }
  let scatter : LibShape := { gather with binds := [(0, false), (2, false), (8, true)] }
  if ident = libDecode then
    some { stride := true, base := 1, step := 2, count := 3, final := true, binds := [(0, false)] }
  else if ident = libAppend then some { stride := false, binds := [(0, true)] }
  else if ident = libReduce || ident = libScatter || ident = libAllReduce then some reduce
  else if ident = libGatherRows || ident = libGatherPages then some gather
  else if ident = libScatterAdd || ident = libCompact then some scatter
  else if ident = libFilter then
    some { stride := true, base := 1, step := 2, count := 3, final := true, binds := [(0, false), (5, true)] }
  else if ident = libHamming then
    some { stride := true, base := 1, step := 2, count := 3, final := true, binds := [(0, false)], heap := 1024 }
  else if ident = libGraph || ident = libRerank then some { stride := false, binds := [(0, false)], heap := 1024 }
  else none

/-- An image has the properties of its table row. -/
def Image.fits (i : Image) (x : LibShape) : Bool :=
  i.stride = x.stride && (i.final ≠ 0) = x.final && i.banks = x.banks && i.heap = x.heap &&
    (!x.stride || (i.splitBind = x.splitBind && i.splitBase = x.base && i.splitStride = x.step && i.splitCount = x.count)) &&
    (List.range 8).all (fun k =>
      match x.binds[k]?, i.binds[k]? with
      | some (o, w), some b => b = (o, true, w)
      | none, some b => !b.2.1
      | _, none => false)

/-! ### Reads of a phase (R113, R199, R205, R217) -/

/-- Why a phase stops: read number `n` of a binding may stall, or a step fault, with the detail that its LP decode ended under. -/
inductive LibStop where
  | late (n k off len : Nat)
  | fault (st d : Nat) (why : Nat := 0)

/-- What a phase reads with, and the reads whose stall is over. -/
structure Lib where
  s : State
  r : Run
  done : Nat

/-- A fault of a primitive's arithmetic. -/
def stepFault {α : Type} (x : Except (Nat × Nat) α) : Except LibStop α :=
  match x with
  | .ok a => .ok a
  | .error (st, d) => .error (.fault st d)

/-- A read may go on: it has stalled before, its bound is taken, or nothing makes it wait. -/
def Lib.goes (l : Lib) (n : Nat) (b : Bind) (off len : Nat) : Bool :=
  n < l.done || (n = l.done && l.r.c.pass) ||
    (match (l.s.tryStall (.ctx l.r.cx) l.r.e.tenant b.region b.version ((pageSpans off len).map (fun q => q.1))).2 with
     | .go => true
     | _ => false)

/-- Read number `n` of a phase: a range of a binding's version, with the checks of a load. -/
def Lib.get (l : Lib) (n k off len : Nat) : Except LibStop (List Byte) := do
  let b ← stepFault (l.s.bindFor l.r k off len false)
  if l.goes n b off len then
    match l.s.runRead l.r.v k b off len, l.s.runRaw l.r.v k b off len with
    | .ok d, _ => .ok d
    | .error (st, d), .error w => .error (.fault st d w.2)
    | .error (st, d), .ok _ => .error (.fault st d)
  else .error (.late n k off len)

/-- Several reads, numbered from `n`. -/
def Lib.gets (l : Lib) (k : Nat) : Nat → List (Nat × Nat) → Except LibStop (List (List Byte))
  | _, [] => .ok []
  | n, (off, len) :: rest => do
    let d ← l.get n k off len
    let ds ← Lib.gets l k (n + 1) rest
    return d :: ds

/-! ### What a phase does -/

/-- A message of a phase: module and sub-part it goes to, channel, bytes. -/
structure LibMsg where
  mod : Nat
  sub : Nat
  chan : Nat := 0
  data : List Byte

/-- The outcome of a phase. `reads` are sketch reads a port sieve may have served; `slot` is the codec slot of an encode. -/
structure LibOut where
  stage : List (Nat × Nat × Nat × List Byte) := []
  sends : List LibMsg := []
  emits : List (Nat × Nat × List Byte) := []
  result : Option (Nat × Nat) := none
  nans : Nat := 0
  slot : Option Nat := none
  reads : List (Nat × List Byte) := []
  openWord : Bool := false
  more : Bool := false

/-- Parameters and sub-part of a run. -/
def Lib.p (l : Lib) : List Byte := l.r.v.params
def Lib.sub (l : Lib) : Nat := l.r.c.sub

/-- The messages a phase has received, in the order it received them. -/
def Lib.got (l : Lib) (i : Nat) : List Byte := match l.r.c.recvd[i]? with | some m => m.data | none => []

/-- Consecutive numbers n × i up to n × (i + 1), below an end. -/
def span (n i last : Nat) : List Nat := (List.range n).filterMap (fun j => if n * i + j < last then some (n * i + j) else none)

/-- Rows of a size that fit a tile, at least one. -/
def perTile (size tiles : Nat) : Nat := max 1 (tiles * tileSize / max 1 size)

/-! ### Attention (R229–R233, R236, R237) -/

/-- FP32 negative infinity. -/
def negInf : Nat := 0xFF800000

/-- One row of a partial: m, l and the 128 elements of o, as FP32 patterns (R230, R232). -/
structure AttnRow where
  m : Nat := negInf
  l : Nat := 0
  o : List Nat := List.replicate 128 0

/-- Merge two partials of a row (R232). -/
def AttnRow.merge (a b : AttnRow) : AttnRow :=
  let m := max32 a.m b.m
  let one := f32.enc (.ofInt 1)
  let ca := if m = negInf then one else exp232 (sub32 a.m m)
  let cb := if m = negInf then one else exp232 (sub32 b.m m)
  { m := m, l := add32 (mul32 a.l ca) (mul32 b.l cb),
    o := List.zipWith (fun x y => add32 (mul32 x ca) (mul32 y cb)) a.o b.o }

/-- The record of a head's rows: o, then m, then l (R233). -/
def attnRecord (rows : List AttnRow) : List Byte :=
  bytes32 ((rows.map (fun x => x.o)).flatten) ++ bytes32 (rows.map (fun x => x.m)) ++ bytes32 (rows.map (fun x => x.l))

/-- The rows of a record of g rows. -/
def attnRows (g : Nat) (b : List Byte) : List AttnRow :=
  (List.range g).map (fun i =>
    { m := leAt b (512 * g + 4 * i) 4, l := leAt b (516 * g + 4 * i) 4, o := wordsOf 4 ((b.drop (512 * i)).take 512) })

/-- Query row g of head h: 128 exact elements from byte 64 of the parameters (R228). -/
def queryRow (p : List Byte) (h g : Nat) : List Num :=
  let f := leAt p 35 1
  let b := (unitOf f).2
  (chunks b ((p.drop (64 + (h * leAt p 33 1 + g) * 128 * b)).take (128 * b))).map (fun x => elemDec f (leNat x))

/-- A tile's keys or values: 64 rows of 128 exact elements (R155). -/
def kvHalf (kc : KcTable) (f : Nat) (tile : List Byte) (half : Nat) : List (List Num) :=
  let n := 8192 / (unitOf f).1 * (unitOf f).2
  chunks 128 (rangeDec kc f ((tile.drop (n * half)).take n))

/-- One tile updates one row of the partial (R231). Of the tile's 64 tokens the first `live` are present; absent tokens are
masked, and their values count as zero (R229, R235). -/
def AttnRow.tile (x : AttnRow) (p : List Byte) (keys vals : List (List Num)) (live : Nat) (q : List Num) : AttnRow :=
  let qf := leAt p 35 1
  let pf := leAt p 36 1
  let g := (macGroupOf qf (leAt p 34 1)).getD 8
  let scores := keys.zipIdx.map (fun k =>
    if k.2 < live then mul32 (macOut qf g 0 q k.1) (leAt p 40 4) else negInf)
  let (m, s, c, prob) := softmaxRow x.m x.l scores
  let prob := prob.map (fun y => elemDec pf (elemEnc pf (f32.dec y)))
  let vals := vals.zipIdx.map (fun v => if v.2 < live then v.1 else List.replicate 128 Num.zero)
  let g := (macGroupOf pf (leAt p 34 1)).getD 8
  { m := m, l := s,
    o := x.o.zipIdx.map (fun y => macOut pf g (mul32 y.1 c) prob (column vals y.2)) }

/-- A sub-part of ATTN_DECODE: its tiles in ascending order, and its partial sent to the final section (R230, R231). -/
def Lib.decode (l : Lib) : Except LibStop LibOut := do
  let p := l.p
  let f := leAt p 34 1
  let t := (kvTile f).getD 1
  let ct := leAt p 16 8 / t
  let sph := leAt p 37 1
  let h := l.sub / sph
  let tokens := leAt p 28 4
  let tiles := span ct (l.sub % sph) (ceilDiv tokens 64)
  let kc ← stepFault (if tiles.isEmpty then .ok {} else l.s.kcFor l.r f 0)
  let bytes ← l.gets 0 0 (tiles.map (fun n => (leAt p 8 8 + h * sph * leAt p 16 8 + n * t, t)))
  let rows := (List.range (leAt p 33 1)).map (fun g =>
    (tiles.zip bytes).foldl (fun (x : AttnRow) b =>
      x.tile p (kvHalf kc f b.2 0) (kvHalf kc f b.2 1) (min 64 (tokens - 64 * b.1)) (queryRow p h g)) {})
  return { sends := [{ mod := l.s.self, sub := finalSub, data := attnRecord rows }] }

/-- The final section of ATTN_DECODE: each head's partials folded left to right, and its record (R233). -/
def Lib.decodeFinal (l : Lib) : LibOut :=
  let p := l.p
  let g := leAt p 33 1
  let sph := leAt p 37 1
  { emits := (List.range (leAt p 32 1)).map (fun h =>
      let parts := (List.range sph).map (fun c => attnRows g (l.got (h * sph + c)))
      let rows := match parts with
        | [] => []
        | a :: rest => rest.foldl (fun x y => List.zipWith AttnRow.merge x y) a
      (leAt p 48 8 + h * 520 * g, 1, attnRecord rows)) }

/-- ATTN_APPEND: the new token's blocks, or its FP8 bytes, in whole lines whose other bytes stay as read (R237). -/
def Lib.append (l : Lib) : Except LibStop LibOut := do
  let p := l.p
  let f := leAt p 29 1
  let t := leAt p 24 4
  let fp8 := f = 4 || f = 5
  let slot := leAt p 30 1 % 16
  let eb := if fp8 then 1 else 4
  let halves := ((List.range (leAt p 28 1)).map (fun h => [(h, 0), (h, 1)])).flatten
  let blocks := halves.map (fun x =>
    let raw := (p.drop (64 + (2 * x.1 + x.2) * 128 * eb)).take (128 * eb)
    if fp8 then (raw, 0) else rangeEnc (l.s.kcOf slot) f ((wordsOf 4 raw).map f32.dec))
  let unit := (unitOf f).2
  let offs := halves.map (fun x =>
    leAt p 8 8 + x.1 * leAt p 16 8 + t / 64 * (kvTile f).getD 1 +
      (if fp8 then 8192 * x.2 + 128 * (t % 64) else (256 * x.2 + 4 * (t % 64)) * unit))
  let lines := (offs.zip blocks).map (fun x => (x.1 / 64 * 64, up64 (x.1 + x.2.1.length) - x.1 / 64 * 64))
  let old ← l.gets 0 0 lines
  let stage := ((offs.zip blocks).zip (lines.zip old)).map (fun x =>
    let at_ := x.1.1 - x.2.1.1
    (0, 0, x.2.1.1, x.2.2.take at_ ++ x.1.2.1 ++ x.2.2.drop (at_ + x.1.2.1.length)))
  return { stage := stage, nans := sumOf (blocks.map Prod.snd), slot := if f = fmtKc then some slot else none }

/-! ### Reductions (R239–R245) -/

/-- The member table's modules; the own index (R240). -/
def memberMod (p : List Byte) (i : Nat) : Nat := bits (memberAt p i) 11 0
def memberUp (p : List Byte) (i : Nat) : Nat := bits (memberAt p i) 23 12
def members (p : List Byte) : List Nat := List.range (leAt p 44 2)
def ownMember (p : List Byte) (self : Nat) : Nat := ((members p).find? (fun i => memberMod p i = self)).getD 0
def childrenOf (p : List Byte) (i : Nat) : List Nat := (members p).filter (fun j => memberUp p j = i)

/-- Elements of a chunk, exact mode, and the owner of a chunk under REDUCE_SCATTER (R239, R244). -/
def redExact (p : List Byte) : Bool := bit (leAt p 42 1) 0
def redElems (p : List Byte) : Nat := if redExact p then 256 else 4096
def chunkOwner (p : List Byte) (k : Nat) : Nat := k * leAt p 44 2 / max 1 (leAt p 24 4)

/-- A partial travels as FP32 elements, or as QW40 lanes in exact mode (R241). -/
def redFmt (p : List Byte) : Nat := if redExact p then fmtQw else 1

/-- Lanes cleared and rows of elements added; the step fault of R187. -/
def laneSum (lanes : List Lane) (fmt : Nat) (rows : List (List Byte)) : Except LibStop (List Lane) :=
  match addRows lanes (rows.map (addends {} fmt)) with
  | some ls => .ok ls
  | none => .error (.fault St.malformed 0x0804)

/-- The own leaf partial of chunk k: the sum of the V local vectors, order-independent (R241). -/
def Lib.leaf (l : Lib) : Except LibStop (List Lane) := do
  let p := l.p
  let v := bits (memberAt p (ownMember p l.s.self)) 63 32
  let rows ← l.gets 0 0 ((List.range v).map (fun i => (leAt p 8 8 + i * leAt p 32 8 + l.sub * leAt p 16 8, leAt p 16 8)))
  laneSum (List.replicate (redElems p) {}) (leAt p 40 1) rows

/-- The bytes of lanes as a partial. -/
def partialOf (p : List Byte) (ls : List Lane) : List Byte := ((roundLanes (redFmt p) ls).getD ([], 0)).1

/-- Partials combined in order: FP32 additions in tree-ordered mode, QW40 additions in exact mode (R242, R244). -/
def combine (p : List Byte) (l : List (List Byte)) : Except LibStop (List Byte) :=
  if redExact p then
    return partialOf p (← laneSum (List.replicate 256 {}) fmtQw l)
  else
    match l with
    | [] => .ok []
    | a :: rest => .ok (bytes32 (rest.foldl (fun x y => List.zipWith add32 x ((List.range 4096).map (fun i => leAt y (4 * i) 4)))
        (wordsOf 4 a)))

/-- A partial in the output format: one rounding from the exact value (R188, R242). -/
def redOut (p : List Byte) (x : List Byte) : Except LibStop (List Byte) := do
  let ls ← laneSum (List.replicate (redElems p) {}) (redFmt p) [x]
  return ((roundLanes (leAt p 41 1) ls).getD ([], 0)).1

/-- The messages a phase of a reduction waits for: sender's module and sub-part (R242–R244). -/
def redWant (ident : Nat) (p : List Byte) (self k phase : Nat) : List Nat :=
  let i := ownMember p self
  if ident = libScatter then
    if chunkOwner p k = i then ((members p).filter (· ≠ i)).map (memberMod p) else []
  else if phase = 0 then (childrenOf p i).map (memberMod p)
  else [memberMod p (memberUp p i)]

/-- REDUCE and ALL_REDUCE on the way up; the root writes, and under ALL_REDUCE sends its bytes down (R242, R243). -/
def Lib.reduceUp (l : Lib) (down : Bool) : Except LibStop LibOut := do
  let p := l.p
  let i := ownMember p l.s.self
  let kids := childrenOf p i
  let leaf ← l.leaf
  let sum ← combine p (partialOf p leaf :: (List.range kids.length).map l.got)
  if memberUp p i = 0xFFF then
    let out ← redOut p sum
    return { stage := [(1, 0, leAt p 56 8 + l.sub * out.length, out)],
             sends := if down then kids.map (fun j => { mod := memberMod p j, sub := l.sub, data := out }) else [] }
  else
    return { sends := [{ mod := memberMod p (memberUp p i), sub := l.sub, data := sum }], more := down }

/-- ALL_REDUCE on the way down: the chunk is written and forwarded unchanged (R243). -/
def Lib.reduceDown (l : Lib) : LibOut :=
  let p := l.p
  let n := redElems p * (unitOf (leAt p 41 1)).2
  let out := (List.range n).map (fun i => (l.got 0).getD i 0)
  { stage := [(1, 0, leAt p 56 8 + l.sub * n, out)],
    sends := (childrenOf p (ownMember p l.s.self)).map (fun j => { mod := memberMod p j, sub := l.sub, data := out }) }

/-- REDUCE_SCATTER: the leaf goes to the chunk's owner, which combines all members' in ascending index (R244). -/
def Lib.reduceScatter (l : Lib) : Except LibStop LibOut := do
  let p := l.p
  let i := ownMember p l.s.self
  let j := chunkOwner p l.sub
  let leaf ← l.leaf
  if i = j then
    let others := (List.range ((members p).length - 1)).map l.got
    let sum ← combine p (others.take i ++ partialOf p leaf :: others.drop i)
    let out ← redOut p sum
    return { stage := [(1, 0, leAt p 56 8 + (l.sub - j * leAt p 24 4 / max 1 (leAt p 44 2)) * out.length, out)] }
  else return { sends := [{ mod := memberMod p j, sub := l.sub, data := partialOf p leaf }] }

/-! ### Filter, gathers, scatter and compaction (R251–R257) -/

/-- A row satisfies a term of FILTER_PRED, on exact values (R251, R252). -/
def termHolds (t row : List Byte) : Bool :=
  let f := leAt t 2 1
  predHolds (leAt t 3 1 % 16) (elemDec f (leAt row (leAt t 0 2) (unitOf f).2)) (f32.dec (leAt t 8 4)) (f32.dec (leAt t 12 4))

/-- A row is selected: its terms joined by AND or OR (R252). -/
def rowSelected (p row : List Byte) : Bool :=
  let ts := (List.range (leAt p 56 1 % 8)).map (fun i => termHolds (termAt p i) row)
  if bit (leAt p 56 1) 3 then ts.any id else ts.all id

/-- Rows read tile by tile: consecutive rows of one size. -/
def Lib.rows (l : Lib) (k at_ size : Nat) (rows : List Nat) : Except LibStop (List (List Byte)) := do
  let groups := chunks (perTile size 1) rows
  let ds ← l.gets k 0 (groups.map (fun g => (at_ + g.headD 0 * size, g.length * size)))
  return (ds.map (chunks size)).flatten

/-- FILTER_PRED on a chunk: the mask, and the count for the final section (R252). -/
def Lib.filter (l : Lib) : Except LibStop LibOut := do
  let p := l.p
  let rows ← l.rows 0 (leAt p 8 8) (leAt p 28 4) (span 4096 l.sub (leAt p 32 8))
  let hit := rows.map (rowSelected p)
  let mask := bitsToBytes ((List.range 4096).map (fun i => hit.getD i false))
  return { stage := [(1, 0, leAt p 48 8 + 512 * l.sub, mask)],
           sends := [{ mod := l.s.self, sub := finalSub, data := leBytes 8 (hit.filter id).length }] }

/-- The prefix table of FILTER_PRED (R252). -/
def Lib.filterFinal (l : Lib) : LibOut :=
  let p := l.p
  let n := leAt p 24 4
  let counts := (List.range n).map (fun k => leNat (l.got k))
  let table := ((List.range (n + 1)).map (fun k => leBytes 8 (sumOf (counts.take k)))).flatten
  { stage := (chunks tileSize table).zipIdx.map (fun c => (1, 0, leAt p 48 8 + 512 * n + tileSize * c.2, c.1)) }

/-- Little-endian entries of an index list: entries `js` of `b` bytes each, read as one range. -/
def Lib.index (l : Lib) (b : Nat) (js : List Nat) : Except LibStop (List Nat) := do
  if js.isEmpty then return []
  let d ← l.get 0 1 (leAt l.p 24 8 + b * js.headD 0) (b * js.length)
  return wordsOf b d

/-- GATHER_ROWS: phase n of a sub-part, one emission of whole rows (R254). -/
def Lib.gatherRows (l : Lib) (n : Nat) : Except LibStop LibOut := do
  let p := l.p
  let rb := leAt p 44 4
  let all := span 4096 l.sub (leAt p 48 8)
  let js := (all.drop (perTile rb 1 * n)).take (perTile rb 1)
  let idx ← l.index 4 js
  let rows ← l.gets 0 1 (idx.map (fun i => (leAt p 8 8 + i * rb, rb)))
  return { emits := if rows.isEmpty then [] else [(leAt p 56 8 + js.headD 0 * rb, leAt p 80 1, rows.flatten)],
           more := perTile rb 1 * (n + 1) < all.length }

/-- GATHER_PAGES: phase n of a sub-part, a quarter of a page (R254). -/
def Lib.gatherPages (l : Lib) (n : Nat) : Except LibStop LibOut := do
  let p := l.p
  let all := span 64 l.sub (leAt p 48 8)
  let js := (all.drop (n / 4)).take 1
  let idx ← l.index 8 js
  if idx.any off64 then .error (.fault St.malformed 0x0801)
  else
    let d ← l.gets 0 1 (idx.map (fun o => (o + tileSize * (n % 4), tileSize)))
    return { emits := js.zip d |>.map (fun x => (leAt p 56 8 + 65536 * x.1 + tileSize * (n % 4), leAt p 80 1, x.2)),
             more := n + 1 < 4 * all.length }

/-- SCATTER_ADD: phase n of a sub-part, as many rows as the stage holds, in ascending entries (R256). -/
def Lib.scatterAdd (l : Lib) (n : Nat) : Except LibStop LibOut := do
  let p := l.p
  let rb := leAt p 44 4
  let qw := leAt p 80 1 = 2
  let db := if qw then 10 * rb else rb
  let all := span 4096 l.sub (leAt p 48 8)
  let per := perTile db l.r.v.img.stage
  let js := (all.drop (per * n)).take per
  let idx ← l.index 4 js
  let rows ← l.gets 0 1 (js.map (fun j => (leAt p 8 8 + j * rb, rb)))
  return { stage := (idx.zip rows).map (fun x =>
             (2, if qw then 2 else 1, leAt p 72 8 + x.1 * db,
               if qw then ((wordsOf 4 x.2).map (fun y => qwOfNum (f32.dec y))).flatten else x.2)),
           more := per * (n + 1) < all.length }

/-- COMPACT_ROWS: phase n of a sub-part, as many selected rows as the stage holds (R257). -/
def Lib.compact (l : Lib) (n : Nat) : Except LibStop LibOut := do
  let p := l.p
  let rb := leAt p 44 4
  let mask ← l.get 0 1 (leAt p 24 8 + 512 * l.sub) 512
  let pre ← l.get 1 1 (leAt p 24 8 + 512 * leAt p 40 4 + 8 * l.sub) 8
  let sel := (bytesToBits mask).zipIdx.filterMap (fun x => if x.1 then some (4096 * l.sub + x.2) else none)
  let per := perTile rb l.r.v.img.stage
  let js := (sel.drop (per * n)).take per
  let rows ← l.gets 0 2 (js.map (fun j => (leAt p 8 8 + j * rb, rb)))
  return { stage := rows.zipIdx.map (fun x => (2, 0, leAt p 72 8 + (leNat pre + per * n + x.2) * rb, x.1)),
           more := per * (n + 1) < sel.length }

/-! ### Searches (R258–R267) -/

/-- The payload of a local item: the item and this module (R259). -/
def itemPay (self item : Nat) : W64 := BitVec.ofNat 64 (item % 2 ^ 40 + self * 2 ^ 40)

/-- A result entry: key, payload (R260). -/
def entryBytes (x : Nat × W64) : List Byte := leBytes 8 x.1 ++ leBytes 8 x.2.toNat

/-- Keep the best entries of a list, at most `cap`, best first. -/
def bestOf (fp big : Bool) (cap : Nat) (l : List (Nat × W64)) : List (Nat × W64) :=
  l.foldl (fun h x => (heapIns (heapBefore fp big) x h).take cap) []

/-- The pass radii r_0 … r_W (R259). -/
def radii (p : List Byte) : List Nat :=
  (List.range (leAt p 62 1 % 16 + 1)).map (fun j => min (leAt p 60 2 + j * leAt p 64 2) (leAt p 56 2))

/-- The tombstone bits of consecutive items; none are set where there is no bitmap (R259). -/
def Lib.tombs (l : Lib) (n at_ first count : Nat) : Except LibStop (List Bool) := do
  if at_ = 2 ^ 64 - 1 || count = 0 then return List.replicate count false
  let d ← l.get n 0 (at_ + first / 8) ((first + count + 7) / 8 - first / 8)
  return ((bytesToBits d).drop (first % 8)).take count

/-- The candidates of a read of sketches, as items and distances: a port sieve passes those within r_W (R259, R261). -/
def sketchDists (q w : Nat) (first : Nat) (sieved : Option Nat) (d : List Byte) : List (Nat × Nat) :=
  let all := (wordsOf (w / 8) d).zipIdx.map (fun x => (first + x.2, popcount w (Nat.xor q x.1)))
  match sieved with
  | some r => all.filter (fun x => x.2 ≤ r)
  | none => all

/-- The items of a sub-part of HAMMING_TOPK, by tiles. -/
def Lib.itemGroups (l : Lib) : List (List Nat) :=
  let sz := leAt l.p 56 2 / 8
  chunks (perTile sz 1) (span (leAt l.p 16 8 / sz) l.sub (leAt l.p 32 8))

/-- The ranges of their sketches. -/
def Lib.sketchRanges (l : Lib) : List (Nat × Nat) :=
  let sz := leAt l.p 56 2 / 8
  l.itemGroups.map (fun g => (leAt l.p 8 8 + g.headD 0 * sz, g.length * sz))

/-- Reads of sketches that a sub-part of HAMMING_TOPK has made before it faults (R261, R262). -/
def Lib.scanned (l : Lib) : Nat → List (Nat × Nat) → List (Nat × List Byte)
  | _, [] => []
  | n, (off, len) :: rest =>
    match l.get n 0 off len with
    | .ok d => (off, d) :: Lib.scanned l (n + 1) rest
    | .error _ => []

/-- A sub-part of HAMMING_TOPK: its items by tiles, counts by pass radius, and its heap (R259). -/
def Lib.hamming (l : Lib) : Except LibStop LibOut := do
  let p := l.p
  let w := leAt p 56 2
  let groups := l.itemGroups
  let rW := (radii p).getLast?.getD 0
  let ranges := l.sketchRanges
  let data ← l.gets 0 0 ranges
  let dead ← groups.zipIdx.mapM (fun g => l.tombs (groups.length + g.2) (leAt p 40 8) (g.1.headD 0) g.1.length)
  let q := leAt p 128 (w / 8)
  let live := ((groups.zip (data.zip dead)).map (fun x =>
    let first := x.1.headD 0
    (sketchDists q w first (if bit (leAt p 63 1) 0 then some rW else none) x.2.1).filter (fun y =>
      !(x.2.2.getD (y.1 - first) false)))).flatten
  let counts := (radii p).map (fun r => (live.filter (fun y => y.2 ≤ r)).length)
  let heap := bestOf false false l.r.v.img.heap
    ((live.filter (fun y => y.2 ≤ rW)).map (fun y => (y.2, itemPay l.s.self y.1)))
  return { sends := [{ mod := l.s.self, sub := finalSub, data := (counts.map (leBytes 8)).flatten },
                     { mod := l.s.self, sub := finalSub, chan := 1,
                       data := if heap.isEmpty then entryBytes (0, 0) else (heap.map entryBytes).flatten }],
           reads := (ranges.map Prod.fst).zip data }

/-- The stores and result words of a search: entries best first on TC1, the number written and the last threshold. -/
def searchOut (ptr : Nat) (es : List (List Byte)) (worst : Nat) : LibOut :=
  { emits := if es.isEmpty then [] else [(ptr, 1, es.flatten)], result := some (es.length, worst) }

/-- The final section of HAMMING_TOPK (R260). -/
def Lib.hammingFinal (l : Lib) : LibOut :=
  let p := l.p
  let n := leAt p 24 4
  let k := leAt p 58 2
  let rs := radii p
  let parts := (List.range n).map (fun i =>
    let c := (List.range rs.length).map (fun j => leAt (l.got (2 * i)) (8 * j) 8)
    (c, ((chunks 16 (l.got (2 * i + 1))).map (fun e => (leAt e 0 8, BitVec.ofNat 64 (leAt e 8 8)))).take (c.getLast?.getD 0)))
  let total := (List.range rs.length).map (fun j => sumOf (parts.map (fun x => x.1.getD j 0)))
  let heap := bestOf false false 1024 ((parts.map Prod.snd).flatten)
  let want := if total.any (fun c => k ≤ c) then k else total.getLast?.getD 0
  searchOut (leAt p 48 8) ((heap.take want).map entryBytes) (rs.getLast?.getD 0)

/-- An item of a graph walk's beam: distance, item, expanded (R264). -/
structure BeamItem where
  dist : Nat
  item : Nat
  expanded : Bool := false

/-- A graph walk: its beam by (distance, item), the marks of its visited filter, and the reads it has made. -/
structure Walk where
  beam : List BeamItem := []
  marks : List Nat := []
  reads : Nat := 0

/-- The visited filter's hash: 23 bits (R264). -/
def walkHash (i : Nat) : Nat := i * 0x9E3779B97F4A7C15 % 2 ^ 64 / 2 ^ 41

/-- Insert into the beam, which keeps its best B items, ties to the lower item. -/
def beamIns (cap : Nat) (x : BeamItem) (l : List BeamItem) : List BeamItem :=
  (l.filter (fun y => y.dist < x.dist || (y.dist = x.dist && y.item < x.item)) ++ x ::
    l.filter (fun y => !(y.dist < x.dist || (y.dist = x.dist && y.item < x.item)))).take cap

/-- Items not yet marked are marked, measured and inserted, in order (R264). -/
def Lib.visit (l : Lib) : Walk → List Nat → Except LibStop Walk
  | w, [] => .ok w
  | w, i :: rest => do
    if w.marks.any (· = walkHash i) then Lib.visit l w rest
    else
      let p := l.p
      let bw := leAt p 48 2
      let d ← l.get w.reads 0 (leAt p 8 8 + i * (bw / 8)) (bw / 8)
      let x : BeamItem := { dist := popcount bw (Nat.xor (leAt p 192 (bw / 8)) (leNat d)), item := i }
      Lib.visit l { beam := beamIns (leAt p 52 2) x w.beam, marks := walkHash i :: w.marks, reads := w.reads + 1 } rest

/-- At most `hops` hops: each expands the unexpanded beam item of least (distance, item) (R264). -/
def Lib.hops (l : Lib) : Nat → Walk → Except LibStop Walk
  | 0, w => .ok w
  | hops + 1, w => do
    match w.beam.find? (fun x => !x.expanded) with
    | none => return w
    | some x =>
      let p := l.p
      let r := leAt p 54 1
      let d ← l.get w.reads 0 (leAt p 16 8 + 4 * r * x.item) (4 * r)
      let w := { w with reads := w.reads + 1, beam := w.beam.map (fun y => if y.item = x.item then { y with expanded := true } else y) }
      let w ← l.visit w ((wordsOf 4 d).filter (fun i => i ≠ 0xFFFFFFFF && i < leAt p 32 8))
      Lib.hops l hops w

/-- GRAPH_WALK (R264, R265). -/
def Lib.graph (l : Lib) : Except LibStop LibOut := do
  let p := l.p
  let w ← l.visit {} ((List.range (leAt p 55 1)).map (fun i => leAt p (64 + 4 * i) 4))
  let w ← l.hops (leAt p 56 2) w
  let dead ← w.beam.zipIdx.mapM (fun x => l.tombs (w.reads + x.2) (leAt p 24 8) x.1.item 1)
  let best := ((w.beam.zip dead).filterMap (fun x => if x.2 = [true] then none else some x.1)).take (leAt p 50 2)
  let worst := match best.getLast? with | some x => x.dist | none => leAt p 48 2 + 1
  return searchOut (leAt p 40 8) (best.map (fun x => entryBytes (x.dist, itemPay l.s.self x.item))) worst

/-- The score of a vector against the query (R267). -/
def rerankScore (f metric : Nat) (q x : List Num) : Nat :=
  let g := (macGroupOf f f).getD 8
  let d := macOut f g 0 q x
  if metric = 0 then d
  else add32 (f32.enc ((f32.dec (macOut f g 0 q q)).add ((f32.dec d).scale 1).negate)) (macOut f g 0 x x)

/-- RERANK (R267): with fewer than p.k finite scores it writes those, and is short. With no score written result1 is open (log entry 157). -/
def Lib.rerank (l : Lib) : Except LibStop LibOut := do
  let p := l.p
  let dim := leAt p 24 2
  let f := leAt p 26 1
  let vec := fun (b : List Byte) => (wordsOf 2 b).map (elemDec f)
  let pay := (List.range (leAt p 30 2)).map (fun i => leAt p (64 + 2 * dim + 8 * i) 8)
  let ds ← l.gets 0 0 (pay.map (fun y => (leAt p 8 8 + 2 * dim * (y % 2 ^ 40), 2 * dim)))
  let scored := (ds.zip pay).map (fun x =>
    (rerankScore f (leAt p 27 1) (vec ((p.drop 64).take (2 * dim))) (vec x.1), BitVec.ofNat 64 x.2))
  let real := scored.filter (fun x => !(f32.dec x.1).isNan)
  let finite := real.filter (fun x => match f32.dec x.1 with | .fin _ _ _ => true | _ => false)
  let best := bestOf true (leAt p 27 1 = 0) (min l.r.v.img.heap (leAt p 28 2))
    (if finite.length < leAt p 28 2 then finite else real)
  return { searchOut (leAt p 16 8) (best.map entryBytes) (match best.getLast? with | some x => x.1 | none => 0) with
           openWord := best.isEmpty }

/-! ### A phase of a library recipe -/

/-- The messages a phase waits for, in order: sender's module and sub-part, and channel. -/
def Lib.wants (l : Lib) (ident phase : Nat) : List (Nat × Nat × Nat) :=
  if ident = libReduce || ident = libAllReduce || ident = libScatter then
    (redWant ident l.p l.s.self l.sub phase).map (fun m => (m, l.sub, 0))
  else if l.sub = finalSub then
    ((List.range l.r.v.count).map (fun k =>
      if ident = libHamming then [(l.s.self, k, 0), (l.s.self, k, 1)] else [(l.s.self, k, 0)])).flatten
  else []

/-- The collective key and the timeout in µs of a phase's messages (R239, R245). -/
def Lib.keyTmo (l : Lib) (ident : Nat) : Nat × Nat :=
  let own := ident = libReduce || ident = libAllReduce || ident = libScatter
  let t := if own then leAt l.p 72 4 else 0
  (if own then leAt l.p 64 8 else 0, if t = 0 then l.s.fld F.slcCtlRecvTmo else t)

/-- What phase `n` of a library recipe does. -/
def Lib.phase (l : Lib) (ident n : Nat) : Except LibStop LibOut :=
  if ident = libDecode then (if l.sub = finalSub then .ok l.decodeFinal else l.decode)
  else if ident = libAppend then l.append
  else if ident = libReduce then l.reduceUp false
  else if ident = libAllReduce then (if n = 0 then l.reduceUp true else .ok l.reduceDown)
  else if ident = libScatter then l.reduceScatter
  else if ident = libFilter then (if l.sub = finalSub then .ok l.filterFinal else l.filter)
  else if ident = libGatherRows then l.gatherRows n
  else if ident = libGatherPages then l.gatherPages n
  else if ident = libScatterAdd then l.scatterAdd n
  else if ident = libCompact then l.compact n
  else if ident = libHamming then (if l.sub = finalSub then .ok l.hammingFinal else l.hamming)
  else if ident = libGraph then l.graph
  else l.rerank

/-! ### Running a phase -/

/-- The context of a library recipe that stands before a phase as a whole, with the number of that phase: no step of its
image has run (R226, R227). -/
def State.libAt (s : State) (cx : Nat) : Option (Run × Nat × LibSt) :=
  match s.ctx cx with
  | none => none
  | some c =>
    match s.inv c.lsn, s.entry c.lsn with
    | some v, some e =>
      let ident := s.libIdent e
      let first := c.used = 0 && c.pc = (if c.sub = finalSub then v.img.final else 0)
      let stands := match c.status with | .ready => true | .recv _ => c.lib.isSome | _ => false
      (match libShape ident with
       | some x =>
         if v.img.fits x && (c.lib.isSome || first) && stands && e.running && !s.ldg.fenced && !(s.halting e) &&
             s.sliceUp c.slice && s.sliceTested c.slice then
           some ({ cx := cx, c := c, v := v, e := e, st := { op := 0 } }, ident, c.lib.getD {})
         else none
       | none => none)
    | _, _ => none

/-- Messages a phase waits for are taken in order, each when it has come; with all of them the phase goes on. -/
def State.libTake (s : State) (r : Run) (key : Nat) : Ctx → List (Nat × Nat × Nat) → State × Ctx × Bool
  | c, [] => (s, c, true)
  | c, (m, k, ch) :: rest =>
    let is : RMsg → Bool := fun x => r.v.takes c.lsn x && x.key.toNat = key && x.srcMod.toNat = m && x.srcSub = k &&
      x.chan = ch && x.dstSub = c.sub
    match s.slc.held.find? (fun h => is h.1) with
    | none => (s, c, false)
    | some h =>
      State.libTake { s with slc := { s.slc with held := listDrop1 (fun x => is x.1) s.slc.held } } r key
        { c with recvd := c.recvd ++ [h.1], status := .ready } rest

/-- The outcome of a phase is staged and held, and its context stands at the end of the phase (R206). -/
def State.libEnd (s : State) (r : Run) (c : Ctx) (key n : Nat) (o : LibOut) : State :=
  let slotBad := match o.slot, r.v.binds.getD 0 none with
    | some k, some b =>
      (match s.nameSlot r.e.tenant k 2 with
       | some f => (s, some f)
       | none => s.recordSlot b.region b.version k)
    | _, _ => (s, none)
  match slotBad with
  | (_, some (st, d)) => s.faultSub r.cx st d
  | (s, none) =>
    let put := o.stage.foldl (fun (acc : Except (Nat × Nat) Ctx) x =>
      andThen acc (fun c => s.stageAll r x.1 x.2.1 c [(x.2.2.1, x.2.2.2)])) (.ok c)
    match put with
    | .error (st, d) => s.faultSub r.cx st d
    | .ok c =>
      let msg : LibMsg → Nat × RMsg := fun m =>
        (m.mod, { tenant := r.e.tenant, lsn := c.lsn, key := BitVec.ofNat 64 key, srcMod := BitVec.ofNat 12 s.self,
                  srcSub := c.sub, dstSub := m.sub, chan := m.chan,
                  tc := Fin.ofNat 4 (if key = 0 then 1 else bits (leAt r.v.params 42 1) 2 1), data := m.data })
      let word : Nat → Nat := fun x => if o.openWord then (Config.freeWord s.freeIdx).toNat else x
      let s := match r.v.binds.getD 0 none with
        | some b => o.reads.foldl (fun (t : State) (x : Nat × List Byte) => t.sieveRead r b x.1 x.2) s
        | none => s
      ((s.bump F.codecCnt0NanBlocks 0 0 o.nans).when o.openWord State.tickFree).modCtx r.cx (fun _ =>
        { c with
          sends := o.sends.map msg, status := .commit 0, pass := false,
          emits := o.emits.map (fun (x : Nat × Nat × List Byte) => { ptr := BitVec.ofNat 64 x.1, tc := x.2.1, bytes := x.2.2 }),
          result := o.result.map (fun (x : Nat × Nat) => (BitVec.ofNat 64 x.1, BitVec.ofNat 64 (word x.2))),
          lib := some { phase := n + 1 }, pc := if o.more then c.pc else r.v.img.lastStep c.sub + 1 })

/-- A shadow runs its primary's phase on the values its primary has read (R408): it stands at the same end. -/
def State.libShadow (s : State) (cx prime : Nat) : State :=
  match s.ctx prime with
  | some q =>
    (match q.status with
     | .commit _ => s.modCtx cx (fun c =>
        { c with stage := q.stage, sends := q.sends, emits := q.emits, result := q.result, regs := q.regs, lib := q.lib,
                 pc := q.pc, status := .commit 0 })
     | _ => s)
  | none => s

/-- A reduction first sums its own vectors, before it waits for the partials of others (R241, R242). -/
def Lib.ownFirst (l : Lib) (ident phase : Nat) : Except LibStop Unit :=
  if (ident = libReduce || ident = libAllReduce || ident = libScatter) && phase = 0 then l.leaf.map (fun _ => ()) else .ok ()

/-- A phase stops: a read that may stall waits or ends as NOT_READY (R113, R114); a fault ends the sub-part, after what its reads
have counted (R174, R261, R262). -/
def State.libStop (s : State) (r : Run) (ident : Nat) (x : LibSt) (e : LibStop) : State :=
  let l : Lib := { s := s, r := r, done := x.reads }
  let scan := fun (s : State) =>
    if ident = libHamming && r.c.sub ≠ finalSub then
      match r.v.binds.getD 0 none with
      | some b => (l.scanned 0 l.sketchRanges).foldl (fun (t : State) (y : Nat × List Byte) => t.sieveRead r b y.1 y.2) s
      | none => s
    else s
  match e with
  | .fault st d why =>
    (((scan s).countLp why).when (d = 0x0605 && why ≠ d) (fun s => s.bump F.codecCnt3IdentMismatch)).faultSub r.cx st d
  | .late n k off len =>
    match r.v.binds.getD k none with
    | none => s
    | some b =>
      match s.tryStall (.ctx r.cx) r.e.tenant b.region b.version ((pageSpans off len).map (fun q => q.1)) with
      | (t, .stalled) => (t.modCtx r.cx (fun c => { c with lib := some { x with reads := n }, pass := false })).stallCtx r.cx
      | (t, .notReady) => (scan t).faultSub r.cx St.notReady 0x0411
      | (t, .go) => t

/-- A context of a library recipe runs its next phase: it takes its messages, or waits for the next one; a read may stall
(R113); and the outcome is staged and held. -/
def State.libRun (s : State) (cx : Nat) : State :=
  match s.libAt cx with
  | none => s
  | some (r, ident, x) =>
    match r.c.shadowOf with
    | some prime => s.libShadow cx prime
    | none =>
      let l : Lib := { s := s, r := r, done := x.reads }
      match l.ownFirst ident x.phase with
      | .error e => s.libStop r ident x e
      | .ok _ =>
        let (key, us) := l.keyTmo ident
        let c0 : Ctx := { r.c with lib := some x }
        match s.libTake r key c0 ((l.wants ident x.phase).drop c0.recvd.length) with
        | (s, c, false) =>
          s.modCtx cx (fun _ => match c.status with | .recv _ => c | _ => { c with status := .recv (s.now + 1000 * us) })
        | (s, c, true) =>
          let c : Ctx := { c with status := .ready }
          let s := s.modCtx cx (fun _ => c)
          let r := { r with c := c }
          match ({ s := s, r := r, done := x.reads } : Lib).phase ident x.phase with
          | .ok o => s.libEnd r c key x.phase o
          | .error e => s.libStop r ident x e

/-- An ATTN_APPEND reads its lines when it starts, so that of two that run together the later commit writes what it had read
(R237, R238). -/
def State.libStart (s : State) (cx : Nat) : State :=
  match s.libAt cx with
  | some (r, ident, _) => s.when (ident = libAppend && r.c.shadowOf.isNone) (fun s => s.libRun cx)
  | none => s

/-- RECV_TIMEOUT (R215, R245): a message that came in the tick of the expiry counts as in time. -/
def execRecvTimeout (cx : Nat) (s : State) : Host.Outcome State Fault Refusal :=
  .next (match s.ctx cx with
    | some c =>
      (match c.status with
       | .recv t =>
         let s := s.waitTill t
         if c.lib.isSome then
           let u := s.libRun cx
           match u.libAt cx, u.ctx cx with
           | some (r, ident, x), some d =>
             let l : Lib := { s := u, r := r, done := 0 }
             if d.status = .recv t && d.recvd.length = c.recvd.length then
               match (l.wants ident x.phase)[d.recvd.length]? with
               | some w =>
                 (u.noteLate r.e.tenant d.lsn (BitVec.ofNat 64 (l.keyTmo ident).1) w.1 w.2.1 d.sub w.2.2).faultSub cx
                   St.timeout 0x0808
               | none => u
             else u
           | _, _ => u
         else
           s.onStep cx (fun st => st.op = 0x13) (fun r =>
             match s.takeMessage r with
             | some o => o
             | none =>
               .fault (s.noteLate r.e.tenant r.c.lsn (BitVec.ofNat 64 (r.c.g r.st.d)) r.gc r.gb r.c.sub (r.st.m 3 0))
                 St.timeout 0x0808) isRecv
       | _ => s)
    | none => s)

end Sys2Proof.Machine
end

