-- ==== Sys2Proof/Machine/Invoke.lean ====
section
/-! DEFINITION. Recipe images and invocations (R14, R196–R199, R218–R223, R250, R255, R355–R357, R408): LOAD_RECIPE, the start of an
INVOKE, of its sub-parts and of its final section, its completion, and work runs. -/

namespace Sys2Proof.Machine

/-! ### Applying the stage (R207, R214) -/

/-- FP32 elements added one by one, one rounding each. -/
def addF32 (old new : List Byte) : List Byte := bytes32 (List.zipWith add32 (wordsOf 4 old) (wordsOf 4 new))

/-- QW40 elements added modulo 2^320 (R190, R214). -/
def addQw (old new : List Byte) : List Byte :=
  (List.zipWith (fun a b => leBytes 40 ((qwDec a).addQw b).qw) (wordsOf 40 old) (wordsOf 40 new)).flatten

/-- Apply stage entries in stage order; the first failure leaves nothing applied, and says what the LP engines count of it (R174). -/
def State.applyStage (s : State) (e : Entry) : List StageEnt → Except (Nat × Nat × Nat) State
  | [] => .ok s
  | x :: rest =>
    match s.inv e.lsn with
    | none => .ok s
    | some v =>
      match v.binds.getD x.bind none with
      | none => .error (St.denied, 0x0803, 0)
      | some b =>
        let old : Except (Nat × Nat × Nat) (List Byte) :=
          if x.mode = 0 then .ok x.bytes
          else
            match s.runRaw v x.bind b x.off x.bytes.length, s.runRead v x.bind b x.off x.bytes.length with
            | _, .ok old => .ok (if x.mode = 1 then addF32 old x.bytes else addQw old x.bytes)
            | .error w, .error f => .error (f.1, f.2, w.2)
            | .ok _, .error f => .error (f.1, f.2, 0)
        match old with
        | .error f => .error f
        | .ok data =>
          match s.runWrite e v x.bind x.off data with
          | (_, some f) => .error (f.1, f.2, f.2)
          | (t, none) => State.applyStage (t.dropOwners b.region b.version x.off data.length) e rest

/-! ### Recipe images (R200, R220, R221) -/

/-- A step from its 16 bytes (R200). -/
def stepOfBytes (b : List Byte) : Step :=
  let w := leAt b 0 8
  { op := bits w 7 0, commit := bit w 8, a := bits w 23 16, b := bits w 31 24, c := bits w 39 32, d := bits w 47 40,
    mod := bits w 63 48, imm := BitVec.ofNat 64 (leAt b 8 8) }

/-- The image of a byte list (R220). -/
def imageOf (b : List Byte) : Image :=
  let q := leAt b 10 1
  let sp := leAt b 11 1
  { ident := leAt b 0 4, final := leAt b 5 1, scratch := leAt b 6 1, stage := leAt b 7 1, heap := leAt b 8 2,
    banks := bits q 2 0, carried := bits q 7 4, stride := bits sp 1 0 = 1, splitBind := bits sp 4 2,
    splitBase := leAt b 12 1, splitStride := leAt b 13 1, splitCount := leAt b 14 1,
    binds := (List.range 8).map (fun k =>
      let w := leAt b (16 + 2 * k) 2
      (bits w 8 0, bit w 9, bit w 10)),
    budget := leAt b 32 4, paramsMin := leAt b 36 2, steps := (chunks 16 (b.drop 64)).map stepOfBytes }

/-- The header lies inside R220, no Res bit is set and the CRC of the steps holds. -/
def headerOk (b : List Byte) (i : Image) : Bool :=
  let n := leAt b 4 1
  i.ident ≠ 0 && 1 ≤ n && n ≤ 64 && i.final < n && 1 ≤ i.scratch && i.stage ≤ 64 && i.scratch + i.stage ≤ 192 &&
    i.heap ≤ 1024 && i.heap % 64 = 0 && i.banks ≤ 4 && !(bit (leAt b 10 1) 3) && i.carried < 2 ^ i.banks &&
    bits (leAt b 11 1) 1 0 ≤ 1 && bits (leAt b 11 1) 7 5 = 0 && leAt b 15 1 = 0 &&
    (List.range 8).all (fun k => bits (leAt b (16 + 2 * k) 2) 15 11 = 0) && i.budget ≠ 0 && i.paramsMin ≤ 4096 &&
    leAt b 38 2 = 0 && (List.range 20).all (fun k => leAt b (44 + k) 1 = 0) && crc32c (b.drop 64) = leAt b 40 4 &&
    (!i.stride || (match i.binds[i.splitBind]? with | some x => x.2.1 | none => false))

/-- The register operands of a step (R200, R211, R212). -/
def Step.regs (t : Step) : List Nat :=
  match t.op with
  | 0x01 => [t.b]
  | 0x02 => [t.b]
  | 0x06 =>
    (match t.m 7 0 with
     | 0x80 => [t.a]
     | 0x82 => [t.a, t.b]
     | 0x8A => [t.a, t.b]
     | 0x8B => [t.b, t.c]
     | n => if 0x80 ≤ n then [t.a, t.b, t.c] else [])
  | 0x0A => [t.c, t.d]
  | 0x0B => [t.c, t.d]
  | 0x0D => [t.d]
  | 0x0E => [t.b]
  | 0x0F => [t.c, t.d]
  | 0x10 => [t.d]
  | 0x11 => [t.b]
  | 0x12 => [t.b, t.c, t.d]
  | 0x13 => [t.b, t.c, t.d]
  | 0x14 => [t.a]
  | 0x15 => [t.a, t.b, t.c, t.d]
  | 0x16 => if t.m 0 0 = 1 then [t.b] else [t.a, t.b]
  | 0x17 => if t.m 4 4 = 1 then [t.a] else [t.a, t.b]
  | 0x18 => if t.m 0 0 = 1 then [t.a, t.b] else [t.b]
  | _ => []

/-- A known OP and no Res bit, [15:9] of W0 and [7:5] of register fields. -/
def stepOk (w0 : Nat) (t : Step) : Bool := 1 ≤ t.op && t.op ≤ 0x18 && bits w0 15 9 = 0 && t.regs.all (· < 32)

/-- The LOOP steps of an image: index and last body step. -/
def Image.loopList (i : Image) : List (Nat × Nat) :=
  i.steps.zipIdx.filterMap (fun x => if x.1.op = 0x16 then some (x.2, x.1.i 7 0) else none)

/-- First and last step of the section a step lies in. -/
def Image.section (i : Image) (n : Nat) : Nat × Nat :=
  if i.final ≠ 0 && n < i.final then (0, i.final - 1) else (i.final, i.steps.length - 1)

/-- Loops and branches obey R221: bodies inside their section, not empty, nested inside one another at most 4 deep, and no
branch across a body's bounds. -/
def flowOk (i : Image) : Bool :=
  let ls := i.loopList
  ls.all (fun l => l.1 < l.2 && l.2 ≤ (i.section l.1).2) &&
    ls.all (fun l => ls.all (fun m => !(l.1 < m.1 && m.1 ≤ l.2) || m.2 ≤ l.2)) &&
    ls.all (fun m => (ls.filter (fun l => l.1 < m.1 && m.1 ≤ l.2)).length < 4) &&
    i.steps.zipIdx.all (fun x =>
      x.1.op ≠ 0x17 ||
        (let t := x.1.i 7 0
         (i.section x.2).1 ≤ t && t ≤ (i.section x.2).2 &&
           ls.all (fun l => (decide (l.1 < x.2) && decide (x.2 ≤ l.2)) = (decide (l.1 < t) && decide (t ≤ l.2)))))

/-- The image that a fetched byte list holds, if R221 accepts it for its length. -/
def goodImage (b : List Byte) : Option Image :=
  let i := imageOf b
  if b.length = 64 + 16 * leAt b 4 1 && headerOk b i &&
      ((chunks 16 (b.drop 64)).map (fun t => stepOk (leAt t 0 8) (stepOfBytes t))).all id && flowOk i then some i
  else none

/-! ### LOAD_RECIPE (R221, R222) -/

/-- Recipe slots a tenant owns (R225). -/
def State.recipesOwned (s : State) (t : Nat) : Nat :=
  ((Tbl.vals s.slc.slots).filter (fun (r : RecipeSlot) => r.st ≠ .empty && r.owner = t)).length

/-- Why a slot cannot be loaded by a tenant, in the order of R222. -/
def State.recipeFail (s : State) (t slot : Nat) : Option (Nat × Nat) :=
  let r := s.slc.slots.rd {} slot
  if r.st = .empty then
    if s.recipesOwned t ≥ s.fld F.slcTenCtlMaxRecipes t then some (St.quota, 0x0833) else none
  else if r.owner ≠ t then some (St.denied, 0x0832)
  else if r.st ≠ .loaded || s.slotRefs slot > 0 then some (St.denied, 0x0831)
  else none

/-- A LOAD_RECIPE goes on: it takes its slot and asks for the image, or takes the image that came. A length no image has is
refused without a fetch. -/
def State.loadRecipe (s : State) (lsn : Nat) : State :=
  s.onOp lsn opLoadRecipe (fun e s =>
    match e.note with
    | [slot, _, _] =>
      match s.fetchOf (.image lsn) with
      | some (.failed st d) => s.fixResult lsn (Res.fail st d)
      | some (.got b) =>
        match goodImage b with
        | none => s.fixResult lsn (Res.fail St.malformed 0x0003)
        | some i =>
          let s := { s with slc := { s.slc with
            slots := Tbl.put {} slot { st := .loaded, owner := e.tenant, img := some i } s.slc.slots } }
          s.fixResult lsn Res.ok
      | _ => s
    | _ =>
      let slot := bits (e.w 2) 7 0
      let len := bits (e.w 4) 31 0
      match s.recipeFail e.tenant slot with
      | some (st, d) => s.fixResult lsn (Res.fail st d)
      | none =>
        if len < 80 || len > 1088 || len % 16 ≠ 0 then s.fixResult lsn (Res.fail St.malformed 0x0003)
        else
          let r := s.slc.slots.rd {} slot
          let s := s.setNote lsn [slot, if r.st = SlotState.empty then 0 else 1, s.now]
          let s := { s with slc := { s.slc with
            slots := Tbl.put {} slot { r with st := .loading, owner := e.tenant } s.slc.slots } }
          let s := s.readEp e.tenant (e.w 3) len (.image lsn)
          match s.fetchOf (.image lsn) with
          | some (.failed st d) => s.fixResult lsn (Res.fail st d)
          | _ => s)

/-- LOAD_RECIPE (R222). -/
def execLoadRecipe (lsn : Nat) (s : State) : Host.Outcome State Fault Refusal := .next (s.loadRecipe lsn)

/-! ### INVOKE: start (R199, R223, R227, R249, R355, R357, R408) -/

/-- The desc.ref of a binding in the parameters; none where the binding is not PRESENT or its desc.ref is all zero (R199). -/
def Image.refAt (i : Image) (p : List Byte) (k : Nat) : Option (Nat × Bool) :=
  match i.binds[k]? with
  | some (off, true, wr) => if leAt p (8 * off) 8 = 0 then none else some (leAt p (8 * off) 8, wr)
  | _ => none

/-- Parameters too short for the image (R223). -/
def Image.short (i : Image) (n : Nat) : Bool :=
  n < i.paramsMin || i.binds.any (fun b => b.2.1 && 8 * b.1 + 8 > n) ||
    (i.stride && (8 * i.splitBase + 8 > n || 8 * i.splitStride + 8 > n || 8 * i.splitCount + 4 > n))

/-- Resolve a binding: a WRITE binding to the pair's open version, a read binding as any read (R82, R199). One to a region lost
with its module binds no version: the sub-parts that reach it fault (R364). -/
def State.bindRef (s : State) (e : Entry) (w : Nat) (wr : Bool) : Except (Nat × Nat) Bind :=
  if wr then
    match s.resolveWrite (s.callerOf e) (refOf w) with
    | .ok (_, n, _) => .ok { region := (refOf w).region, version := n, write := true }
    | .error f =>
      if f.1 = St.poisoned then .ok { region := (refOf w).region, version := 0, write := true }
      else if f.2 = 0x0E01 then .error f
      else .error (St.denied, 0x0824)
  else
    match s.resolveRead (s.callerOf e) (refOf w) with
    | .ok (_, n, _) => .ok { region := (refOf w).region, version := n, write := false }
    | .error f => if f.1 = St.poisoned then .ok { region := (refOf w).region, version := 0, write := false } else .error f

/-- Resolve all bindings of one direction, in order: the first failure decides. -/
def State.bindAll (s : State) (e : Entry) (i : Image) (p : List Byte) (wr : Bool) :
    List Nat → Except (Nat × Nat) (List (Nat × Bind))
  | [] => .ok []
  | k :: rest =>
    match i.refAt p k with
    | some (w, b) =>
      if b = wr then
        andThen (s.bindRef e w wr) (fun x => andThen (State.bindAll s e i p wr rest) (fun l => .ok ((k, x) :: l)))
      else State.bindAll s e i p wr rest
    | none => State.bindAll s e i p wr rest

/-- The invocation an INVOKE with these parameters starts, or its failure, in the order of R223 and then of the library
checks. -/
def State.invokeCheck (s : State) (e : Entry) (p : List Byte) : Except (Nat × Nat) Inv :=
  let slot := s.slc.slots.rd {} (bits (e.w 2) 7 0)
  match (if e.slotRef then slot.img else none) with
  | none => .error (St.denied, 0x0821)
  | some i =>
    if slot.owner ≠ e.tenant && slot.owner ≠ 0 then .error (St.denied, 0x0822)
    else if i.short p.length then .error (St.malformed, 0x0823)
    else
      andThen (s.bindAll e i p true (List.range 8)) (fun ws => andThen (s.bindAll e i p false (List.range 8)) (fun rs =>
        let base := leAt p (8 * i.splitBase) 8
        let stride := leAt p (8 * i.splitStride) 8
        let count := if i.stride then leAt p (8 * i.splitCount) 4 else 1
        if i.stride && (count = 0 || count > 65536 || (stride = 0 && count > 1)) then .error (St.malformed, 0x0825)
        else
          match (if slot.owner = 0 then libCheck i.ident (bit (e.w 2) 8) p s.self else none) with
          | some d => .error (St.malformed, d)
          | none =>
            .ok { pair := e.pair, secure := s.pairSecure e.pair, img := i, params := p, count := count, base := base,
                  stride := stride, startAt := s.now,
                  binds := (List.range 8).map (fun k => ((ws ++ rs).find? (fun x => x.1 = k)).map Prod.snd) }))

/-- The key of a work run (R355). -/
def State.workKey (s : State) (e : Entry) : Option WorkKey :=
  s.ldg.works.find? (fun k => k.tenant = e.tenant && k.work = e.workId)

/-- A work run takes its slot in the work identity table (R355). -/
def State.takeKey (s : State) (e : Entry) : State :=
  if e.workId = 0 then s
  else
    let works := match s.workKey e with
      | some _ => s.ldg.works.map (fun (k : WorkKey) =>
          if k.tenant = e.tenant && k.work = e.workId then { k with runs := k.runs ++ [e.lsn] } else k)
      | none => s.ldg.works ++ [{ tenant := e.tenant, work := e.workId, runs := [e.lsn], slot := freeWork s.ldg.works }]
    s.setWorks works

/-- Started invocations are counted, and one in SHADOW_RATE has a sub-part shadowed (R408). -/
def State.sample (s : State) (v : Inv) : State × Inv :=
  let n := s.hlt.invCount + 1
  let s := { s with hlt := { s.hlt with invCount := n } }
  let rate := s.fld F.hltCtlShadowRate
  (s, if rate ≠ 0 && n % rate = 0 then { v with shadow := some (n / rate % v.count) } else v)

/-- A run superseded by a winner (R356, R357). -/
def State.supersede (s : State) (lsn version : Nat) : State :=
  (s.bump F.ldgCnt1Superseded).fixResult lsn { status := St.superseded, detail := 0x0D04, r0 := version }

/-- A taken INVOKE goes on where the mirror half left it: ended sub-parts stay ended, the others restart from their phase
records, and stages committed at step 3 are applied (R342, R364). A work run, whose staging is lost, starts afresh (R355). -/
def State.resume (s : State) (e : Entry) : State :=
  match s.slc.resumes.look e.lsn with
  | none => s
  | some m =>
    let s := { s with slc := { s.slc with resumes := Tbl.del e.lsn s.slc.resumes } }
    if e.workId ≠ 0 then s
    else
      let s := s.modInv e.lsn (fun v => { v with
        ended := m.ended.map (fun k => (k, St.ok, 0)),
        restarts := (m.recs.filter (fun r => !(m.ended.any (· = r.1)))).map (fun r =>
          (r.1, some { r.2 with quern := r.2.quern.take v.img.banks })) })
      foldS (fun s l => match s.applyStage e l with | .ok t => t | .error _ => s) s m.redo

/-- The invocation begins: references, drain counts of its regions, work key, parameter copy. -/
def State.invokeBegin (s : State) (e : Entry) (v : Inv) : State :=
  match (if e.workId = 0 then none else s.workKey e) with
  | some { winner := some (_, n), .. } => s.supersede e.lsn n
  | k =>
    if e.workId ≠ 0 && k.isNone && s.ldg.works.length ≥ 65536 then s
    else
      let bs := v.binds.filterMap id
      let reads := (bs.filter (fun b => !b.write)).map (fun b => (b.region, b.version))
      let s := foldS (fun s r => s.addRef r.1 r.2) s reads
      let drains := bs.foldl (fun l b => (s.shelvesOf b.region).foldl (fun l k => listAdd k l) l) e.drains
      let s := s.putEntry { e with refs := reads, drains := drains }
      let s := s.modEntry e.lsn (fun e => { e with parts := v.count })
      let (s, v) := (s.takeKey e).sample v
      let s := { s with slc := { s.slc with invs := Tbl.ins e.lsn v s.slc.invs } }
      let s := s.ownWrite (0x08000000 + 4096 * (e.lsn % 4096)) v.params
      (foldS (fun s k => s.writeEnds e.lsn (512 * k)) s (List.range (ceilDiv v.count 512))).resume e

/-- An INVOKE starts: it fetches its parameter block, or has the 40 inline bytes, and passes the checks of R223. -/
def State.invoke (s : State) (lsn : Nat) : State :=
  s.onOp lsn opInvoke (fun e s =>
    if (s.inv lsn).isSome then s
    else
      let go := fun (s : State) (p : List Byte) =>
        match s.invokeCheck e p with
        | .error (st, d) => s.fixResult lsn (Res.fail st d)
        | .ok v => s.invokeBegin e v
      if bit (e.w 2) 8 then
        match s.fetchOf (.params lsn) with
        | some (.got b) => go s b
        | some (.failed st d) => s.fixResult lsn (Res.fail st d)
        | some _ => s
        | none =>
          let s := s.readEp e.tenant (e.w 3) (bits (e.w 2) 28 16) (.params lsn)
          match s.fetchOf (.params lsn) with
          | some (.failed st d) => s.fixResult lsn (Res.fail st d)
          | _ => s
      else go s (((e.words.drop 3).take 5).map (fun w => leBytes 8 w.toNat)).flatten)

/-- INVOKE (R223). -/
def execInvoke (lsn : Nat) (s : State) : Host.Outcome State Fault Refusal := .next (s.invoke lsn)

/-! ### Sub-parts and the final section (R14, R196–R198, R208, R408) -/

/-- The context of a sub-part on a slice, from its beginning or from a phase record (R198, R208). -/
def State.newCtx (s : State) (lsn sub slice : Nat) (v : Inv) (back : Option PhaseRec) (shadowOf : Option Nat) : Ctx :=
  let banks := List.replicate v.img.banks clearBank
  let c : Ctx :=
    { lsn := lsn, sub := sub, slice := slice, scratch := Bytes.wr [] 0 v.params, startAt := s.now, shadowOf := shadowOf,
      record := back, quern := banks, pc := if sub = finalSub then v.img.final else 0,
      regs := (List.replicate 32 (0 : W64)).zipIdx.map (fun x =>
        BitVec.ofNat 64 (match x.2 with
          | 0 => sub
          | 1 => v.count
          | 2 => v.splitOff sub
          | 3 => v.params.length
          | 4 => s.self
          | _ => 0)) }
  match back with
  | none => c
  | some p =>
    { c with
      pc := p.pc, regs := p.regs, loops := p.loops, used := p.used, quern := p.quern, ordinal := p.ordinal, lib := p.lib }

/-- The first slot of the phase records that no context holds. -/
def State.freeSlot (s : State) : Nat :=
  let used := (Tbl.vals s.slc.ctxs).map (fun (c : Ctx) => c.slot)
  ((List.range (used.length + 1)).find? (fun k => !(used.any (· = k)))).getD 0

/-- A context takes its place. -/
def State.placeCtx (s : State) (c : Ctx) : State :=
  { s with slc := { s.slc with ctxs := Tbl.ins s.slc.nextCtx c s.slc.ctxs, nextCtx := s.slc.nextCtx + 1 } }

/-- A context enters in the lowest free place of the own half; one that resumes carries its phase record with it. -/
def State.addCtx (s : State) (c : Ctx) : State :=
  let c := { c with slot := s.freeSlot }
  let s := s.placeCtx c
  match c.record with
  | some p => if c.shadowOf.isNone then s.writePhase c p else s
  | none => s

/-- The slice of a shadow run: the least loaded in service of another quadrant, else of the same one; which of equally
loaded ones is open (R408; log entry 3). None when there is no second slice. -/
def State.shadowSlice (s : State) (n : Nat) : Option Nat :=
  let other := s.slicesUp.filter (fun m => m / 8 ≠ n / 8)
  let l := if other.isEmpty then s.slicesUp.filter (· ≠ n) else other
  let best := l.filter (s.leastOf l)
  best[s.free % best.length]?

/-- Start a sub-part, with its shadow when it is the sampled one; it waits while a slice has no room (R197, R408). -/
def State.launch (s : State) (lsn sub slice : Nat) (v : Inv) : State :=
  let back := ((v.restarts.find? (fun r => r.1 = sub)).map Prod.snd).getD none
  let start := fun (s : State) =>
    ((s.modInv lsn (fun v => { v with restarts := v.restarts.filter (fun r => r.1 ≠ sub) })).addCtx
      (s.newCtx lsn sub slice v back none)).libStart s.slc.nextCtx
  if !(s.sliceRoom slice v.img) then s
  else if v.shadow = some sub then
    match s.shadowSlice slice with
    | none => start s
    | some m =>
      if s.sliceRoom m v.img then
        let cx := s.slc.nextCtx
        ((start s).addCtx (s.newCtx lsn sub m v back (some cx))).tickFree.bump F.hltCnt0Shadows
      else s
  else start s

/-- A sub-part may start: it has neither ended nor a context. -/
def State.subWaits (s : State) (lsn sub : Nat) (v : Inv) : Bool :=
  !(v.ended.any (fun x => x.1 = sub)) && !((Tbl.vals s.slc.ctxs).any (fun (c : Ctx) => c.lsn = lsn && c.sub = sub))

/-- Place a waiting sub-part on a slice: the least loaded one of R14; with no slice in service it fails with 0x080E. -/
def State.placeSub (s : State) (lsn sub slice : Nat) (v : Inv) : State :=
  if s.slicesUp.isEmpty then
    (s.modInv lsn (fun v => { v with restarts := v.restarts.filter (fun r => r.1 ≠ sub) })).noteEnd lsn sub St.poisoned 0x080E
  else if s.leastOf (s.slicesFor (s.subQuad v sub)) slice then s.launch lsn sub slice v
  else s

/-- SUBPART_START (R197). -/
def execSubpartStart (lsn k : Nat) (slice : Slice) (s : State) : Host.Outcome State Fault Refusal :=
  .next (s.onOp lsn opInvoke (fun _ s =>
    match s.inv lsn with
    | some v => if k < v.count && s.subWaits lsn k v then s.placeSub lsn k slice.val v else s
    | none => s))

/-- The end of a sub-part, an EMIT store that its target reported failed included (R219). -/
def State.endOf (s : State) (lsn : Nat) (x : Nat × Nat × Nat) : Nat × Nat × Nat :=
  if !(statusGood x.2.1) then x
  else
    match s.fetchOf (.emit lsn x.1) with
    | some (.failed st d) => (x.1, st, d)
    | _ => x

/-- The ends of an invocation's sub-parts, and its final section's last. -/
def State.endsOf (s : State) (lsn : Nat) (v : Inv) : List (Nat × Nat × Nat) :=
  (sortOn (fun (x : Nat × Nat × Nat) => x.1) v.ended ++
    (match v.finalDone with | some (st, d) => [(finalSub, st, d)] | none => [])).map (s.endOf lsn)

/-- Every sub-part has ended. -/
def Inv.allEnded (v : Inv) : Bool := v.ended.length = v.count

/-- FINAL_SECTION_START (R196): after every sub-part has ended, and none has failed (R218). -/
def execFinalSectionStart (lsn : Nat) (slice : Slice) (s : State) : Host.Outcome State Fault Refusal :=
  .next (s.onOp lsn opInvoke (fun _ s =>
    match s.inv lsn with
    | some v =>
      if v.img.final ≠ 0 && v.allEnded && v.finalDone.isNone && (s.endsOf lsn v).all (fun x => statusGood x.2.1) &&
          s.subWaits lsn finalSub v then s.placeSub lsn finalSub slice.val v
      else s
    | none => s))

/-! ### Completion (R218, R219, R250, R255) -/

/-- Every part of an invocation has ended, and every store it released has been applied. -/
def State.invokeOver (s : State) (lsn : Nat) (v : Inv) : Bool :=
  v.allEnded && !((Tbl.vals s.slc.ctxs).any (fun (c : Ctx) => c.lsn = lsn)) && v.restarts.isEmpty &&
    (v.img.final = 0 || v.finalDone.isSome || (s.endsOf lsn v).any (fun x => !(statusGood x.2.1))) && !(s.hasFabric lsn)

/-- The completion of an invocation whose parts have all ended well: the searches complete OK only when they have written
p.k entries of 16 bytes (R48, R250). -/
def State.goodResult (s : State) (e : Entry) (v : Inv) : Res :=
  let (a, b) := match v.result with | some x => (x.1.toNat, x.2.toNat) | none => (0, 0)
  let id := s.libIdent e
  let written := v.wrote / 16
  let k := if id = libHamming then leAt v.params 58 2 else if id = libGraph then leAt v.params 50 2 else leAt v.params 28 2
  if id = libHamming || id = libGraph || id = libRerank then
    if written = k then Res.ok else { status := St.okShort, r0 := written, r1 := b }
  else { r0 := a, r1 := b }

/-- The result of an invocation (R218): a lone sub-part's own status, PARTIAL with the lowest failed part's detail and the
bitmap, or success. NOT_READY stands where every failed part met a page that is not ready (R114; log entry 189). -/
def State.invokeResult (s : State) (e : Entry) (v : Inv) : Res :=
  match (s.endsOf e.lsn v).filter (fun x => !(statusGood x.2.1)) with
  | [] => s.goodResult e v
  | (k, st, d) :: rest =>
    if v.count = 1 && v.img.final = 0 then Res.fail st d
    else if st = St.notReady && rest.all (fun x => x.2.1 = St.notReady) then Res.fail st d
    else { status := St.partialFail, detail := d, r0 := v.count, r1 := partialBitmap (k :: rest.map (fun x => x.1)) }

/-- The output lines of a gather sub-part (R254): endpoint pointers of 64-byte lines. -/
def gatherLines (ident : Nat) (p : List Byte) (k : Nat) : List Nat :=
  let e := if ident = libGatherPages then 64 else 4096
  let rb := if ident = libGatherPages then 65536 else leAt p 44 4
  let out := leAt p 56 8
  let lo := e * k * rb
  let hi := min (e * (k + 1)) (leAt p 48 8) * rb
  (rangeFrom (lo / 64) ((hi + 63) / 64 - lo / 64)).map (fun i => out + 64 * i)

/-- Poisoned stores over the lines that failed gather sub-parts did not write, those whose store its target reported failed among
them (R255). What bytes a poisoned store carries is
open (log entry 3). -/
def State.poisonGather (s : State) (e : Entry) (v : Inv) : State :=
  let id := s.libIdent e
  let bad := (s.endsOf e.lsn v).filter (fun x => !(statusGood x.2.1))
  let s := s.modInv e.lsn (fun v => { v with poisoned := true })
  if id ≠ libGatherRows && id ≠ libGatherPages then s
  else
    foldS (fun s x =>
      foldS (fun s p =>
        if v.emitted.any (fun q => q.toNat = p && !(v.unwritten.any (· = ptrAddr p / 64))) then s
        else (s.writeEp e.tenant p (leAt v.params 80 1) ((List.range 64).map (Config.freeByte s.freeIdx)) true
          (.emit e.lsn x.1)).1.tickFree)
        s (gatherLines id v.params x.1)) s bad

/-- The result of an invocation is fixed, with the retries of its sub-parts (R217, R218). -/
def State.finishInvoke (s : State) (e : Entry) (v : Inv) (r : Res) : State :=
  let bad := ((s.endsOf e.lsn v).filter (fun x => !(statusGood x.2.1))).map (fun x => x.1)
  (s.modEntry e.lsn (fun e => { e with used := v.used, failedParts := bad })).fixResult e.lsn r

/-- INVOKE_COMPLETE (R219): of a work run, only when it failed (R356). -/
def execInvokeComplete (lsn : Nat) (s : State) : Host.Outcome State Fault Refusal :=
  .next (s.onOp lsn opInvoke (fun e s =>
    match s.inv lsn with
    | some v =>
      let failed := (s.endsOf lsn v).any (fun x => !(statusGood x.2.1))
      if !(s.invokeOver lsn v) || (e.workId ≠ 0 && !failed) then s
      else if failed && !v.poisoned then
        let s := s.poisonGather e v
        if s.hasFabric lsn then s else s.finishInvoke e v (s.invokeResult e v)
      else s.finishInvoke e v (s.invokeResult e v)
    | none => s))

/-! ### Work runs (R355–R357) -/

/-- The lines an EMIT store covers, as endpoint pointers (R255). -/
def EmitEnt.lines (m : EmitEnt) : List W64 :=
  let a := m.ptr.toNat
  (rangeFrom (a / 64) ((a + m.bytes.length - 1) / 64 + 1 - a / 64)).map (fun l => BitVec.ofNat 64 (64 * l))

/-- A held EMIT store is released, and its lines are written; one that cannot leave has failed (R219, R255). -/
def State.releaseEmit (s : State) (e : Entry) (sub : Nat) (m : EmitEnt) : State :=
  let p : Purpose := .emit e.lsn sub
  match s.writeEp e.tenant m.ptr.toNat m.tc m.bytes m.poison p with
  | (s, none) => s.modInv e.lsn (fun v => { v with emitted := v.emitted ++ m.lines })
  | (s, some (st, d)) => (match s.fetchOf p with | some (.failed _ _) => s | _ => s.setFetch p (.failed st d))

/-- The staging pages of a binding replace those of its open version (R356). -/
def State.unstage (s : State) (e : Entry) (v : Inv) (t : Nat × Tbl PageRef) : State :=
  match v.binds.getD t.1 none with
  | none => s
  | some b =>
    match s.version b.region b.version with
    | none => s
    | some x =>
      let old := x.pageIds
      let s := s.modVersion b.region b.version (fun x => { x with
        pages := t.2.foldl (fun acc p => Tbl.ins p.1 p.2 acc) x.pages, own := t.2.foldl (fun l p => listAdd p.1 l) x.own,
        jobs := if e.job = 0xFFFF then x.jobs else listAdd e.job x.jobs })
      s.sweepPages old

/-- The run wins (R356): staging, held stores and results are released, the key records it, and its result is fixed: with the
failure of a store that cannot leave (R219). -/
def State.winWork (s : State) (e : Entry) (v : Inv) : State :=
  let s := foldS (fun s t => s.unstage e v t) s v.staging
  let s := foldS (fun s x => s.releaseEmit e x.1 x.2) s v.heldEmits
  let ws := (v.binds.filterMap id).filter (fun (b : Bind) => b.write)
  let no := match ws with | b :: _ => b.version | [] => 0
  let wrote := v.staging.filterMap (fun t => if t.2.isEmpty then none else (v.binds.getD t.1 none).map (fun (b : Bind) => (b.region, b.version)))
  let s := s.setWorks (s.ldg.works.map (fun (k : WorkKey) =>
    if k.tenant = e.tenant && k.work = e.workId then
      { k with winner := some (e.lsn, no), writes := !ws.isEmpty, wrote := wrote, wonAt := s.now }
    else k))
  s.finishInvoke e v (s.invokeResult e v)

/-- A work run reaches the work commit: it wins, or is superseded by the winner recorded (R356). -/
def State.commitWork (s : State) (lsn : Nat) : State :=
  s.onOp lsn opInvoke (fun e s =>
    match s.inv lsn with
    | some v =>
      if e.workId ≠ 0 && s.invokeOver lsn v && (s.endsOf lsn v).all (fun x => statusGood x.2.1) then
        match s.workKey e with
        | some { winner := some (_, n), .. } => s.supersede lsn n
        | _ => s.winWork e v
      else s
    | none => s)

/-- Runs of the same work identity with a lower l.lsn (R356). -/
def State.rivals (s : State) (lsn : Nat) : List Nat :=
  match s.entry lsn with
  | some e =>
    (s.ldg.entries.filter (fun (x : Entry) =>
      x.running && x.lsn < lsn && x.tenant = e.tenant && x.workId = e.workId)).map (fun (x : Entry) => x.lsn)
  | none => []

/-- WORK_COMMIT (R356): of runs that reach it in one tick the lower l.lsn commits first. -/
def execWorkCommit (lsn : Nat) (s : State) : Host.Outcome State Fault Refusal :=
  .next ((foldS (fun s l => s.commitWork l) s (sortOn id (s.rivals lsn))).commitWork lsn)

/-- WORK_KEY_EXPIRY (R357): the key of a winner without WRITE bindings is kept for WORK_HOLD_MS. -/
def execWorkKeyExpiry (tenant : Tenant) (work : W64) (s : State) : Host.Outcome State Fault Refusal :=
  let mine : WorkKey → Bool := fun k => k.tenant = tenant.val && k.work = work && k.winner.isSome && !k.writes
  .next (match s.ldg.works.find? mine with
    | some k =>
      let s := s.waitTill (k.wonAt + 1000000 * s.fld F.ldgCtlWorkHoldMs)
      s.setWorks (s.ldg.works.filter (fun k => !(mine k)))
    | none => s)

end Sys2Proof.Machine
end

