-- ==== Sys2Proof/Machine/Commit.lean ====
section
/-! DEFINITION. Phase commits and shadow runs (R206–R209, R214, R215, R408–R410). -/

namespace Sys2Proof.Machine

/-! ### Releasing what the phase held (R206, R207, R215, R219) -/

/-- A released message reaches its target: this module, or another over the fabric. -/
def State.deliver (s : State) (m : Nat × RMsg) : State :=
  if m.1 = s.self then s.arrive m.2 else s.emit (.recipe m.1 m.2)

/-- EMIT stores are released, or held until a work run's commit (R355). -/
def State.sendEmits (s : State) (e : Entry) (c : Ctx) : State :=
  let s := s.modInv e.lsn (fun v => { v with wrote := v.wrote + sumOf (c.emits.map (fun m => m.bytes.length)) })
  if e.workId ≠ 0 then s.modInv e.lsn (fun v => { v with heldEmits := v.heldEmits ++ c.emits.map (fun m => (c.sub, m)) })
  else foldS (fun s m => s.releaseEmit e c.sub m) s c.emits

/-- The state a phase record keeps: registers, loops, budget, ordinal and the carried banks (R207). -/
def Ctx.phaseRec (c : Ctx) (i : Image) : PhaseRec :=
  { pc := c.pc, regs := c.regs, loops := c.loops, used := c.used, ordinal := c.ordinal, lib := c.lib,
    quern := c.quern.zipIdx.map (fun b => if bit i.carried b.2 then b.1 else clearBank) }

/-- A context after its phase has committed. -/
def Ctx.committed (c : Ctx) (i : Image) : Ctx :=
  { c with stage := [], sends := [], emits := [], recvd := [], result := none, log := [], taken := 0, status := .ready,
           record := some (c.phaseRec i), phases := c.phases + 1 }

/-- Steps 4 and 5 of a commit on a state with the stage applied, whose redo image goes; a sub-part whose section has ended ends (R206, R207). -/
def State.phaseDone (s : State) (cx : Nat) (c : Ctx) (e : Entry) (v : Inv) : State :=
  let s := s.bump F.slcCnt1Commits
  let s := s.modInv e.lsn (fun v => { v with
    stored := c.stage.foldl (fun l x => listAdd x.bind l) v.stored,
    result := match c.result with | some r => some r | none => v.result })
  let s := s.modCtx cx (fun c => c.committed v.img)
  let s := { s with slc := { s.slc with
    ctxs := s.slc.ctxs.mapV (fun _ (x : Ctx) => if x.shadowOf = some cx then x.committed v.img else x) } }
  let s := s.when (!c.stage.isEmpty) (fun s => s.ownWrite (redoAt c.slot) (List.replicate 16 0))
  let s := foldS (fun s m => s.deliver m) s c.sends
  let s := s.sendEmits e c
  if c.pc > v.img.lastStep c.sub then s.endSub cx St.ok 0 else s

/-- Step 3: the redo image and the phase record go to the own half (R207, R339). -/
def State.phaseWrite (s : State) (c : Ctx) (i : Image) : State :=
  (s.when (!c.stage.isEmpty) (fun s => s.ownWrite (redoAt c.slot) (redoBytes c))).writePhase c (c.phaseRec i)

/-- A context commits its phase: a failure before step 3 leaves no effect of it and ends the sub-part; step 3 waits for the
buddy in MIRRORED mode (R207, R346). -/
def State.commitPhase (s : State) (cx : Nat) (c : Ctx) (e : Entry) (v : Inv) (till : Nat) : State :=
  match s.applyStage e c.stage with
  | .error (st, d, why) => (s.countLp why).faultSub cx st d
  | .ok t =>
    if till = 0 then
      let n := (s.phaseWrite c v.img).ldg.mirrorSent
      if (s.phaseWrite c v.img).durable n then (t.phaseWrite c v.img).phaseDone cx c e v
      else (s.phaseWrite c v.img).modCtx cx (fun c => { c with status := .commit n })
    else if s.durable till then t.phaseDone cx c e v
    else s

/-! ### Shadow comparison (R408, R409) -/

/-- A context waits at the end of a phase. -/
def Ctx.atCommit (c : Ctx) : Option Nat :=
  match c.status with
  | .commit n => some n
  | _ => none

/-- What is compared at a commit: stage, SEND and EMIT payloads, registers, carried banks (R408). -/
def Ctx.sameAs (a b : Ctx) (i : Image) : Bool :=
  a.stage = b.stage && a.sends = b.sends && a.emits = b.emits && a.regs = b.regs &&
    (a.phaseRec i).quern = (b.phaseRec i).quern

/-- The shadow of a context. -/
def State.shadowCx (s : State) (cx : Nat) : Option (Nat × Ctx) := s.slc.ctxs.find? (fun e => e.2.shadowOf = some cx)

/-- A mismatch: neither run commits (R409). -/
def State.mismatch (s : State) (cx sh : Nat) : State :=
  ((s.bump F.hltCnt0Mismatches).modCtx cx (fun c => { c with status := .mismatch })).modCtx sh
    (fun c => { c with status := .mismatch })

/-- The descriptor and invocation of a context that may commit: no phase commits on a slice that is out of service or has
not passed the present bin (R407). -/
def State.mayCommit (s : State) (c : Ctx) : Option (Entry × Inv) :=
  match s.entry c.lsn, s.inv c.lsn with
  | some e, some v =>
    if e.running && !s.ldg.fenced && c.shadowOf.isNone && s.sliceUp c.slice && s.sliceTested c.slice then some (e, v) else none
  | _, _ => none

/-- A phase commits, once its shadow has reached the same point and agrees. -/
def State.phaseCommit (s : State) (cx : Nat) : State :=
  match s.ctx cx with
  | none => s
  | some c =>
    match s.mayCommit c, c.atCommit with
    | some (e, v), some till =>
      (match s.shadowCx cx with
       | none => s.commitPhase cx c e v till
       | some (k, sh) =>
         match sh.status with
         | .commit _ => if c.sameAs sh v.img then s.commitPhase cx c e v till else s.mismatch cx k
         | .ended _ _ => s.mismatch cx k
         | _ => s)
    | _, _ => s

/-- PHASE_COMMIT (R207): of a context that runs a library recipe phase by phase, the phase and its commit (log entry 157). -/
def execPhaseCommit (cx : Nat) (s : State) : Host.Outcome State Fault Refusal := .next ((s.libRun cx).phaseCommit cx)

/-! ### Quarantine and the third run (R407, R409, R410) -/

/-- The data of a QUARANTINE record: cause, bin, vector or step, and the first differing words, which are open (R413; log
entries 3 and 19). -/
def State.quarData (s : State) (cause n step : Nat) : List Byte :=
  leBytes 1 cause ++ leBytes 1 (s.binOf (n / 8)) ++ leBytes 2 step ++ leBytes 8 (Config.freeWord s.freeIdx).toNat ++
    leBytes 8 (Config.freeWord (s.freeIdx + 1)).toNat

/-- A health proposal: part class and index, score, action (R405). -/
def State.healthAdvice (s : State) (cls index act : Nat) : State :=
  s.postAdvice 0 (cls + 256 * index + 65536 * (s.hlt.scores.rd {} (256 * cls + index)).pts + 2 ^ 32 * act + 4 * 2 ^ 60) 0

/-- A slice is quarantined: first the strongbox record, then its contexts restart elsewhere (R405, R409, R410, R429). -/
def State.quarantine (s : State) (n cause step ident tenant job : Nat) : State :=
  let s := (s.bbxLog 0x03 3 n (s.quarData cause n step) ident tenant job).tickFree.tickFree
  let s := { s with slc := { s.slc with quarantined := s.slc.quarantined ||| (1#32 <<< n) } }.loseSlices (· = n)
  (s.healthAdvice 3 n 3).latchAlert 11

/-- The slice of a third run: in service, apart from both, and of a third quadrant where one exists (R409). -/
def State.thirdOk (s : State) (a b n : Nat) : Bool :=
  let third := s.slicesUp.filter (fun m => m / 8 ≠ a / 8 && m / 8 ≠ b / 8)
  s.sliceUp n && n ≠ a && n ≠ b && (third.isEmpty || third.any (· = n))

/-- A context stands at a comparison. -/
def Ctx.compares (c : Ctx) : Bool := c.atCommit.isSome || c.status = .mismatch

/-- The third run of a shadowed phase decides (R409): the slice that differs is quarantined and the phase commits with the
agreeing result; when all three differ, all three are quarantined and the sub-part fails. -/
def State.thirdRun (s : State) (cx third : Nat) (agree : ThirdRun) : State :=
  match s.ctx cx, s.shadowCx cx with
  | some c, some (k, sh) =>
    match s.mayCommit c with
    | none => s
    | some (e, _) =>
      if !(c.compares && (sh.compares || (match sh.status with | .ended _ _ => true | _ => false)) &&
          s.thirdOk c.slice sh.slice third) then s
      else
        let s := s.when (c.status ≠ .mismatch) (fun s => s.bump F.hltCnt0Mismatches)
        let quar := fun (s : State) (n : Nat) => s.quarantine n 2 c.pc e.ident e.tenant e.job
        match agree with
        | .placed =>
          let s := { s with slc := { s.slc with ctxs := Tbl.del k s.slc.ctxs } }
          (quar (s.modCtx cx (fun c => { c with status := .commit 0 })) sh.slice).phaseCommit cx
        | .shadow =>
          let s := { s with slc := { s.slc with ctxs := Tbl.del k s.slc.ctxs } }
          let s := s.modCtx cx (fun _ =>
            { sh with shadowOf := none, slot := c.slot, recvd := c.recvd, startAt := c.startAt, record := c.record, log := [], taken := 0,
                      status := .commit 0 })
          (quar s c.slice).phaseCommit cx
        | .neither =>
          let s := s.hwFault cx
          quar (quar (quar s c.slice) sh.slice) third
  | _, _ => s

/-- SHADOW_THIRD_RUN (R409). -/
def execShadowThirdRun (cx : Nat) (third : Slice) (agree : ThirdRun) (s : State) : Host.Outcome State Fault Refusal :=
  .next (s.thirdRun cx third.val agree)

end Sys2Proof.Machine
end

