-- ==== Sys2Proof/Machine/Time.lean ====
section
/-! DEFINITION. The time base (R125–R149): jobs, candidates and the tick that resolves them, the estimate of a layer, gate
entries and their guard bands, and wall time (R430, R431). -/

namespace Sys2Proof.Machine

/-! ### Candidates (R131–R134) -/

/-- The tick an event reaches the time base in, as a stamp (R125). -/
def State.stamp8 (s : State) : Nat := s.now - s.now % 8

/-- The case of R132 that turns a position away: no live job, another tenant's job, out of range. -/
def State.markFail (s : State) (job tenant pos : Nat) : Option (Nat × Nat) :=
  match s.jobSlot job with
  | none => some (St.denied, 0x0501)
  | some j =>
    if s.fld F.timeJobCtlTenant j ≠ tenant then some (St.denied, 0x0502)
    else if posLayer pos ≥ s.jobC j || posPhase pos ≥ s.jobP j then some (St.malformed, 0x0003)
    else none

/-- A position becomes a candidate of the tick for a slot. -/
def State.candidate (s : State) (j pos : Nat) : State :=
  s.modJob j (fun x => { x with cands := x.cands ++ [BitVec.ofNat 64 (pos % 2 ^ 48)] })

/-- The same for the job of a number. -/
def State.markJob (s : State) (job pos : Nat) : State :=
  match s.jobSlot job with
  | some j => s.candidate j pos
  | none => s

/-- MARK (R132): its position is a candidate of the tick; the descriptor completes when the tick has been resolved. -/
def execMark (lsn : Nat) (s : State) : Host.Outcome State Fault Refusal :=
  .next (s.onOp lsn opMark (fun e s =>
    if !e.note.isEmpty then s
    else
      match s.markFail e.job e.tenant (e.w 2), s.jobSlot e.job with
      | some (st, d), _ => s.fixResult lsn (Res.fail st d)
      | none, some j => (s.candidate j (e.w 2)).setNote lsn [j + 1]
      | none, none => s))

/-- The payload of a ULP MARK that passed the edge check for a tenant reaches the time base (R131, R133). -/
def State.takeMark (s : State) (tenant payload : Nat) : State :=
  if (s.markFail (bits payload 63 48) tenant payload).isSome then s.bump F.timeMarkDropCount
  else s.markJob (bits payload 63 48) payload

/-- STEP_IN_EDGE (R134): an edge at least 100 ns after the last counted one is the candidate (s + 1).0.0 of its job. -/
def execStepInEdge (s : State) : Host.Outcome State Fault Refusal :=
  .next (
    if !(s.flag F.timeStepCtlEnable) then s
    else if (match s.time.lastEdge with | some t => decide (s.now < t + 100) | none => false) then s.setFld F.timeStepCtlStepOverrun 1
    else
      let j := s.fld F.timeStepCtlSlot
      let s := { s with time := { s.time with lastEdge := some s.now } }.bump F.timeStepCtlEdges
      if (s.job j).live then s.candidate j (posWord ((s.job j).step + 1) 0 0) else s)

/-! ### Estimates (R137, R138) -/

/-- The reference position of a job (R137). -/
def Job.refPos (x : Job) : Nat := posWord x.refStep x.refLayer x.refPhase

/-- The estimated time of a position, in ns (R138). -/
def State.estTime (s : State) (j q : Nat) : Int :=
  let x := s.job j
  x.tref + phaseDist (s.jobC j) (s.jobP j) x.refPos q * x.est / s.jobP j

/-- The estimate after a new layer is entered at stamp T (R137), kept past the 32 bits that EST_NS shows (log entry 195). -/
def State.newEst (s : State) (j t pos : Nat) : Nat :=
  let x := s.job j
  let den := phaseDist (s.jobC j) (s.jobP j) x.refPos pos
  if !(s.flag F.timeJobCtlEstMode j) || den ≤ 0 then x.est
  else
    let m := ((t : Int) - x.tref) * s.jobP j / den
    if m ≤ 16 * x.est then (max 1 ((x.est : Int) + (m - x.est) / 2 ^ s.fld F.timeJobCtlEstK j)).toNat else x.est

/-! ### Gate entries (R139–R144) -/

/-- The units of a gate's target in flight: the unit its port sends; for windows and paced moves, the units of their copies that
ports send (R142, R144, R332). -/
def State.unitsOf (s : State) (j : Nat) (g : Gate) : Nat :=
  if g.kind = 0 then
    let port := bits g.target 15 10
    match s.sw.sending.look port with
    | some u => b2n (u.1 = schedKey port (bits g.target 7 0) (bits g.target 9 8) && s.now < u.2.1)
    | none => 0
  else
    let mine : Nat → Bool := fun src =>
      if g.kind = 1 then src = srcWin (bits g.target 3 0)
      else match (s.move? (src - srcMove 0)).bind (fun m => m.paced) with
        | some (_, _, job, _) => srcMove 0 ≤ src && s.jobSlot job = some j
        | none => false
    ((Tbl.vals s.sw.sending).filter (fun x => s.now < x.2.1 && mine x.2.2.stream)).length

/-- The length G of a guard band in ns (R143). -/
def State.guardLen (s : State) (j : Nat) : Nat :=
  max (s.fld F.timeJobEstGuardMinNs j) (ceilDiv ((s.job j).est * s.fld F.timeJobEstGuardFrac j) 4096)

/-- The estimated close T_close of an entry's open instance (R138, R143). -/
def State.closeTime (s : State) (j : Nat) (g : Gate) : Int :=
  match g.inst with
  | some i => s.estTime j (g.closeOf (s.jobC j) (s.jobP j) i)
  | none => 0

/-- When the guard band of the open instance starts, and when it ends past its estimate (R143). -/
def State.guardFrom (s : State) (j : Nat) (g : Gate) : Nat := (s.closeTime j g - s.guardLen j).toNat
def State.guardTo (s : State) (j : Nat) (g : Gate) : Nat := (s.closeTime j g + (s.job j).est / s.jobP j).toNat

/-- Re-evaluate an entry: its open instance, the guard band of it, and the units in flight at a close (R141–R144). While its
target is held in reset it guards and counts nothing (R145). -/
def State.evalGate (s : State) (j k : Nat) : State :=
  match (s.job j).gates.look k with
  | none => s
  | some g =>
    let inst := if (s.job j).live then g.instAt (s.jobC j) (s.jobP j) (s.jobPos j) else none
    let closed := g.inst.isSome && inst ≠ g.inst && (s.job j).live && !(s.gateHeld g)
    let s := s.when closed (fun s => s.bump F.timeJobCnt2GuardMiss j 0 (s.unitsOf j g))
    let g := { g with inst := inst, spent := g.spent && inst = g.inst }
    let g := { g with guard := inst.isSome && !g.spent && s.guardFrom j g ≤ s.now && !(s.gateHeld g) }
    s.modJob j (fun x => { x with gates := Tbl.ins k g x.gates })

/-- Re-evaluate the gate list of a slot. -/
def State.evalGates (s : State) (j : Nat) : State := foldS (fun s k => s.evalGate j k) s (Tbl.keys (s.job j).gates)

/-- What follows a change of gate state: paced moves go on where they may, and stalls whose gate window has closed end
(R113, R142). -/
def State.gatesMoved (s : State) (j : Nat) (layer : Bool) : State := ((s.endRaises j layer).endGateStalls).flushGated.pumpMoves

/-! ### A change of position (R135, R136) -/

/-- The position of a live job becomes a later one (R136): estimate and reference, gates, windows and paced moves, waits. -/
def State.moveTo (s : State) (j pos : Nat) : State :=
  let old := s.jobPos j
  let t := s.stamp8
  let layer := posWord (posStep pos) (posLayer pos) 0 ≠ posWord (posStep old) (posLayer old) 0
  let e := if layer then s.newEst j t pos else (s.job j).est
  let s := s.modJob j (fun x =>
    let x := { x with step := posStep pos, layer := posLayer pos, phase := posPhase pos, est := e }
    if layer then
      { x with tref := t, refStep := posStep pos, refLayer := posLayer pos, refPhase := posPhase pos }
    else x)
  let s := s.evalGates j
  let wins := (List.range 16).filter (fun w => (s.win w).on && s.winSlot w = some j)
  let s := foldS (fun s w => s.winAdvance w j old) s wins
  (s.gatesMoved j layer).wakeMarks

/-- The latest of a list of candidates (R129, R135). -/
def highest (c : W64) (l : List W64) : Nat :=
  l.foldl (fun b x => if posLater x.toNat b then x.toNat else b) c.toNat

/-- MARK descriptors whose candidates the tick has resolved complete with OK (R132). -/
def State.finishMarks (s : State) (j : Nat) : State :=
  foldS (fun s e => s.fixResult e.lsn Res.ok) s
    (s.ldg.entries.filter (fun (e : Entry) => e.running && e.opcode = opMark && e.note = [j + 1]))

/-- A written estimate takes effect (R137). -/
def State.takeEst (s : State) (j : Nat) : State :=
  match (s.job j).estWrite with
  | none => s
  | some v => (s.modJob j (fun x => { x with est := max 1 v, estWrite := none })).evalGates j

/-- One tick of one job (R135). -/
def State.resolve (s : State) (j : Nat) : State :=
  let s := s.takeEst j
  let cands := (s.job j).cands
  let s := s.modJob j (fun x => { x with cands := [] })
  let s := match cands with
    | [] => s
    | c :: rest =>
      let best := highest c rest
      let s := s.when (!rest.isEmpty) (fun s =>
        (s.bump F.timeJobCnt1Coalesced j 0 rest.length).setFld F.timeJobStsMarkOverrun 1 j)
      if posLater best (s.jobPos j) then (s.bump F.timeJobCnt0Marks j).moveTo j best else s.bump F.timeJobCnt0Back j
  s.finishMarks j

/-- POSITION_RESOLVE (R135): one tick of one job. -/
def execPositionResolve (slot : JobSlot) (s : State) : Host.Outcome State Fault Refusal := .next (s.resolve slot.val)

/-! ### Guard bands (R143) -/

/-- GUARD_BAND_START (R143): T_close − G of an open instance is reached. -/
def execGuardBandStart (slot : JobSlot) (entry : Nat) (s : State) : Host.Outcome State Fault Refusal :=
  checked s (.guardBandStart slot entry) (
    match (s.job slot.val).gates.look entry with
    | none => s
    | some g =>
      if g.inst.isSome && !g.guard && !g.spent && !(s.gateHeld g) then
        (s.waitTill (s.guardFrom slot.val g)).modJob slot.val (fun x =>
          { x with gates := Tbl.ins entry { g with guard := true } x.gates })
      else s)

/-- GUARD_BAND_EXPIRE (R143): the close has not come by T_close + ⌊E ÷ P⌋. -/
def execGuardBandExpire (slot : JobSlot) (entry : Nat) (s : State) : Host.Outcome State Fault Refusal :=
  checked s (.guardBandExpire slot entry) (
    match (s.job slot.val).gates.look entry with
    | none => s
    | some g =>
      if g.inst.isSome && g.guard && !(s.gateHeld g) then
        let s := (s.waitTill (s.guardTo slot.val g)).modJob slot.val (fun x =>
          { x with gates := Tbl.ins entry { g with guard := false, spent := true } x.gates })
        (s.bump F.timeJobCnt1GuardExpired slot.val).gatesMoved slot.val false
      else s)

/-! ### Jobs (R126–R128) -/

/-- The first condition of R127 that fails, by its code; 0 when all hold. -/
def State.jobCheck (s : State) (j : Nat) : Nat :=
  let job := s.fld F.timeJobCtlJob j
  if job = 0xFFFF then 1
  else if (s.jobSlot job).isSome then 2
  else if s.fld F.timeJobPosLayer j ≥ s.jobC j || s.fld F.timeJobPosPhase j ≥ s.jobP j then 3
  else if s.fld F.timeJobEstEstNs j = 0 then 4
  else 0

/-- ENABLE is set on a slot that is not live (R127). -/
def State.jobOn (s : State) (j : Nat) : State :=
  match s.jobCheck j with
  | 0 =>
    let st := s.fld F.timeJobPosStep j
    let l := s.fld F.timeJobPosLayer j
    let x := s.fld F.timeJobPosPhase j
    let e := s.fld F.timeJobEstEstNs j
    let s := s.modJob j (fun y => { y with
      live := true, err := 0, step := st, layer := l, phase := x, est := e, tref := s.stamp8, refStep := st,
      refLayer := l, refPhase := x, cands := [], estWrite := none })
    (s.evalGates j).flushGated.pumpMoves
  | e + 1 => s.modJob j (fun y => { y with err := e + 1 })

/-- ENABLE is cleared on a live slot (R128). The slot's position and estimate stay readable, the estimate with a write of EST_NS that
has not had its tick yet (R137). -/
def State.jobOff (s : State) (j : Nat) : State :=
  let job := s.fld F.timeJobCtlJob j
  let x := s.job j
  let wins := (List.range 16).filter (fun w => (s.win w).on && s.fld F.tierWinCtlJob w = job)
  let paced := (s.tier.moves.filter (fun m =>
    match m.2.paced with | some (_, _, k, _) => k = job | none => false)).map Prod.fst
  let est := match x.estWrite with | some v => max 1 v | none => x.est
  let s := s.modJob j (fun x => { x with
    live := false, cands := [], est := est, estWrite := none,
    gates := x.gates.mapV (fun _ g => { g with inst := none, guard := false, spent := false }) })
  let s := ((s.setFld F.timeJobPosStep x.step j).setFld F.timeJobPosLayer x.layer j).setFld F.timeJobPosPhase x.phase j
  let s := s.setFld F.timeJobEstEstNs est j
  let s := foldS (fun s w => s.winOff w 2) s wins
  let s := foldS (fun s k => s.modMove k (fun m => { m with paced := none })) s paced
  let s := s.endStalls (fun t => match t.move with | some k => paced.any (· = k) | none => false) false
  let s := { s with tier := { s.tier with raises := s.tier.raises.filter (fun r => r.slot ≠ j) } }
  s.flushGated.pumpMoves.wakeMarks

/-- EST_NS is written (R137): a live job takes it at its next tick; a slot without one holds it as written. -/
def State.writeEst (s : State) (j v : Nat) : State :=
  if (s.job j).live then s.modJob j (fun x => { x with estWrite := some v }) else s.setFld F.timeJobEstEstNs v j

/-! ### Gate commits (R140) -/

/-- The first check of R140 that fails, by its code; 0 when all hold or VALID is 0. -/
def gateCheck (c p w0 w1 : Nat) : Nat :=
  let ol := bits w0 11 0
  let op := bits w0 15 12
  let cl := bits w0 27 16
  let cp := bits w0 31 28
  let kind := bits w0 37 35
  let res := if kind = 0 then bits w0 63 56 else if kind = 1 then bits w0 63 44 else bits w0 63 40
  if !(bit w0 32) then 0
  else if ol ≥ c || cl ≥ c || op ≥ p || cp ≥ p then 1
  else if ol = cl && op = cp then 2
  else if kind > 2 then 3
  else if bit w0 33 && (ol ≠ 0 || cl ≠ 0) then 4
  else if res ≠ 0 || bits w0 39 38 ≠ 0 || bits w1 63 32 ≠ 0 || (!(bit w0 34) && bits w1 31 0 ≠ 0) then 5
  else 0

/-- W1 is written: both words are committed to the selected entry, or the commit is refused (R140). -/
def State.gateWrite (s : State) (w1 : W64) : State :=
  let j := s.fld F.timeGateSelSlot
  let k := s.fld F.timeGateSelEntry
  let w0 := s.time.w0
  match gateCheck (s.jobC j) (s.jobP j) w0.toNat w1.toNat with
  | 0 =>
    let old : Gate := Tbl.rd {} (s.job j).gates k
    let new : Gate := { w0 := w0, w1 := w1 }
    let s := s.when (old.inst.isSome && (s.job j).live && !(s.gateHeld old) &&
        (!new.valid || new.instAt (s.jobC j) (s.jobP j) (s.jobPos j) ≠ old.inst)) (fun s =>
      s.bump F.timeJobCnt2GuardMiss j 0 (s.unitsOf j old))
    let s := s.modJob j (fun x => { x with gates := Tbl.put {} k new x.gates })
    let s := (s.evalGate j k).gatesMoved j false
    s.when (s.flag F.timeGateSelAutoinc) (fun s => s.setFld F.timeGateSelEntry ((k + 1) % 1024))
  | e + 1 => (s.setFld F.timeStsGateErr 1).setFld F.timeStsGateErrCode (e + 1)

/-! ### Wall time (R146, R430, R431) -/

/-- PTP_MESSAGE (R146, R430): wall time follows the master, and the offset measured is kept. -/
def execPtpMessage (master : W64) (offset : BitVec 32) (s : State) : Host.Outcome State Fault Refusal :=
  .next { s with time := { s.time with wall := master.toNat, ptpOffset := offset, ptp := max 1 s.time.ptp } }

/-- PPS_EDGE (R431): within 10 µs of the second PTP predicts it aligns wall time. -/
def execPpsEdge (s : State) : Host.Outcome State Fault Refusal :=
  .next (
    let r := s.time.wall % 1000000000
    if !(s.flag F.timePtpStsPpsEn) || s.time.ptp = 0 then s
    else if r ≤ 10000 then { s with time := { s.time with wall := s.time.wall - r, ptp := 2 } }
    else if 1000000000 - r ≤ 10000 then { s with time := { s.time with wall := s.time.wall + (1000000000 - r), ptp := 2 } }
    else { s with time := { s.time with ptp := 1 } })

end Sys2Proof.Machine
end

