-- ==== Sys2Proof/Machine/Results.lean ====
section
/-! DEFINITION. What follows the end of an access the module itself made to endpoint, tray or another module's memory (R53,
R54, R418, R455). -/

namespace Sys2Proof.Machine

/-- A running descriptor goes on after an access it waited for. -/
def State.runOp (s : State) (lsn : Nat) : State :=
  match s.entry lsn with
  | none => s
  | some e =>
    if e.opcode = opMove then s.move lsn
    else if e.opcode = opQuery then s.queryOp lsn (bits (e.w 2) 7 0) (fun _ s => s)
    else if e.opcode = opInvoke then s.invoke lsn
    else if e.opcode = opLoadTable then s.loadTable lsn
    else if e.opcode = opLoadRecipe then s.loadRecipe lsn
    else s

/-- The tenant an access works for (R416). -/
def State.purposeTenant (s : State) (p : Purpose) : Nat :=
  match p with
  | .sqFetch pair _ => pairTenant pair
  | .cqWrite pair _ => pairTenant pair
  | .event pair => pairTenant pair
  | .aidxWrite pair => pairTenant pair
  | p =>
    match p.lsn with
    | some l => (match s.entry l with | some e => e.tenant | none => 0)
    | none => 0

/-- An answered failure of an access as its issuer sees it: endpoints' failures are those of R455, whose TIMEOUT stands for no
answer at all, so that a TIMEOUT an endpoint answers is any other failure; another module's failure is its own. A module's
status that is no failure code of R8's table is any other failure (R8, R9; log entry 141). -/
def ownFail (ep st d : Nat) : Nat × Nat :=
  if isModule ep && 0x02 ≤ st && st ≤ 0x0F then (st, d)
  else if st = St.poisoned then (St.poisoned, 0x0B14)
  else (St.denied, 0x0B13)

/-- The failure a descriptor takes from an answer: an EPOCH answer's first four bytes are the epoch of the module that refused,
kept above the detail until the record is written (R292, R48). -/
def answeredFail (ep st d : Nat) (data : List Byte) : Nat × Nat :=
  let f := ownFail ep st d
  if f.1 = St.epoch then (f.1, f.2 % 65536 + 65536 * (1 + leAt data 0 4)) else f

/-- Note the first failure of a write made in pieces. -/
def State.noteFail (s : State) (p : Purpose) (st d : Nat) : State :=
  match s.fetchOf p with
  | some (.failed _ _) => s
  | _ => s.setFetch p (.failed st d)

/-- The failure of an EMIT store after its run's work commit replaces the result fixed there, until the record is written
(R218, R219, R356). -/
def State.emitFailed (s : State) (lsn sub st d : Nat) : State :=
  match s.entry lsn with
  | some e =>
    (match e.state, e.cpl with
     | .committed, some c =>
       let final := match (s.slc.slots.rd {} (bits (e.w 2) 7 0)).img with | some i => i.final ≠ 0 | none => false
       let bad := sortOn (fun (n : Nat) => n) (listAdd sub e.failedParts)
       let r : Res :=
         if e.parts = 1 && !final then Res.fail st d
         else { status := St.partialFail, detail := if bad.head? = some sub then d else c.detail, r0 := e.parts,
                r1 := partialBitmap bad }
       s.modEntry lsn (fun e => { e with failedParts := bad, cpl := some (s.record e r) })
     | _, _ => s.noteFail (.emit lsn sub) st d)
  | none => s

/-- The lines of an EMIT store that failed are not written (R219, R255). -/
def State.unemit (s : State) (p : Purpose) (a n : Nat) : State :=
  match p with
  | .emit lsn _ => s.modInv lsn (fun v => { v with unwritten := v.unwritten ++ rangeFrom (a / 64) ((a + n + 63) / 64 - a / 64) })
  | _ => s

/-- An access of the module has failed (R53, R54, R55, R418, R455). -/
def State.failAccess (s : State) (p : Purpose) (st d : Nat) : State :=
  match p with
  | .sqFetch pair _ => (s.dropFetch p).faultPair pair 0x03
  | .image lsn => (s.fetchFail p st d).runOp lsn
  | .params lsn => (s.fetchFail p st d).runOp lsn
  | .moveRead lsn => (s.fetchFail p st d).runOp lsn
  | .moveWrite lsn => (s.noteFail p st d).runOp lsn
  | .query lsn => (s.noteFail p st d).runOp lsn
  | .emit lsn sub => s.emitFailed lsn sub st d
  | .fwd _ _ => s.noteFail p st d
  | .cqWrite pair lsn => s.recordFailed pair lsn
  | .event pair => s.faultPair pair 0x04
  | .aidxWrite pair => s.faultPair pair 0x05
  | .toll n =>
    { s.bump F.tollStsWriteFail with toll := { (s.bump F.tollStsWriteFail).toll with
      sent := s.toll.sent.filter (fun x => x.1 ≠ n) } }
  | .tray page => s.moveSwitch page false
  | .fenceOp lsn => s.onOp lsn opFence (fun _ s => s.fixResult lsn (Res.fail st d))
  | .notify => s
  | .mirror => s
  | .push => s
  | .resync => s
  | .probe => s
  | .line _ => s
  | .dropped => s

/-- A usage record is visible: its USAGE event is posted (R418). -/
def State.tollSeen (s : State) (n : Nat) : State :=
  match s.toll.sent.find? (fun x => x.1 = n) with
  | none => s
  | some x =>
    let s := { s with toll := { s.toll with sent := s.toll.sent.filter (fun x => x.1 ≠ n), lastWritten := n } }
    s.postEvent 0 { evtRecord 0x03 St.ok x.2.toNat n with tag := BitVec.ofNat 32 n, index := 0xFFFFFFFF#32 }

/-- A write of the module is visible, a forwarded request or a FENCE answered. -/
def State.doneAccess (s : State) (p : Purpose) : State :=
  if s.outstanding (fun q => q = p) ≠ 0 || s.fencesOut p ≠ 0 then s
  else
    match p with
    | .cqWrite pair lsn => s.recordSeen pair lsn
    | .moveWrite lsn => s.runOp lsn
    | .query lsn => s.runOp lsn
    | .toll n => s.tollSeen n
    | .tray page => s.moveSwitch page true
    | .fenceOp lsn => s.fenceDone lsn
    | _ => s

/-- The last piece of a read has come: what waited for it goes on. -/
def State.readDone (s : State) (p : Purpose) : State :=
  match p with
  | .sqFetch pair _ => s.accept pair
  | .image lsn => s.runOp lsn
  | .params lsn => s.runOp lsn
  | .moveRead lsn => s.runOp lsn
  | _ => s

end Sys2Proof.Machine
end

