-- ==== Sys2Proof/Machine/Streams.lean ====
section
/-! DEFINITION. Receiving: streams and their order, the application of stores and atomics, fences, loads (R273, R277–R281,
R286–R289, R292, R321, R343, R344, R350, R352, R353). -/

namespace Sys2Proof.Machine

/-! ### Streams as numbers -/

/-- a − b under serial arithmetic (R129, R273). -/
def serDiff (a b : W32) : Int := sext 32 (a - b).toNat

/-- The source under which a stream is kept: streams of an expelled buddy, which this module receives in its place (R364),
are apart from the module's own. -/
def State.rxSrc (s : State) (h : Hdr) : Nat :=
  let d := h.dst.toNat
  if d = s.self || d = 0xFFFF then h.src.toNat else h.src.toNat + 65536 * (1 + d)

/-- The endpoint of a stream kept under a source. -/
def rxEp (src : Nat) : Nat := src % 65536

/-! ### Answers on a stream (R276, R279, R280) -/

/-- Answer a load, atomic, ATTACH or DETACH that fails; an EPOCH answer carries the current epoch in its first bytes
(R276, R292). -/
def State.failAnswer (s : State) (port ty : Nat) (h : Hdr) (st d : Nat) : State :=
  let e := if st = St.epoch then s.fab.map.epoch.toNat else 0
  let data := if ty = tyLoadRsp then (if st = St.epoch then leBytes 4 e else []) else leBytes 8 e
  s.answer port ty h st d false data.length data

/-- Send an ACK: the contiguous number, and the failures since the last FENCE_ACK (R279). -/
def State.sendAck (s : State) (src tc : Nat) : State :=
  let r := s.rx src tc
  let s := s.modRx src tc (fun r => { r with sinceAck := 0, ackAt := s.now, ackDue := false })
  s.sendBy r.port (.msg r.port tyAck { s.hdr tc (rxEp src) with seq := r.contig, tag := r.tag, len := 4 }
    (leBytes 4 r.failCount))

/-- FENCE_ACKs whose fence point the contiguous number has reached (R280). -/
def State.pumpFences (s : State) (src tc : Nat) : State :=
  let r := s.rx src tc
  let met : Nat × Hdr → Bool := fun f => (r.known && serDiff f.2.seq r.contig ≤ 0) || (!r.known && f.2.seq = 0xFFFFFFFF#32)
  let s := s.modRx src tc (fun r => { r with fences := r.fences.filter (fun f => !(met f)) })
  foldS (fun s f =>
    let r := s.rx src tc
    let (st, d, n) := match r.first with | some x => x | none => (St.ok, 0, 0#32)
    let s := s.modRx src tc (fun r => { r with failCount := 0, first := none })
    s.answer f.1 tyFenceAck { f.2 with seq := r.contig } st d false 16
      (leBytes 1 st ++ leBytes 1 0 ++ leBytes 2 d ++ leBytes 4 n.toNat ++ leBytes 4 r.failCount ++ leBytes 4 0))
    s (r.fences.filter met)

/-! ### Epochs (R292) -/

/-- How a request's epoch stands to this module's. -/
inductive EpochAt where
  | now | before | later | old
  deriving DecidableEq, Repr

def State.epochAt (s : State) (h : Hdr) : EpochAt :=
  let d := serDiff h.epoch s.fab.map.epoch
  if d = 0 then .now else if d = -1 then .before else if d > 0 then .later else .old

/-- A request forwarded to the holder under the current epoch is counted when it was routed under the epoch before. -/
def State.countFwd (s : State) (port : Nat) (h : Hdr) : State :=
  s.when (s.epochAt h = .before) (fun s => s.bump F.portEcnt2EpochFwd port)

/-- The failure of a request before it is served: a failed check (R285), a fence (R363), a held port (R306), its epoch. -/
def State.refuse (s : State) (q : RxReq) : Option (Nat × Nat) :=
  match q.deny with
  | some f => some f
  | none =>
    if s.ldg.fenced then some (St.fenced, 0x0D01)
    else if s.shut q.port then some (St.denied, 0x0B04)
    else if s.epochAt q.h = .old then some (St.epoch, 0x0B10)
    else none

/-- A refusal with EPOCH is counted (R292). -/
def State.countEpoch (s : State) (port st : Nat) : State :=
  s.when (st = St.epoch) (fun s => s.bump F.portEcnt2EpochRefused port)

/-! ### Stores (R277, R283–R288, R343, R344) -/

/-- What became of the request at the head of a stream. -/
inductive Applied where
  | done (st d : Nat)
  | wait
  deriving DecidableEq, Repr

/-- The data of a request, without the poison bitmap behind it (R287). -/
def RxReq.bytes (q : RxReq) : List Byte := q.data.take q.h.len

/-- The control space of an edge request (R283). -/
def hdrControl (h : Hdr) : Bool := addrWin h.addr.toNat = 0xFF

/-- The doorbell aperture's place in the presented space (R28). -/
def State.dbBase (s : State) : Nat := s.fld F.tqDbBaseBase * 2 ^ 20

/-- The end of a write or atomic that was sent on to its holder (R292). -/
def State.fwdEnd (s : State) (q : RxReq) : Option (State × Applied) :=
  let p : Purpose := .fwd q.port q.h
  match s.fetchOf p with
  | none => none
  | some f =>
    if s.outstanding (fun x => x = p) ≠ 0 then some (s, .wait)
    else
      match f with
      | .failed st d => some (s.dropFetch p, .done st d)
      | _ => some (s.dropFetch p, .done St.ok 0)

/-- A mirror store of the buddy is written to its half (R343, R344). -/
def State.applyMirror (s : State) (q : RxReq) : State × Applied :=
  if s.buddy = some q.h.src.toNat then
    ({ s with ldg := { s.ldg with mirrorHalf := Bytes.wr s.ldg.mirrorHalf q.h.addr.toNat q.bytes } }, .done St.ok 0)
  else (s, .done St.denied 0x0D05)

/-- A request meets no version of its number: one queued to an open version that was discarded is ABORTED, another names
nothing (R76, R87). -/
def State.goneVersion (s : State) (q : RxReq) : Applied :=
  if s.queuedTo q.h.xRegion (fun n _ => n = q.h.xVersion) q.at_ then .done St.aborted 0x0341 else .done St.denied 0x0301

/-- A store between modules comes from the holder of mirrored pages, whose buddy this module is: it is for the copies here
(R85). -/
def State.isCopy (s : State) (h : Hdr) : Bool :=
  h.ext && s.buddy = some h.src.toNat && s.holderOf h.xRegion (addrOff h.addr.toNat / 65536) = h.src.toNat

/-- A store or WRITE_FLAG is applied: a doorbell, or bytes of a region version, here or at their holder. -/
def State.applyStore (s : State) (q : RxReq) : State × Applied :=
  let h := q.h
  if hdrControl h then
    if h.addr.toNat < s.dbBase then (s, .done St.denied 0x0B02) else
    let off := h.addr.toNat - s.dbBase
    let v := BitVec.ofNat 64 (leNat q.bytes)
    if !h.ext then (s.doorbell { port := Fin.ofNat 64 q.port, ep := h.src } off q.bytes.length v, .done St.ok 0)
    else if off / 4096 = h.xTenant then (s.ringBell off q.bytes.length v, .done St.ok 0)
    else (s, .done St.denied 0x0B02)
  else
    let s := s.meet h.xRegion h.xVersion h.xTenant
    match s.version h.xRegion h.xVersion with
    | none => (s, s.goneVersion q)
    | some _ =>
      let off := addrOff h.addr.toNat
      if s.isCopy h then
        match s.writeCopy h.xRegion h.xVersion off q.bytes h.poison q.at_ with
        | (s, some f) => (s, .done f.1 f.2)
        | (s, none) => (s, .done St.ok 0)
      else
        match s.writeVersion h.xRegion h.xVersion off q.bytes h.poison q.at_ 0xFFFF (.fwd q.port h) with
        | (s, some f) => (s, .done f.1 f.2)
        | (s, none) =>
          let s := s.dropOwners h.xRegion h.xVersion off q.bytes.length
          if s.outstanding (fun x => x = Purpose.fwd q.port h) = 0 then (s, .done St.ok 0)
          else
            let s := s.when (!(s.heldHere h.xRegion (off / 65536))) (fun s => s.countFwd q.port h)
            (s.setFetch (.fwd q.port h) (.waiting 1 []), .wait)

/-! ### Atomics (R216, R288, R352, R353) -/

/-- The record of a remote atomic. -/
def State.remoteAtom (s : State) (h : Hdr) : Option AtomRec :=
  s.ldg.atoms.find? (fun a => !a.recipe && a.k0 = h.src.toNat && a.k1 = h.tag.toNat && a.k2 = h.seq.toNat)

/-- Answer an atomic with its outcome. -/
def State.atomAnswer (s : State) (port : Nat) (h : Hdr) (a : AtomRec) : State :=
  if a.status = St.epoch then s.failAnswer port tyAtomicRsp h a.status a.detail
  else s.answer port tyAtomicRsp h a.status a.detail false 8 (leBytes 8 a.old.toNat)

/-- An atomic's outcome is recorded; it is answered when the record is durable (R346, R352). -/
def State.recordAtom (s : State) (h : Hdr) (old : W64) (st d : Nat) : State :=
  match s.atomRoom with
  | none => s
  | some s => s.addAtom { recipe := false, k0 := h.src.toNat, k1 := h.tag.toNat, k2 := h.seq.toNat, old := old,
                          stamp := s.now, status := st, detail := d }

/-- The outcome of an atomic stands: it is answered and consumed once its record is durable; without a record it waits
(R354). -/
def State.settleAtom (s : State) (q : RxReq) : State × Applied :=
  match s.remoteAtom q.h with
  | none => (s, .wait)
  | some a => if s.durable a.till then (s.atomAnswer q.port q.h a, .done a.status a.detail) else (s, .wait)

/-- The old value a holder's answer brought. -/
def Fetch.word : Fetch → W64
  | .got b => BitVec.ofNat 64 (leNat b)
  | _ => 0

/-- An atomic is sent on to the holder of its word. -/
def State.fwdAtomic (s : State) (q : RxReq) (m : Nat) : State × Applied :=
  let h := q.h
  let p : Purpose := .fwd q.port h
  let (tag, s) := s.newTag
  let s := (s.countFwd q.port h).setFetch p (.waiting 1 [])
  (s.sendReq (s.portTo m s.self 2) m 2 .atomic p (addrOff h.addr.toNat) q.bytes false
    (h.xRegion, h.xVersion, h.xTenant, h.xSecure) h.op tag, .wait)

/-- An atomic is applied to its 8-byte word (R203, R216, R288). -/
def State.applyAtomic (s : State) (q : RxReq) : State × Applied :=
  let h := q.h
  let p : Purpose := .fwd q.port h
  let off := addrOff h.addr.toNat
  if (s.remoteAtom h).isSome then s.settleAtom q
  else
    match s.fetchOf p with
    | some f =>
      if s.outstanding (fun x => x = p) ≠ 0 then (s, .wait)
      else
        let (st, d) := match f with | .failed st d => (st, d) | _ => (St.ok, 0)
        ((s.dropFetch p).recordAtom h f.word st d).settleAtom q
    | none =>
      let s := s.meet h.xRegion h.xVersion h.xTenant
      match s.version h.xRegion h.xVersion with
      | none =>
        (match s.goneVersion q with
         | .done st d => (s.recordAtom h 0 st d).settleAtom q
         | .wait => (s, .wait))
      | some v =>
        if !v.writable then (s.recordAtom h 0 St.denied 0x0306).settleAtom q
        else if !(s.heldHere h.xRegion (off / 65536)) then s.fwdAtomic q (s.holderOf h.xRegion (off / 65536))
        else
          match s.atomRoom with
          | none => (s, .wait)
          | some s =>
            let got := s.readVersion h.xRegion h.xVersion off 8 q.at_
            let s := s.countRead got h.xRegion h.xVersion off 8
            match s.readFault h.xRegion h.xVersion got with
            | some f => (s.tickFree.recordAtom h 0 f.1 f.2).settleAtom q
            | none =>
              let old := match got with | .ok (b, _) => leNat b | .error _ => 0
              let new := atomOp h.op.toNat old (leAt q.bytes 0 8) (leAt q.bytes 8 8)
              match s.writeVersion h.xRegion h.xVersion off (leBytes 8 new) false q.at_ 0xFFFF p with
              | (t, some f) => (t.recordAtom h 0 f.1 f.2).settleAtom q
              | (s, none) =>
                let s := (s.gainLine h.xRegion h.xVersion off (s.free % 32)).tickFree
                if s.outstanding (fun x => x = p) ≠ 0 then (s.setFetch p (.got (leBytes 8 old)), .wait)
                else (s.recordAtom h (BitVec.ofNat 64 old) St.ok 0).settleAtom q

/-! ### The head of a stream -/

/-- The request at the head of a stream is applied, refused, or waits (R277, R286, R292). -/
def State.applyReq (s : State) (q : RxReq) : State × Applied :=
  match (if q.kind = .atomic then none else s.fwdEnd q) with
  | some x => x
  | none =>
    if q.kind = .atomic && (s.remoteAtom q.h).isSome then s.settleAtom q
    else
      match s.refuse q with
      | some (st, d) =>
        let s := s.countEpoch q.port st
        if q.kind = .atomic then
          (if st = St.fenced then
            (s.failAnswer q.port tyAtomicRsp q.h st d, .done st d)
           else (s.recordAtom q.h 0 st d).settleAtom q)
        else (s, .done st d)
      | none =>
        if s.epochAt q.h = .later then (s, .wait)
        else
          match q.kind with
          | .mirror => s.applyMirror q
          | .atomic => s.applyAtomic q
          | _ => s.applyStore q

/-- A number is consumed and the own half notes it, but for those of the buddy's mirror stores (R279, R350): a failure is noted, the ACK falls due, a host's write has its completion (R301). -/
def State.consume (s : State) (src tc : Nat) (q : RxReq) (st d : Nat) : State :=
  let bad := !(statusGood st)
  let s := s.modRx src tc (fun r => { r with
    contig := q.h.seq, held := r.held.filter (fun x => x.h.seq ≠ q.h.seq), sinceAck := r.sinceAck + 1, ackDue := true,
    failCount := if bad then r.failCount + 1 else r.failCount,
    first := if bad && r.first.isNone then some (st, d, q.h.seq) else r.first, port := q.port, tag := q.h.tag })
  let s := s.when (q.kind ≠ .mirror) (fun s => s.noteStream src tc)
  if (s.port q.port).role = roleUp then
    let s := s.when bad (fun s => s.bar2Note q.port (addrWin q.h.addr.toNat) st d)
    (s.modRx src tc (fun r => { r with failCount := 0, first := none, ackDue := false, sinceAck := 0 })).emit (.cxlDone q.port)
  else if (s.rx src tc).sinceAck ≥ 64 || q.kind = .mirror then s.sendAck src tc
  else s

/-- The request a stream applies next. -/
def RxStream.head (r : RxStream) : Option RxReq :=
  if r.known then r.held.find? (fun q => q.h.seq = r.contig + 1) else none

/-- Apply what may be applied, in order. -/
def State.applyGo (src tc : Nat) : Nat → State → State
  | 0, s => s
  | fuel + 1, s =>
    match (s.rx src tc).head with
    | none => s
    | some q =>
      match s.applyReq q with
      | (s, .wait) => s
      | (s, .done st d) => State.applyGo src tc fuel (s.consume src tc q st d)

/-! ### Loads (R276, R278, R283, R287, R292) -/

/-- A load that fails is answered; on a CXL-up port with poisoned data (R301). -/
def State.loadFail (s : State) (port : Nat) (h : Hdr) (st d : Nat) : State :=
  let s := s.countEpoch port st
  if (s.port port).role = roleUp then s.loadReply port h 0 0 (.error (st, d)) else s.failAnswer port tyLoadRsp h st d

/-- A load goes to the holder of its bytes, on this module's own stream: behind its unacknowledged stores to those lines, of
several classes on the highest (R278, R292). -/
def State.fwdLoad (s : State) (port : Nat) (h : Hdr) (m : Nat) : State :=
  let (tag, s) := s.newTag
  let s := s.countFwd port h
  let off := addrOff h.addr.toNat
  let d := (s.depsOf m h.xRegion h.xVersion off h.len).getLast?
  let tc := match d with | some x => x.1 | none => h.tc.val
  let n := s.portTo m s.self tc
  s.sendLoad n { tag := tag, dst := BitVec.ofNat 16 m, port := n, purpose := .fwd port h, off := off, len := h.len,
                 ptr := BitVec.ofNat 64 off, tc := tc, dep := d.map Prod.snd, sentAt := s.now }

/-- A load sent on to its holder has failed: its requester is answered. -/
def State.relayFail (s : State) (port : Nat) (h : Hdr) (st d : Nat) : State :=
  if (s.port port).role = roleUp then s.loadReply port h 0 0 (.error (st, d)) else s.failAnswer port tyLoadRsp h st d

/-- An access that awaited its own answer has failed. -/
def State.failWait (s : State) (w : Wait) (st d : Nat) : State :=
  match w.purpose with
  | .fwd port h => s.relayFail port h st d
  | p => (s.unemit p (ptrAddr w.ptr.toNat) w.size).failAccess p st d

/-- A load is held until the epoch it names is adopted (R292). -/
def State.holdLater (s : State) (q : RxReq) : State :=
  { s with fab := { s.fab with
    later := Tbl.ins s.fab.nextLater (q, s.now) s.fab.later, nextLater := s.fab.nextLater + 1 } }

/-- A load is served (R113, R114, R278, R286, R292). -/
def State.startLoad (s : State) (q : RxReq) : State :=
  let h := q.h
  match s.refuse q with
  | some (st, d) => s.loadFail q.port h st d
  | none =>
    if s.epochAt h = .later then s.holdLater q
    else if hdrControl h then s.answer q.port tyLoadRsp h St.ok 0 false h.len (List.replicate h.len 0)
    else
      let pg := addrOff h.addr.toNat / 65536
      let s := s.meet h.xRegion h.xVersion h.xTenant
      match s.version h.xRegion h.xVersion with
      | none => s.loadFail q.port h St.denied 0x0301
      | some _ =>
        if !(s.heldHere h.xRegion pg) then s.fwdLoad q.port h (s.holderOf h.xRegion pg)
        else
          match s.tryStall (.load q.port h) h.xTenant h.xRegion h.xVersion [pg] with
          | (s, .stalled) => s
          | (s, .notReady) => s.loadFail q.port h St.notReady 0x0411
          | (s, .go) => (s.when (!h.ext) (fun s => s.tollBytes h.xTenant h.len)).serveLoad q.port h h.xRegion h.xVersion q.at_

/-- Loads with DEP whose store has been applied are served (R278). -/
def State.pumpDeps (s : State) (src tc : Nat) : State :=
  let r := s.rx src tc
  let met : RxReq → Bool := fun q => (r.known && serDiff q.h.seq r.contig ≤ 0) || s.shut q.port || s.ldg.fenced
  let s := s.modRx src tc (fun r => { r with depLoads := r.depLoads.filter (fun f => !(met f)) })
  foldS (fun s q => s.startLoad q) s (r.depLoads.filter met)

/-! ### A stream goes on -/

/-- The stream's gap timer: it runs while a request is held beyond a missing number, from when the first such request came (R321). -/
def State.setGap (s : State) (src tc : Nat) : State :=
  s.modRx src tc (fun r => { r with
    gapFor := r.contig,
    gapAt := if r.head.isSome then none
      else match r.gapAt, r.held.map (fun (q : RxReq) => q.at_) with
        | _, [] => none
        | some t, a :: l => if r.gapFor = r.contig then some t else some (l.foldl min a)
        | none, a :: l => some (l.foldl min a) })

/-- A stream goes on as far as it can: requests, fences, dependent loads. -/
def State.pumpStream (s : State) (src tc : Nat) : State :=
  let s := State.applyGo src tc (s.rx src tc).held.length s
  ((s.setGap src tc).pumpFences src tc).pumpDeps src tc

/-- Every stream that holds something goes on. -/
def State.pumpStreams (s : State) : State :=
  foldS (fun s k => s.pumpStream (k / 4) (k % 4)) s
    ((s.fab.rx.filter (fun x => !(x.2.held.isEmpty && x.2.fences.isEmpty && x.2.depLoads.isEmpty))).map Prod.fst)

/-- What waits on the mirror, on moves, on resets or on a stream goes on. -/
def State.goOn (s : State) : State := (s.pumpMirror.settle).pumpStreams

/-- A request is a copy of another: the same kind, number, tag, address and data; an atomic's copy carries RETRY (R288, R289). -/
def RxReq.sameAs (o q : RxReq) : Bool :=
  o.kind = q.kind && o.h.seq = q.h.seq && o.h.tag = q.h.tag && o.h.addr = q.h.addr && o.data = q.data &&
    (q.kind ≠ .atomic || q.h.retry)

/-- A stream begins: its first request, or one with SYNC that is no copy of the request that began it (R273, R288, R289; log
entry 168). -/
def State.openStream (s : State) (src tc : Nat) (q : RxReq) : State :=
  let r := s.rx src tc
  let h := q.h
  let copy := r.known && (match r.start with | some o => o.sameAs q | none => false)
  if h.sync && !copy then
    s.modRx src tc (fun r => { r with
      known := true, contig := h.seq - 1, start := some q, held := [], failCount := 0, first := none, gapAt := none })
  else if r.known then s
  else s.modRx src tc (fun r => { r with known := true, contig := h.seq - 1, start := none })

/-- A copy of a request that has been received: counted, and an atomic already applied is answered again (R289, R353). -/
def State.duplicate (s : State) (src tc : Nat) (q : RxReq) : State :=
  let s := s.bump F.portEcntDup q.port
  if q.kind = .atomic && serDiff q.h.seq (s.rx src tc).contig ≤ 0 then
    match s.remoteAtom q.h with
    | some a => s.atomAnswer q.port q.h a
    | none => (s.bump F.ldgCnt0Stale).failAnswer q.port tyAtomicRsp q.h St.stale 0x0D03
  else s

/-- A request that consumes a number arrives (R277, R289, R292, R321). -/
def State.arriveReq (s : State) (q : RxReq) : State :=
  let q := { q with at_ := s.now, drains := s.shelvesOf q.h.xRegion }
  let src := s.rxSrc q.h
  let tc := q.h.tc.val
  let s := s.openStream src tc q
  let r := s.rx src tc
  if serDiff q.h.seq r.contig ≤ 0 || r.held.any (fun x => x.h.seq = q.h.seq) then s.duplicate src tc q
  else if q.h.seq ≠ r.contig + 1 && r.held.length ≥ s.fld F.swRsqCtlHoldMsgs then s.bump F.swCnt1HoldDrops
  else
    let s := s.modRx src tc (fun r => { r with
      held := r.held ++ [q], port := q.port, tag := q.h.tag, ackAt := if r.sinceAck = 0 && !r.ackDue && r.ackAt = 0 then s.now else r.ackAt })
    let s := s.when (s.epochAt q.h = .later && q.deny.isNone) (fun s => s.holdLater q)
    s.pumpStream src tc

/-- A load arrives: with DEP it waits for the number it names (R278). -/
def State.arriveLoad (s : State) (q : RxReq) : State :=
  let q := { q with at_ := s.now, drains := s.shelvesOf q.h.xRegion }
  let src := s.rxSrc q.h
  let tc := q.h.tc.val
  let r := s.rx src tc
  if q.h.dep && q.deny.isNone && !(r.known && serDiff q.h.seq r.contig ≤ 0) then
    (s.modRx src tc (fun r => { r with depLoads := r.depLoads ++ [q] })).pumpDeps src tc
  else s.startLoad q

/-- A FENCE of the buddy on TC2 tells whether it mirrors to this module (R347; log entry 144). -/
def State.hearBuddy (s : State) (h : Hdr) : State :=
  if h.tc = 2 && s.buddy = some h.src.toNat && h.dst.toNat = s.self then
    { s with ldg := { s.ldg with buddyAlone := bit h.addr.toNat 0 } }
  else s

/-- A FENCE arrives: it is answered once its fence point is reached (R280), or at once by a fenced module (R363). -/
def State.arriveFence (s : State) (port : Nat) (h : Hdr) : State :=
  if s.ldg.fenced then s.answer port tyFenceAck h St.fenced 0x0D01 false 16
    (leBytes 1 St.fenced ++ leBytes 1 0 ++ leBytes 2 0x0D01 ++ leBytes 4 h.seq.toNat ++ leBytes 8 0)
  else
    let s := s.hearBuddy h
    let src := s.rxSrc h
    (s.modRx src h.tc.val (fun r => { r with fences := r.fences ++ [(port, h)] })).pumpFences src h.tc.val

/-- Requests held for an epoch that is now adopted go on (R292). -/
def State.adoptLater (s : State) : State :=
  let due := s.fab.later.filter (fun x => s.epochAt x.2.1.h ≠ .later)
  let s := { s with fab := { s.fab with later := Tbl.keep (fun _ x => s.epochAt x.1.h = .later) s.fab.later } }
  let s := foldS (fun s x => s.when (x.2.1.kind = .load) (fun s => s.startLoad x.2.1)) s due
  s.pumpStreams

end Sys2Proof.Machine
end

