-- ==== Sys2Proof/Machine/Ports.lean ====
section
/-! DEFINITION. Ports: holds, the failure of what goes through them, reroutes, and partner violations (R294, R295,
R302–R306, R390). -/

namespace Sys2Proof.Machine

/-! ### Reroutes (R294, R295) -/

/-- The link of a port runs: it is UP, or held, which keeps its link layer running (R306). -/
def State.linkUp (s : State) (n : Nat) : Bool :=
  ((s.port n).st = .up || ((s.port n).st = .held && !(s.port n).noLink)) && !(bit (s.fld F.rstBlkPortAssert) n) && (s.port n).blockAt.isNone

/-- Source, destination and class of a stream's key. -/
def tripleOf (k : Nat) : Nat × Nat × Nat := (k / 4 / 65536, k / 4 % 65536, k % 4)

/-- The module a message goes to, or to whose edge: the frames toward it may take another of its hops. -/
def Out.module (self : Nat) : Out → Option Nat
  | .msg _ _ h _ | .fullMap _ h _ =>
    if isModule h.dst.toNat then some h.dst.toNat
    else if h.ext && h.xEdge.toNat ≠ self then some h.xEdge.toNat else none
  | _ => none

/-- A message by another port. -/
def Out.via (n : Nat) : Out → Out
  | .msg _ ty h data => .msg n ty h data
  | .fullMap _ h map => .fullMap n h map
  | o => o

/-- Source and class of a message. -/
def Out.flow : Out → Nat × Nat
  | .msg _ _ h _ | .fullMap _ h _ => (h.src.toNat, h.tc.val)
  | _ => (0, 0)

/-- A link is gone: the frames left in its retry buffer, then the messages that waited for its credits, go on a live hop of their
destination, in order. Without one they are lost with the link, and retransmission recovers them (R274, R289, R295; log entry
45). -/
def State.moveFrames (s : State) (n : Nat) : State :=
  let l := (s.port n).kept.map Prod.snd ++ (s.port n).unsent
  let s := s.modPort n (fun p => { p with kept := [], unsent := [] })
  foldS (fun s o =>
    match o.module s.self with
    | some d =>
      let m := s.portTo d o.flow.1 o.flow.2
      s.sendBy m (o.via m)
    | none => s) s l

/-- Move one stream to the hop its route entry now gives: over an old link that still runs goes a DRAIN with the last
number sent there, behind every earlier message of the stream (R295). -/
def State.rerouteOne (s : State) (k : Nat) (n : Nat) (seq : W32) : State :=
  let (src, dst, tc) := tripleOf k
  let m := s.portTo dst src tc
  if m = n then s
  else
    let s :=
      if n ≥ noPort then s
      else if s.linkUp n then
        s.sendBy n (.msg n tyDrain { s.hdr tc dst with src := BitVec.ofNat 16 src, seq := seq } [])
      else s
    let s := { s with fab := { s.fab with paths := Tbl.ins k (m, seq) s.fab.paths } }
    s.when (src = s.self) (fun s => s.modTx dst tc (fun t => { t with port := m }))

/-- The live hops have changed: every stream takes the hop it now has. -/
def State.reroute (s : State) : State := foldS (fun s p => s.rerouteOne p.1 p.2.1 p.2.2) s s.fab.paths

/-! ### What goes through a port that is held or reset (R306, R390) -/

/-- The module's own accesses through a port fail with DENIED 0x0B04; mirror stores stay (R306, R346). -/
def State.failOwn (s : State) (n : Nat) : State :=
  let mine := s.fab.waits.filter (fun (w : Wait) => w.port = n)
  let s := { s with fab := { s.fab with
    waits := s.fab.waits.filter (fun (w : Wait) => w.port ≠ n),
    expired := s.fab.expired ++ mine.map (fun (w : Wait) => (w.dst.toNat, w.port, w.tag.toNat)) } }
  let reqs := ((Tbl.vals s.fab.tx).filter (fun (t : TxStream) => t.port = n)).map (fun (t : TxStream) =>
    (t.una ++ t.doubt).filter (fun (r : TxReq) => r.kind ≠ .mirror))
  let fences := ((Tbl.vals s.fab.tx).filter (fun (t : TxStream) => t.port = n)).map (fun (t : TxStream) => t.fence)
  let s := { s with fab := { s.fab with tx := s.fab.tx.mapV (fun _ (t : TxStream) =>
    if t.port ≠ n then t
    else { t with
      late := t.late ++ ((t.una ++ t.doubt).filter (fun (r : TxReq) => r.kind ≠ .mirror)).map (fun (r : TxReq) => r.seq) ++
        t.fence.map (fun f => f.seq),
      fence := [],
      una := t.una.filter (fun (r : TxReq) => r.kind = .mirror), doubt := t.doubt.filter (fun (r : TxReq) => r.kind = .mirror) }) } }
  let s := foldS (fun s (w : Wait) =>
    match w.purpose with
    | .fwd p h => s.relayFail p h St.denied 0x0B04
    | p => s.failAccess p St.denied 0x0B04) s mine
  let s := foldS (fun s (r : TxReq) => s.failAccess r.purpose St.denied 0x0B04) s reqs.flatten
  foldS (fun s (f : TxFence) => s.failAccess f.purpose St.denied 0x0B04) s fences.flatten

/-- A purpose is a request that came by port n. -/
def Purpose.cameBy (n : Nat) : Purpose → Bool
  | .fwd p _ => p = n
  | _ => false

/-- Requests of the partner that this module has sent on to their holder complete with DENIED 0x0B04 too; what the holder answers
then belongs to nothing (R306). -/
def State.failSentOn (s : State) (n : Nat) : State :=
  let loads := s.fab.waits.filterMap (fun (w : Wait) => match w.purpose with | .fwd p h => if p = n then some h else none | _ => none)
  let cut : TxReq → TxReq := fun r => if r.purpose.cameBy n then { r with purpose := .dropped } else r
  let s := { s with
    fab := { s.fab with
      waits := s.fab.waits.map (fun (w : Wait) => if w.purpose.cameBy n then { w with purpose := .dropped } else w),
      tx := s.fab.tx.mapV (fun _ (t : TxStream) => { t with una := t.una.map cut, doubt := t.doubt.map cut }) },
    tq := { s.tq with fetch := s.tq.fetch.map (fun e =>
      if e.1.cameBy n then (e.1, Fetch.failed St.denied 0x0B04) else e) } }
  foldS (fun s h => s.relayFail n h St.denied 0x0B04) s loads

/-- Requests of the partner received and not applied complete with DENIED 0x0B04; its FENCEs are answered (R306). -/
def State.failReceived (s : State) (n : Nat) : State :=
  let no : RxReq → RxReq := fun q => if q.port = n && q.deny.isNone then { q with deny := some (St.denied, 0x0B04) } else q
  let s := { s with fab := { s.fab with rx := s.fab.rx.mapV (fun _ (r : RxStream) => { r with held := r.held.map no }) } }
  let late := (Tbl.vals s.fab.later).filter (fun x => x.1.port = n)
  let s := { s with fab := { s.fab with later := Tbl.keep (fun _ x => x.1.port ≠ n) s.fab.later } }
  let stalled := (Tbl.vals s.tier.stalls).filterMap (fun (t : Stall) =>
    match t.who with | .load p h => if p = n then some h else none | .ctx _ => none)
  let s := { s with tier := { s.tier with stalls := Tbl.keep (fun _ (t : Stall) =>
    match t.who with | .load p _ => p ≠ n | .ctx _ => true) s.tier.stalls } }
  let s := foldS (fun s h => s.loadFail n h St.denied 0x0B04) s
    (stalled ++ (late.filter (fun x => x.1.kind = .load)).map (fun x => x.1.h))
  (s.failSentOn n).goOn

/-- Copies whose units wait in the port's queues are given up with the module's other tray accesses (R306, R323). -/
def State.failUnits (s : State) (n : Nat) : State :=
  let units := ((s.sw.queues.filter (fun (x : Nat × SQueue) => x.1 / 1024 = n)).map (fun x => x.2.units)).flatten
  foldS (fun s (u : SUnit) => match u.copy with | some c => s.moveSwitch c.page false | none => s) s units

/-- A port stops serving: received requests, own accesses, routes (R306, R390). -/
def State.stopPort (s : State) (n : Nat) : State := (((s.failReceived n).failOwn n).failUnits n).reroute.goOn

/-- The link keys of a port are cleared (R374, R390). -/
def State.dropLinkKeys (s : State) (n : Nat) : State :=
  { s with sec := { s.sec with keys := (s.sec.keys.del (keyNo 1 n 0)).del (keyNo 1 n 1) } }

/-- A port becomes HELD, and a port that was UP loses its link keys (R374; log entry 93); a hold of cause 3 keeps its cause (R16, R306). -/
def State.holdPort (s : State) (n cause : Nat) : State :=
  let p := s.port n
  if p.st = .held then s.when (p.cause ≠ 3) (fun s => s.modPort n (fun p => { p with cause := cause }))
  else
    let s := s.when (p.st = .up) (fun s => s.dropLinkKeys n)
    ((s.modPort n (fun p => { p with st := .held, cause := cause })).latchAlert 6).stopPort n

/-- A hold of cause 1 or 2 ends (R306); a port whose link was lost meanwhile trains. -/
def State.releasePort (s : State) (n : Nat) : State :=
  let p := s.port n
  if p.st = .held && (p.cause = 1 || p.cause = 2) then
    (s.modPort n (fun p =>
      { p with st := if p.alien then .down else if p.noLink then .training else .up, cause := 0, vsec := 0, noLink := false })).reroute.goOn
  else s

/-! ### Violations (R302–R305) -/

/-- Byte 1 of a header (R275). -/
def Hdr.flagByte (h : Hdr) : Nat :=
  h.tc.val + 4 * b2n h.poison + 8 * b2n h.sync + 16 * b2n h.retry + 32 * b2n h.ext + 64 * b2n h.dep +
    128 * b2n (bit h.resBits.toNat 0)

/-- The first 16 bytes of a header (R275). -/
def hdrFirst (ty : Nat) (h : Hdr) : List Byte :=
  leBytes 1 ty ++ leBytes 1 (Hdr.flagByte h) ++ leBytes 2 h.src.toNat ++ leBytes 2 h.dst.toNat ++
  leBytes 1 (h.hops % 16 + 16 * bits h.resBits.toNat 4 1) ++ leBytes 1 h.op.toNat ++ leBytes 4 h.seq.toNat ++
  leBytes 4 h.epoch.toNat

/-- The entry of a violation (R304). -/
def State.vlogEntry (s : State) (code ty : Nat) (h : Hdr) : VLog :=
  { wall := s.time.wall, code := code, tc := h.tc.val, src := h.src, seq := h.seq,
    h0 := BitVec.ofNat 64 (leAt (hdrFirst ty h) 0 8), h1 := BitVec.ofNat 64 (leAt (hdrFirst ty h) 8 8) }

/-- Count and log a violation; in the tick in which the second's count reaches VTHRESH the port is held (R302, R304,
R305). -/
def State.countViolation (s : State) (n : Nat) (v : VLog) : State :=
  let p := s.port n
  let s := s.bump F.portVcntTotal n
  let s := s.when (p.vlog.look p.vnext).isSome (fun s => s.setFld F.portVlogIdxWrapped 1 n)
  let s := s.modPort n (fun p => { p with vsec := p.vsec + 1, vlog := Tbl.ins p.vnext v p.vlog, vnext := (p.vnext + 1) % 64 })
  s.when (p.vsec + 1 ≥ s.fld F.portCtlVthresh n && p.st ≠ .held) (fun s => s.holdPort n 1)

/-- A violation on a ULP port: the message has no effect, and a NAK answers it (R302). -/
def State.violate (s : State) (n code ty : Nat) (h : Hdr) : State :=
  let s := s.sendBy n (.msg n tyNak { s.hdr h.tc.val h.src.toNat with
    op := BitVec.ofNat 8 code, tag := h.tag, seq := h.seq, ext := h.ext } [])
  s.countViolation n (s.vlogEntry code ty h)

/-- A violation on a CXL port: Unsupported Request for a non-posted request, ERR_NONFATAL otherwise (R302). -/
def State.violateCxl (s : State) (n : Nat) (nonPosted : Bool) : State :=
  let h : Hdr := { tc := 0, src := 0, dst := 0 }
  (s.emit (.cxlError n nonPosted)).countViolation n { s.vlogEntry 0x0B 0 h with h0 := 0, h1 := 0 }

end Sys2Proof.Machine
end

