-- ==== Sys2Proof/Machine/Edge.lean ====
section
/-! DEFINITION. Requests that reach a ULP or CXL-up port: their form, the edge check, transit, windows, the streams' timers
(R272–R289, R292, R298, R301–R306, R318, R343). -/

namespace Sys2Proof.Machine

/-! ### The form of a message (R275, R276, R287, R303) -/

def tyAttach : Nat := 0x06
def tyDetach : Nat := 0x07
def tyMark : Nat := 0x08

/-- Payload bytes u.len may name, by type: from and to (R275, R276). -/
def lenRange (ty : Nat) : Nat × Nat :=
  match ty with
  | 0x01 => (1, 4096)
  | 0x02 => (1, 4096)
  | 0x03 => (1, 64)
  | 0x04 => (16, 16)
  | 0x06 => (16, 16)
  | 0x08 => (8, 8)
  | 0x09 => (1, 4096)
  | 0x10 => (0, 4096)
  | 0x11 => (8, 8)
  | 0x12 => (4, 4)
  | 0x13 => (16, 16)
  | 0x14 => (8, 8)
  | _ => (0, 0)

/-- Length in range, payload of that length, the poison bitmap behind it exactly when POISON is set, no 4 KiB crossing
(violation 0x03). A LOAD's u.len names the bytes it asks for. -/
def lenOk (ty : Nat) (h : Hdr) (bytes : Nat) : Bool :=
  let (lo, hi) := lenRange ty
  lo ≤ h.len && h.len ≤ hi &&
    bytes = (if ty = tyLoad then 0 else h.len) + 8 * b2n h.poison &&
    !((ty = tyLoad || ty = tyStore || ty = tyFlag) && h.addr.toNat % 4096 + h.len > 4096)

/-- Type and traffic class agree (violation 0x04). -/
def classOk (ty tc : Nat) : Bool :=
  match ty with
  | 0x03 => tc = 1 || tc = 2
  | 0x04 => tc = 2
  | 0x06 => tc = 2
  | 0x07 => tc = 2
  | 0x08 => tc = 3
  | 0x09 => tc = 3
  | 0x0A => tc = 3
  | 0x11 => tc = 2
  | 0x14 => tc = 2
  | 0x15 => true
  | 0x18 => tc = 3
  | _ => tc ≤ 2

/-- A Res field is not zero, or an op code where none belongs (violation 0x02). -/
def headerRes (ty : Nat) (h : Hdr) (payload : List Byte) : Bool :=
  h.resBits ≠ 0 || (h.ext && h.extRes ≠ 0) || (h.op ≠ 0 && ty ≠ tyAtomic && ty ≠ tyNak) ||
    (ty = tyAtomic && h.op.toNat > 9) || ((ty = tyAttach || ty = tyDetach) && addrOff h.addr.toNat ≠ 0) ||
    (ty = tyAttach && (bits (leAt payload 8 1) 7 4 ≠ 0 || leAt payload 9 7 ≠ 0)) ||
    (ty = tyMark && h.addr.toNat ≥ 4096)

/-- An ATOMIC off its word, or a WRITE_FLAG across a line (violation 0x06). -/
def misaligned (ty : Nat) (h : Hdr) : Bool :=
  (ty = tyAtomic && h.addr.toNat % 8 ≠ 0) || (ty = tyFlag && h.addr.toNat % 64 + h.len > 64)

/-! ### Who speaks and to whom -/

/-- The partner of a port is a module: a PORT_EP entry names one, or a route leads by the port (R272, R275). -/
def State.moduleAt (s : State) (n : Nat) : Bool :=
  (s.epEntryGo n (fun k => isModule (s.fld F.portEpEp n k)) 16 0).isSome ||
    s.fab.map.routes.any (fun r => r.1 / 4096 = s.self && r.2.any (fun p => p.val = n))

/-- The PORT_EP entry of a source; the host of a CXL-up port is that of entry 0 (R301). -/
def State.srcEntry (s : State) (n : Nat) (src : Ep) : Option Nat :=
  s.epEntryGo n (fun k => s.fld F.portEpEp n k = src.toNat) (if (s.port n).role = roleUp then 1 else 16) 0

/-- The source may speak here: extended messages come from modules only, others from an entry's endpoint. -/
def State.srcOk (s : State) (n : Nat) (h : Hdr) : Bool :=
  if h.ext then s.moduleAt n else (s.srcEntry n h.src).isSome

/-- A destination this module serves: itself, the port's partner ID, or a buddy it stands in for (R272, R364). -/
def State.serves (s : State) (d : Ep) : Bool :=
  d.toNat = s.self || d = 0xFFFF#16 || s.ldg.standFor.any (· = d.toNat)

/-- u.dst is a valid endpoint ID: a member, or outside the modules' range. -/
def State.dstOk (s : State) (d : Ep) : Bool :=
  s.serves d || !(isModule d.toNat) || s.fab.map.members.any (fun m => m.toNat = d.toNat)

/-- u.seq lies more than 2^20 ahead of the stream's next expected number (violation 0x08). -/
def State.tooFar (s : State) (ty : Nat) (h : Hdr) : Bool :=
  let r := s.rx (s.rxSrc h) h.tc.val
  let used := ty = tyStore || ty = tyFlag || ty = tyAtomic || ty = tyFence || (ty = tyLoad && h.dep)
  used && s.serves h.dst && !h.sync && r.known && decide (serDiff h.seq (r.contig + 1) > (2 ^ 20 : Nat))

/-- The lowest violation code of a message apart from 0x01, 0x07, 0x09, 0x0A and 0x0B (R303). -/
def State.violation (s : State) (n ty : Nat) (h : Hdr) (payload : List Byte) : Option Nat :=
  if headerRes ty h payload then some 0x02
  else if !(lenOk ty h payload.length) then some 0x03
  else if !(classOk ty h.tc.val) then some 0x04
  else if !(s.srcOk n h) then some 0x05
  else if misaligned ty h then some 0x06
  else if s.tooFar ty h then some 0x08
  else if h.hops = 0 || !(s.dstOk h.dst) then some 0x0C
  else none

/-! ### Checks 3 to 7 (R285) -/

/-- A control-space range lies inside the doorbell page of a tenant (check 3). -/
def State.dbPage (s : State) (tenant a len : Nat) : Bool :=
  let p := s.dbBase + 4096 * tenant
  p ≤ a && a + len ≤ p + 4096

/-- The window attached by an endpoint. -/
def State.window (s : State) (ep w : Nat) : Option FabWin := s.fab.wins.find? (fun (x : FabWin) => x.ep = ep && x.w = w)

/-- Checks 3 to 7 for an access of entry `k`: the extension the edge fills in, or the failure. -/
def State.edgeAccess (s : State) (n k ty : Nat) (h : Hdr) : Except (Nat × Nat) Hdr :=
  let h := { h with xTenant := s.fld F.portEpTenant n k, xSecure := s.flag F.portEpSecure n k }
  if hdrControl h then
    if !(s.dbPage h.xTenant h.addr.toNat h.len) then .error (St.denied, 0x0B02)
    else if ty = tyAtomic then .error (St.denied, 0x0B03)
    else .ok h
  else
    match s.window h.src.toNat (addrWin h.addr.toNat) with
    | none => .error (St.denied, 0x0B01)
    | some x =>
      let r := s.attrs x.region
      if (match r with | some r => decide (addrOff h.addr.toNat + h.len > r.size) | none => false) then
        .error (St.denied, 0x0B02)
      else if ty ≠ tyLoad && !x.store then .error (St.denied, 0x0B03)
      else if (match r with | some r => r.prot && !h.xSecure | none => false) then .error (St.denied, 0x0B05)
      else .ok { h with xRegion := x.region, xVersion := x.version }

/-- The edge check of a request from an endpoint. -/
def State.edgeCheck (s : State) (n ty : Nat) (h : Hdr) : Except (Nat × Nat) Hdr :=
  match s.srcEntry n h.src with
  | none => .error (St.denied, 0x0B04)
  | some k =>
    if ty = tyLoad || ty = tyStore || ty = tyFlag || ty = tyAtomic then s.edgeAccess n k ty h
    else .ok { h with xTenant := s.fld F.portEpTenant n k, xSecure := s.flag F.portEpSecure n k }

/-- A refusal at the edge is counted (R285). -/
def State.edgeDeny (s : State) (n : Nat) : State := s.bump F.portEcntEdgeDeny n

/-- A peer is heard: it is ALIVE again (R359). -/
def State.hear (s : State) (src : Nat) : State :=
  if isModule src && src ≠ s.self then
    { s with ldg := { s.ldg with peers := Tbl.upd {} src (fun (p : Peer) => { p with heard := s.now, suspect := false }) s.ldg.peers } }
  else s

/-- ULP messages come in by a port: its applied role is ULP, and its link runs or it is in block reset (R306, R390). -/
def State.ulpIn (s : State) (n : Nat) : Bool := (s.port n).role = roleUlp && (s.linkUp n || s.shut n)

/-- A message comes in: an ill-formed one is a violation, any other goes to `f` (R302, R359). -/
def State.takeMsg (s : State) (n ty : Nat) (h : Hdr) (payload : List Byte) (f : State → State) : State :=
  if !(s.ulpIn n) then s
  else
    let s := s.hear h.src.toNat
    match s.violation n ty h payload with
    | some c => s.violate n c ty h
    | none => f s

/-- A request that passed check 2, from an endpoint: its payload is counted, the further checks are made (R285, R416). -/
def State.enterEdge (s : State) (n ty : Nat) (h : Hdr) (f : Hdr → Option (Nat × Nat) → State → State) : State :=
  match s.edgeCheck n ty h with
  | .error e => f h (some e) (s.edgeDeny n)
  | .ok h => f h none (s.when (ty ≠ tyLoad) (fun s => s.tollBytes h.xTenant h.len))

/-- A request comes in by a ULP port: check 1, check 2, then the others at the edge; a module's is trusted, and the failure an
edge found comes with it. The edge of a fenced module answers FENCED (R363). -/
def State.enter (s : State) (n ty : Nat) (h : Hdr) (payload : List Byte)
    (f : Hdr → Option (Nat × Nat) → State → State) : State :=
  if s.ulpIn n && s.shut n then f h (some (St.denied, 0x0B04)) ((s.hear h.src.toNat).edgeDeny n)
  else
    s.takeMsg n ty h payload (fun s =>
      if h.ext then f h (if h.status = 0 then none else some (h.status.toNat, h.detail.toNat)) s
      else if s.ldg.fenced then f h (some (St.fenced, 0x0D01)) s
      else s.enterEdge n ty h f)

/-! ### Transit (R294, R298) -/

/-- The port toward a destination: a module by its route; an endpoint behind another edge by the route to that edge, one
behind a port of this module by that port. -/
def State.wayTo (s : State) (h : Hdr) : Nat :=
  let d := h.dst.toNat
  if isModule d then s.portTo d h.src.toNat h.tc.val
  else if h.ext && h.xEdge.toNat ≠ s.self then s.portTo h.xEdge.toNat h.src.toNat h.tc.val
  else s.outPort d h.src.toNat h.tc.val

/-- A request in transit that consumes a number shows the hop of its stream and the last number sent there: one sent again leaves a
later number, unless it begins the stream anew (R273, R295). -/
def State.noteTransit (s : State) (ty : Nat) (h : Hdr) (m : Nat) : State :=
  let src := h.src.toNat
  let dst := h.dst.toNat
  if ty = tyStore || ty = tyFlag || ty = tyAtomic then
    match s.fab.paths.look (tripleKey src dst h.tc.val) with
    | some (_, last) =>
      s.notePath src dst h.tc.val m (if h.sync || decide (serDiff last h.seq ≤ 0) then h.seq else last)
    | none => s.notePath src dst h.tc.val m h.seq
  else s

/-- A message passes through: the edge sets its hop limit and its extension, a further module lowers the limit. -/
def State.transit (s : State) (ty : Nat) (h : Hdr) (payload : List Byte) : State :=
  if h.ext && h.hops ≤ 1 then s.bump F.mapCnt1HopDrops
  else
    let h := if h.ext then { h with hops := h.hops - 1 }
      else { h with hops := s.fld F.mapCtlHopLimit, ext := true, xEdge := BitVec.ofNat 12 s.self }
    let m := s.wayTo h
    let h := if isModule h.dst.toNat || h.xEdge.toNat ≠ s.self then h else { h with ext := false }
    let s := s.when (isModule h.dst.toNat && m < noPort) (fun s => s.noteTransit ty h m)
    s.sendBy m (.msg m ty h payload)

/-- A sequenced request is served here or passes through; one that the edge refused passes with the failure, so that its
destination consumes it (R285). -/
def State.passReq (s : State) (n ty : Nat) (k : ReqKind) (data : List Byte) (h : Hdr) (deny : Option (Nat × Nat)) : State :=
  if s.serves h.dst then s.arriveReq { kind := k, port := n, h := h, data := data, deny := deny }
  else
    match deny with
    | some (st, d) => s.transit ty { h with status := BitVec.ofNat 8 st, detail := BitVec.ofNat 16 d } data
    | none => s.transit ty h data

/-! ### The requests of a ULP port -/

/-- ULP_LOAD (R278). -/
def execUlpLoad (port : Port) (h : Hdr) (s : State) : Host.Outcome State Fault Refusal :=
  checked s (.ulpLoad port h) (s.enter port.val tyLoad h [] (fun h deny s =>
    match deny with
    | some (st, d) => s.failAnswer port.val tyLoadRsp h st d
    | none =>
      if s.serves h.dst then s.arriveLoad { kind := .load, port := port.val, h := h, data := [] }
      else s.transit tyLoad h []))

/-- A STORE between modules that names region 0 is a mirror store (R343). -/
def storeKind (h : Hdr) : ReqKind := if h.ext && h.xRegion = 0 && !(hdrControl h) then .mirror else .store

/-- ULP_STORE (R277). -/
def execUlpStore (port : Port) (h : Hdr) (data : List Byte) (s : State) : Host.Outcome State Fault Refusal :=
  checked s (.ulpStore port h data)
    (s.enter port.val tyStore h data (fun h deny s => s.passReq port.val tyStore (storeKind h) data h deny))

/-- ULP_WRITE_FLAG (R281). -/
def execUlpWriteFlag (port : Port) (h : Hdr) (data : List Byte) (s : State) : Host.Outcome State Fault Refusal :=
  checked s (.ulpWriteFlag port h data)
    (s.enter port.val tyFlag h data (fun h deny s => s.passReq port.val tyFlag .flag data h deny))

/-- ULP_ATOMIC (R288). -/
def execUlpAtomic (port : Port) (h : Hdr) (data : List Byte) (s : State) : Host.Outcome State Fault Refusal :=
  checked s (.ulpAtomic port h data)
    (s.enter port.val tyAtomic h data (fun h deny s => s.passReq port.val tyAtomic .atomic data h deny))

/-- ULP_FENCE (R280). -/
def execUlpFence (port : Port) (h : Hdr) (s : State) : Host.Outcome State Fault Refusal :=
  checked s (.ulpFence port h) (s.enter port.val tyFence h [] (fun h _ s =>
    if s.serves h.dst || (s.ldg.fenced && !h.ext) then s.arriveFence port.val h else s.transit tyFence h []))

/-- MIRROR_STORE (R343). -/
def execMirrorStore (port : Port) (h : Hdr) (data : List Byte) (s : State) : Host.Outcome State Fault Refusal :=
  checked s (.mirrorStore port h data)
    (s.enter port.val tyStore h data (fun h deny s => s.passReq port.val tyStore (storeKind h) data h deny))

/-! ### Windows (R283, R284, R301) -/

/-- The reference, the STORE bit and the ring pair of an ATTACH payload (R283). -/
def attachStore (w : Nat) : Bool := bit w 0
def attachPair (w : Nat) : Nat := bits w 3 1

/-- Why an endpoint may not attach window `w` now (R283, R284, R311). -/
def State.windowFree (s : State) (ep w : Nat) : Option (Nat × Nat) :=
  if w ≥ 255 then some (St.denied, 0x0B02)
  else if (s.window ep w).isSome then some (St.denied, 0x0B06)
  else if (s.fab.wins.filter (fun (x : FabWin) => x.ep = ep)).length ≥ 255 || s.fab.wins.length ≥ 65536 then
    some (St.quota, 0x0B07)
  else none

/-- The home resolves the reference of an ATTACH: region and version, or the failure (R76, R82, R283). -/
def State.resolveAttach (s : State) (tenant : Nat) (secure : Bool) (ref access : Nat) : Except (Nat × Nat) (Nat × Nat) :=
  let c : Caller := { tenant := tenant, pair := 8 * tenant + attachPair access, secure := secure, at_ := s.now }
  match (if attachStore access then s.resolveWrite c (refOf ref) else s.resolveRead c (refOf ref)) with
  | .error (st, d) => .error (st, if d = 0x0E01 then 0x0B05 else d)
  | .ok (_, n, _) => .ok ((refOf ref).region, n)

/-- The module a region has its home at (R69, R291). -/
def State.homeOf (s : State) (id : Nat) : Nat :=
  match s.region id, s.fab.map.regions.look id with
  | some r, _ => r.home.toNat
  | none, some r => r.home.toNat
  | none, none => s.self

/-- A window of this module's is attached. -/
def State.addWindow (s : State) (a : HomeAsk) (id n : Nat) : State :=
  let access := leAt a.data 8 1
  let x : FabWin := { ep := a.h.src.toNat, w := addrWin a.h.addr.toNat, tenant := a.h.xTenant, secure := a.h.xSecure,
                      region := id, version := n, store := attachStore access, pair := attachPair access }
  { s with fab := { s.fab with wins := s.fab.wins ++ [x] } }

/-- The edge passes an ATTACH or DETACH to the region's home (R283; the form of the message is the model's choice, log entry
77). -/
def State.askHome (s : State) (a : HomeAsk) (home : Nat) : State :=
  let m := s.portTo home a.h.src.toNat 2
  let h := { a.h with
    dst := BitVec.ofNat 16 home, ext := true, hops := s.fld F.mapCtlHopLimit, epoch := s.fab.map.epoch,
    xEdge := BitVec.ofNat 12 s.self }
  let other : HomeAsk → Bool := fun x => !(x.h.src = a.h.src && x.h.addr = a.h.addr)
  { s with fab := { s.fab with asks := s.fab.asks.filter other ++ [a] } }.sendBy m
    (.msg m (if a.detach then tyDetach else tyAttach) h a.data)

/-- An ATTACH at the edge: the failure, the version and region resolved here, or nothing yet when another module is the home
(R283, R284). -/
def State.attach (s : State) (a : HomeAsk) : State × Option (Except (Nat × Nat) (Nat × Nat)) :=
  match s.windowFree a.h.src.toNat (addrWin a.h.addr.toNat) with
  | some f => (s, some (.error f))
  | none =>
    let home := s.homeOf (refOf (leAt a.data 0 8)).region
    if home ≠ s.self then (s.askHome a home, none)
    else
      match s.resolveAttach a.h.xTenant a.h.xSecure (leAt a.data 0 8) (leAt a.data 8 1) with
      | .error f => (s, some (.error f))
      | .ok (id, n) => ((s.addRef id n).addWindow a id n, some (.ok (n, id)))

/-- A window is no longer attached. -/
def State.dropWindow (s : State) (ep w : Nat) : State :=
  { s with fab := { s.fab with wins := s.fab.wins.filter (fun (y : FabWin) => !(y.ep = ep && y.w = w)) } }

/-- A DETACH at the edge: the window's read reference is released, at the home (R284). -/
def State.detach (s : State) (a : HomeAsk) : State × Option (Option (Nat × Nat)) :=
  let ep := a.h.src.toNat
  let w := addrWin a.h.addr.toNat
  match s.window ep w with
  | none => (s, some (some (St.denied, 0x0B01)))
  | some x =>
    if s.homeOf x.region ≠ s.self then (s.askHome a (s.homeOf x.region), none)
    else ((s.dropWindow ep w).dropRef x.region x.version, some none)

/-- A window's endpoint, tenant and world. -/
def State.epWorld (s : State) (n : Nat) (h : Hdr) : Nat × Bool :=
  match s.srcEntry n h.src with
  | some k => (s.fld F.portEpTenant n k, s.flag F.portEpSecure n k)
  | none => (h.xTenant, h.xSecure)

/-- The payload of an ATTACH_RSP (R276). -/
def attachRspData (v id : Nat) : List Byte := leBytes 4 v ++ leBytes 3 id ++ leBytes 1 0

/-- ATTACH is served where it enters, by the edge (R283, R363). -/
def State.ulpAttach (s : State) (n : Nat) (h : Hdr) (data : List Byte) : State :=
  if s.ldg.fenced then s.failAnswer n tyAttachRsp h St.fenced 0x0D01
  else
    let (t, sec) := s.epWorld n h
    match s.attach { port := n, bar2 := false, detach := false, h := { h with xTenant := t, xSecure := sec }, data := data } with
    | (s, none) => s
    | (s, some (.ok (v, id))) => s.answer n tyAttachRsp h St.ok 0 false 8 (attachRspData v id)
    | (s, some (.error (st, d))) => (s.edgeDeny n).failAnswer n tyAttachRsp h st d

/-- DETACH likewise (R284). -/
def State.ulpDetach (s : State) (n : Nat) (h : Hdr) : State :=
  if s.ldg.fenced then s.failAnswer n tyAttachRsp h St.fenced 0x0D01
  else
    match s.detach { port := n, bar2 := false, detach := true, h := h, data := [] } with
    | (s, none) => s
    | (s, some none) => s.answer n tyAttachRsp h St.ok 0 false 8 (leBytes 8 0)
    | (s, some (some (st, d))) => (s.edgeDeny n).failAnswer n tyAttachRsp h st d

/-- The reference held here for a window of another module. -/
def State.farRef (s : State) (h : Hdr) : Option FarRef :=
  s.fab.farRefs.find? (fun (x : FarRef) =>
    x.edge = h.xEdge.toNat && x.ep = h.src.toNat && x.w = addrWin h.addr.toNat)

/-- It is released. -/
def State.dropFarRef (s : State) (x : FarRef) : State :=
  { s with fab := { s.fab with farRefs := s.fab.farRefs.filter (fun y => y ≠ x) } }.dropRef x.region x.version

/-- The home resolves an ATTACH that an edge passed on, and takes the window's read reference; the same again is a copy (R283,
R363). -/
def State.homeAttach (s : State) (n : Nat) (h : Hdr) (data : List Byte) : State :=
  if s.ldg.fenced then s.failAnswer n tyAttachRsp h St.fenced 0x0D01
  else
    match (s.farRef h).filter (fun x => x.data = data) with
    | some x => s.answer n tyAttachRsp h St.ok 0 false 8 (attachRspData x.version x.region)
    | none =>
      let s := match s.farRef h with | some x => s.dropFarRef x | none => s
      match s.resolveAttach h.xTenant h.xSecure (leAt data 0 8) (leAt data 8 1) with
      | .error (st, d) => s.failAnswer n tyAttachRsp h st d
      | .ok (id, v) =>
        let x : FarRef := { edge := h.xEdge.toNat, ep := h.src.toNat, w := addrWin h.addr.toNat, region := id, version := v,
                            data := data }
        let s := s.addRef id v
        { s with fab := { s.fab with farRefs := s.fab.farRefs ++ [x] } }.answer n tyAttachRsp h St.ok 0 false 8
          (attachRspData v id)

/-- The home releases the reference of a window that an edge detaches (R284). -/
def State.homeDetach (s : State) (n : Nat) (h : Hdr) : State :=
  if s.ldg.fenced then s.failAnswer n tyAttachRsp h St.fenced 0x0D01
  else
    let s := match s.farRef h with | some x => s.dropFarRef x | none => s
    s.answer n tyAttachRsp h St.ok 0 false 8 (leBytes 8 0)

/-- ULP_ATTACH (R283). -/
def execUlpAttach (port : Port) (h : Hdr) (data : List Byte) (s : State) : Host.Outcome State Fault Refusal :=
  checked s (.ulpAttach port h data) (s.enter port.val tyAttach h data (fun h deny s =>
    match deny with
    | some (st, d) => s.failAnswer port.val tyAttachRsp h st d
    | none =>
      if !h.ext then s.ulpAttach port.val h data
      else if s.serves h.dst then s.homeAttach port.val h data
      else s.transit tyAttach h data))

/-- ULP_DETACH (R284). -/
def execUlpDetach (port : Port) (h : Hdr) (s : State) : Host.Outcome State Fault Refusal :=
  checked s (.ulpDetach port h) (s.enter port.val tyDetach h [] (fun h deny s =>
    match deny with
    | some (st, d) => s.failAnswer port.val tyAttachRsp h st d
    | none =>
      if !h.ext then s.ulpDetach port.val h
      else if s.serves h.dst then s.homeDetach port.val h
      else s.transit tyDetach h []))

/-! ### Marks (R131, R133, R285, R318) -/

/-- Check 8 of the edge: the job is live here and the endpoint's tenant's (R285). A mark for a job that is not live is
counted as refused and as dropped (R133). -/
def State.markEdge (s : State) (n tenant payload : Nat) (f : State → State) : State :=
  match s.jobSlot (bits payload 63 48) with
  | some j => if s.fld F.timeJobCtlTenant j = tenant then f s else s.edgeDeny n
  | none => (s.edgeDeny n).takeMark tenant payload

/-- A mark for this module: check 8, then the time base (R285, R318). -/
def State.markHere (s : State) (n tenant payload : Nat) : State :=
  s.markEdge n tenant payload (fun s => s.takeMark tenant payload)

/-- A mark to a group is copied to each member, which makes check 8 for its own copy (R318). -/
def State.spreadMark (s : State) (n : Nat) (h : Hdr) (payload : Nat) : State :=
  match s.fab.map.groups.look (h.addr.toNat % 4096) with
  | none => s.edgeDeny n
  | some grp =>
    if !grp.mark || grp.owner ≠ h.xTenant then s.edgeDeny n
    else
      foldS (fun s m =>
        if s.serves m.ep then s.markHere n h.xTenant payload
        else s.transit tyMark { h with dst := m.ep, addr := 0 } (leBytes 8 payload)) s grp.members

/-- A mark to one module: taken here, or passed on (R318). -/
def State.passMark (s : State) (n : Nat) (h : Hdr) (payload : Nat) : State :=
  if s.serves h.dst then s.markHere n h.xTenant payload else s.transit tyMark h (leBytes 8 payload)

/-- ULP_MARK (R131). -/
def execUlpMark (port : Port) (h : Hdr) (payload : W64) (s : State) : Host.Outcome State Fault Refusal :=
  checked s (.ulpMark port h payload) (s.enter port.val tyMark h (leBytes 8 payload.toNat) (fun h deny s =>
    let n := port.val
    let p := payload.toNat
    if deny.isSome || s.ldg.fenced then s
    else if h.ext || (h.addr.toNat % 4096 = 0 && s.serves h.dst) then s.passMark n h p
    else if h.addr.toNat % 4096 = 0 then s.markEdge n h.xTenant p (fun s => s.passMark n h p)
    else s.spreadMark n h p))

/-! ### A CXL-up port (R301) -/

/-- The window page's status word after an attach (R301). -/
def State.bar2Attach (s : State) (n w v st d : Nat) : State :=
  { s with fab := { s.fab with bar2 := Tbl.upd {} (256 * n + w) (fun x =>
    { x with version := BitVec.ofNat 32 v, status := st, detail := d, failed := none }) s.fab.bar2 } }

/-- The reference word of a window page's entry is written: ATTACH with the access word then held, or DETACH (R301). -/
def State.bar2Ref (s : State) (n w : Nat) (ref : W64) : State :=
  let ep := s.fld F.portEpEp n 0
  if s.shut n then (s.edgeDeny n).bar2Attach n w 0 St.denied 0x0B04
  else if s.ldg.fenced then s.bar2Attach n w 0 St.fenced 0x0D01
  else if !(s.flag F.portEpValid n 0) then s
  else
    let h : Hdr := { tc := 2, src := BitVec.ofNat 16 ep, dst := s.selfEp, addr := BitVec.ofNat 64 (w * 2 ^ 56),
                     xTenant := s.fld F.portEpTenant n 0, xSecure := s.flag F.portEpSecure n 0 }
    if ref = 0 then
      match s.detach { port := n, bar2 := true, detach := true, h := h, data := [] } with
      | (s, none) => s
      | (s, some none) => s.bar2Attach n w 0 St.ok 0
      | (s, some (some (st, d))) => (s.edgeDeny n).bar2Attach n w 0 st d
    else
      let data := leBytes 8 ref.toNat ++ leBytes 8 (s.fab.bar2.rd {} (256 * n + w)).access.toNat
      match s.attach { port := n, bar2 := true, detach := false, h := h, data := data } with
      | (s, none) => s
      | (s, some (.ok (v, _))) => s.bar2Attach n w v St.ok 0
      | (s, some (.error (st, d))) => (s.edgeDeny n).bar2Attach n w 0 st d

/-- WINDOW_REFERENCE_WRITE (R301): a write to the access word or the reference word of an entry of the window page. -/
def execWindowReferenceWrite (port : Port) (win word : Nat) (value : W64) (s : State) : Host.Outcome State Fault Refusal :=
  checked s (.windowReferenceWrite port win word value) (
    if (s.port port.val).role ≠ roleUp then s
    else if word = 1 then
      { s with fab := { s.fab with bar2 := Tbl.upd {} (256 * port.val + win) (fun x => { x with access := value }) s.fab.bar2 } }
    else if word = 2 then s.bar2Ref port.val win value
    else s)

/-- WINDOW_STATUS_READ (R301): a read of a word of an entry of the window page. The status word: that of the
first failure since the last read, else of the last attach. The access word reads back as written; what the reference word reads as is open (log entry 3); the
last word is Res. -/
def execWindowStatusRead (port : Port) (word : WinWord) (s : State) : Host.Outcome State Fault Refusal :=
  checked s (.windowStatusRead port word) (
    if (s.port port.val).role ≠ roleUp then s
    else
      let x := s.fab.bar2.rd {} (256 * port.val + word.win)
      match word.word with
      | 0 =>
        let y := x.failed.getD (x.status, x.detail)
        let s := { s with fab := { s.fab with
          bar2 := Tbl.upd {} (256 * port.val + word.win) (fun x => { x with failed := none }) s.fab.bar2 } }
        s.emit (.barRead port.val (BitVec.ofNat 64 (x.version.toNat + y.1 * 2 ^ 32 + y.2 * 2 ^ 40)))
      | 1 => s.emit (.barRead port.val x.access)
      | 2 => s.tickFree.emit (.barRead port.val (Config.freeWord s.freeIdx))
      | _ => s.emit (.barRead port.val 0))

/-- A host's access as a request of entry 0's endpoint on its TC1 stream, numbered by the module (R301). -/
def State.hostHdr (s : State) (n : Nat) (write : Bool) (off len : Nat) : Hdr :=
  let ep := BitVec.ofNat 16 (s.fld F.portEpEp n 0)
  let r := s.rx ep.toNat 1
  { tc := 1, src := ep, dst := s.selfEp, sync := write && !r.known, epoch := s.fab.map.epoch, len := len,
    seq := if write then (if r.known then r.contig + 1 + BitVec.ofNat 32 r.held.length else 0) else 0,
    addr := BitVec.ofNat 64 (off / 2 ^ 40 * 2 ^ 56 + off % 2 ^ 40) }

/-- A host's read or write in the HDM range of 64 TiB; one outside it, or whose data do not fit its length, is a violation
(R301–R303). -/
def State.hostAccess (s : State) (n : Nat) (write : Bool) (off len : Nat) (data : List Byte) : State :=
  if len = 0 || off + len > 2 ^ 46 || (write && data.length ≠ len) || !(s.flag F.portEpValid n 0) then s.violateCxl n true
  else
    let h := s.hostHdr n write off len
    let ty := if write then tyStore else tyLoad
    let go := fun (h : Hdr) (deny : Option (Nat × Nat)) (s : State) =>
      if write then s.passReq n ty .store data h deny
      else match deny with
        | some (st, d) => s.loadFail n h st d
        | none => s.arriveLoad { kind := .load, port := n, h := h, data := [] }
    if s.shut n then go h (some (St.denied, 0x0B04)) (s.edgeDeny n) else s.enterEdge n ty h go

/-- CXL_MEM_REQUEST (R301). -/
def execCxlMemRequest (port : Port) (write : Bool) (off len : Nat) (data : List Byte) (s : State) :
    Host.Outcome State Fault Refusal :=
  checked s (.cxlMemRequest port write off len data) (
    if (s.port port.val).role ≠ roleUp || !(s.linkUp port.val || s.shut port.val) || s.ideWaits port.val then s
    else s.hostAccess port.val write off len data)

/-! ### Timers of received streams (R279, R289, R292, R305, R321) -/

/-- ACK_TIMER_EXPIRY (R279): the ACK owed on a stream is sent. -/
def execAckTimerExpiry (ep : Ep) (tc : Tc) (s : State) : Host.Outcome State Fault Refusal :=
  .next (
    let r := s.rx ep.toNat tc.val
    if r.ackDue then (s.waitTill (r.ackAt + 1000 * s.fld F.mapTmoAckUs)).sendAck ep.toNat tc.val else s)

/-- The first number from `q` on that is not held. -/
def missingGo (held : List RxReq) : Nat → W32 → W32
  | 0, q => q
  | fuel + 1, q => if held.any (fun x => x.h.seq = q) then missingGo held fuel (q + 1) else q

/-- The first missing number of a stream. -/
def RxStream.missing (r : RxStream) : W32 := missingGo r.held r.held.length (r.contig + 1)

/-- RESEND for the first missing number of a stream (R289). -/
def State.askResend (s : State) (src tc : Nat) : State :=
  let r := s.rx src tc
  s.sendBy r.port (.msg r.port tyResend { s.hdr tc (rxEp src) with seq := r.missing, tag := r.tag } [])

/-- STREAM_GAP_EXPIRY (R321): a gap that is still there asks for its first missing number. -/
def execStreamGapExpiry (ep : Ep) (tc : Tc) (s : State) : Host.Outcome State Fault Refusal :=
  .next (
    match (s.rx ep.toNat tc.val).gapAt with
    | none => s
    | some t =>
      let s := s.waitTill (t + 1000 * s.fld F.swRsqCtlStreamGapUs)
      ((s.modRx ep.toNat tc.val (fun r => { r with gapAt := some s.now })).bump F.swCnt1Resends).askResend ep.toNat tc.val)

/-- EPOCH_ADOPT_TIMEOUT (R292): a request held for a later epoch completes with EPOCH. -/
def execEpochAdoptTimeout (n : Nat) (s : State) : Host.Outcome State Fault Refusal :=
  .next (
    match s.fab.later.look n with
    | none => s
    | some (q, t) =>
      let s := s.waitTill (t + 1000 * s.fld F.mapTmoAdoptUs)
      let s := { s with fab := { s.fab with later := Tbl.del n s.fab.later } }
      if q.kind = .load then s.loadFail q.port q.h St.epoch 0x0B11
      else
        let src := s.rxSrc q.h
        let tc := q.h.tc.val
        (s.modRx src tc (fun r => { r with held := r.held.map (fun (x : RxReq) =>
          if x.h.seq = q.h.seq && x.deny.isNone && s.epochAt x.h = .later then { x with deny := some (St.epoch, 0x0B11) } else x) })
        ).pumpStream src tc)

/-- VIOLATION_SECOND_ROLLOVER (R305): a whole second of TIME_MONO. -/
def execViolationSecondRollover (s : State) : Host.Outcome State Fault Refusal :=
  .next (
    let s := s.waitTill ((s.now / 1000000000 + 1) * 1000000000)
    { s with fab := { s.fab with ports := s.fab.ports.mapV (fun _ (p : PortSt) => { p with vsec := 0 }) } })

end Sys2Proof.Machine
end

