-- ==== Sys2Proof/Machine/Answers.lean ====
section
/-! DEFINITION. Answers to the module's own requests, retransmission, and completions of CXL accesses (R276, R279, R280,
R287, R289, R290, R295, R296, R300, R338, R455). -/

namespace Sys2Proof.Machine

/-! ### Which request an answer names -/

/-- The stream has carried a request. -/
def TxStream.used (t : TxStream) : Bool := t.synced || !t.una.isEmpty

/-- The endpoint under which a stream toward the sender of an answer is kept: its own ID, or the link partner's (R272). -/
def State.txEp (s : State) (port : Nat) (src : Ep) (tc : Nat) : Nat :=
  if (s.tx src.toNat tc).used then src.toNat
  else if (s.tx 0xFFFF tc).used && (s.tx 0xFFFF tc).port = port then 0xFFFF
  else src.toNat

/-- The access that awaits an answer of this tag from this sender. -/
def State.waitFor (s : State) (port : Nat) (src : Ep) (tag : Nat) : Option Wait :=
  s.fab.waits.find? (fun (w : Wait) => w.tag.toNat = tag && (w.dst = src || (w.dst = 0xFFFF#16 && w.port = port)))

/-- The access is over. -/
def State.dropWait (s : State) (w : Wait) : State :=
  { s with fab := { s.fab with waits := s.fab.waits.filter (fun x => x ≠ w) } }

/-- An answer that came too late is counted and discarded; false when the access was never reported (R290, R338). -/
def State.lateTag (s : State) (port : Nat) (src : Ep) (tag : Nat) : Option State :=
  let hit : Nat × Nat × Nat → Bool := fun x => x.2.2 = tag && (x.1 = src.toNat || (x.1 = 0xFFFF && x.2.1 = port))
  if s.fab.expired.any hit then
    some { s.bump F.mapCnt1Late with fab := { (s.bump F.mapCnt1Late).fab with expired := listDrop1 hit s.fab.expired } }
  else none

/-- An answer on a stream to requests that were reported before it came: `p` says which numbers it answers. -/
def State.lateStream (s : State) (ep tc : Nat) (p : W32 → Bool) : Option State :=
  if (s.tx ep tc).late.any p then
    some ((s.bump F.mapCnt1Late).modTx ep tc (fun t => { t with late := t.late.filter (fun q => !(p q)) }))
  else none

/-- The numbers a contiguous number answers. -/
def upTo (seq : W32) (q : W32) : Bool := serDiff q seq ≤ 0

/-- An acknowledgement of mirror stores that were given up is late (R338). -/
def State.lateMirrors (s : State) (ep tc : Nat) (seq : W32) : State :=
  if (s.tx ep tc).lateMirror.any (upTo seq) then
    (s.bump F.ldgCnt1Late).modTx ep tc (fun t => { t with lateMirror := t.lateMirror.filter (fun q => !(upTo seq q)) })
  else s

/-- An answer that matches nothing: late, or a violation (R290, R303). -/
def State.unmatched (s : State) (port ty : Nat) (h : Hdr) (late : Option State) : State :=
  match late with
  | some t => t
  | none => s.violate port 0x09 ty h

/-- An answer comes in: one for this module is taken, another passes through. -/
def State.takeAnswer (s : State) (n ty : Nat) (h : Hdr) (payload : List Byte) (f : State → State) : State :=
  s.takeMsg n ty h payload (fun s => if s.serves h.dst then (f s).goOn else s.transit ty h payload)

/-! ### Loads (R287, R455) -/

/-- Bytes have come for an access of the module: they are kept, and the last ones let their work go on. -/
def State.tookBytes (s : State) (p : Purpose) (off : Nat) (data : List Byte) : State :=
  let s := (s.tollBytes (s.purposeTenant p) data.length).fetchPiece p off data
  match s.fetchOf p with
  | some (.got _) => s.readDone p
  | _ => s

/-- A holder's answer goes back to the requester of the load (R285, R292). -/
def State.relayLoad (s : State) (port : Nat) (fh h : Hdr) (data : List Byte) : State :=
  let s := s.when (!fh.ext) (fun s => s.tollBytes fh.xTenant h.len)
  if (s.port port).role = roleUp then
    if h.poison then s.loadReply port fh 0 0 (.error (h.status.toNat, h.detail.toNat)) else s.loadReply port fh 0 0 (.ok (data, []))
  else s.answer port tyLoadRsp fh h.status.toNat h.detail.toNat h.poison h.len data

/-- A LOAD_RSP for an access. -/
def State.tookLoad (s : State) (w : Wait) (h : Hdr) (data : List Byte) : State :=
  let st := h.status.toNat
  let s := s.dropWait w
  match w.purpose with
  | .fwd port fh =>
    if st = St.ok || (st = St.poisoned && h.poison) then s.relayLoad port fh h data else s.relayFail port fh st h.detail.toNat
  | p =>
    if st = St.ok && !h.poison then s.tookBytes p w.off data
    else
      let f := answeredFail w.dst.toNat (if st = St.ok then St.poisoned else st) h.detail.toNat data
      s.failWait w f.1 f.2

/-- LOAD_RSP (R287). -/
def execLoadRsp (port : Port) (h : Hdr) (data : List Byte) (s : State) : Host.Outcome State Fault Refusal :=
  checked s (.loadRsp port h data) (s.takeAnswer port.val tyLoadRsp h data (fun s =>
    match s.waitFor port.val h.src h.tag.toNat with
    | none => s.unmatched port.val tyLoadRsp h (s.lateTag port.val h.src h.tag.toNat)
    | some w =>
      if h.status.toNat = St.ok && h.len ≠ w.len then s.violate port.val 0x03 tyLoadRsp h else s.tookLoad w h data))

/-! ### Requests of a stream (R279, R280, R288) -/

/-- The fate of a request of the module's streams is known: success, or its failure. -/
def State.settleReq (s : State) (r : TxReq) (bad : Option (Nat × Nat)) : State :=
  match r.kind, bad with
  | .mirror, none =>
    if s.ldg.mirrorBad then s else { s with ldg := { s.ldg with mirrorAcked := s.ldg.mirrorAcked + 1 } }
  | .mirror, some _ => { s with ldg := { s.ldg with mirrorBad := true } }
  | _, none => s.doneAccess r.purpose
  | _, some (st, d) => (s.unemit r.purpose r.addr.toNat r.data.length).failAccess r.purpose st d

/-- A failure that an endpoint answers for a request: one passed on for another keeps it as it is (R285, R455). -/
def TxReq.failure (r : TxReq) (ep st d : Nat) (data : List Byte) : Nat × Nat :=
  match r.purpose with
  | .fwd _ _ => (st, d)
  | _ => answeredFail ep st d data

/-- ATOMIC_RSP (R276): the old value goes to the atomic it answers. -/
def State.tookAtomic (s : State) (ep tc : Nat) (r : TxReq) (h : Hdr) (data : List Byte) : State :=
  let s := s.modTx ep tc (fun t => { t with una := t.una.filter (fun x => x.seq ≠ r.seq), progAt := s.now })
  if h.status.toNat = St.ok then s.setFetch r.purpose (.got data)
  else
    let f := r.failure ep h.status.toNat h.detail.toNat data
    s.noteFail r.purpose f.1 f.2

/-- ATOMIC_RSP (R276). -/
def execAtomicRsp (port : Port) (h : Hdr) (data : List Byte) (s : State) : Host.Outcome State Fault Refusal :=
  checked s (.atomicRsp port h data) (s.takeAnswer port.val tyAtomicRsp h data (fun s =>
    let ep := s.txEp port.val h.src h.tc.val
    match (s.tx ep h.tc.val).una.find? (fun (r : TxReq) => r.kind = .atomic && r.seq = h.seq && r.tag = h.tag) with
    | some r => s.tookAtomic ep h.tc.val r h data
    | none => s.unmatched port.val tyAtomicRsp h (s.lateStream ep h.tc.val (fun q => q = h.seq))))

/-- Requests that a contiguous number covers; an atomic waits for its own answer. -/
def TxStream.covered (t : TxStream) (seq : W32) : List TxReq :=
  t.una.filter (fun (r : TxReq) => r.kind ≠ .atomic && serDiff r.seq seq ≤ 0)

/-- They leave the stream. -/
def State.coverTx (s : State) (ep tc : Nat) (seq : W32) : State :=
  s.modTx ep tc (fun t => { t with
    una := t.una.filter (fun (r : TxReq) => r.kind = .atomic || serDiff r.seq seq > 0),
    progAt := if (t.covered seq).isEmpty then t.progAt else s.now })

/-- A number that the stream has sent. -/
def TxStream.sent (t : TxStream) (seq : W32) : Bool := t.used && serDiff seq (t.next - 1) ≤ 0

/-- An ACK covers requests: without failures they have succeeded; with some, a FENCE asks which failed (R279, R280). -/
def State.tookAck (s : State) (port ep tc : Nat) (seq : W32) (fails : Nat) : State :=
  let l := (s.tx ep tc).covered seq
  let s := s.coverTx ep tc seq
  if fails = 0 then foldS (fun s r => s.settleReq r none) s l
  else
    let s := s.modTx ep tc (fun t => { t with doubt := t.doubt ++ l })
    s.when ((s.tx ep tc).fence.isEmpty) (fun s => s.sendFence port ep tc .notify)

/-- ACK (R279). -/
def execAck (port : Port) (h : Hdr) (data : List Byte) (s : State) : Host.Outcome State Fault Refusal :=
  checked s (.ack port h data) (s.takeAnswer port.val tyAck h data (fun s =>
    let ep := s.txEp port.val h.src h.tc.val
    let t := s.tx ep h.tc.val
    if !(t.sent h.seq) then s.unmatched port.val tyAck h (s.lateStream ep h.tc.val (upTo h.seq))
    else
      let s := s.lateMirrors ep h.tc.val h.seq
      let s := if (t.covered h.seq).isEmpty then (s.lateStream ep h.tc.val (upTo h.seq)).getD s else s
      s.tookAck port.val ep h.tc.val h.seq (leAt data 0 4)))

/-- A FENCE_ACK reports the stream's failures: the first failed request has its status; of several, those after it count as
failed with it, since only the first is named (R280). Failures are noted before successes, so that no operation of several
pieces ends well while one has failed (R455). -/
def State.tookFence (s : State) (ep tc : Nat) (seq : W32) (data : List Byte) (f : TxFence) : State :=
  let t := s.tx ep tc
  let l := t.doubt ++ t.covered seq
  let s := s.coverTx ep tc seq
  let s := s.modTx ep tc (fun t => { t with doubt := [], fence := t.fence.drop 1 })
  let st := leAt data 0 1
  let d := leAt data 2 2
  let q := BitVec.ofNat 32 (leAt data 4 4)
  let n := leAt data 8 4
  let bad : TxReq → Bool := fun r => st ≠ 0 && (r.seq = q || (n ≠ 1 && decide (serDiff r.seq q > 0)))
  let s := foldS (fun s (r : TxReq) => s.settleReq r (some (r.failure ep st d []))) s (l.filter bad)
  let s := foldS (fun s (r : TxReq) => s.settleReq r none) s (l.filter (fun r => !(bad r)))
  if st = St.fenced then s.failAccess f.purpose st d else s.doneAccess f.purpose

/-- A FENCE_ACK for nothing: the answer to a probe that came after the peer was SUSPECT, or one of a stream (R338). -/
def State.lateFence (s : State) (src : Ep) (ep tc : Nat) (seq : W32) : Option State :=
  let p := s.ldg.peers.rd {} src.toNat
  if p.probed > 0 then
    some { s.bump F.ldgCnt1Late with ldg := { (s.bump F.ldgCnt1Late).ldg with
      peers := Tbl.upd {} src.toNat (fun (p : Peer) => { p with probed := p.probed - 1 }) s.ldg.peers } }
  else s.lateStream ep tc (upTo seq)

/-- FENCE_ACK (R280). -/
def execFenceAck (port : Port) (h : Hdr) (data : List Byte) (s : State) : Host.Outcome State Fault Refusal :=
  checked s (.fenceAck port h data) (s.takeAnswer port.val tyFenceAck h data (fun s =>
    let ep := s.txEp port.val h.src h.tc.val
    let t := s.tx ep h.tc.val
    match t.fence with
    | f :: _ =>
      if serDiff f.seq h.seq ≤ 0 || h.status.toNat = St.fenced then s.tookFence ep h.tc.val h.seq data f
      else s.unmatched port.val tyFenceAck h (s.lateFence h.src ep h.tc.val h.seq)
    | [] => s.unmatched port.val tyFenceAck h (s.lateFence h.src ep h.tc.val h.seq)))

/-- The ATTACH or DETACH passed to a home that an answer belongs to: its endpoint, window and tag (R283). -/
def State.askFor (s : State) (h : Hdr) : Option HomeAsk :=
  s.fab.asks.find? (fun a => a.h.src = h.dst && a.h.addr = h.addr && a.h.tag = h.tag)

/-- The home has answered an ATTACH or DETACH: the window is attached or gone here, and its endpoint has the answer (R283, R284,
R301). -/
def State.tookAttach (s : State) (a : HomeAsk) (h : Hdr) (data : List Byte) : State :=
  let s := { s with fab := { s.fab with asks := s.fab.asks.filter (fun x => x ≠ a) } }
  let st := h.status.toNat
  let w := addrWin a.h.addr.toNat
  let v := leAt data 0 4
  let s :=
    if st ≠ St.ok then s.edgeDeny a.port
    else if a.detach then s.dropWindow a.h.src.toNat w
    else if (s.windowFree a.h.src.toNat w).isSome then s
    else s.addWindow a (leAt data 4 3) v
  if a.bar2 then s.bar2Attach a.port w (if st = St.ok then v else 0) st h.detail.toNat else s.transit tyAttachRsp h data

/-- ATTACH_RSP (R276, R283): the answer of a region's home for a window attached here; one for an endpoint behind another edge
passes through. -/
def execAttachRsp (port : Port) (h : Hdr) (data : List Byte) (s : State) : Host.Outcome State Fault Refusal :=
  checked s (.attachRsp port h data) (s.takeMsg port.val tyAttachRsp h data (fun s =>
    match s.askFor h with
    | some a => s.tookAttach a h data
    | none => if s.serves h.dst then s.violate port.val 0x09 tyAttachRsp h else s.transit tyAttachRsp h data))

/-- NAK (R302): the partner dropped a message of ours. A load fails; a request of a stream and a FENCE stay for
retransmission. -/
def execNak (port : Port) (h : Hdr) (s : State) : Host.Outcome State Fault Refusal :=
  checked s (.nak port h) (s.takeAnswer port.val tyNak h [] (fun s =>
    let ep := s.txEp port.val h.src h.tc.val
    let t := s.tx ep h.tc.val
    match s.waitFor port.val h.src h.tag.toNat with
    | some w => (s.dropWait w).failWait w St.denied 0x0B13
    | none =>
      if t.una.any (fun (r : TxReq) => r.seq = h.seq) then s
      else if t.fence.any (fun f => f.seq = h.seq) then s
      else s.unmatched port.val tyNak h (s.lateTag port.val h.src h.tag.toNat)))

/-! ### Sending again (R289, R290) -/

/-- RESEND (R289): the unacknowledged requests from the named number on. -/
def execResend (port : Port) (h : Hdr) (s : State) : Host.Outcome State Fault Refusal :=
  checked s (.resend port h) (s.takeAnswer port.val tyResend h [] (fun s =>
    s.resendReqs (s.txEp port.val h.src h.tc.val) h.tc.val (fun r => decide (serDiff r.seq h.seq ≥ 0))))

/-- DRAIN (R296): the old path of a stream has drained. -/
def execDrain (port : Port) (h : Hdr) (s : State) : Host.Outcome State Fault Refusal :=
  checked s (.drain port h) (s.takeAnswer port.val tyDrain h [] (fun s =>
    let s := s.bump F.mapCnt0Drains
    let src := s.rxSrc h
    let r := s.rx src h.tc.val
    s.when (r.known && decide (serDiff r.missing h.seq ≤ 0)) (fun s => s.askResend src h.tc.val)))

/-- MAP_ACK (R291): the module sends no map update, so none is outstanding. -/
def execMapAck (port : Port) (h : Hdr) (s : State) : Host.Outcome State Fault Refusal :=
  checked s (.mapAck port h) (s.takeAnswer port.val tyMapAck h [] (fun s => s.violate port.val 0x09 tyMapAck h))

/-- An access that awaits its answer is asked again with its tag. -/
def State.resendWait (s : State) (w : Wait) : State :=
  let n := if isModule w.dst.toNat then s.portTo w.dst.toNat s.self w.tc else w.port
  let (e, s) := (s.bump F.mapCnt0Resends).stampOn w.dst.toNat w.tc
  let s := { s with fab := { s.fab with waits := s.fab.waits.map (fun x =>
    if x = w then { x with tries := x.tries + 1, sentAt := s.now } else x) } }
  s.sendBy n (.msg n tyLoad (s.loadHdr w e) [])

/-- Loads toward an endpoint and class on a ULP path. -/
def State.ulpWaits (s : State) (ep tc : Nat) : List Wait :=
  s.fab.waits.filter (fun (w : Wait) => w.dst.toNat = ep && w.tc = tc && (s.port w.port).role = roleUlp)

/-- A FENCE that is sent again while it has no answer; a probe is followed by the next one instead (R289, R359). -/
def TxFence.again (f : TxFence) : Bool := f.purpose ≠ .probe

/-- When the retransmission timer of a stream, its FENCEs and its loads next expires: RETX_US after the stream's last progress or
the sending of a FENCE or load; none when nothing awaits an answer. -/
def State.retxAt (s : State) (ep tc : Nat) : Option Nat :=
  let t := s.tx ep tc
  let times := (if t.una.isEmpty then [] else [t.progAt]) ++ (t.fence.filter TxFence.again).map (fun f => f.sentAt) ++
    (s.ulpWaits ep tc).map (fun (w : Wait) => w.sentAt)
  match times with
  | [] => none
  | a :: rest => some (rest.foldl min a + 1000 * s.fld F.mapTmoRetxUs)

/-- A request has been sent again 8 times; a mirror store, or a page's copy under RESYNC, never ends so (R290, R346). -/
def TxReq.spent (r : TxReq) : Bool := r.tries ≥ 8 && r.kind ≠ .mirror && r.purpose ≠ .resync

/-- The timer of a stream has expired: what was sent again 8 times is reported, the rest is sent again (R289, R290). -/
def State.retxStream (s : State) (ep tc : Nat) : State :=
  let t := s.tx ep tc
  if t.una.isEmpty || t.progAt + 1000 * s.fld F.mapTmoRetxUs > s.now then s
  else
    let gone := t.una.filter TxReq.spent
    let s := s.modTx ep tc (fun t => { t with
      una := t.una.filter (fun r => !r.spent), late := t.late ++ gone.map (fun r => r.seq) })
    let s := foldS (fun s (r : TxReq) => s.settleReq r (some (St.timeout, 0x0B12))) s gone
    s.resendReqs ep tc (fun _ => true)

/-- The timer of one FENCE has expired: it is sent again, or after 8 times reported; what it was to ask about is then without an
answer too (R289, R290). -/
def State.retxFence (s : State) (ep tc : Nat) (f : TxFence) : State :=
  if !f.again || f.sentAt + 1000 * s.fld F.mapTmoRetxUs > s.now then s
  else if f.tries < 8 then
    let n := s.streamPort ep tc
    let (e, s) := (s.bump F.mapCnt0Resends).stampOn ep tc
    let s := s.modTx ep tc (fun t => { t with
      fence := listUpd (fun x => x = f) (fun x => { x with tries := x.tries + 1, sentAt := s.now }) t.fence })
    s.sendBy n (.msg n tyFence { s.hdr tc ep with seq := f.seq, epoch := e } [])
  else
    let gone := if f.purpose = .notify then (s.tx ep tc).doubt else []
    let s := s.modTx ep tc (fun t => { t with
      fence := listDrop1 (fun x => x = f) t.fence, late := t.late ++ [f.seq],
      doubt := if f.purpose = .notify then [] else t.doubt })
    let s := foldS (fun s (r : TxReq) => s.settleReq r (some (St.timeout, 0x0B12))) s gone
    s.failAccess f.purpose St.timeout 0x0B12

/-- The timer of one load has expired. -/
def State.retxWait (s : State) (w : Wait) : State :=
  if w.sentAt + 1000 * s.fld F.mapTmoRetxUs > s.now then s
  else if w.tries < 8 then s.resendWait w
  else
    let s := s.dropWait w
    let s := { s with fab := { s.fab with expired := s.fab.expired ++ [(w.dst.toNat, w.port, w.tag.toNat)] } }
    s.failWait w St.timeout 0x0B12

/-- RETX_TIMER_EXPIRY (R290). -/
def execRetxTimerExpiry (ep : Ep) (tc : Tc) (s : State) : Host.Outcome State Fault Refusal :=
  .next (
    match s.retxAt ep.toNat tc.val with
    | none => s
    | some t =>
      let s := s.waitTill t
      let l := s.ulpWaits ep.toNat tc.val
      let fs := (s.tx ep.toNat tc.val).fence
      let s := foldS (fun s f => s.retxFence ep.toNat tc.val f) (s.retxStream ep.toNat tc.val) fs
      (foldS (fun s w => s.retxWait w) s l).goOn)

/-! ### Completions on CXL ports (R300, R301, R455) -/

/-- An access of the module at a CXL host's memory ends (R455). -/
def State.hostDone (s : State) (w : Wait) (res : EpRes) : State :=
  let s := s.dropWait w
  match res with
  | .data bytes => if w.len = 0 then s.doneAccess w.purpose else s.tookBytes w.purpose w.off bytes
  | .poisoned _ _ => s.failWait w St.poisoned 0x0B14
  | .error => s.failWait w St.denied 0x0B13
  | .noAnswer => s.failWait w St.timeout 0x0B12

/-- The lines of a page that a 64-byte line of its stored copy spells: the same one, or all of an LP page (R95, R300). -/
def Page.linesAt (g : Page) (off : Nat) : List Nat :=
  match g.lp with
  | some f => if f.raw then [off / 64] else List.range 1024
  | none => [off / 64]

/-- A tray access ends: poisoned data mark the page's lines; an error gives a copy up, and the last completion verifies it (R95,
R300). -/
def State.trayDone (s : State) (w : Wait) (res : EpRes) : State :=
  let s := s.dropWait w
  match w.purpose, res with
  | .tray p, .error => s.moveSwitch p false
  | .tray p, .noAnswer => s.moveSwitch p false
  | .tray p, .data _ => s.moveSwitch p true
  | .tray p, .poisoned _ _ =>
    let l := match s.page w.ptr.toNat with | some g => g.linesAt w.off | none => [w.off / 64]
    (s.modPage p (fun g => { g with poison := l.foldl (fun l x => listAdd x l) g.poison })).moveSwitch p true
  | .line p, .poisoned _ _ =>
    let l := match s.page p with | some g => g.linesAt w.off | none => []
    s.modPage p (fun g => { g with poison := l.foldl (fun l x => listAdd x l) g.poison })
  | _, _ => s

/-- A completion on a CXL port; one that nothing awaits is a violation (R303). -/
def State.cxlCompletion (s : State) (n tag : Nat) (res : EpRes) : State :=
  if !(s.linkUp n) then s
  else if (s.port n).role = roleUp then
    match s.fab.waits.find? (fun (w : Wait) => w.tag.toNat = tag && w.port = n) with
    | some w =>
      (match res with
       | .data b => if b.length = w.len then (s.hostDone w res).goOn else s.violateCxl n false
       | _ => (s.hostDone w res).goOn)
    | none =>
      match s.lateTag n (BitVec.ofNat 16 (s.fld F.portEpEp n 0)) tag with
      | some t => t
      | none => s.violateCxl n false
  else if (s.port n).role = roleDown then
    match s.fab.waits.find? (fun (w : Wait) => w.tag.toNat = tag && w.port = n) with
    | some w =>
      (match res with
       | .data b => if b.length = w.len then (s.trayDone w res).goOn else s.violateCxl n false
       | _ => (s.trayDone w res).goOn)
    | none => match s.lateTag n 0xFFFF tag with | some t => t | none => s.violateCxl n false
  else s

/-- CXL_COMPLETION (R300). -/
def execCxlCompletion (port : Port) (tag : Nat) (res : EpRes) (s : State) : Host.Outcome State Fault Refusal :=
  checked s (.cxlCompletion port tag res) (s.cxlCompletion port.val tag res)

end Sys2Proof.Machine
end

