-- ==== Sys2Proof/Machine/Maps.lean ====
section
/-! DEFINITION. The composition map: updates, certificates, the self-fence and the takeover of an expelled buddy (R291, R292,
R347, R360–R364). -/

namespace Sys2Proof.Machine

/-! ### Certificates (R361, R362) -/

/-- A manager's enrolment key (R374): in the tick in which another is committed, the former one (R375). -/
def State.mgrKey (s : State) (i : Nat) : Option KeySt :=
  if i ≥ 7 then none
  else
    match s.sec.former.look (keyNo 2 i 0) with
    | some (old, t) => if t = s.now / 8 then old else s.sec.keys.look (keyNo 2 i 0)
    | none => s.sec.keys.look (keyNo 2 i 0)

/-- Bytes 0–31 of a certificate, which its signatures cover (R361). -/
def certBody (c : Cert) : List Byte :=
  [c.kind] ++ leBytes 3 c.res1.toNat ++ leBytes 4 c.fabric.toNat ++ leBytes 8 c.serial.toNat ++
    leBytes 2 (c.target.toNat + 4096 * c.res2.toNat) ++ leBytes 1 c.blocks.length ++ [c.res3] ++
    leBytes 4 c.gen.toNat ++ leBytes 4 c.epoch.toNat ++ leBytes 4 c.res4.toNat

/-- The bytes of a whole certificate: 32 + 72 × c.count (R361). -/
def certBytes (c : Cert) : List Byte :=
  certBody c ++ (c.blocks.map (fun b =>
    leBytes 1 b.idx ++ leBytes 7 b.res.toNat ++ (leBytes 32 b.r.toNat).reverse ++ (leBytes 32 b.s.toNat).reverse)).flatten

/-- A Res byte of a certificate is set (R362). -/
def certRes (c : Cert) : Bool :=
  c.res1 ≠ 0 || c.res2 ≠ 0 || c.res3 ≠ 0 || c.res4 ≠ 0 || c.blocks.any (fun b => b.res ≠ 0)

/-- A block of a certificate verifies against its manager's key. -/
def State.blockOk (s : State) (h : BitVec 256) (b : CertBlock) : Bool :=
  b.idx < s.fld F.ldgCertCtlN &&
    (match s.mgrKey b.idx with | some k => Config.verifyP256 k.a k.b h b.r b.s | none => false)

/-- The managers whose blocks verify, without repeats. -/
def State.signers (s : State) (c : Cert) : List Nat :=
  (c.blocks.filter (s.blockOk (Config.sha256 (certBody c)))).foldl (fun l b => listAdd b.idx l) []

/-- K and N let a certificate be valid: N odd and from 1 to 7, K from (N + 1) ÷ 2 to N (R362). -/
def quorumOk (k n : Nat) : Bool := n % 2 = 1 && n ≤ 7 && (n + 1) / 2 ≤ k && k ≤ n

/-- A certificate is valid (R362). -/
def State.certValid (s : State) (c : Cert) : Bool :=
  quorumOk (s.fld F.ldgCertCtlK) (s.fld F.ldgCertCtlN) && c.kind = 0x01 && c.fabric.toNat = s.fld F.ldgCertCtlFabric &&
    !(certRes c) && 1 ≤ c.blocks.length && c.blocks.length ≤ 7 &&
    (s.signers c).length ≥ s.fld F.ldgCertCtlK

/-- A (target, generation) the module has expelled already. -/
def State.certKnown (s : State) (c : Cert) : Bool := (s.ldg.peers.rd {} c.target.toNat).gens.any (· = c.gen.toNat)

/-- A newly valid certificate is recorded in a CERT entry and in the strongbox, and its target marked (R362, R413). -/
def State.recordCert (s : State) (c : Cert) : State :=
  let who := (s.signers c).foldl (fun a i => a + 2 ^ i) 0
  let l := s.ldg.nextLsn
  let s := s.addEntry { lsn := l, kind := .cert,
                        note := [c.serial.toNat, c.target.toNat, c.gen.toNat, c.epoch.toNat, who] }
  let s := if s.durable s.ldg.mirrorSent then s.freeEntry l
    else
      let hold : Entry → Entry := fun e => { e with staged := some s.ldg.mirrorSent }
      { s with ldg := { s.ldg with entries := listUpd (fun e => e.lsn = l) hold s.ldg.entries } }
  let s := s.bbxLog 0x09 0 0 (leBytes 8 c.serial.toNat ++ leBytes 2 c.target.toNat ++ leBytes 4 c.gen.toNat ++
    leBytes 4 c.epoch.toNat ++ leBytes 1 who)
  { s with ldg := { s.ldg with peers := Tbl.upd {} c.target.toNat (fun (p : Peer) =>
      { p with expelled := true, gens := listAdd c.gen.toNat p.gens }) s.ldg.peers } }

/-! ### The self-fence (R363) -/

/-- Accepted, uncompleted descriptors in ring order. -/
def State.liveEntries (s : State) : List Entry :=
  sortOn (fun (e : Entry) => e.lsn) (s.ldg.entries.filter (fun (e : Entry) => e.live))

/-- A descriptor of a fenced module completes with FENCED, whatever it waits for (R363). -/
def State.fenceDesc (s : State) (e : Entry) : State :=
  let s := s.endWork e St.fenced
  let s := s.modEntry e.lsn (fun e =>
    { e with state := .committed, cpl := some (s.record e (Res.fail St.fenced 0x0D01)) })
  match s.entry e.lsn with
  | some e => (s.release e).sendRecord e.lsn false
  | none => s

/-- The module fences itself (R363): its ledger is voided. A descriptor whose result stands and that waits for nothing completes
with it. -/
def State.selfFence (s : State) (serial : Nat) : State :=
  let old := s
  let s := { s with ldg := { s.ldg with fenced := true } }
  let s := foldS (fun s (e : Entry) =>
    if s.ldg.mode = .mirrored then s.endWork e St.fenced
    else if e.state = .committed && s.durable e.till && !(e.opcode = opInvoke && s.hasFabric e.lsn) then s.completeRec e.lsn
    else s.fenceDesc e) s s.liveEntries
  let s := { s with ldg := { s.ldg with
    gen := (s.ldg.gen + 1) % 2 ^ 32, half := false, aborts := [], atoms := [], works := [],
    entries := s.ldg.entries.filter (fun (e : Entry) => s.ldg.mode ≠ LMode.mirrored && e.state = LState.completing) } }
  let s := s.bbxLog 0x0A 0 0 (leBytes 8 serial)
  (s.alertFrom old).goOn

/-! ### Takeover (R364) -/

/-- Slots of the mirror half that hold an entry. -/
def State.mirrorSlots (s : State) : List Nat :=
  (s.ldg.mirrorHalf.filter (fun x => x.1 < 0x04000000)).foldl (fun l x => listAdd (x.1 / 64) l) []

/-- The entries of the mirror half that replay handles: a valid CRC, and a state from ACCEPTED to COMPLETING (R342, R364). -/
def State.mirrorEntries (s : State) : List (Entry × List Byte) :=
  let rd := fun a => Bytes.rd s.ldg.mirrorHalf a 64
  let l := s.mirrorSlots.filterMap (fun k =>
    match Entry.ofBytes (rd (64 * k)) (rd (0x04000000 + 64 * k)) with
    | some e =>
      if e.live || e.state = .completing then
        some (e, Bytes.rd s.ldg.mirrorHalf (64 * leAt (rd (64 * k)) 52 4) 4096)
      else none
    | none => none)
  sortOn (fun x => x.1.lsn) l

/-- The ABORT entries of the mirror half: tenant, job and l.lsn of step aborts that had not ended (R358, R364). -/
def State.mirrorAborts (s : State) : List (Nat × Nat × Nat) :=
  s.mirrorSlots.filterMap (fun k =>
    match Entry.ofBytes (Bytes.rd s.ldg.mirrorHalf (64 * k) 64) [] with
    | some e => if e.kind = .abort then some (e.pair / 8, e.job, e.lsn) else none
    | none => none)

/-- A ring context of the expelled module, from the mirror half (R38, R364). -/
def State.openRing (s : State) (pair : Nat) : State :=
  let b := Bytes.rd s.ldg.mirrorHalf (ringAt pair) 64
  let s := (s.setFld F.tqRingSqBasePtr (leAt b 0 8) pair).setFld F.tqRingCqBasePtr (leAt b 8 8) pair
  let s := (s.setFld F.tqRingAidxAddrPtr (leAt b 16 8) pair).setFld F.tqRingNotifyAddrPtr (leAt b 24 8) pair
  let s := (s.setFld F.tqRingCtlSqLog2 (bits (leAt b 32 4) 11 8) pair).setFld F.tqRingCtlCqLog2 (bits (leAt b 32 4) 15 12) pair
  s.modRing pair (fun r => { r with
    widx := BitVec.ofNat 32 (leAt b 40 4), head := BitVec.ofNat 32 (leAt b 44 4), faulted := bit (leAt b 48 1) 0,
    lost := bit (leAt b 48 1) 1, code := leAt b 49 1 })

/-- What the mirror half says of a running INVOKE: its end bitmap, and of each sub-part the latest phase record and the redo
image of a phase committed at step 3 (R207, R339, R364). -/
def State.mirrorResume (s : State) (e : Entry) : Resume :=
  let rd := fun a n => Bytes.rd s.ldg.mirrorHalf a n
  let ends := rd (endsAt e.lsn 0) 8192
  let slots := fun lo size hi => (s.ldg.mirrorHalf.filter (fun x => lo ≤ x.1 && x.1 < hi)).foldl
    (fun l x => listAdd ((x.1 - lo) / size) l) []
  let recs := (slots 0x0B000000 16384 0x0C000000).filterMap (fun k => PhaseRec.ofBytes (rd (phaseAt k) 16384))
  let mine := sortOn (fun x => x.2.2.1) (recs.filter (fun x => x.1 = e.lsn))
  let redo := (slots 0x10000000 262144 0x20000000).filterMap (fun k =>
    let b := rd (redoAt k) 262144
    if leAt b 0 8 = e.lsn && leAt b 12 4 ≠ 0 then some (leAt b 8 4, redoEnts (leAt b 12 4) (b.drop 16)) else none)
  { ended := (List.range e.parts).filter (fun k => bit (leNat ((ends.drop (k / 8)).take 1)) (k % 8)),
    recs := mine.reverse.foldl (fun l x => if l.any (fun y => y.1 = x.2.1) then l else l ++ [(x.2.1, x.2.2.2)]) [],
    redo := (sortOn (fun x => x.1) redo).map Prod.snd }

/-- A record of the atomic table read back from its 32 bytes; none where no stamp was written (R352). -/
def AtomRec.ofBytes (b : List Byte) : Option AtomRec :=
  let k := leAt b 0 8
  let recipe := bit (leAt b 24 1) 0
  if leAt b 16 8 = 0 then none
  else
    some
      { recipe := recipe, k0 := if recipe then bits k 30 0 else bits k 15 0,
        k1 := if recipe then bits k 47 31 else bits k 31 16, k2 := if recipe then bits k 63 48 else bits k 63 32,
        old := BitVec.ofNat 64 (leAt b 8 8), stamp := leAt b 16 8, status := leAt b 25 1, detail := leAt b 26 2 }

/-- The records of the mirrored atomic table (R339, R352). -/
def State.mirrorAtoms (s : State) : List AtomRec :=
  let slots := (s.ldg.mirrorHalf.filter (fun x => 0x09000000 ≤ x.1 && x.1 < 0x0B000000)).foldl
    (fun l x => listAdd (x.1 / 32) l) []
  slots.filterMap (fun k => AtomRec.ofBytes (Bytes.rd s.ldg.mirrorHalf (32 * k) 32))

/-- Records of the expelled buddy's atomic table join the table here, from which retries are answered (R353, R364). -/
def State.takeAtoms (s : State) (l : List AtomRec) : State :=
  foldS (fun s a => match s.atomRoom with | some s => s.addAtom a | none => s) s l

/-- A taken entry joins the ledger here, in a pair of its own, with the records of its recipe atomics. A COMPLETING one's record
is written again; one that a step abort had still to stop is aborted; a running INVOKE goes on from its phase records, with the
recipe of its slot if the same image lies there (R342, R349, R352, R358, R364; log entry 16). -/
def State.takeEntry (s : State) (aborts : List (Nat × Nat × Nat)) (x : Entry × List Byte) : State :=
  let pair := 2048 + x.1.pair
  let slot := s.slc.slots.rd {} (bits (x.1.w 2) 7 0)
  let same := x.1.opcode = opInvoke && slot.st = .loaded &&
    (match slot.img with | some i => i.ident = x.1.ident | none => false)
  let mine := s.mirrorAtoms.filter (fun a => a.recipe && a.k0 = x.1.lsn % 2 ^ 31)
  let s := s.takeAtoms (mine.map (fun a => { a with k0 := s.ldg.nextLsn % 2 ^ 31 }))
  let s := if (s.tq.rings.look pair).isSome then s else s.openRing pair
  let lsn := s.ldg.nextLsn
  let s := s.addEntry { x.1 with pair := pair, slotRef := same, acceptAt := s.now }
  let s := { s with ldg := { s.ldg with taken := s.ldg.taken ++ [lsn] } }
  let s := s.modRing pair (fun r => { r with aidx := x.1.index + 1 })
  if x.1.state = .completing then
    match x.1.cpl with
    | some c =>
      let ptr := s.fld F.tqRingCqBasePtr pair + 32 * (x.1.cidx.toNat % s.cqSize pair)
      (s.writeEp (pairTenant pair) ptr 2 c.bytes false (.cqWrite pair lsn)).1
    | none => s
  else
    let s := s.markReplayed lsn
    if x.1.state ≠ .committed && aborts.any (fun a => a.1 = pairTenant pair && a.2.1 = x.1.job && x.1.lsn < a.2.2) then
      s.abortDesc lsn 0x0D02
    else s.when (x.1.opcode = opInvoke && x.1.state = .started) (fun s =>
      let s := { s with slc := { s.slc with resumes := Tbl.ins lsn (s.mirrorResume x.1) s.slc.resumes } }
      s.when (bit (x.1.w 2) 8) (fun s => s.setFetch (.params lsn) (.got (x.2.take (bits (x.1.w 2) 28 16)))))

/-- The streams the expelled module received go on under their numbers (R350, R364). -/
def State.takeStreams (s : State) (m : Nat) : State :=
  let keys := (s.ldg.mirrorHalf.filter (fun x => 0x0E000000 ≤ x.1 && x.1 < 0x0F000000)).foldl
    (fun l x => listAdd ((x.1 - 0x0E000000) / 16) l) []
  foldS (fun s k =>
    let b := Bytes.rd s.ldg.mirrorHalf (0x0E000000 + 16 * k) 16
    s.when (leAt b 8 1 = 1) (fun s =>
      s.modRx (k / 4 + 65536 * (1 + m)) (k % 4) (fun r => { r with known := true, contig := BitVec.ofNat 32 (leAt b 0 4) }))) s keys

/-- The expelled module's keys of the work identity table that have a winner are kept on here (R357, R364). -/
def State.takeKeys (s : State) : State :=
  let slots := (s.ldg.mirrorHalf.filter (fun x => 0x0F100000 ≤ x.1 && x.1 < 0x0F500000)).foldl
    (fun l x => listAdd ((x.1 - 0x0F100000) / 64) l) []
  let keys := slots.filterMap (fun k => WorkKey.ofBytes (Bytes.rd s.ldg.mirrorHalf (workAt k) 64))
  foldS (fun s (k : WorkKey) =>
    if s.ldg.works.any (fun x => x.tenant = k.tenant && x.work = k.work) then s
    else s.setWorks (s.ldg.works ++ [{ k with slot := freeWork s.ldg.works }])) s keys

/-- A request to the buddy: a mirror store, or a page's copy under RESYNC (R343, R347). -/
def TxReq.toMirror (r : TxReq) : Bool := r.kind = .mirror || r.purpose = .resync

/-- Stores toward a mirror that no longer counts are given up: an acknowledgement of them is late (R338). -/
def State.dropMirror (s : State) : State :=
  { s with
    ldg := { s.ldg with mirrorAcked := s.ldg.mirrorSent, mirrorBad := false, resyncTill := 0 },
    fab := { s.fab with tx := s.fab.tx.mapV (fun _ (t : TxStream) => { t with
      lateMirror := t.lateMirror ++ ((t.una ++ t.doubt).filter TxReq.toMirror).map (fun (r : TxReq) => r.seq),
      una := t.una.filter (fun (r : TxReq) => !r.toMirror), doubt := t.doubt.filter (fun (r : TxReq) => !r.toMirror) }) } }

/-- A mirrored region of the expelled buddy is at home here, with what its copies say of it and what no message brought (R85,
R364; log entry 146). -/
def State.rehome (s : State) (id : Nat) (r : Region) : Region :=
  let last := max 1 (Config.partLatest id)
  let r := if (r.vers.look last).isSome then r else r.joined id last
  { r with
    home := BitVec.ofNat 12 s.self, latest := last,
    vers := r.vers.mapV (fun n (v : Version) =>
      if v.writer ≠ farWriter then v
      else { v with
        writer := 2048 + 8 * r.owner + Config.partPair id n % 8, state := if n ≤ last then .published else v.state }) }

/-- The module turns SOLO: its buddy is gone (R346, R347). -/
def State.turnSolo (s : State) : State := { s with ldg := { s.ldg with mode := .solo } }.dropMirror

/-- The takeover of an expelled buddy that mirrored to this module (R364): SOLO, home of its mirrored regions, receiver of its
streams, and the replay of its mirror half with the step aborts that had not ended. -/
def State.takeOver (s : State) (m : Nat) : State :=
  let s := s.turnSolo
  let s := { s with ldg := { s.ldg with takeover := true, standFor := listAdd m s.ldg.standFor } }
  let s := foldS (fun s (x : Nat × MapRegion) =>
    let r := s.partRegion x.1 (Config.partOwner x.1)
    if x.2.home.toNat = m && r.mirrored then
      { s with rgn := { s.rgn with regions := Tbl.ins x.1 (s.rehome x.1 r) s.rgn.regions } }
    else s) s s.fab.map.regions
  let s := ((s.takeAtoms (s.mirrorAtoms.filter (fun a => !a.recipe))).takeStreams m).takeKeys
  let aborts := s.mirrorAborts
  let s := foldS (fun s x => s.takeEntry aborts x) s s.mirrorEntries
  let mine : Nat → Nat → Version → Bool := fun _ _ v => v.writer ≥ 2048 && aborts.any (fun a => stepVersion a.1 a.2.1 v)
  let vs := (s.allVersions.filter (fun x => x.2.2.state = .opened && mine x.1 x.2.1 x.2.2)).map (fun x => (x.1, x.2.1))
  ((s.dropKeys vs).discardOpen mine).goOn

/-- The own half as it stands, by content offset in ascending order (R339). -/
def State.ownHalf (s : State) : List (Nat × List Byte) :=
  let es := sortOn (fun (e : Entry) => lsnSlot e.lsn) s.ldg.entries
  let ctxs := (Tbl.vals s.slc.ctxs).filterMap (fun (c : Ctx) => c.record.map (fun p =>
    (phaseAt c.slot, p.bytes c.lsn c.sub s.now)))
  let rx := (s.fab.rx.filter (fun x => x.1 < 4 * 65536)).map Prod.fst
  let rings := (List.range 2048).filter (fun p => s.aidxOwed p)
  es.map (fun (e : Entry) => (64 * lsnSlot e.lsn, e.bytes)) ++
    es.map (fun (e : Entry) => (0x04000000 + 64 * lsnSlot e.lsn, e.image)) ++
    s.slc.invs.map (fun (x : Nat × Inv) => (0x08000000 + 4096 * (x.1 % 4096), x.2.params)) ++
    s.ldg.atoms.map (fun (a : AtomRec) => (0x09000000 + 32 * a.slot, a.bytes)) ++ sortOn (fun x => x.1) ctxs ++
    s.slc.invs.flatMap (fun (x : Nat × Inv) =>
      (List.range (ceilDiv x.2.count 512)).map (fun k => (endsAt x.1 (512 * k), endsLine x.2 k))) ++
    rx.map (fun k => (streamAt (k / 4) (k % 4), s.streamBytes (k / 4) (k % 4))) ++
    rings.map (fun p => (ringAt p, s.ringBytes p)) ++
    (sortOn (fun (k : WorkKey) => k.slot) s.ldg.works).map (fun k => (workAt k.slot, k.bytes))

/-- RESYNC begins (R347), and the buddy is told that it holds no whole mirror yet: the own half and the copies of mirrored pages go to the new buddy in address order; every later write
follows them. -/
def State.startResync (s : State) : State :=
  match s.buddy with
  | none => { s with ldg := { s.ldg with mode := .solo } }
  | some b =>
    let s := { s with ldg := { s.ldg with mode := .resync } }.contactBuddy
    let s := foldS (fun s (x : Nat × List Byte) => s.ownWrite x.1 x.2) s s.ownHalf
    { s with ldg := { s.ldg with resyncTill := s.ldg.mirrorSent } }.sendMirroredPages b

/-- What a recorded certificate does here (R346, R363, R364): a buddy that does not mirror to this module is not taken over
(R347). -/
def State.actOnCert (s : State) (c : Cert) : State :=
  let m := c.target.toNat
  if m = s.self then s.when (c.gen.toNat = s.ldg.gen && !s.ldg.fenced) (fun s => s.selfFence c.serial.toNat)
  else
    let s := s.when (s.ldg.bound = some c.target) (fun s => { s with ldg := { s.ldg with bound := none } }.goOn)
    if s.buddy ≠ some m then s
    else if s.ldg.mode = .mirrored && !s.ldg.buddyAlone then s.takeOver m
    else if s.ldg.mode = .mirrored || s.ldg.mode = .resync then s.turnSolo.goOn
    else s

/-- A certificate in a MAP_UPDATE (R360–R362). -/
def State.takeCert (s : State) (c : Cert) : State :=
  if !(s.certValid c) then s.bump F.ldgCnt2CertBad
  else if s.certKnown c || (c.target.toNat = s.self && c.gen.toNat < s.ldg.gen) then s
  else (s.recordCert c).actOnCert c

/-! ### Updates (R291) -/

/-- A changed entry is applied to a map. -/
def MapSt.apply (m : MapSt) (e : MapEntry) : MapSt :=
  match e with
  | .member x b g =>
    let rest := m.buddies.filter (fun p => p.1 ≠ x && p.2 ≠ x)
    { m with
      members := listAdd x m.members, gens := m.gens.filter (fun p => p.1 ≠ x) ++ [(x, g)],
      buddies := match b with | some y => rest.filter (fun p => p.1 ≠ y && p.2 ≠ y) ++ [(x, y)] | none => rest }
  | .remove x =>
    { m with members := m.members.filter (· ≠ x), gens := m.gens.filter (fun p => p.1 ≠ x),
             buddies := m.buddies.filter (fun p => p.1 ≠ x && p.2 ≠ x) }
  | .region id (some r) => { m with regions := Tbl.ins id r m.regions }
  | .region id none => { m with regions := Tbl.del id m.regions }
  | .route a d hops => { m with routes := Tbl.ins (routeKey a.toNat d.toNat) hops m.routes }
  | .group g (some v) => { m with groups := Tbl.ins g v m.groups }
  | .group g none => { m with groups := Tbl.del g m.groups }
  | .cert _ => m

/-- The map an update gives. -/
def State.newMap (s : State) (u : MapUpd) : MapSt :=
  u.entries.foldl MapSt.apply (if u.full then { epoch := u.new } else { s.fab.map with epoch := u.new })

/-- Some enrolled manager's key verifies the update (R291). -/
def State.updSigned (s : State) (u : MapUpd) : Bool :=
  let h := Config.sha256 u.bytes
  (List.range 7).any (fun i => match s.mgrKey i with | some k => Config.verifyP256 k.a k.b h u.sigR u.sigS | none => false)

/-- The update carries a valid certificate of a member. -/
def State.carriesCert (s : State) (u : MapUpd) (m : ModId) : Bool :=
  u.entries.any (fun e => match e with | .cert c => c.target = m && s.certValid c | _ => false)

/-- Why an update is not adopted: a signature that does not verify or epochs that do not follow each other (DENIED, the detail
open), another base (EPOCH), a member removed without its certificate (R291, R360). -/
def State.updRefusal (s : State) (u : MapUpd) : Option (Nat × Nat) :=
  if !(s.updSigned u) || u.new ≠ u.base + 1 then some (St.denied, s.free % 65536)
  else if u.base ≠ s.fab.map.epoch && !u.full then some (St.epoch, s.free % 65536)
  else if s.fab.map.members.any (fun m => !((s.newMap u).members.any (· = m)) && !(s.carriesCert u m)) then
    some (St.denied, 0x0D06)
  else none

/-- The buddy the map names has changed: a module that mirrors enters RESYNC toward the new one, or runs SOLO without one
(R347). Where no certificate has expelled the former one and it owes an answer, what waits for that still waits, until such a
certificate comes or the new buddy holds the whole mirror (R346; log entry 190). -/
def State.buddyMoved (s : State) (old : Option Nat) : State :=
  if s.buddy = old || s.ldg.mode = .loc then s
  else
    let owes := s.ldg.mode = .mirrored && s.ldg.mirrorAcked < s.ldg.mirrorSent
    let bound := match old with
      | some m =>
        let p : Peer := s.ldg.peers.rd {} m
        if owes && !p.expelled then some (BitVec.ofNat 12 m) else s.ldg.bound
      | none => s.ldg.bound
    { s with ldg := { s.ldg with bound := bound, buddyAlone := false } }.dropMirror.startResync

/-- A map is adopted in one tick (R291). References held for windows of a module that is no member any more are released. -/
def State.adopt (s : State) (m : MapSt) : State :=
  let old := s.fab.map
  let b := s.buddy
  let keep := !old.members.isEmpty && old.epoch + 1 = m.epoch
  let s := { s with fab := { s.fab with map := m, prev := if keep then some old else none } }
  let s := foldS (fun s (x : FarRef) => s.dropFarRef x) s
    (s.fab.farRefs.filter (fun (x : FarRef) => !(m.members.any (fun y => y.toNat = x.edge))))
  ((s.buddyMoved b).reroute.goOn).adoptLater

/-- A MAP_UPDATE (R291, R360). -/
def State.mapUpdate (s : State) (n : Nat) (h : Hdr) (u : MapUpd) : State :=
  let ack := fun (s : State) (st d : Nat) => s.answer n tyMapAck h st d false 0 []
  if s.ldg.fenced then ack s St.fenced 0x0D01
  else
    let s := foldS (fun s e => match e with | .cert c => s.takeCert c | _ => s) s u.entries
    if s.ldg.fenced then ack s St.fenced 0x0D01
    else
      match s.updRefusal u with
      | some (st, d) => ack s.tickFree st d
      | none => ack (s.adopt (s.newMap u)) St.ok 0

/-- The bytes of a MAP_UPDATE as it passes through: what was signed, then r and s (R1, R291). -/
def updWire (u : MapUpd) : List Byte :=
  u.bytes ++ (leBytes 32 u.sigR.toNat).reverse ++ (leBytes 32 u.sigS.toNat).reverse

/-- MAP_UPDATE (R291). -/
def execMapUpdate (port : Port) (h : Hdr) (u : MapUpd) (s : State) : Host.Outcome State Fault Refusal :=
  checked s (.mapUpdate port h u) (s.takeMsg port.val tyMapUpdate h (updWire u) (fun s =>
    if s.serves h.dst then s.mapUpdate port.val h u else s.transit tyMapUpdate h (updWire u)))

/-- MAP_GET (R276): a MAP_UPDATE carrying the full map answers it; a fenced module answers FENCED (R363). -/
def execMapGet (port : Port) (h : Hdr) (s : State) : Host.Outcome State Fault Refusal :=
  checked s (.mapGet port h) (s.takeMsg port.val tyMapGet h [] (fun s =>
    if !(s.serves h.dst) then s.transit tyMapGet h []
    else if s.ldg.fenced then s.answer port.val tyMapUpdate h St.fenced 0x0D01 false 0 []
    else s.sendBy port.val (.fullMap port.val { s.hdr h.tc.val h.src.toNat with seq := h.seq, tag := h.tag } s.fab.map)))

end Sys2Proof.Machine
end

