-- ==== Sys2Proof/Machine/Recovery.lean ====
section
/-! DEFINITION. Liveness, resynchronisation and the retention of atomic records (R347, R353, R359). -/

namespace Sys2Proof.Machine

/-- ATOMIC_RECORD_EXPIRY (R353): a remote record's retention ends. -/
def execAtomicRecordExpiry (ep : Ep) (tag : Nat) (seq : BitVec 32) (s : State) : Host.Outcome State Fault Refusal :=
  .next (
    match s.ldg.atoms.find? (fun a => !a.recipe && a.k0 = ep.toNat && a.k1 = tag && a.k2 = seq.toNat) with
    | none => s
    | some a =>
      let s := s.waitTill (a.stamp + 1000000 * s.fld F.ldgAtomCtlRetainMs)
      s.dropAtoms (fun x => x = a))

/-- A peer is monitored: the buddy, or a module with requests of this one awaiting an answer (R359). -/
def State.monitored (s : State) (m : Nat) : Bool :=
  s.buddy = some m || s.fab.waits.any (fun (w : Wait) => w.dst.toNat = m) ||
    (List.range 4).any (fun tc =>
      let t := s.tx m tc
      !(t.una.isEmpty && t.doubt.isEmpty && t.fence.isEmpty))

/-- The module looks after its peers: it is powered up as far as the fabric and not fenced. -/
def State.watches (s : State) (m : Nat) : Bool :=
  m ≠ s.self && s.monitored m && !s.ldg.fenced && !(s.ldg.peers.rd {} m).expelled

/-- LIVENESS_PROBE (R359): a FENCE on the TC2 stream to a peer that has been silent for PERIOD_US. -/
def execLivenessProbe (peer : ModId) (s : State) : Host.Outcome State Fault Refusal :=
  .next (
    let m := peer.toNat
    if s.watches m then
      let s := s.waitTill ((s.ldg.peers.rd {} m).heard + 1000 * s.fld F.ldgLiveCtlPeriodUs)
      s.sendFence (s.portTo m s.self 2) m 2 .probe
    else s)

/-- PEER_SUSPECT (R359): silence for TMO_US; the probes still out are given up (R338), and the strongbox notes it (R413). -/
def execPeerSuspect (peer : ModId) (s : State) : Host.Outcome State Fault Refusal :=
  .next (
    let m := peer.toNat
    let p := s.ldg.peers.rd {} m
    if s.watches m && !p.suspect then
      let s := s.waitTill (p.heard + 1000 * s.fld F.ldgLiveCtlTmoUs)
      let n := ((s.tx m 2).fence.filter (fun f => f.purpose = .probe)).length
      let s := s.when (n ≠ 0) (fun s => s.modTx m 2 (fun t => { t with fence := t.fence.filter (fun f => f.purpose ≠ .probe) }))
      let doubt : Peer → Peer := fun p => { p with suspect := true, probed := p.probed + n }
      let s := { s with ldg := { s.ldg with peers := Tbl.upd {} m doubt s.ldg.peers } }
      s.bbxLog 0x0B 0 0 (leBytes 2 m ++ leBytes 4 ((s.now - p.heard) / 1000))
    else s)

/-- The buddy holds the copy of the own half and of the mirrored pages (R347). -/
def State.resynced (s : State) : Bool := s.ldg.resyncTill ≤ s.ldg.mirrorAcked && s.outstanding (fun p => p = .resync) = 0

/-- RESYNC_COMPLETE (R347): the copy of the own half is complete, the module turns MIRRORED and tells its buddy; what the former
buddy still owed is owed no more (R346). -/
def execResyncComplete (s : State) : Host.Outcome State Fault Refusal :=
  .next (
    if s.ldg.mode = .resync && s.buddy.isSome && !s.ldg.fenced && s.resynced then
      { s with ldg := { s.ldg with mode := .mirrored, bound := none } }.contactBuddy.goOn
    else s)

end Sys2Proof.Machine
end

