-- ==== Sys2Proof/Machine/Scores.lean ====
section
/-! DEFINITION. Block resets of ports and stacks (R389, R390), and the health scores that may ask for them (R404, R405). -/

namespace Sys2Proof.Machine

/-! ### Block reset of a port (R390) -/

/-- Part classes of Assay and the strongbox (R405, R412). -/
def clsPort : Nat := 1
def clsStack : Nat := 2
def clsSlice : Nat := 3
def clsQuad : Nat := 4

/-- A port's link state starts afresh: frame numbers, retry buffer, credits, counters, lanes, IDE stream (R274, R378, R379). -/
def PortSt.fresh (p : PortSt) : PortSt :=
  { p with
    txSeq := 0, kept := [], unsent := [], rxNext := 0, retries := 0, asked := none, credTx := [0, 0, 0, 0], locked := 0, reversed := false,
    retrainAt := none, ide := none, kslot := 0, ctr := [0, 0, 0, 0], spent := false }

/-- The link of a port is gone: its streams take other hops, where the frames it keeps go first, and it starts afresh
(R295). `st` is the state of a port that is not held. -/
def State.dropLink (s : State) (n : Nat) (st : PState) : State :=
  let s := s.modPort n (fun p => if p.st = .held then { p with noLink := true } else { p with st := st })
  let s := (s.moveFrames n).reroute.modPort n PortSt.fresh
  s.dropLinkKeys n

/-- A port enters block reset: it is down, its requests are handled as a held port's, its streams reroute and its link keys
are cleared; the link of a CXL-down port is hot-reset (R389, R390). -/
def State.blockPort (s : State) (n : Nat) : State :=
  let s := s.when ((s.port n).role = roleDown) (fun s => s.emit (.pcieHotReset n))
  (s.dropLink n .down).stopPort n

/-- The stretch of a reset, in nanoseconds (R387, R388). -/
def State.stretch (s : State) : Nat := s.fld F.rstCtlStretchUs * 1000

/-- A block reset of a port is released: the port leaves it after the stretch. -/
def State.unblockPort (s : State) (n : Nat) : State := s.modPort n (fun p => { p with blockAt := some (s.now + s.stretch) })

/-- The stretch of a port's block reset has passed: the port trains again in its applied role. -/
def State.freePort (s : State) (n : Nat) : State :=
  s.modPort n (fun p => { p with blockAt := none, st := if p.st = .down && p.role ≠ 3 && !p.alien then .training else p.st })

/-! ### Block reset of a stack (R390) -/

/-- A stack enters block reset: self-refresh, its controller in reset. -/
def State.blockStack (s : State) (n : Nat) : State :=
  { s with
    stk := Tbl.upd {} n (fun (x : StackSt) => if x.st = 3 then x else { x with st := 2 }) s.stk,
    rst := { s.rst with hbmAt := s.rst.hbmAt.del n } }

/-- A block reset of a stack is released: the controller leaves it after the stretch. -/
def State.unblockStack (s : State) (n : Nat) : State :=
  { s with rst := { s.rst with hbmAt := Tbl.ins n (s.now + s.stretch) s.rst.hbmAt } }

/-- The stretch of a stack's block reset has passed: the controller retrains the stack. -/
def State.freeStack (s : State) (n : Nat) : State :=
  { s with
    stk := Tbl.upd {} n (fun (x : StackSt) => if x.st = 3 then x else { x with st := 0 }) s.stk,
    rst := { s.rst with hbmAt := s.rst.hbmAt.del n } }

/-! ### Scores (R404, R405) -/

/-- The key of a part. -/
def partKey (cls index : Nat) : Nat := 256 * cls + index

/-- A part's score. -/
def State.score (s : State) (cls index : Nat) : Score := s.hlt.scores.rd {} (partKey cls index)

/-- Set a part's score. -/
def State.setScore (s : State) (cls index : Nat) (x : Score) : State :=
  { s with hlt := { s.hlt with scores := Tbl.put {} (partKey cls index) x s.hlt.scores } }

/-- What a score reads as: 0 normal, 1 WARNED, 2 ACTED. -/
def State.scoreState (s : State) (pts : Nat) : Nat :=
  if pts ≥ s.fld F.hltThreshAct then 2 else if pts ≥ s.fld F.hltThreshWarn then 1 else 0

/-- A score of `pts` from which a half-life begins. -/
def State.scoreOf (s : State) (pts : Nat) : Score := { pts := pts, st := s.scoreState pts, base := pts }

/-- A port is put in block reset for one retrain and its score is halved (R405). -/
def State.retrainPort (s : State) (n : Nat) : State :=
  let s := s.setScore clsPort n (s.scoreOf ((s.score clsPort n).pts / 2))
  (s.blockPort n).unblockPort n

/-- A port was retrained for its score less than an hour ago (R405). -/
def State.actedSoon (s : State) (n : Nat) : Bool :=
  match (s.port n).actAt with | some t => decide (s.now < t + 3600000000000) | none => false

/-- The action on a port whose score reaches ACT (R405): one retrain; within an hour of the last, a hold of cause 2. -/
def State.actPort (s : State) (n : Nat) : State :=
  let soon := s.actedSoon n
  let s := s.modPort n (fun p => { p with actAt := some s.now })
  if soon then s.holdPort n 2 else s.retrainPort n

/-- The action code of a part at ACT (R405): 1 retrain, 2 hold or stop placement, 3 quarantine. -/
def State.actionOf (s : State) (cls index : Nat) : Nat :=
  if cls = clsSlice then 3 else if cls = clsPort then (if s.actedSoon index then 2 else 1) else 2

/-- A part has reached ACT (R405); under ADVISE the proposal names the action that ON would take (log entry 184). -/
def State.act (s : State) (cls index : Nat) : State :=
  let s := s.latchAlert 11
  if s.fld F.hltCtlMode = 0 then s
  else if s.fld F.hltCtlMode = 1 then s.healthAdvice cls index (s.actionOf cls index)
  else if cls = clsSlice then s.quarantine index 3 0 0 0 0xFFFF
  else if cls = clsPort then s.actPort index
  else { s with stk := Tbl.upd {} index (fun (x : StackSt) => { x with noPlace := true }) s.stk }

/-- A part's score rises (R404); reaching ACT acts once, until the score has fallen below it (R405). -/
def State.addScore (s : State) (cls index pts : Nat) : State :=
  let x := s.score cls index
  let n := min 65535 (x.pts + pts)
  let st := s.scoreState n
  (s.setScore cls index (if x.pts = 0 then s.scoreOf n else { x with pts := n, st := st })).when (st = 2 && x.st ≠ 2)
    (fun s => s.act cls index)

/-- A score after one second of a half-life of `h` seconds (R404): the score the half-life began with falls evenly to its
half, rounded down; what came later waits for the next half-life (log entry 21). -/
def Score.decay (x : Score) (h : Nat) : Score :=
  let lost := fun k => if k ≥ h then x.base - x.base / 2 else x.base * k / (2 * h)
  let n := x.pts - (lost (x.secs + 1) - lost x.secs)
  if x.secs + 1 ≥ h then { x with pts := n, base := n, secs := 0 } else { x with pts := n, secs := x.secs + 1 }

/-- SCORE_DECAY (R404): every second. -/
def execScoreDecay (s : State) : Host.Outcome State Fault Refusal :=
  .next (
    let s := s.waitTill (s.hlt.decayAt + 1000000000)
    let scores := s.hlt.scores.mapV (fun _ (x : Score) =>
      let y := x.decay (s.fld F.hltCtlHalfLifeS)
      if y.pts = 0 then {} else { y with st := s.scoreState y.pts })
    { s with hlt := { s.hlt with decayAt := s.now, scores := Tbl.keep (fun _ (x : Score) => x ≠ {}) scores } })

end Sys2Proof.Machine
end

