-- ==== Sys2Proof/Machine/Links.lean ====
section
/-! DEFINITION. Links: frames and their retry (R274), loss and training (R295, R398, R424), frame counters (R378) and Link
IDE (R379). -/

namespace Sys2Proof.Machine

/-! ### Loss of a link (R274, R295) -/

/-- A link goes down: it trains again, and the retraining counts (R295, R404). -/
def State.loseLink (s : State) (n : Nat) : State :=
  if (s.port n).st = .up || ((s.port n).st = .held && !(s.port n).noLink) then
    ((s.dropLink n .training).addScore clsPort n 50).goOn
  else s

/-- LINK_DOWN (R295). -/
def execLinkDown (port : Port) (s : State) : Host.Outcome State Fault Refusal := .next (s.loseLink port.val)

/-! ### Frames (R274, R378) -/

/-- 256-byte credit units of a number of bytes. -/
def creditUnits (bytes : Nat) : Nat := ceilDiv bytes 256

/-- Credit units of a class that messages held at a port's input still take (R274, R322). -/
def State.heldUnits (s : State) (n tc : Nat) : Nat :=
  sumOf ((s.sw.waiting.filter (fun (m : SwMsg) => m.inp.val = n && m.tc.val = tc)).map (fun (m : SwMsg) => creditUnits m.bytes))

/-- The message types of R276. -/
def typeKnown (ty : Nat) : Bool := (1 ≤ ty && ty ≤ 0x0A) || (0x10 ≤ ty && ty ≤ 0x18)

/-- Frames acknowledged up to and with a number leave the retry buffer; a number not in it releases none. -/
def released (a : BitVec 12) (l : List (BitVec 12 × Out)) : List (BitVec 12 × Out) :=
  if l.any (fun x => x.1 = a) then (l.dropWhile (fun x => x.1 ≠ a)).drop 1 else l

/-- The frame's GCM tag holds: its key slot is loaded and the tag is right; a port without encryption has no tag (R378). -/
def State.tagOk (s : State) (n : Nat) (f : Frame) : Bool :=
  !(s.port n).enc || ((s.sec.keys.look (keyNo 1 n f.key.val)).isSome && f.tagOk)

/-- A frame is bad (R274, R378): the receiver asks for it again, which counts toward the port's score; the ninth bad frame in
a row takes the link down. -/
def State.badFrame (s : State) (n : Nat) (tag : Bool) : State :=
  let s := s.when tag (fun s => s.bump F.secCntTagFail)
  let s := (s.modPort n (fun p => { p with retries := p.retries + 1 })).emit (.linkRetry n (s.port n).rxNext)
  let s := s.addScore clsPort n (if tag then 10 else 1)
  if (s.port n).retries > 8 then s.loseLink n else s

/-- What a good frame carries of our own direction: acknowledgement and returned credits, with which waiting messages go
(R274). -/
def State.frameBack (s : State) (n : Nat) (f : Frame) : State :=
  (s.modPort n (fun p => { p with
    kept := (match f.ack with | some a => released a p.kept | none => p.kept),
    asked := (match f.ack with | some _ => none | none => p.asked),
    credTx := listMod p.credTx f.tc.val (fun c => c - f.credit) })).flushPort n

/-- A message that begins in a frame: an unknown type or a message beyond the credits granted is a violation (R274, R303). -/
def State.frameMsg (s : State) (n : Nat) (f : Frame) : State :=
  match f.msg with
  | none => s
  | some (ty, h, bytes) =>
    if !(typeKnown ty.toNat) then s.violate n 0x01 ty.toNat h
    else if s.heldUnits n h.tc.val + creditUnits bytes > Config.linkCredits h.tc.val then s.violate n 0x07 ty.toNat h
    else s

/-- A frame of a CXL link whose IDE stream is active fails its integrity check: counted, scored, and the link goes down to train
and key anew (R379, R404). -/
def State.ideFrame (s : State) (n : Nat) (f : Frame) : State :=
  if s.linkUp n && (s.port n).ide.isSome && !f.tagOk then
    ((s.bump F.secCntIdeFail).addScore clsPort n 10).loseLink n
  else s

/-- A received frame (R274). A frame out of its number's place is not delivered. -/
def State.frame (s : State) (n : Nat) (f : Frame) : State :=
  if (s.port n).role ≠ roleUlp then s.ideFrame n f
  else if !(s.linkUp n) then s
  else if !f.crcOk || f.len > 4160 then s.badFrame n false
  else if !(s.tagOk n f) then s.badFrame n true
  else
    let s := (s.when (s.port n).enc (fun s => s.countFrame n (2 + f.key.val))).frameBack n f
    if f.seq ≠ (s.port n).rxNext then s
    else
      let s := (s.modPort n (fun p => { p with rxNext := p.rxNext + 1, retries := 0 })).emit (.linkAck n f.seq)
      (s.frameMsg n f).goOn

/-- LINK_FRAME (R274). -/
def execLinkFrame (port : Port) (f : Frame) (s : State) : Host.Outcome State Fault Refusal := checked s (.linkFrame port f) (s.frame port.val f)

/-- A retry request (R274): every frame kept is sent again from the one named, in order; on an encrypted link each takes a new
counter (R378). A frame asked for more than 8 times in a row takes the link down; one not kept was never sent (R303). -/
def State.retryAsked (s : State) (n : Nat) (q : BitVec 12) : State :=
  let p := s.port n
  if !(p.role = roleUlp && s.linkUp n) then s
  else if !(p.kept.any (fun x => x.1 = q)) then s.violate n 0x0A 0 { tc := 0, src := 0, dst := 0 }
  else
    let k := match p.asked with | some (a, k) => if a = q then k + 1 else 1 | none => 1
    if k > 8 then s.loseLink n
    else
      let again := (p.kept.dropWhile (fun x => x.1 ≠ q)).map Prod.fst
      let s := (s.modPort n (fun p => { p with asked := some (q, k) })).emit (.linkResend n again)
      foldS (fun s _ => s.when (s.port n).enc (fun s => s.sealFrame n)) s again

/-- LINK_RETRY_REQUEST (R274). -/
def execLinkRetryRequest (port : Port) (seq : BitVec 12) (s : State) : Host.Outcome State Fault Refusal :=
  .next (s.retryAsked port.val seq)

/-- LINK_COUNTER_LIMIT (R378): a frame counter of a key slot reaches its next limit: 2^47 sets REKEY, 2^48 takes the link
down. -/
def execLinkCounterLimit (port : Port) (rx : Bool) (kslot : Fin 2) (s : State) : Host.Outcome State Fault Refusal :=
  .next (
    let n := port.val
    let k := 2 * b2n rx + kslot.val
    if !((s.port n).enc && s.linkUp n) then s
    else if (s.port n).ctr.getD k 0 < 2 ^ 47 then
      (s.modPort n (fun p => { p with ctr := listMod p.ctr k (fun _ => 2 ^ 47) })).setFld F.secStsRekey 1
    else s.loseLink n)

/-! ### Training (R424, R379) -/

/-- A trained link is UP; that of a held port runs again while the hold lasts. -/
def State.linkReady (s : State) (n : Nat) : State :=
  (s.modPort n (fun p =>
    if p.st = .held then { p with noLink := false } else { p with st := if p.alien then .down else .up })).reroute.goOn

/-- A port trains: its state is TRAINING, or it is held and has lost its link. -/
def State.trains (s : State) (n : Nat) : Bool :=
  (s.port n).role ≠ 3 && (s.port n).blockAt.isNone && !(bit (s.fld F.rstBlkPortAssert) n) && (s.port n).retrainAt.isNone &&
    ((s.port n).st = .training || ((s.port n).st = .held && (s.port n).noLink)) && !s.pwr.noRef

/-- Training ends (R424): with every lane locked, and a CXL link at its full rate and width, the port is UP, unless IDE is
still to start; a link that its frame counter took down starts afresh first; another CXL link is taken down, counts as a retraining and trains again after 1 s. -/
def State.linkTrained (s : State) (n : Nat) (locked : BitVec 8) (full reversed : Bool) : State :=
  if !(s.trains n) then s
  else
    let s := s.when (s.port n).spent (fun s => ((s.dropLink n .training).addScore clsPort n 50).goOn)
    let s := s.modPort n (fun p => { p with locked := locked, reversed := reversed && p.role ≠ roleUlp })
    if (s.port n).role = roleUlp then if locked = 0xFF then s.linkReady n else s
    else if full && locked = 0xFF then if s.ideWaits n then s else s.linkReady n
    else (s.modPort n (fun p => { p with retrainAt := some (s.now + 1000000000), locked := 0 })).addScore clsPort n 50

/-- LINK_TRAINED (R424). -/
def execLinkTrained (port : Port) (locked : BitVec 8) (full reversed : Bool) (s : State) : Host.Outcome State Fault Refusal :=
  .next (s.linkTrained port.val locked full reversed)

/-- CXL_RETRAIN_DELAY_EXPIRY (R424): the second after a settled link was taken down has passed. -/
def execCxlRetrainDelayExpiry (port : Port) (s : State) : Host.Outcome State Fault Refusal :=
  .next (
    match (s.port port.val).retrainAt with
    | some t => (s.waitTill t).modPort port.val (fun p => { p with retrainAt := none })
    | none => s)

/-- IDE_KEY_EXCHANGE (R379): the stream of a CXL port becomes active with its keys; on a CXL-down port the module, as
requester, sends them. A port that waited for its stream goes UP. -/
def execIdeKeyExchange (port : Port) (txKey rxKey : BitVec 256) (s : State) : Host.Outcome State Fault Refusal :=
  .next (
    let n := port.val
    let p := s.port n
    if !(p.role = roleDown || p.role = roleUp) || p.locked ≠ 0xFF then s
    else
      let waited := s.ideWaits n
      let s := (s.modPort n (fun p => { p with ide := some (txKey, rxKey) })).when (p.role = roleDown) (fun s => s.emit (.ide n 64))
      if waited && s.trains n then s.linkReady n else s)

end Sys2Proof.Machine
end

