-- ==== Sys2Proof/Machine/Keys.lean ====
section
/-! DEFINITION. The key store (R374–R378) and attestation (R372, R381). -/

namespace Sys2Proof.Machine

/-! ### The key store (R374, R375) -/

/-- Encrypted copies that use a tier slot (R377). -/
def State.keyRefs (s : State) (k : Nat) : Nat := ((Tbl.vals s.rgn.pages).filter (fun (g : Page) => g.key = some k)).length

/-- Kind and index SEC_KEY_SEL selects, and the key's number. -/
def State.selKind (s : State) : Nat := s.fld F.secKeySelKind
def State.selIndex (s : State) : Nat := s.fld F.secKeySelIndex
def State.selKslot (s : State) : Nat := s.fld F.secKeySelKslot
def State.selKey (s : State) : Nat := keyNo s.selKind s.selIndex (if s.selKind = 1 then s.selKslot else 0)

/-- A 256-bit value of four staged words, the first byte in the top bits of the first word (R375). -/
def keyWords (l : List W64) : BitVec 256 := BitVec.ofNat 256 (l.foldl (fun v w => v * 2 ^ 64 + w.toNat) 0)

/-- A word written to SEC_KEY_DATA is staged; words past the eighth are not taken (log entry 23). -/
def State.stageKey (s : State) (w : W64) : State :=
  if s.sec.staged.length < 8 then { s with sec := { s.sec with staged := s.sec.staged ++ [w] } } else s

/-- A committed key's value is acceptable: a manager point is on the curve, an XTS data key differs from its tweak key; there
are seven manager keys and no fourth kind. -/
def keyOk (kind index : Nat) (a b : BitVec 256) : Bool :=
  if kind = 0 then a ≠ b else if kind = 1 then true else kind = 2 && index < 7 && Config.onCurveP256 a b

/-- A tenant owns a tier slot other than `k`. -/
def State.otherSlot (s : State) (t k : Nat) : Bool :=
  (List.range 64).any (fun j => j ≠ k && (match s.sec.keys.look (keyNo 0 j 0) with | some x => x.owner = t | none => false))

/-- The first condition under which a commit fails, by SEC_KEY_STS.ERR; 0 for none (R375, R384). -/
def State.commitErr (s : State) (a b : BitVec 256) : Nat :=
  if s.sec.staged.length < 8 then 1
  else if s.selKind = 0 && s.keyRefs s.selIndex > 0 then 2
  else if !(keyOk s.selKind s.selIndex a b) then 3
  else if s.selKind = 0 && s.otherSlot (s.fld F.secKeySelOwner) s.selIndex then 4
  else 0

/-- The manager key that was valid when the present tick began stays so to its end (R375). -/
def State.keepKey (s : State) (k : Nat) : State :=
  if (match s.sec.former.look k with | some x => decide (x.2 = s.now / 8) | none => false) then s
  else { s with sec := { s.sec with former := Tbl.ins k (s.sec.keys.look k, s.now / 8) s.sec.former } }

/-- SEC_KEY_CMD.COMMIT (R375): the staged key takes its place; a link key's frame counters start at 0 (R378). The staged words
are used up (log entry 23). -/
def State.commitKey (s : State) : State :=
  let a := keyWords (s.sec.staged.take 4)
  let b := keyWords (s.sec.staged.drop 4)
  let e := s.commitErr a b
  let done := { s with sec := { s.sec with staged := [], keyErr := e } }
  if e ≠ 0 then done
  else
    let k : KeySt :=
      { a := a, b := b, owner := if s.selKind = 0 then s.fld F.secKeySelOwner else 0,
        salt := if s.selKind = 1 then BitVec.ofNat 32 (s.fld F.secKeySelSalt) else 0 }
    let done := done.when (s.selKind = 2) (fun t => t.keepKey s.selKey)
    let done := { done with sec := { done.sec with keys := Tbl.ins s.selKey k s.sec.keys } }
    done.when (s.selKind = 1) (fun t => (t.modPort s.selIndex (fun p =>
      { p with ctr := listMod (listMod p.ctr s.selKslot (fun _ => 0)) (2 + s.selKslot) (fun _ => 0) })).flushPort s.selIndex)

/-- SEC_KEY_CMD.ACTIVATE (R378): the port transmits on the selected slot, once that holds a key. -/
def State.activateKey (s : State) : State :=
  if s.selKind = 1 && (s.sec.keys.look s.selKey).isSome then
    (s.modPort s.selIndex (fun p => { p with kslot := s.selKslot })).flushPort s.selIndex
  else s

/-- SEC_KEY_CMD.CLEAR (R384): the key is emptied; a tier slot in use is not. -/
def State.clearKey (s : State) : State :=
  if s.selKind = 0 && s.keyRefs s.selIndex > 0 then { s with sec := { s.sec with keyErr := 2 } }
  else { s with sec := { s.sec with keys := s.sec.keys.del s.selKey, former := s.sec.former.del s.selKey, keyErr := 0 } }

/-! ### Attestation (R372, R381) -/

/-- The number of a transport: MCTP on I3C, or DOE of a port. -/
def spdmKey : SpdmPath → Nat
  | .i3c => 0
  | .doe p => 1 + p.val

/-- DOE is answered on a CXL-up port whose link runs; I3C always (R381, R434). -/
def State.spdmOpen (s : State) (v : SpdmPath) : Bool :=
  match v with
  | .i3c => true
  | .doe p => (s.port p.val).role = roleUp && s.linkUp p.val

/-- The connection on a transport. -/
def State.spdm (s : State) (v : SpdmPath) : SpdmSt := s.sec.spdm.rd {} (spdmKey v)

def State.modSpdm (s : State) (v : SpdmPath) (f : SpdmSt → SpdmSt) : State :=
  { s with sec := { s.sec with spdm := Tbl.upd {} (spdmKey v) f s.sec.spdm } }

/-- The words of a 256-bit value, lowest first. -/
def words256 (x : BitVec 256) : List W64 := (List.range 4).map (fun i => x.extractLsb' (64 * i) 64)

/-- The words of a 384-bit value, lowest first. -/
def words384 (x : BitVec 384) : List W64 := (List.range 6).map (fun i => x.extractLsb' (64 * i) 64)

/-- What a measurement measures (R381): the running firmware copy and its security version, the fuses, the world assignments, the
managers' keys with K, N and FABRIC, the identities of the loaded recipes. The ROM is fixed in the part. Index 0xFF takes them all. -/
def State.measured (s : State) (index : Nat) : List W64 :=
  let two : List W64 := [BitVec.ofNat 64 (b2n s.sec.bootCopy), BitVec.ofNat 64 s.sec.svn.toNat]
  let three : List W64 := ((List.range 4).map (fun i => words384 (Config.fuseKey i))).flatten ++
    [Config.fuseRevoked.setWidth 64, Config.fuseCount.setWidth 64]
  let worlds : List Loc := [⟨.secBlkWorld, 0, 0⟩, ⟨.secPortWorld, 0, 0⟩, ⟨.secHbmWorld, 0, 0⟩] ++
    (List.range 32).map (fun k => (⟨.secPairWorld, k, 0⟩ : Loc))
  let four := worlds.map (fun l => BitVec.ofNat 64 (s.word l))
  let keys := (List.range 7).map (fun i =>
    match s.sec.keys.look (keyNo 2 i 0) with | some k => words256 k.a ++ words256 k.b | none => [])
  let five := keys.flatten ++ [BitVec.ofNat 64 (s.word ⟨.ldgCertCtl, 0, 0⟩)]
  let six := (s.slc.slots.filter (fun x => x.2.st = .loaded)).filterMap (fun x =>
    x.2.img.map (fun i => BitVec.ofNat 64 (x.1 + 2 ^ 32 * i.ident)))
  match index with
  | 2 => two
  | 3 => three
  | 4 => four
  | 5 => five
  | 6 => six
  | 0xFF => two ++ three ++ four ++ five ++ six
  | _ => []

/-- SPDM 1.3 answer codes (log entry 10). -/
def spdmVersion : Nat := 0x04
def spdmCapabilities : Nat := 0x61
def spdmAlgorithms : Nat := 0x63
def spdmDigests : Nat := 0x01
def spdmCertificate : Nat := 0x02
def spdmChallengeAuth : Nat := 0x03
def spdmMeasurements : Nat := 0x60
def spdmKeyExchangeRsp : Nat := 0x64
def spdmFinishRsp : Nat := 0x65
def spdmHeartbeatAck : Nat := 0x68
def spdmEndAck : Nat := 0x6C
def spdmError : Nat := 0x7F

/-- An answer of a code about an item; its bytes are those of the SPDM 1.3 standard (log entry 10). -/
def State.spdmAnswer (s : State) (v : SpdmPath) (code item : Nat) : State :=
  let b := if code = spdmMeasurements then Config.spdmMeasured item (s.measured item) s.sec.answers
    else Config.spdmBytes code item s.sec.answers
  { s with sec := { s.sec with answers := s.sec.answers + 1 } }.emit (.spdm v b)

/-- A request of an open transport whose place in the connection is right changes the connection and is answered; another is
answered with an error. -/
def State.spdmAsk (s : State) (v : SpdmPath) (ok : Bool) (code item : Nat) (f : SpdmSt → SpdmSt := id) : State :=
  if !(s.spdmOpen v) then s
  else if ok then (s.modSpdm v f).spdmAnswer v code item
  else s.spdmAnswer v spdmError item

/-- SPDM_GET_VERSION (R381): a new connection begins. -/
def execSpdmGetVersion (via : SpdmPath) (s : State) : Host.Outcome State Fault Refusal :=
  .next (s.spdmAsk via true spdmVersion 0 (fun _ => { version := true }))

/-- SPDM_GET_CAPABILITIES (R381). -/
def execSpdmGetCapabilities (via : SpdmPath) (s : State) : Host.Outcome State Fault Refusal :=
  .next (s.spdmAsk via (s.spdm via).version spdmCapabilities 0 (fun c => { c with caps := true }))

/-- SPDM_NEGOTIATE_ALGORITHMS (R381): the module supports exactly ECDSA P-384, SHA-384, ECDHE on secp384r1 and
AES-256-GCM. -/
def execSpdmNegotiateAlgorithms (via : SpdmPath) (algs : SpdmAlgs) (s : State) : Host.Outcome State Fault Refusal :=
  .next (s.spdmAsk via ((s.spdm via).caps && algs.p384 && algs.sha384 && algs.ecdhe384 && algs.aes256) spdmAlgorithms 0
    (fun c => { c with algs := true }))

/-- SPDM_GET_DIGESTS (R381). -/
def execSpdmGetDigests (via : SpdmPath) (s : State) : Host.Outcome State Fault Refusal :=
  .next (s.spdmAsk via (s.spdm via).algs spdmDigests 0)

/-- SPDM_GET_CERTIFICATE (R381): slot 0 holds the device key's chain. -/
def execSpdmGetCertificate (via : SpdmPath) (slot off len : Nat) (s : State) : Host.Outcome State Fault Refusal :=
  checked s (.spdmGetCertificate via slot off len) (s.spdmAsk via ((s.spdm via).algs && slot = 0) spdmCertificate off)

/-- SPDM_CHALLENGE (R381). -/
def execSpdmChallenge (via : SpdmPath) (slot : Nat) (_nonce : List Byte) (s : State) : Host.Outcome State Fault Refusal :=
  .next (s.spdmAsk via ((s.spdm via).algs && slot = 0) spdmChallengeAuth slot)

/-- SPDM_GET_MEASUREMENTS (R381): an index of the table, 0 for their number, 0xFF for all. -/
def execSpdmGetMeasurements (via : SpdmPath) (index : Nat) (_nonce : List Byte) (s : State) :
    Host.Outcome State Fault Refusal :=
  .next (s.spdmAsk via ((s.spdm via).algs && (index ≤ 6 || index = 0xFF)) spdmMeasurements index)

/-- SPDM_KEY_EXCHANGE (R381). -/
def execSpdmKeyExchange (via : SpdmPath) (_share : List Byte) (s : State) : Host.Outcome State Fault Refusal :=
  .next (s.spdmAsk via (s.spdm via).algs spdmKeyExchangeRsp 0 (fun c => { c with exchanged := true }))

/-- The root of a requester's chain is accepted on I3C: it is the enrolled one, or none is enrolled yet (R372). -/
def State.rootOk (s : State) (root : Option (BitVec 384)) : Bool :=
  match root, s.sec.root with
  | some r, some e => r = e
  | some _, none => true
  | none, _ => false

/-- SPDM_FINISH (R372, R381): a good exchange opens the session. On I3C it needs mutual authentication with a chain that ends
in the operator root; the first chain enrols its root. Within the open secure session an exchange whose chain ends in another root
replaces it (log entry 103). What is enrolled is recorded. -/
def execSpdmFinish (via : SpdmPath) (root : Option (BitVec 384)) (ok : Bool) (s : State) : Host.Outcome State Fault Refusal :=
  .next (
    let inside := (s.spdm via).session && root.isSome
    let good := (s.spdm via).exchanged && ok && (via ≠ .i3c || s.rootOk root || inside)
    let s := s.when (good && s.spdmOpen via && via = .i3c && s.sec.root ≠ root) (fun s =>
      let s := { s with sec := { s.sec with root := root } }
      s.bbxLog 0x0D 0 0 (match root with | some r => (leBytes 48 r.toNat).reverse | none => []))
    s.spdmAsk via good spdmFinishRsp 0 (fun c => { c with exchanged := false, session := true }))

/-- SPDM_HEARTBEAT (R381). -/
def execSpdmHeartbeat (via : SpdmPath) (s : State) : Host.Outcome State Fault Refusal :=
  .next (s.spdmAsk via (s.spdm via).session spdmHeartbeatAck 0)

/-- SPDM_END_SESSION (R381). -/
def execSpdmEndSession (via : SpdmPath) (s : State) : Host.Outcome State Fault Refusal :=
  .next (s.spdmAsk via (s.spdm via).session spdmEndAck 0 (fun c => { c with session := false }))

/-- The secure I3C session of R372 is open. -/
def State.secureSession (s : State) : Bool := (s.spdm .i3c).session

end Sys2Proof.Machine
end

