-- ==== Sys2Proof/Machine/Switch.lean ====
section
/-! DEFINITION. The switch core: cells, the two stages, resequencing, admission with meters, and the output schedulers
(R312–R332). -/

namespace Sys2Proof.Machine

/-! ### Cells and occupancy (R312, R313, R322) -/

/-- Bytes 0 to 13 of a cell's header (R312). -/
def cellHead (c : Cell) : List Byte :=
  leBytes 1 (c.out.val + 64 * c.tc.val) ++ leBytes 1 (b2n c.first + 2 * b2n c.last + 4 * b2n c.mcopy) ++
    leBytes 2 (c.inp.val + 64 * c.mid) ++ leBytes 4 c.seq ++ leBytes 1 c.len ++ [0] ++ leBytes 1 c.tenant ++ leBytes 1 c.cls ++
    leBytes 2 c.msg

/-- CRC-16/CCITT, x^16 + x^12 + x^5 + 1, most significant bit first, from 0xFFFF (log entry 187). -/
def crc16 (l : List Byte) : Nat :=
  l.foldl (fun c b => (List.range 8).foldl (fun c _ =>
    if c ≥ 0x8000 then Nat.xor (c * 2 % 65536) 0x1021 else c * 2) (Nat.xor c (256 * b.toNat))) 0xFFFF

/-- The check of a cell, over bytes 0 to 13 and the data (R312). -/
def cellCrc (c : Cell) : Nat := crc16 (cellHead c ++ c.data)

/-- A cell with its check. -/
def cellChecked (c : Cell) : Cell := { c with check := BitVec.ofNat 16 (cellCrc c) }

/-- The number of a flow (input, output, class); of an intermediate's FIFO for an output. -/
def flowKey (inp out tc : Nat) : Nat := 4 * (64 * inp + out) + tc
def midKey (m out : Nat) : Nat := 64 * m + out

/-- Cells of a resequencer: waiting for a gap, or of a message not yet whole. -/
def Reseq.cells (r : Reseq) : List Cell := r.held ++ r.open_

/-- The resequencers of an output. -/
def State.reseqsOf (s : State) (out : Nat) : List Reseq :=
  (s.sw.reseqs.filter (fun (x : Nat × Reseq) => x.1 / 4 % 64 = out)).map Prod.snd

/-- Cells an output's resequencers hold (R319). -/
def State.heldCells (s : State) (out : Nat) : Nat := sumOf ((s.reseqsOf out).map (fun (r : Reseq) => r.held.length))

/-- Cells of a unit of the switch core; those of a tier copy pass no input and fill no cell. -/
def SUnit.cells (u : SUnit) : Nat := if u.copy.isSome then 0 else cellCount u.len

/-- Cells of a scheduler queue. -/
def SQueue.cells (q : SQueue) : Nat := sumOf (q.units.map SUnit.cells)

/-- Cells that satisfy a test of output and class, in the intermediates that `p` accepts. -/
def State.midCells (s : State) (p : Nat → Bool) (q : Nat → Nat → Bool) : Nat :=
  sumOf (s.sw.mids.map (fun (x : Nat × List Cell) =>
    if p (x.1 / 64) then (x.2.filter (fun (c : Cell) => q c.out.val c.tc.val)).length else 0))

/-- Cells that satisfy a test of output and class, from the resequencers on until they have left (R322). -/
def State.outCells (s : State) (q : Nat → Nat → Bool) : Nat :=
  sumOf (s.sw.reseqs.map (fun (x : Nat × Reseq) => if q (x.1 / 4 % 64) (x.1 % 4) then x.2.cells.length else 0)) +
    sumOf (s.sw.queues.map (fun (x : Nat × SQueue) => if q (x.1 / 1024) (x.1 % 4) then x.2.cells else 0)) +
    sumOf (s.sw.sending.map (fun (x : Nat × Nat × Nat × SUnit) =>
      if s.now < x.2.2.1 && q x.1 (x.2.1 % 4) then x.2.2.2.cells else 0))

/-- Cells held for an output (R322, R334). -/
def State.occ (s : State) (out : Nat) : Nat :=
  s.midCells (fun _ => true) (fun o _ => o = out) + s.outCells (fun o _ => o = out)

/-- Cells in a quadrant's buffer whose class satisfies a test (R322). -/
def State.quadCells (s : State) (q : Nat) (tc : Nat → Bool) : Nat :=
  s.midCells (fun m => m / 16 = q) (fun _ t => tc t) + s.outCells (fun o t => o / 16 = q && tc t)

/-- Cells of a quadrant's buffer (R322). -/
def quadBuffer : Nat := 196608

/-- Free shared cells of a quadrant: TC2 and TC3 cells take the reserve first (R322). -/
def State.freeShared (s : State) (q : Nat) : Nat :=
  let rsv := s.fld F.swCtlRsvCells
  quadBuffer - rsv - (s.quadCells q (· < 2) + (s.quadCells q (· ≥ 2) - rsv))

/-- An output is congested (R322). -/
def State.congested (s : State) (out : Nat) : Bool :=
  s.occ out * 16 > 2 ^ s.fld F.swCtlAlpha * s.freeShared (out / 16)

/-! ### Whole messages (R319, R323) -/

/-- A whole message leaves the resequencer and enters its queue as a unit (R319, R323; one message makes a unit, log
entry 22). -/
def State.enqueue (s : State) (l : List Cell) (stream : Nat × Bool) : State :=
  match l with
  | [] => s
  | c :: _ =>
    let b := sumOf (l.map (fun (x : Cell) => x.len))
    s.addUnit (schedKey c.out.val c.tenant c.tc.val)
      { bytes := s.counted c.out.val b, len := b, stream := stream.1, here := stream.2 }

/-! ### Resequencing (R319, R320) -/

def State.reseq (s : State) (k : Nat) : Reseq := s.sw.reseqs.rd {} k

def State.modReseq (s : State) (k : Nat) (f : Reseq → Reseq) : State :=
  { s with sw := { s.sw with reseqs := Tbl.upd {} k f s.sw.reseqs } }

/-- Number a lies ahead of number b, modulo 2^32. -/
def seqAhead (a b : Nat) : Bool := (a + 2 ^ 32 - b) % 2 ^ 32 < 2 ^ 31 && a ≠ b

/-- The cell of the awaited number passes onward: cells of a message that lost one are discarded, the others wait until
their message is whole (R319, R320). -/
def State.passCell (s : State) (k : Nat) (c : Cell) : State :=
  let r := s.reseq k
  let r := { r with
    next := (c.seq + 1) % 2 ^ 32, held := r.held.filter (fun (x : Cell) => x.seq ≠ c.seq), came := r.came.del c.seq }
  if r.dropMsg.any (· = c.msg) then
    s.modReseq k (fun _ => { r with dropMsg := if c.last then r.dropMsg.filter (· ≠ c.msg) else r.dropMsg })
  else if c.last then
    let stream := s.sw.streams.rd (0, false) (65536 * k + c.msg)
    let s := { s with sw := { s.sw with streams := s.sw.streams.del (65536 * k + c.msg) } }
    (s.modReseq k (fun _ => { r with open_ := [] })).enqueue (r.open_ ++ [c]) stream
  else s.modReseq k (fun _ => { r with open_ := r.open_ ++ [c] })

/-- Held cells whose turn has come pass onward, at most `fuel` of them. -/
def State.drainCells (k : Nat) : Nat → State → State
  | 0, s => s
  | fuel + 1, s =>
    match (s.reseq k).held.find? (fun (c : Cell) => c.seq = (s.reseq k).next) with
    | some c => State.drainCells k fuel (s.passCell k c)
    | none => s

/-- When the gap before the cells held is CELL_GAP_NS old: it began when the first of them came (R320). -/
def State.gapTime (s : State) (k : Nat) : Option Nat :=
  match Tbl.vals (s.reseq k).came with
  | [] => none
  | t :: l => some (l.foldl min t + s.fld F.swCtlCellGapNs)

/-- An output takes a cell: when its resequencer is full, the missing ones alone, those that a cell held of their flow lies ahead
of (R319). -/
def State.takesCell (s : State) (c : Cell) : Bool :=
  let r := s.reseq (flowKey c.inp.val c.out.val c.tc.val)
  s.heldCells c.out.val < 16384 ||
    ((c.seq = r.next || seqAhead c.seq r.next) && r.held.any (fun (x : Cell) => seqAhead x.seq c.seq))

/-- A cell reaches its output (R313, R319, R320). The result says whether the output took it. -/
def State.cellIn (s : State) (c : Cell) : State × Bool :=
  let k := flowKey c.inp.val c.out.val c.tc.val
  let r := s.reseq k
  if c.check.toNat ≠ cellCrc c then (s.bump F.swCnt0CellLost, true)
  else if !(s.takesCell c) then (s, false)
  else if c.seq = r.next then (State.drainCells k r.held.length (s.passCell k c), true)
  else if seqAhead c.seq r.next then
    if r.held.any (fun (x : Cell) => x.seq = c.seq) then (s, true)
    else (s.modReseq k (fun r => { r with held := r.held ++ [c], came := r.came.ins c.seq s.now }), true)
  else if r.lost.any (· = c.seq) then
    ((s.modReseq k (fun r => { r with lost := r.lost.filter (· ≠ c.seq) })).bump F.swCnt0LateCells, true)
  else (s, true)

/-- A cell gap has lasted its time (R320): the missing cells are lost, and with them every message that lost one:
the one that was passing onward, and the rest of the one the gap ends in. -/
def State.cellGap (s : State) (k : Nat) : State :=
  let r := s.reseq k
  match s.gapTime k with
  | none => s
  | some t =>
    let s := s.waitTill t
    let first := r.held.foldl (fun (m : Option Cell) c => match m with
      | some x => if seqAhead x.seq c.seq then some c else some x
      | none => some c) none
    match first with
    | none => s
    | some f =>
      let n := (f.seq + 2 ^ 32 - r.next) % 2 ^ 32
      let lost := (List.range n).map (fun i => (r.next + i) % 2 ^ 32)
      let s := s.modReseq k (fun r => { r with next := f.seq, lost := r.lost ++ lost, dropMsg := if f.first then [] else [f.msg], open_ := [] })
      let s := s.bump F.swCnt0CellLost 0 0 n
      State.drainCells k r.held.length s

/-! ### The two stages (R315, R316) -/

/-- Stage two of one intermediate: the head of its FIFO for the output of the slot. -/
def State.stageTwo (s : State) (m : Nat) : State :=
  let out := (m + s.sw.slot) % 64
  match s.sw.mids.rd [] (midKey m out) with
  | [] => s
  | c :: rest =>
    match s.cellIn c with
    | (s, true) => { s with sw := { s.sw with mids := Tbl.put [] (midKey m out) rest s.sw.mids } }
    | (s, false) => s

/-- Stage one of one input: its oldest cell goes to the intermediate of the slot. -/
def State.stageOne1 (s : State) (i : Nat) : State :=
  let m := (i + s.sw.slot) % 64
  match s.sw.inputs.rd [] i with
  | [] => s
  | c :: rest =>
    { s with sw := { s.sw with
      inputs := Tbl.put [] i rest s.sw.inputs,
      mids := Tbl.upd [] (midKey m c.out.val) (fun l => l ++ [cellChecked { c with mid := m }]) s.sw.mids } }

/-! ### Meters and admission (R322, R328, R329) -/

/-- Colours (R328). -/
inductive Colour where
  | green | yellow | red
  deriving DecidableEq, Repr

/-- The buckets at time `now`: thousandths of a byte, filled at CIR and what overflows (RFC 2697) or PIR (RFC 2698). -/
def Meter.fill (m : Meter) (now : Nat) : Meter :=
  let dt := now - m.at_
  let c := m.c + m.cir * dt
  let m := { m with at_ := now }
  if m.mode = 1 then
    { m with c := min c (1000 * m.cbs), e := min (m.e + (c - 1000 * m.cbs)) (1000 * m.ebs) }
  else { m with c := min c (1000 * m.cbs), e := min (m.e + m.pir * dt) (1000 * m.ebs) }

/-- The colour of `b` counted bytes, and the buckets after it: colour-blind, RFC 2697 or RFC 2698 (R328). -/
def Meter.colour (m : Meter) (b : Nat) : Colour × Meter :=
  let b := 1000 * b
  if m.mode = 1 then
    if b ≤ m.c then (.green, { m with c := m.c - b })
    else if b ≤ m.e then (.yellow, { m with e := m.e - b })
    else (.red, m)
  else if m.e < b then (.red, m)
  else if m.c < b then (.yellow, { m with e := m.e - b })
  else (.green, { m with c := m.c - b, e := m.e - b })

/-- The key of a tenant's meter for TC0 or TC1. -/
def meterKey (t m : Nat) : Nat := 2 * t + m

/-- A message that enters the fabric at this edge is coloured once; TC2, TC3 and a meter that is off colour nothing
(R328). -/
def State.colour (s : State) (m : SwMsg) : Colour × State :=
  let k := meterKey m.tenant m.tc.val
  let x : Meter := s.sw.meters.rd {} k
  if !m.edge || m.tc.val > 1 || x.mode = 0 then (.green, s)
  else
    let (c, x) := (x.fill s.now).colour (s.counted m.out.val m.bytes)
    (c, { s with sw := { s.sw with meters := Tbl.ins k x s.sw.meters } })

/-- The cells of a message, with the scheduling class at admission; stage one gives each its path and its check (R312, R313). -/
def msgCells (m : SwMsg) (cls seq msg : Nat) : List Cell :=
  let n := cellCount m.bytes
  (List.range n).map (fun i =>
    { out := m.out, tc := m.tc, first := i = 0, last := i + 1 = n, mcopy := m.mcopy, inp := m.inp, seq := (seq + i) % 2 ^ 32,
      len := min 240 (m.bytes - 240 * i), tenant := m.tenant, cls := cls, msg := msg,
      data := (m.data.drop (240 * i)).take 240, check := 0 })

/-- A message is admitted: its cells take the next numbers of their flow, and its link credits are returned (R274, R313,
R322). -/
def State.takeIn (s : State) (m : SwMsg) : State :=
  let k := flowKey m.inp.val m.out.val m.tc.val
  let (seq, msg) := s.sw.flows.rd (0, 0) k
  let cells := msgCells m (s.classOf m.tenant m.tc.val) seq msg
  let s := { s with sw := { s.sw with
    flows := Tbl.put (0, 0) k ((seq + cells.length) % 2 ^ 32, (msg + 1) % 65536) s.sw.flows,
    streams := Tbl.put (0, false) (65536 * k + msg) (m.stream, m.here.isSome) s.sw.streams,
    inputs := Tbl.upd [] m.inp.val (fun l => l ++ cells) s.sw.inputs } }
  s.when ((s.port m.inp.val).role = roleUlp) (fun s => s.emit (.linkCredit m.inp.val m.tc.val (ceilDiv m.bytes 256)))

/-- A message must wait at its input: its output is congested, or an earlier one of its flow waits. TC2 and TC3 messages may
take the reserve (R322). -/
def State.mustWait (s : State) (m : SwMsg) (ahead : List SwMsg) : Bool :=
  ahead.any (fun (x : SwMsg) => x.inp = m.inp && x.out = m.out && x.tc = m.tc) ||
    (s.congested m.out.val && (m.tc.val < 2 ||
      s.quadCells (m.out.val / 16) (· ≥ 2) + cellCount m.bytes > s.fld F.swCtlRsvCells))

/-- One copy of a message is offered with its colour: dropped, held at its input, or admitted (R322, R329). -/
def State.offer (s : State) (m : SwMsg) (c : Colour) : State :=
  if c = .red && s.congested m.out.val then s.bump F.swCnt2RedDrops
  else if s.mustWait m s.sw.waiting then { s with sw := { s.sw with waiting := s.sw.waiting ++ [m] } }
  else s.takeIn m

/-- Messages waiting at their inputs are admitted in order as far as they can. -/
def State.pumpWaiting (s : State) : State :=
  let l := s.sw.waiting
  foldS (fun s (m : SwMsg) =>
    if s.mustWait m s.sw.waiting then { s with sw := { s.sw with waiting := s.sw.waiting ++ [m] } }
    else s.takeIn m) { s with sw := { s.sw with waiting := [] } } l

/-- A message for this module takes an output of its target's quadrant, by a hash of its stream (R314). -/
def placeMsg (m : SwMsg) : SwMsg :=
  match m.here with
  | some q => { m with out := Fin.ofNat 64 (16 * q.val + Config.streamHash m.stream q.val m.tc.val % 16) }
  | none => m

/-- The copies of a message: one for each member of its group, toward the member's port or an agent here; none for a member that no
port reaches, whose stream sends again (R289, R318). Without a group, the message itself. -/
def State.copiesOf (s : State) (m : SwMsg) : List SwMsg :=
  match m.group with
  | none => [placeMsg m]
  | some g =>
    match s.fab.map.groups.look g.toNat with
    | none => []
    | some grp => (grp.members.filterMap (fun x =>
        let c := { m with group := none, mcopy := true }
        if x.ep = s.selfEp then some (placeMsg { c with here := some (c.here.getD 0) })
        else
          let n := s.outPort x.ep.toNat m.stream m.tc.val
          if n < 64 then some { c with out := Fin.ofNat 64 n, here := none } else none))

/-- CELL_ARRIVE (R319). A cell its output cannot take yet stays in its intermediate. -/
def execCellArrive (cell : Cell) (s : State) : Host.Outcome State Fault Refusal :=
  checked s (.cellArrive cell) (
    match s.cellIn cell with
    | (s, true) => s.pumpWaiting
    | (s, false) =>
      { s with sw := { s.sw with mids := Tbl.upd [] (midKey cell.mid cell.out.val) (fun l => l ++ [cell]) s.sw.mids } })

/-- CELL_GAP_EXPIRY (R320). -/
def execCellGapExpiry (inp out : Port) (tc : Tc) (s : State) : Host.Outcome State Fault Refusal :=
  .next (s.cellGap (flowKey inp.val out.val tc.val)).pumpWaiting

/-- SWITCH_SLOT (R315, R316): a cell that stage one passes is in its intermediate's FIFO from the next slot on. -/
def execSwitchSlot (s : State) : Host.Outcome State Fault Refusal :=
  .next (
    let s := foldS (fun s m => s.stageTwo m) s (List.range 64)
    let s := foldS (fun s i => s.stageOne1 i) s (List.range 64)
    ({ s with sw := { s.sw with slot := (s.sw.slot + 1) % 64 } } : State).pumpWaiting)

/-- A message that came to an input is coloured once, and each of its copies is offered (R318, R322, R328, R329). -/
def State.admitMsg (s : State) (m : SwMsg) : State :=
  let (c, s) := s.colour (placeMsg m)
  let s := s.when (c = .yellow) (fun s => s.bump F.schMtrCntYellow m.tenant)
  let s := s.when (c = .red) (fun s => s.bump F.schMtrCntRed m.tenant)
  foldS (fun s m => s.offer m c) s (s.copiesOf m)

/-- MESSAGE_ADMIT (R318, R322, R328, R329). -/
def execMessageAdmit (m : SwMsg) (s : State) : Host.Outcome State Fault Refusal :=
  checked s (.messageAdmit m) (s.admitMsg m)

/-! ### Starting a unit (R324, R325, R330) -/

/-- TC3 queues have priority while their share of the port's bytes in the last 10 µs is below TC3_RATE (R324). -/
def State.tc3First (s : State) (n : Nat) : Bool :=
  let l := (s.sw.recent.rd [] n).filter (fun x => s.now < x.1 + 10000)
  let all := sumOf (l.map (fun x => x.2.2))
  let tc3 := sumOf (l.map (fun x => if x.2.1 then x.2.2 else 0))
  all = 0 || tc3 * 100 < s.fld F.schCtlTc3Rate * all

/-- The queue of the smallest tag, the lowest index among equal ones (R325). -/
def State.earliest (s : State) (l : List Nat) : Option Nat :=
  l.foldl (fun (m : Option Nat) k => match m with
    | none => some k
    | some j => if tagBefore ((s.queue k).headTag.getD 0) ((s.queue j).headTag.getD 0) then some k else some j) none

/-- The time a unit takes to leave at 200.8 GB/s (R315). -/
def sendTime (bytes : Nat) : Nat := ceilDiv (bytes * 10) 2008

/-- The head unit of a queue starts: one of a tier copy as its accesses; one for an agent takes no link (R314, R325, R330). -/
def State.startUnit (s : State) (n k : Nat) (prio : Bool) : State :=
  match (s.queue k).units with
  | [] => s
  | u :: rest =>
    let tag := (s.queue k).headTag.getD 0
    let s := s.modQueue k (fun q => { q with
      units := rest, tag := tag, headTag := none, last := u.stream,
      began := (s.now, if q.began.1 = s.now then q.began.2 + u.bytes else u.bytes), credit := if q.on then q.credit - (1000 * u.bytes : Nat) else q.credit })
    let s := s.modPort n (fun p =>
      if p.role = roleUlp && !u.here then { p with credTx := listMod p.credTx (k % 4) (· + ceilDiv u.len 256) } else p)
    let live := (s.sw.recent.rd [] n).filter (fun x => s.now < x.1 + 10000)
    let s := { s with sw := { s.sw with
      vt := if prio then s.sw.vt else Tbl.put 0 n tag s.sw.vt,
      recent := Tbl.put [] n (live ++ [(s.now, decide (k % 4 = 3), u.len)]) s.sw.recent,
      sending := Tbl.ins n (k, s.now + sendTime u.len, u) s.sw.sending } }
    let s := match u.copy with
      | some c => s.sendCopy n c
      | none => s.emit (.unit n (k / 4 % 256) (k % 4) u)
    (s.tagHeads n).pumpWaiting

/-- The queues of a port whose head may start now: one that takes the link needs it up (R314, R324). -/
def State.readyQueues (s : State) (n : Nat) : List Nat :=
  (s.queuesOf n).filter (fun k => s.eligible k && (s.linkUp n || (s.queue k).units.head?.any (fun u => u.here)))

/-- UNIT_START (R324, R325): once the unit before it has left, the eligible unit that comes first starts. -/
def execUnitStart (out : Port) (s : State) : Host.Outcome State Fault Refusal :=
  .next (
    let n := out.val
    let s := match s.sw.sending.look n with | some (_, t, _) => s.waitTill t | none => s
    let s := (s.pumpWaiting).tagHeads n
    let l := s.readyQueues n
    let tc3 := l.filter (fun k => k % 4 = 3)
    if !tc3.isEmpty && s.tc3First n then
      match s.earliest tc3 with | some k => s.startUnit n k true | none => s
    else
      match s.earliest l with | some k => s.startUnit n k false | none => s)

/-! ### Committing settings (R331) -/

/-- A write of SCH_SHP_CFG configures the selected queue's shaper and resets its credit; a unit that the queue has started in the
same tick counts after it (R331). -/
def State.shaperCommit (s : State) (v : Nat) : State :=
  let k := schedKey (s.fld F.schShpSelPort) (s.fld F.schShpSelTenant) (s.fld F.schShpSelTc)
  let hi := bits v 55 32
  s.modQueue k (fun q =>
    let base : Int := if bit v 57 then (1000 * hi : Nat) else 0
    let sent : Nat := if bit v 56 && q.began.1 = s.now then 1000 * q.began.2 else 0
    { q with rate := bits v 31 0, hi := hi, on := bit v 56, credit := base - sent })

/-- A write of SCH_MTRn_CTL commits the meter's staged setting and resets its buckets; a MODE of 3 is ignored (R331,
R336). -/
def State.meterCommit (s : State) (t m v : Nat) : State :=
  if bits v 1 0 = 3 then s
  else
    let g := fun (a b : FRef) => if m = 0 then s.fld a t else s.fld b t
    let cbs := g F.schMtr0BurstCbs F.schMtr1BurstCbs
    let ebs := g F.schMtr0BurstEbs F.schMtr1BurstEbs
    let x : Meter :=
      { mode := bits v 1 0, cir := g F.schMtr0RateCir F.schMtr1RateCir, pir := g F.schMtr0RatePir F.schMtr1RatePir,
        cbs := cbs, ebs := ebs, c := if bit v 2 then 1000 * cbs else 0, e := if bit v 2 then 1000 * ebs else 0, at_ := s.now }
    { s with sw := { s.sw with meters := Tbl.put {} (meterKey t m) x s.sw.meters } }

end Sys2Proof.Machine
end

