-- ==== Sys2Proof/Machine/Resets.lean ====
section
/-! DEFINITION. What each reset level does, the reset controller, and the bring-up stages (R15–R22, R385–R395, R340–R349,
R454). -/

namespace Sys2Proof.Machine

/-! ### What a reset clears (R145, R284, R340, R386, R454) -/

/-- A context goes with its slice: its sub-part waits to resume from its last committed phase (R208, R342). -/
def State.parkCtx (s : State) (cx : Nat) : State :=
  match s.ctx cx with
  | none => s
  | some c =>
    if c.shadowOf.isSome then s.dropCtx cx
    else ((s.unreceive c).dropCtx cx).modInv c.lsn (fun v => { v with restarts := v.restarts ++ [(c.sub, c.record)] })

/-- The stores of a MOVE or a QUERY have all left, on streams that keep them over the reset (R351). -/
def State.storesKept (s : State) (e : Entry) : Bool :=
  (e.opcode = opMove || e.opcode = opQuery) && e.note.head? = some 1 && !(s.fab.waits.any (fun w => w.purpose.lsn = some e.lsn))

/-- A started descriptor other than an INVOKE runs again from its start: what it had begun is undone (R342). Where its stores
have been recorded, with their numbers, it only waits for them, so that none goes out under a second number (R351). -/
def State.rewind (s : State) (e : Entry) : State :=
  let kept := s.storesKept e
  let s := s.dropFetches (fun p => p.lsn = some e.lsn && !(kept && (p = .moveWrite e.lsn || p = .query e.lsn)))
  let s := (s.endMoves e.lsn).endLoad e
  let s := foldS (fun s r => s.dropRef r.1 r.2) s (e.ref.toList ++ e.refs)
  let s := { s with rgn := { s.rgn with regions := s.rgn.regions.mapV (fun _ (r : Region) =>
    { r with vers := r.vers.mapV (fun _ v => { v with pins := v.pins.filter (fun p => p.lsn ≠ e.lsn) }) }) } }
  s.putEntry { e with ref := none, refs := [], note := if kept then e.note else [] }

/-- The streams this module sends: the requests kept are sent again with their numbers, before any new one, and the first carries
SYNC (R273, R290, R351). -/
def TxStream.afterReset (t : TxStream) : TxStream :=
  let una := t.doubt ++ t.una
  { t with
    una := una.zipIdx.map (fun x => { x.1 with sync := x.2 = 0, tries := 0 }), synced := false,
    fence := [], doubt := [], late := [] }

/-- The streams this module receives keep their contiguous number (R273, R350). -/
def RxStream.afterReset (r : RxStream) : RxStream := { known := r.known, contig := r.contig }

/-- A port after a module-level reset: down until stage PORTS; a hold of cause 3 lasts (R16, R306). -/
def PortSt.afterReset (p : PortSt) : PortSt :=
  let q := { p.fresh with vsec := 0, blockAt := none }
  if p.st = .held && p.cause = 3 then { q with noLink := true } else { q with st := .down, cause := 0, noLink := false }

/-- A queue without its units and its history; its shaper's setting is a register's. -/
def SQueue.afterReset (q : SQueue) : SQueue := { rate := q.rate, hi := q.hi, on := q.on }

/-- The hub's state is cleared (R386): contexts, links, windows, messages and cells in flight, and a step abort whose entry is
not durable (R358). What the ledger, the tables and
the registers hold stays, and of a ring pair its TAIL too (R38; log entry 159). -/
def State.hubReset (s : State) : State :=
  let s := foldS (fun s cx => s.parkCtx cx) s (Tbl.keys s.slc.ctxs)
  let s := foldS (fun s (e : Entry) => s.rewind e) s
    (s.ldg.entries.filter (fun (e : Entry) => e.running && e.opcode ≠ opInvoke))
  let s := foldS (fun s n => s.dropLinkKeys n) s (List.range 64)
  let s := s.dropFetches (fun p => match p with
    | .params _ | .moveWrite _ | .query _ | .emit _ _ => false
    | _ => true)
  let s := foldS (fun s a => s.endAbort a) s (s.ldg.aborts.filter (fun a => !(s.durable a.till)))
  let s := foldS (fun s (x : FabWin) => s.dropRef x.region x.version) s s.fab.wins
  let s := { s with tq := { s.tq with rings := s.tq.rings.mapV (fun _ (r : Ring) => { r with closing := false }) } }
  let fab := { s.fab with
    ports := s.fab.ports.mapV (fun _ (p : PortSt) => p.afterReset), wins := [], bar2 := [], waits := [], later := [],
    expired := [], paths := [], asks := [],
    rx := s.fab.rx.mapV (fun _ (r : RxStream) => r.afterReset), tx := s.fab.tx.mapV (fun _ (t : TxStream) => t.afterReset) }
  let queues := Tbl.keep (fun _ (q : SQueue) => q ≠ {}) (s.sw.queues.mapV (fun _ (q : SQueue) => q.afterReset))
  let rgn := { s.rgn with
    pages := s.rgn.pages.mapV (fun _ (g : Page) => { g with mv := none }),
    shelves := s.rgn.shelves.mapV (fun _ (h : Shelf) => if h.st = .scrubbing then { h with scrubAt := s.now } else h) }
  let tier := { s.tier with
    stalls := [], raises := [], wins := s.tier.wins.mapV (fun _ (w : WinSt) => { w with staging := none }) }
  let s := { s with
    fab := fab, sw := { queues := queues, meters := s.sw.meters }, rgn := rgn, tier := tier,
    slc := { s.slc with inService := 0, bins := [], dir := [], late := s.slc.late.filter (fun x => x.key ≠ 0) },
    sec := { s.sec with spdm := Tbl.keep (fun k _ => k = 0) s.sec.spdm }, rst := { s.rst with hbmAt := [] } }
  (s.setFld F.rstBlkPortAssert 0).setFld F.rstBlkHbmAssert 0

/-- The LOCK bits that hold until a cold reset (R442). -/
def coldLocks : List (FRef × Nat) :=
  [F.tqCtlLock, F.mapCtlLock, F.rgnCtlLock, F.tierCtlLock, F.codecCtlLock, F.slcCtlLock, F.swCtlLock, F.schCtlLock,
    F.ldgCtlLock, F.hltCtlLock, F.bbxCtlLock, F.tollCtlLock, F.secCtlLock].map (fun f => (f, 0)) ++
  (List.range 64).map (fun n => (F.portCtlLock, n)) ++ (List.range 12).map (fun n => (F.hbmCtlLock, n))

/-- A cold reset of the whole module beside the hub's: stacks in self-refresh, rails off, LOCK bits clear, a fence ended (R363,
R386, R442). -/
def State.coldReset (s : State) : State :=
  let s := foldS (fun s (x : FRef × Nat) => s.setFld x.1 0 x.2) s.hubReset coldLocks
  { s with
    stk := (List.range 12).foldl (fun t n => Tbl.upd {} n (fun (x : StackSt) => { x with st := 2 }) t) s.stk,
    ldg := { s.ldg with fenced := false }, pwr := { s.pwr with rails := min s.pwr.rails 2 } }

/-- The addresses of the ring pairs' registers (R59). -/
def ringRegs (a : Nat) : Bool := 0x00520000 ≤ a && a < 0x00520000 + 2048 * 0x80

/-- Every ring pair comes up unconfigured (R348). -/
def State.clearRings (s : State) : State :=
  { s with regs := Tbl.keep (fun a _ => !(ringRegs a)) s.regs, tq := {} }

/-- The contents of the stacks are lost: near tier, ledger, region and version state (R340, R386, R454). -/
def State.loseHbm (s : State) : State :=
  let s := { s with
    rgn := {}, tier := {}, codec := [], stk := [],
    slc := { s.slc with slots := [], ctxs := [], invs := [], held := [], dir := [], late := [] },
    ldg := { s.ldg with
      entries := [], half := false, aborts := [], takeover := false, mirrorSent := 0, mirrorAcked := 0, mirrorBad := false,
      bound := none, buddyAlone := false, mirrorHalf := [], taken := [], standFor := [], atoms := [], works := [], peers := [], mode := .loc },
    fab := { s.fab with rx := [], tx := [], map := {}, prev := none, farRefs := [] } }
  { s.clearRings with pwr := { s.pwr with rails := 0 } }

/-- A power-on reset (R385, R386): everything but what the strongbox, the pins and the supplies hold. -/
def State.powerOn (s : State) : State :=
  { pending := s.pending, freeIdx := s.freeIdx, out := s.out,
    sec := { keys := Tbl.keep (fun k _ => k / 4096 ≠ 1) s.sec.keys, root := s.sec.root },
    ldg := { gen := s.ldg.gen },
    bbx := { next := s.bbx.next, ring := s.bbx.ring, sticky := s.bbx.sticky },
    toll := { gap := true },
    rst := { porLow := s.rst.porLow },
    pwr := { auxGood := s.pwr.auxGood, good48 := s.pwr.good48, mv48 := s.pwr.mv48, mvAux := s.pwr.mvAux, refA := s.pwr.refA,
             refB := s.pwr.refB, straps := s.pwr.straps, bscanN := s.pwr.bscanN } }

/-! ### The reset controller (R385–R389) -/

/-- Reset levels: 0 warm, 1 cold, 2 cold with the loss of 48 V, 3 power-on; the entry stage of each (R21). -/
def entryOf (lvl : Nat) : Nat := if lvl = 0 then 4 else if lvl = 3 then 0 else 2

/-- The level of a source (R385). -/
def State.levelOf (s : State) (b : Nat) : Nat :=
  if b = 0 then 3 else if b = 1 then 1 else if b = 2 then 0 else if b = 7 then 2
  else b2n (bit s.rst.cold.toNat b)

/-- A set of source bits with one set or cleared. -/
def withBit (w : BitVec 8) (b : Nat) (v : Bool) : BitVec 8 :=
  if v then w ||| (1#8 <<< b) else w &&& ~~~(1#8 <<< b)

/-- RST_OUT_N goes to a level. -/
def State.driveOut (s : State) (v : Bool) : State :=
  if s.rst.rstOutN = v then s else { s with rst := { s.rst with rstOutN := v } }.emit (.pin pinRstOut v)

/-- PWR_GOOD is released while every 48 V rail regulates (R426). -/
def State.drivePower (s : State) : State :=
  let v := s.pwr.rails = 8
  if s.rst.pwrGood = v then s else { s with rst := { s.rst with pwrGood := v } }.emit (.pin pinPwrGood v)

/-- A module-level source takes effect (R385–R389): its level's effects, the lowest entry stage so far, RST_OUT_N. -/
def State.takeReset (s : State) (b : Nat) : State :=
  let lvl := s.levelOf b
  let last := if s.rst.active then s.rst.last else 0
  let entry := if s.rst.active then min s.rst.entryMin (entryOf lvl) else entryOf lvl
  let asserted := s.rst.asserted
  let held := s.rst.held
  let s := s.when (lvl = 0) (fun s => s.bump F.rstCntWarm)
  let s := s.when (lvl = 1 || lvl = 2) (fun s => s.bump F.rstCntCold)
  let s := if lvl = 3 then s.powerOn else if lvl = 2 then s.coldReset.loseHbm else if lvl = 1 then s.coldReset else s.hubReset
  let s := { s with
    rst := { s.rst with
      active := true, asserted := asserted, held := withBit held b false, last := withBit last b true, entryMin := entry,
      beganAt := s.now, releasedAt := none },
    gen := { s.gen with stage := entry, stageAt := s.now } }
  (s.when (lvl ≠ 0 || s.flag F.rstCtlOutWarm) (fun s => s.driveOut false)).drivePower

/-- The sources asserted at module level: bit 5 counts only for shared state, and is else a quadrant's (R15, R391). -/
def State.moduleSources (s : State) : BitVec 8 :=
  if bit s.rst.cold.toNat 5 then s.rst.asserted else withBit s.rst.asserted 5 false

/-- The last source is released: the stretch begins (R387). -/
def State.checkRelease (s : State) : State :=
  if s.rst.active && s.moduleSources = 0 && s.rst.held = 0 && s.rst.releasedAt.isNone then
    { s with rst := { s.rst with releasedAt := some s.now } }
  else s

/-- A source of the module is asserted, cold or warm as `cold` says; one that ends by itself lasts 1 µs. While a strongbox
pulse is in progress its effect is held, unless power is lost (R385, R388). -/
def State.assertSource (s : State) (b : Nat) (cold pulse powerLost : Bool) : State :=
  let s := { s with rst := { s.rst with
    asserted := withBit s.rst.asserted b true, cold := withBit s.rst.cold b cold,
    pulseAt := if pulse then Tbl.ins b (s.now + 1000) s.rst.pulseAt else s.rst.pulseAt } }
  if s.bbx.pulse.isSome && !powerLost then { s with rst := { s.rst with held := withBit s.rst.held b true } }
  else s.takeReset b

/-- A source is released. -/
def State.releaseSource (s : State) (b : Nat) : State :=
  { s with rst := { s.rst with asserted := withBit s.rst.asserted b false, pulseAt := s.rst.pulseAt.del b } }.checkRelease

/-- PORST_N_ASSERT (R385, R428). -/
def execPorstNAssert (s : State) : Host.Outcome State Fault Refusal :=
  .next ({ s with rst := { s.rst with porLow := true } }.assertSource 0 true false false)

/-- MRST_N_ASSERT (R385). -/
def execMrstNAssert (s : State) : Host.Outcome State Fault Refusal := .next (s.assertSource 1 true false false)

/-- WRST_N_ASSERT (R385). -/
def execWrstNAssert (s : State) : Host.Outcome State Fault Refusal := .next (s.assertSource 2 false false false)

/-- RESET_PIN_RELEASE (R428): a pin has been high for 500 ns. The power-on reset lasts until 5 V is good as well. -/
def execResetPinRelease (pin : ResetPin) (s : State) : Host.Outcome State Fault Refusal :=
  .next (
    match pin with
    | .porst =>
      let s := { s with rst := { s.rst with porLow := false } }
      if s.pwr.auxGood then s.releaseSource 0 else s
    | .mrst => s.releaseSource 1
    | .wrst => s.releaseSource 2)

/-! ### Quadrants (R11, R16, R391, R400) -/

/-- Stage codes (R20). -/
def stMainPower : Nat := 2
def stMemory : Nat := 3
def stPorts : Nat := 6
def stFabric : Nat := 7

/-- Bring-up stops at FAULT: recorded with the stage and its cause, whose codes are the model's (R20, R395, R413; log entry
19). -/
def State.stopAt (s : State) (cause : Nat) : State :=
  let old := s.gen.stage
  let s := s.bbxLog 0x02 0 0 (leBytes 1 old ++ leBytes 1 cause)
  { s with gen := { s.gen with stage := stFault, stageAt := s.now, faultCause := cause } }.latchAlert 0

def whyBound : Nat := 1
def whyFirmware : Nat := 2
def whyRail : Nat := 3
def whyScan : Nat := 4
def whyShared : Nat := 5
def whyRoles : Nat := 6

/-- A quadrant's copy of the shared structures is lost until the next cold reset; the module runs on the other. With neither
left it has no ledger head, map or contexts, and stops at FAULT (R15; log entry 143). -/
def State.loseCopy (s : State) (q : Nat) : State :=
  let had := s.rst.copies
  let s := { s with rst := { s.rst with copies := had &&& ~~~(1#4 <<< q) } }
  s.when (had ≠ 0 && s.rst.copies = 0 && s.gen.stage > stMemory && s.gen.stage ≠ stFault) (fun s => s.stopAt whyShared)

/-- A quadrant stops serving: its ports are held with cause 3, its slices lose their contexts, its copy of the shared
structures is gone (R15, R16). -/
def State.downQuad (s : State) (q : Nat) : State :=
  let s := foldS (fun s n => s.holdPort n 3) s (rangeFrom (16 * q) 16)
  (s.loseSlices (fun n => n / 8 = q)).loseCopy q

/-- A cold reset of one quadrant takes effect (R391): its stacks are in self-refresh. -/
def State.resetQuad (s : State) (q : Nat) : State :=
  let m : BitVec 4 := 1#4 <<< q
  let s := s.bump F.rstCntCold
  let s := { s with
    rst := { s.rst with quads := s.rst.quads ||| m, away := s.rst.away ||| m, quadWait := s.rst.quadWait &&& ~~~m },
    stk := (rangeFrom (3 * q) 3).foldl (fun t n => Tbl.upd {} n (fun (x : StackSt) => { x with st := 2 }) t) s.stk }
  s.downQuad q

/-- CRITICAL_ECC_ERROR (R15, R385): in a quadrant's state it resets that quadrant, in shared state the module. -/
def execCriticalEccError (q : Option Quad) (s : State) : Host.Outcome State Fault Refusal :=
  .next (
    match q with
    | none => s.assertSource 5 true true false
    | some q =>
      let m : BitVec 4 := 1#4 <<< q.val
      let s := { s with rst := { s.rst with
        asserted := withBit s.rst.asserted 5 true,
        pulseAt := Tbl.ins 5 (s.now + 1000) s.rst.pulseAt, quadAt := s.rst.quadAt.del q.val } }
      if s.bbx.pulse.isSome then { s with rst := { s.rst with quadWait := s.rst.quadWait ||| m } } else s.resetQuad q.val)

/-- RESET_PULSE_END (R385): an internal source is released 1 µs after its assertion. Quadrants reset by it start their
stretch. -/
def execResetPulseEnd (bit : Nat) (s : State) : Host.Outcome State Fault Refusal :=
  checked s (.resetPulseEnd bit) (
    match s.rst.pulseAt.look bit with
    | none => s
    | some t =>
      let s := s.waitTill t
      let quads := (List.range 4).filter (fun q => bit = 5 && Sys2Proof.bit s.rst.quads.toNat q && (s.rst.quadAt.look q).isNone)
      let s := { s with rst := { s.rst with
        quadAt := quads.foldl (fun t q => Tbl.ins q (s.now + s.stretch) t) s.rst.quadAt } }
      let s := s.releaseSource bit
      if bit = 5 then { s with rst := { s.rst with cold := withBit s.rst.cold 5 false } } else s)

/-- MRAM_PULSE_END (R388, R414): the pulse ends, and resets held for it take effect. -/
def execMramPulseEnd (s : State) : Host.Outcome State Fault Refusal :=
  .next (
    if s.bbx.pulse.isNone then s
    else
      let held := (List.range 8).filter (fun b => bit s.rst.held.toNat b)
      let quads := (List.range 4).filter (fun q => bit s.rst.quadWait.toNat q)
      let s := s.bbxPulseEnd
      let s := foldS (fun s b => s.takeReset b) s held
      let s := foldS (fun s q =>
        let s := s.resetQuad q
        if bit s.rst.asserted.toNat 5 then s
        else { s with rst := { s.rst with quadAt := Tbl.ins q (s.now + s.stretch) s.rst.quadAt } }) s quads
      s.checkRelease)

/-! ### Leaving reset (R387, R390) -/

/-- A module-level reset ends: the module enters the lowest entry stage, and the reset is recorded (R387, R413). -/
def State.leaveReset (s : State) : State :=
  let s := { s with
    rst := { s.rst with active := false, releasedAt := none, entry := s.rst.entryMin },
    gen := { s.gen with stage := s.rst.entryMin, stageAt := s.now } }
  s.bbxLog 0x01 0 0 (leBytes 1 s.rst.last.toNat ++ leBytes 1 s.rst.entry)

/-- The times at which a stretch ends: the module's, quadrants', ports' and stacks'. -/
def State.stretchEnds (s : State) : List Nat :=
  (match s.rst.active, s.rst.releasedAt with | true, some t => [t + s.stretch] | _, _ => []) ++
    Tbl.vals s.rst.quadAt ++ Tbl.vals s.rst.hbmAt ++ (Tbl.vals s.fab.ports).filterMap (fun (p : PortSt) => p.blockAt)

/-- RESET_STRETCH_EXPIRY (R387, R390): the next stretch ends, and what waited for it leaves reset. -/
def execResetStretchExpiry (s : State) : Host.Outcome State Fault Refusal :=
  .next (
    match s.stretchEnds with
    | [] => s
    | a :: rest =>
      let s := s.waitTill (rest.foldl min a)
      let due := fun t => decide (t ≤ s.now)
      let quads := (s.rst.quadAt.filter (fun (x : Nat × Nat) => due x.2)).map Prod.fst
      let stks := (s.rst.hbmAt.filter (fun (x : Nat × Nat) => due x.2)).map Prod.fst
      let ports := (s.fab.ports.filter (fun (x : Nat × PortSt) =>
        match x.2.blockAt with | some t => due t | none => false)).map Prod.fst
      let whole := match s.rst.active, s.rst.releasedAt with | true, some t => due (t + s.stretch) | _, _ => false
      let s := foldS (fun s q => { s with rst := { s.rst with
        quads := s.rst.quads &&& ~~~(1#4 <<< q), quadAt := s.rst.quadAt.del q } }) s quads
      let s := foldS (fun s n => s.freeStack n) s stks
      let s := foldS (fun s n => s.freePort n) s ports
      if whole then s.leaveReset else s)

/-- STACK_RETRAIN_COMPLETE (R390): the stack is ready again and waiting requests proceed; one that fails reads FAILED and
faults its quadrant (R395). -/
def execStackRetrainComplete (stk : Stack) (ok : Bool) (s : State) : Host.Outcome State Fault Refusal :=
  .next (
    if (s.stk.rd {} stk.val).st ≠ 0 || (s.rst.hbmAt.look stk.val).isSome || bit (s.fld F.rstBlkHbmAssert) stk.val ||
        s.rst.active || s.gen.stage < 4 then s
    else if ok then
      { s with stk := Tbl.upd {} stk.val (fun (x : StackSt) => { x with st := 1, chan := BitVec.allOnes 32 }) s.stk }.goOn
    else
      let s := { s with stk := Tbl.upd {} stk.val (fun (x : StackSt) => { x with st := 3 }) s.stk }
      let q := stackQuad stk.val
      let s := { s with pwr := { s.pwr with fault := s.pwr.fault ||| (1#4 <<< q) } }
      ((s.bbxLog 0x05 4 q (leBytes 1 0)).latchAlert 7).downQuad q)

/-! ### Bring-up (R19–R22, R395) -/


/-- Port roles keep R19: ULP is never x16; both ports of an x16 pair have the same CXL role and width. -/
def State.rolesOk (s : State) : Bool :=
  (List.range 32).all (fun k =>
    let x := fun n => s.flag F.portCtlX16 n
    let r := fun n => s.fld F.portCtlRole n
    let a := 2 * k
    let b := 2 * k + 1
    if x a || x b then x a && x b && r a = r b && (r a = roleDown || r a = roleUp) else true)

/-- Stage PORTS applies a port's role, width, PHY setting and encryption, and its link trains (R19, R378, R425); the port of a
device that is not Type-3 or requires back-invalidate stays DOWN (R300). -/
def State.applyRole (s : State) (alien : BitVec 64) (n : Nat) : State :=
  let role := s.fld F.portCtlRole n
  let x16 := s.flag F.portCtlX16 n
  let enc := role = roleUlp && bit (s.fld F.secPortEncEnable) n
  let phy := BitVec.ofNat 64 (if role = roleUlp then s.word ⟨.portPhyCtl, n, 0⟩ else 0)
  s.modPort n (fun p =>
    let p := { p with role := role, x16 := x16, enc := enc, phy := phy, alien := role = roleDown && bit alien.toNat n }
    if p.st = .held then { p with noLink := true }
    else { p with st := if role = 3 || p.alien || (x16 && n % 2 = 1) then .down else .training })

/-- The decoders of CXL-down ports give the tray and cellar tiers their shelves; a shelf that did not exist before starts
SCRUBBING (R61, R454). The decoders of a tray that has not passed its attestation are not programmed (R381; log
entry 178). -/
def State.setDecoders (s : State) (attested : BitVec 64) (l : List (Nat × Nat × Nat × Nat)) : State :=
  let l := sortOn (fun d => 2 ^ 32 * d.1 + d.2.1)
    (l.filter (fun d => (s.port d.1).role = roleDown && !(s.port d.1).alien && bit attested.toNat d.1))
  let old := fun t => s.shelfCount t
  let s' := { s with rgn := { s.rgn with decoders := l } }
  foldS (fun s t => foldS (fun s i => s.modShelf t i (fun _ => { st := .scrubbing, scrubAt := s.now })) s
    (rangeFrom (old t) (s'.shelfCount t - old t))) s' [1, 2]

/-- The work of stage MEMORY (R395): a stack that fails training faults its quadrant. -/
def State.trainStacks (s : State) (good : BitVec 12) : State :=
  let one := fun (s : State) n =>
    if bit good.toNat n then
      { s with stk := Tbl.upd {} n (fun (x : StackSt) => { x with st := 1, chan := BitVec.allOnes 32 }) s.stk }
    else
      let s := { s with stk := Tbl.upd {} n (fun (x : StackSt) => { x with st := 3, chan := 0 }) s.stk }
      let q := stackQuad n
      if bit s.pwr.fault.toNat q then s
      else
        let s := { s with pwr := { s.pwr with fault := s.pwr.fault ||| (1#4 <<< q) } }
        ((s.bbxLog 0x05 4 q (leBytes 1 0)).latchAlert 7).downQuad q
  foldS one s (List.range 12)

/-- A cold reset restores both copies of the shared structures, each in its quadrant if that serves (R15). -/
def State.restoreCopies (s : State) : State :=
  let c : BitVec 4 := (if s.quadOut 0 then 0 else 1#4) ||| (if s.quadOut 3 then 0 else 8#4)
  { s with rst := { s.rst with copies := c } }

/-- The work of stage HUB (R20, R407): every slice of a quadrant in service runs the known-answer test. -/
def State.testSlices (s : State) (good : BitVec 32) : State :=
  foldS (fun s n =>
    if bit s.slc.quarantined.toNat n || s.quadOut (n / 8) then s
    else
      let s := s.bump F.hltCnt1KatRuns
      if bit good.toNat n then
        { s with slc := { s.slc with
          inService := s.slc.inService ||| (1#32 <<< n), bins := Tbl.ins n (1#16 <<< s.binOf (n / 8)) s.slc.bins } }
      else (s.bump F.hltCnt1KatFails).quarantine n 1 0 0 0 0xFFFF) s (List.range 32)

/-- No valid own half exists (R348): the generation rises, LOST is set and recorded, every pair comes up unconfigured. Of
the shelves nothing is known any more: each is FREE (R454; log entry 186). -/
def State.loseLedger (s : State) : State :=
  let old := s.ldg.gen
  let gen := (old + 1) % 2 ^ 32
  let s := { s.clearRings with
    ldg := { gen := gen, lost := true, half := true, fenced := s.ldg.fenced, mirrorHalf := s.ldg.mirrorHalf, peers := s.ldg.peers },
    rgn := { decoders := s.rgn.decoders }, tier := {}, codec := [],
    slc := { s.slc with slots := [], ctxs := [], invs := [], held := [] }, fab := { s.fab with rx := [], tx := [], farRefs := [] } }
  (s.bbxLog 0x08 0 0 (leBytes 4 old ++ leBytes 4 gen)).latchAlert 5

/-- Of each content unit one of its two copies, on stacks H(u mod 12) and H((u + 6) mod 12), can be read (R339, R340). -/
def State.halfRead (s : State) : Bool :=
  (List.range 6).all (fun u => (s.stk.rd {} u).st ≠ 3 || (s.stk.rd {} (u + 6)).st ≠ 3)

/-- Stage RECORDS restores the entries written under the present generation, and what follows from them (R340, R348). -/
def State.restoreHalf (s : State) : State :=
  { s with ldg := { s.ldg with entries := s.ldg.entries.filter (fun (e : Entry) => e.gen = s.ldg.gen) } }

/-- Stage RECORDS rewrites a record valid in one copy from it, and counts (R414). -/
def State.scanBox (s : State) (repaired voided : Nat) : State :=
  let fix := fun (r : BbxRec) => if r.okA || r.okB then { r with okA := true, okB := true } else r
  let s := { s with bbx := { s.bbx with ring := s.bbx.ring.map fix, sticky := s.bbx.sticky.map fix } }
  (s.bump F.bbxStsRepaired 0 0 repaired).bump F.bbxStsVoid 0 0 voided

/-- The current map lists this module, under a generation that no certificate has expelled (R20, R291, R363). -/
def State.mapped (s : State) : Bool :=
  s.fab.map.members.any (fun m => m.toNat = s.self) &&
    !(s.fab.map.gens.any (fun g => g.1.toNat = s.self && (s.ldg.peers.rd {} s.self).gens.any (· = g.2.toNat)))

/-- The mode stage FABRIC gives the ledger (R347); the contact after it tells the buddy of a LOCAL module so. -/
def State.joinMirror (s : State) : State :=
  if !(s.flag F.ldgMirrorCtlEnable) then { s with ldg := { s.ldg with mode := .loc } }.dropMirror
  else if s.ldg.mode = .mirrored then s
  else s.startResync

/-- Mirror stores that the buddy's ACK does not cover are sent to it again before stage RUN (R345, R346). -/
def State.resendMirror (s : State) : State :=
  match s.buddy with
  | some b => s.when (!(s.tx b 2).synced && !(s.tx b 2).una.isEmpty) (fun s => s.resendReqs b 2 (fun _ => true))
  | none => s

/-- The restored accepted index of every enabled pair is written back before RUN (R37). -/
def State.writeAidxs (s : State) : State :=
  foldS (fun s p => s.writeAidx p) s ((List.range 2048).filter (fun p => s.flag F.tqRingCtlEnable p))

/-- Replay begins: every descriptor left unfinished is marked and counted, timers of running ones start again, and a record that no store carries any more is
written again (R342, R349). -/
def State.beginReplay (s : State) : State :=
  let live := s.ldg.entries.filter (fun (e : Entry) => e.live)
  let s := foldS (fun s (e : Entry) => s.markReplayed e.lsn) s live
  let s := { s with ldg := { s.ldg with
    entries := s.ldg.entries.map (fun (e : Entry) => if e.running then { e with startAt := s.now } else e) } }
  let again := s.ldg.entries.filter (fun (e : Entry) => e.kind = .desc && e.state = .completing && !e.unwritten &&
    s.outstanding (fun p => p = .cqWrite e.pair e.lsn) = 0)
  (foldS (fun s (e : Entry) =>
    match e.cpl with
    | some c =>
      let ptr := s.fld F.tqRingCqBasePtr e.pair + 32 * (e.cidx.toNat % s.cqSize e.pair)
      (s.writeEp (pairTenant e.pair) ptr 2 c.bytes false (.cqWrite e.pair e.lsn)).1
    | none => s) s.resendMirror again).writeAidxs.goOn

/-- Stage RUN begins: tenant resets held until now are performed, and moves go on (R58, R454). -/
def State.beginRun (s : State) : State :=
  (foldS (fun s t => s.startTenantReset t) s ((s.tq.tens.filter (fun (x : Nat × Ten) => x.2.resetHeld)).map Prod.fst)).goOn

/-- The module passes to a stage. -/
def State.enterStage (s : State) (n : Nat) : State :=
  let s := { s with gen := { s.gen with stage := n, stageAt := s.now } }
  if n = stPorts then s.driveOut true else if n = stReplay then s.beginReplay else if n = stRun then s.beginRun else s

/-- The 416 header bytes that a firmware copy's signature covers (R380; their layout is log entry 193). -/
def fwSigned (c : FwCopy) : List Byte :=
  leBytes 4 c.len.toNat ++ leBytes 2 c.svn.toNat ++ leBytes 2 c.key.val ++ leBytes 48 c.hash.toNat ++ leBytes 48 c.pubX.toNat ++
    leBytes 48 c.pubY.toNat ++ List.replicate 264 0

/-- The root of trust lets a firmware copy start (R380): its key is a fused one that is not revoked, its signature verifies, its body
is the one the header names, and its security version is at least the fuse counter. -/
def fwPasses (c : FwCopy) : Bool :=
  !bit Config.fuseRevoked.toNat c.key.val &&
    Config.sha384 (leBytes 48 c.pubX.toNat ++ leBytes 48 c.pubY.toNat) = Config.fuseKey c.key.val &&
    Config.verifyP384 c.pubX c.pubY (Config.sha384 (fwSigned c)) c.sigR c.sigS &&
    c.len.toNat = c.body.length && Config.sha384 c.body = c.hash && Config.fuseCount.toNat ≤ c.svn.toNat

/-- Stage ROOT (R380): copy A is tried first, then copy B; the first that passes runs. With neither, bring-up stops. -/
def State.bootFirmware (s : State) (r : StageReport) : State :=
  let run : Bool → State := fun b =>
    ({ s with sec := { s.sec with bootCopy := b, svn := if b then r.copyB.svn else r.copyA.svn } } : State).enterStage 2
  if fwPasses r.copyA then run false else if fwPasses r.copyB then run true else s.stopAt whyFirmware

/-- The work of the present stage is done, with what it found (R20): the module passes to the next, or stops. -/
def State.stageDone (s : State) (r : StageReport) : State :=
  match s.gen.stage with
  | 0 => if s.pwr.auxGood then s.enterStage 1 else s
  | 1 => s.bootFirmware r
  | 2 =>
    if !s.pwr.good48 then s
    else
      let s := { s with pwr := { s.pwr with rails := 8 } }.drivePower
      if s.pwr.bscanN then s.enterStage 3 else s.stopAt whyScan
  | 3 =>
    let s := (s.trainStacks r.stk).restoreCopies
    if s.rst.copies = 0 then s.stopAt whyShared else s.enterStage 4
  | 4 => (s.testSlices r.slices).enterStage 5
  | 5 =>
    let s := s.scanBox r.repaired r.voided
    let s := if s.ldg.half && r.ownHalf && s.halfRead then s.restoreHalf else s.loseLedger
    s.settle.enterStage 6
  | 6 =>
    if s.rolesOk then
      ((foldS (fun s n => s.applyRole r.alien n) s (List.range 64)).setDecoders r.attested r.decoders).enterStage 7
    else s.stopAt whyRoles
  | 7 => if s.flag F.mapCtlIdValid && s.mapped then s.joinMirror.contactBuddy.enterStage 8 else s
  | 8 =>
    if s.ldg.entries.any (fun (e : Entry) => e.live || (e.kind = .desc && e.staged.isSome)) then s else s.enterStage 9
  | _ => s

/-- STAGE_ADVANCE (R20). -/
def execStageAdvance (r : StageReport) (s : State) : Host.Outcome State Fault Refusal :=
  checked s (.stageAdvance r) (if s.rst.active || s.rst.asserted &&& 1 ≠ 0 then s else s.stageDone r)

/-- The bound of the present stage in nanoseconds, if it has one (R395): MEMORY has its longer bound after power-on, of which
the first leaves RST_STS.LAST at 0, and after the loss of 48 V. -/
def State.stageBound (s : State) : Option Nat :=
  let ms := 1000000
  match s.gen.stage with
  | 0 => if s.pwr.auxGood then some (20 * ms) else none
  | 1 => some (250 * ms)
  | 2 => if s.pwr.good48 then some (25 * ms) else none
  | 3 => some (if s.rst.last = 0 || bit s.rst.last.toNat 0 || bit s.rst.last.toNat 7 then 500 * ms else 80 * ms)
  | 4 => some (150 * ms)
  | 5 => some (400 * ms)
  | 6 => some (1500 * ms)
  | 7 => if s.fld F.rstCtlFabricTmoS = 0 then none else some (s.fld F.rstCtlFabricTmoS * 1000 * ms)
  | _ => none

/-- STAGE_TIMEOUT (R395): the present stage passes its bound. -/
def execStageTimeout (s : State) : Host.Outcome State Fault Refusal :=
  .next (
    if s.rst.active then s
    else match s.stageBound with
      | some t => (s.waitTill (s.gen.stageAt + t)).stopAt whyBound
      | none => s)

/-- RAIL_REGULATION_TIMEOUT (R394): a rail has not regulated within 1 ms of its start. -/
def execRailRegulationTimeout (rail : Nat) (s : State) : Host.Outcome State Fault Refusal :=
  checked s (.railRegulationTimeout rail) (
    if s.gen.stage = stMainPower && s.pwr.good48 && !s.rst.active && 1 ≤ rail && rail ≤ 8 then
      { s with pwr := { s.pwr with rails := rail - 1 } }.stopAt whyRail
    else s)

end Sys2Proof.Machine
end

