-- ==== Sys2Proof/Machine/Power.lean ====
section
/-! DEFINITION. Supplies, limiter, sensors, references, quadrant clocks and the watchdog (R392–R401). -/

namespace Sys2Proof.Machine

/-! ### Supplies (R393, R394, R428) -/

/-- POWER_48V_GOOD (R393): 48 V has stayed within 40–60 V for 10 ms. Stage MAIN_POWER counts its bound from here. -/
def execPower48vGood (mv : BitVec 16) (s : State) : Host.Outcome State Fault Refusal :=
  .next (
    let old := s
    let s := { s with pwr := { s.pwr with good48 := true, mv48 := mv.toNat } }
    let s := if s.gen.stage = stMainPower && !old.pwr.good48 then { s with gen := { s.gen with stageAt := s.now } } else s
    (s.releaseSource 7).alertFrom old)

/-- POWER_48V_LOST (R393, R385): outside 38–62 V for more than 20 µs; the loss is never held for a strongbox pulse (R388). -/
def execPower48vLost (mv : BitVec 16) (s : State) : Host.Outcome State Fault Refusal :=
  .next (
    let old := s
    let s := { s with pwr := { s.pwr with good48 := false, mv48 := mv.toNat } }
    (s.assertSource 7 true false true).alertFrom old)

/-- AUX_POWER_GOOD (R393, R428): 5 V has been within limits for 10 ms; the straps are sampled and the module's own power-on
reset ends, unless PORST_N is low. -/
def execAuxPowerGood (mv : BitVec 13) (i3cAddr : BitVec 2) (bscanN : Bool) (s : State) :
    Host.Outcome State Fault Refusal :=
  .next (
    let old := s
    let s := { s with
      pwr := { s.pwr with auxGood := true, mvAux := mv.toNat, straps := i3cAddr, bscanN := bscanN },
      gen := if s.gen.stage = 0 then { s.gen with stageAt := s.now } else s.gen }
    (s.when (!s.rst.porLow) (fun s => s.releaseSource 0)).alertFrom old)

/-! ### The power limiter (R396) -/

/-- A limiter step is applied when the average reaches 96% of the limit, at most one in 20 µs; with all four applied and a
limit below 1,250 W still exceeded, UNMET is set. -/
def PwrSt.tighten (p : PwrSt) (now limit : Nat) : PwrSt :=
  let p := { p with lowAt := none }
  if p.step < 4 then
    if p.step = 0 || now ≥ p.stepAt + 20000 then { p with step := p.step + 1, stepAt := now } else p
  else { p with unmet := p.unmet || (p.avg * 100 > 96 * limit && limit < 1250) }

/-- The highest step is removed when the average has stayed at or below 90% for 1 ms; UNMET ends. -/
def PwrSt.loosen (p : PwrSt) (now : Nat) : PwrSt :=
  let p := { p with unmet := false }
  match p.lowAt with
  | none => { p with lowAt := some now }
  | some t => if now ≥ t + 1000000 && p.step > 0 then { p with step := p.step - 1, lowAt := some now } else p

/-- POWER_LIMITER_SAMPLE (R396): every 1 µs, with the 1 ms average. -/
def execPowerLimiterSample (avgW : Nat) (mv : BitVec 16) (s : State) : Host.Outcome State Fault Refusal :=
  checked s (.powerLimiterSample avgW mv) (
    let s := s.waitTill (s.pwr.limitAt + 1000)
    let old := s
    let limit := s.fld F.pwrCtlLimitW
    let p := { s.pwr with avg := avgW, mv48 := mv.toNat, limitAt := s.now }
    let p := if avgW * 100 ≥ 96 * limit then p.tighten s.now limit
      else if avgW * 10 ≤ 9 * limit then p.loosen s.now else { p with lowAt := none }
    let s := { s with pwr := p }.alertFrom old
    s.when (old.pwr.step ≠ 0 && p.step = 0) (fun s => s.goOn))

/-! ### Sensors (R397) -/

/-- A throttle begins when one reading reaches the threshold, and ends when every reading is 5 °C below it. -/
def throttled (was : Bool) (l : List Int) (thr : Int) : Bool :=
  if l.any (fun t => t ≥ thr) then true else was && !(l.all (fun t => t ≤ thr - 5))

/-- Sensors of quadrants or stacks: as many as there are, missing readings as before. -/
def readings (old new : List Int) : List Int := old.zipIdx.map (fun x => new.getD x.2 x.1)

/-- THERMAL_SAMPLE (R397): every 10 µs. A trip ends when every quadrant is at most 95 °C and every stack at most 80 °C. -/
def execThermalSample (quads stks : List Int) (s : State) : Host.Outcome State Fault Refusal :=
  checked s (.thermalSample quads stks) (
    let s := s.waitTill (s.pwr.thermAt + 10000)
    let tj := readings s.pwr.tj quads
    let th := readings s.pwr.th stks
    let s := { s with pwr := { s.pwr with
      tj := tj, th := th, thermAt := s.now,
      hubThr := throttled s.pwr.hubThr tj (s.fld F.pwrCtlThrHubC), hbmThr := throttled s.pwr.hbmThr th (s.fld F.pwrCtlThrHbmC) } }
    if bit s.rst.asserted.toNat 6 && tj.all (· ≤ 95) && th.all (· ≤ 80) then s.releaseSource 6 else s)

/-- THERMAL_TRIP (R397, R385): a quadrant at 115 °C or a stack at 100 °C for 100 µs resets all four quadrants. -/
def execThermalTrip (isStack : Bool) (idx : Nat) (deg : Int) (s : State) : Host.Outcome State Fault Refusal :=
  checked s (.thermalTrip isStack idx deg) (
    if bit s.rst.asserted.toNat 6 || deg < (if isStack then 100 else 115) || idx ≥ (if isStack then 12 else 4) then s
    else
      let s := { s with pwr :=
        if isStack then { s.pwr with th := listMod s.pwr.th idx (fun _ => deg) }
        else { s.pwr with tj := listMod s.pwr.tj idx (fun _ => deg) } }
      let s := ((s.setFld F.pwrStsTrip 1).bump F.rstCntTrip).latchAlert 1
      let s := s.bbxLog 0x06 (if isStack then clsStack else clsQuad) idx
        (leBytes 1 (b2n isStack) ++ leBytes 1 idx ++ leBytes 2 (deg % 65536).toNat)
      s.assertSource 6 true false false)

/-! ### References (R398) -/

/-- The reference REF_SEL asks for among those that are good: 0 A, 1 B (R398, R403; log entry 24). -/
def State.wantRef (s : State) : Option Nat :=
  let a := s.pwr.refA
  let b := s.pwr.refB
  match s.fld F.clkCtlRefSel with
  | 0 => if a then some 0 else if b then some 1 else none
  | 1 => if b then some 1 else if a then some 0 else none
  | 2 => if a then some 0 else none
  | _ => if b then some 1 else none

/-- Every port loses its link while no reference runs, and trains when one returns. -/
def State.portsDown (s : State) : State :=
  foldS (fun s n => if (s.port n).st = .up || (s.port n).st = .training || (s.port n).st = .held then s.dropLink n .down else s) s
    (List.range 64)

/-- The PLLs run from the reference wanted; a change is counted. Without one they run from the island's oscillator and every
port is down; ports train again when one returns. -/
def State.chooseRef (s : State) : State :=
  match s.wantRef with
  | none => if s.pwr.noRef then s else ({ s with pwr := { s.pwr with noRef := true } }.portsDown).goOn
  | some r =>
    let s := if decide (r = 1) = s.pwr.usedB then s
      else { s with pwr := { s.pwr with usedB := decide (r = 1), switches := min 65535 (s.pwr.switches + 1) } }
    if s.pwr.noRef then
      let s := { s with pwr := { s.pwr with noRef := false } }
      let s := foldS (fun s n => s.modPort n (fun p =>
        if p.st = .down && p.role ≠ 3 && !p.alien && p.blockAt.isNone then { p with st := .training } else p)) s
        ((List.range 64).filter (fun n => s.gen.stage ≥ stFabric && s.gen.stage ≤ stRun && !((s.port n).x16 && n % 2 = 1)))
      s.goOn
    else s

/-- REFCLK_LOSS (R398). -/
def execRefclkLoss (b : Bool) (s : State) : Host.Outcome State Fault Refusal :=
  .next (
    let s' := { s with pwr := if b then { s.pwr with refB := false } else { s.pwr with refA := false } }
    s'.chooseRef.alertFrom s)

/-- REFCLK_RETURN (R398). -/
def execRefclkReturn (b : Bool) (s : State) : Host.Outcome State Fault Refusal :=
  .next (
    let s' := { s with pwr := if b then { s.pwr with refB := true } else { s.pwr with refA := true } }
    s'.chooseRef.alertFrom s)

/-! ### Quadrant faults (R399–R401) -/

/-- A quadrant is faulted with a cause (R400): FAULTED and CAUSE, a strongbox record, the alert, and R16. -/
def State.faultQuad (s : State) (q cause dev other : Nat) : State :=
  if bit s.pwr.fault.toNat q then s
  else
    let s := { s with pwr := { s.pwr with
      fault := s.pwr.fault ||| (1#4 <<< q), causes := listMod s.pwr.causes q (fun _ => cause) } }
    ((s.bbxLog 0x05 clsQuad q (leBytes 1 cause ++ leBytes 4 dev ++ leBytes 4 other)).latchAlert 7).downQuad q

/-- The quadrants in service whose mean temperature counts. -/
def State.quadsUp (s : State) : List Nat := (List.range 4).filter (fun q => !(s.quadOut q))

/-- The deviation of a quadrant from nominal: 1 clock, 2 core voltage, 3 temperature, here times the number of quadrants in
service (R400). -/
def State.deviation (s : State) (cause q : Nat) : Nat :=
  let up := s.quadsUp
  if cause = 1 then ((s.pwr.mhz.getD q 0 : Int) - 1800).natAbs
  else if cause = 2 then ((s.pwr.vcore.getD q 0 : Int) - 750).natAbs
  else (s.pwr.tj.getD q 0 * (up.length : Nat) - (up.map (fun i => s.pwr.tj.getD i 0)).foldl (· + ·) 0).natAbs

/-- A pair breaks the limit of a quantity (R399). -/
def State.breaks (s : State) (cause i j : Nat) : Bool :=
  if cause = 1 then ((s.pwr.mhz.getD i 0 : Int) - s.pwr.mhz.getD j 0).natAbs > 270
  else if cause = 2 then ((s.pwr.vcore.getD i 0 : Int) - s.pwr.vcore.getD j 0).natAbs > 60
  else (s.pwr.tj.getD i 0 - s.pwr.tj.getD j 0).natAbs > 15

/-- One comparison of a pair in one quantity: 16 breaches in a row fault the quadrant that deviates more, or the
higher-numbered one (R400). -/
def State.comparePair (s : State) (cause i j : Nat) : State :=
  if s.quadOut i || s.quadOut j then s
  else
    let k := 16 * i + 4 * j + cause
    let n := if s.breaks cause i j then s.pwr.breach.rd 0 k + 1 else 0
    let s := { s with pwr := { s.pwr with breach := Tbl.put 0 k n s.pwr.breach } }
    if n < 16 then s
    else
      let a := s.deviation cause i
      let b := s.deviation cause j
      if a > b then s.faultQuad i cause a b else s.faultQuad j cause b a

/-- The pairs of quadrants: each neighbours the other three (R399). -/
def quadPairs : List (Nat × Nat) := [(0, 1), (0, 2), (0, 3), (1, 2), (1, 3), (2, 3)]

/-- NEIGHBOUR_COMPARE (R399, R400): every 1 µs, with what the module measures. -/
def execNeighbourCompare (mhz mv : List Nat) (deg : List Int) (s : State) : Host.Outcome State Fault Refusal :=
  checked s (.neighbourCompare mhz mv deg) (
    let s := s.waitTill (s.pwr.pairAt + 1000)
    let s := { s with pwr := { s.pwr with
      mhz := s.pwr.mhz.zipIdx.map (fun x => mhz.getD x.2 x.1), vcore := s.pwr.vcore.zipIdx.map (fun x => mv.getD x.2 x.1),
      tj := readings s.pwr.tj deg, pairAt := s.now } }
    (foldS (fun s (p : Nat × Nat) => foldS (fun s c => s.comparePair c p.1 p.2) s [1, 2, 3]) s quadPairs).goOn)

/-- CROSSING_TIMEOUT (R401): a source clock without an edge for 64 reference cycles faults its quadrant with cause 4. -/
def execCrossingTimeout (q : Quad) (s : State) : Host.Outcome State Fault Refusal :=
  .next (((s.setFld F.clkQStsXingTmo 1 q.val).bump F.clkXingCntTmo).faultQuad q.val 4 0 0).goOn

/-! ### The watchdog (R392) -/

/-- WATCHDOG_EXPIRY (R392): no key within TMO_MS; the silent cores are recorded. -/
def execWatchdogExpiry (silent : BitVec 16) (s : State) : Host.Outcome State Fault Refusal :=
  .next (
    if !(s.flag F.rstWdtEnable) then s
    else
      let s := s.waitTill (s.rst.kickAt + s.fld F.rstWdtTmoMs * 1000000)
      let s := (s.bump F.rstCntWdt).bbxLog 0x07 0 0 (leBytes 2 silent.toNat)
      let s := { s with rst := { s.rst with kickAt := s.now } }
      s.assertSource 4 (s.flag F.rstWdtLevel) true false)

/-- A key written to RST_WDT_KICK restarts the watchdog (R403). -/
def State.kick (s : State) (v : Nat) : State :=
  if bits v 15 0 = 0x4B48 then { s with rst := { s.rst with kickAt := s.now } } else s

end Sys2Proof.Machine
end

