-- ==== Sys2Proof/Machine/Health.lean ====
section
/-! DEFINITION. Assay's scans and tests, the return to service, the patrol, the strongbox's sticky area, and the usage record
(R406, R407, R410, R411, R416–R418, R453). -/

namespace Sys2Proof.Machine

/-! ### Margin scans (R406) -/

/-- The key of a unit's last scan result: part class and index, lane or channel. -/
def marginKey (cls index unit : Nat) : Nat := 32 * partKey cls index + unit

/-- Scans run while their interval is not 0 and limiter step 1 is not applied (R406). -/
def State.scansRun (s : State) (interval : Nat) : Bool := interval ≠ 0 && s.pwr.step = 0

/-- The result of a scan of a unit is kept: bits [hi:lo] of HLT_MARGIN. -/
def State.setMargin (s : State) (cls index unit hi lo v : Nat) : State :=
  let k := marginKey cls index unit
  let w := insBits (s.hlt.margins.rd 0 k).toNat hi lo v
  { s with hlt := { s.hlt with margins := Tbl.put 0 k (BitVec.ofNat 64 w) s.hlt.margins } }

/-- SERDES_SCAN (R406): eye height and width of a lane of an UP port. -/
def execSerdesScan (port : Port) (lane : Fin 8) (mv : BitVec 8) (mui : BitVec 10) (s : State) :
    Host.Outcome State Fault Refusal :=
  .next (
    let n := port.val
    if !(s.scansRun (s.fld F.hltScanSerdesS)) || (s.port n).st ≠ .up then s
    else
      let s := (s.setMargin clsPort n lane.val 7 0 mv.toNat).setMargin clsPort n lane.val 17 8 mui.toNat
      s.when (mv.toNat < s.fld F.hltLimEyeMv || mui.toNat < s.fld F.hltLimEyeMui) (fun s => s.addScore clsPort n 200))

/-- HBM_SCAN (R406): the timing margin of a channel of a running stack. -/
def execHbmScan (stk : Stack) (chan : Fin 32) (pct : BitVec 8) (s : State) : Host.Outcome State Fault Refusal :=
  .next (
    if !(s.scansRun (s.fld F.hltScanHbmS)) || (s.stk.rd {} stk.val).st ≠ 1 then s
    else
      let s := s.setMargin clsStack stk.val chan.val 31 24 pct.toNat
      s.when (pct.toNat < s.fld F.hltLimHbmPct) (fun s => s.addScore clsStack stk.val 200))

/-- OPTICAL_SCAN (R406, R435): the receive power of a lane, and the module's own warning threshold; a CMIS module that does
not acknowledge is skipped. -/
def execOpticalScan (port : Port) (lane : Fin 8) (power : Option (BitVec 32)) (warn : BitVec 32) (s : State) :
    Host.Outcome State Fault Refusal :=
  .next (
    let n := port.val
    if !(s.scansRun (s.fld F.hltScanOptS)) || !(s.flag F.portCmisEnable n) then s
    else
      let s := s.emit (.cmis n (s.fld F.portCmisMuxAddr n) (s.fld F.portCmisMuxChan n))
      match power with
      | none => s.modPort n (fun p => { p with cmis := false })
      | some w =>
        let s := (s.modPort n (fun p => { p with cmis := true })).setMargin clsPort n lane.val 63 32 w.toNat
        s.when (w.toNat < warn.toNat) (fun s => s.addScore clsPort n 200))

/-! ### Known-answer tests (R407) -/

/-- A slice has passed its test in the present bin. -/
def State.passBin (s : State) (n : Nat) : State :=
  { s with slc := { s.slc with
    bins := Tbl.upd 0 n (fun (b : W16) => b ||| (1#16 <<< s.binOf (n / 8))) s.slc.bins } }

/-- KNOWN_ANSWER_TEST (R407): a slice in service whose quadrant has entered an untested bin; a pass lets it go on, a failure
quarantines it. -/
def execKnownAnswerTest (slice : Slice) (pass : Bool) (vector : Nat) (s : State) : Host.Outcome State Fault Refusal :=
  .next (
    let n := slice.val
    if !(s.sliceUp n) || s.sliceTested n then s
    else
      let s := s.bump F.hltCnt1KatRuns
      if pass then s.passBin n else (s.bump F.hltCnt1KatFails).quarantine n 1 vector 0 0 0xFFFF)

/-! ### Return to service (R410) -/

/-- A part is out of service: a quarantined slice, a stack without new placement or failed, a port held with cause 2, a
quadrant faulted or away after its reset. -/
def State.outOfService (s : State) (cls index : Nat) : Bool :=
  if cls = clsSlice then index < 32 && bit s.slc.quarantined.toNat index
  else if cls = clsStack then index < 12 && ((s.stk.rd {} index).noPlace || (s.stk.rd {} index).st = 3)
  else if cls = clsPort then index < 64 && (s.port index).st = .held && (s.port index).cause = 2
  else cls = clsQuad && index < 4 && (bit s.pwr.fault.toNat index || bit s.rst.away.toNat index)

/-- A stack is block-reset and retrained. -/
def State.cycleStack (s : State) (n : Nat) : State :=
  { s with stk := Tbl.upd {} n (fun (x : StackSt) => { x with st := 2 }) s.stk }.unblockStack n

/-- A port is block-reset and retrained. -/
def State.cyclePort (s : State) (n : Nat) : State := (s.blockPort n).unblockPort n

/-- The sequence of a part begins: its stacks and ports are reset and retrained. -/
def State.rtsBegin (s : State) (cls index : Nat) : State :=
  if cls = clsStack then s.cycleStack index
  else if cls = clsPort then s.cyclePort index
  else if cls = clsQuad then
    foldS (fun s n => s.cyclePort n) (foldS (fun s n => s.cycleStack n) s (rangeFrom (3 * index) 3)) (rangeFrom (16 * index) 16)
  else s

/-- A write of HLT_RTS: GO starts the sequence of the part named, unless one runs; a part in service ends it at once. -/
def State.rtsStart (s : State) (v : Nat) : State :=
  let cls := bits v 2 0
  let index := bits v 15 8
  if !(bit v 31) || s.hlt.rtsBusy then s
  else if !(s.outOfService cls index) then { s with hlt := { s.hlt with rtsResult := 2, rtsPart := partKey cls index } }
  else
    { s with hlt := { s.hlt with rtsBusy := true, rtsResult := 0, rtsPart := partKey cls index } }.rtsBegin cls index

/-- The neighbour limits of R399 are met between a quadrant and every other one in service. -/
def State.limitsMet (s : State) (q : Nat) : Bool :=
  (List.range 4).all (fun j => j = q || s.quadOut j || [1, 2, 3].all (fun c => !(s.breaks c q j)))

/-- The stacks a part's sequence retrains are ready, and its reset is over. -/
def State.rtsReady (s : State) (cls index : Nat) : Bool :=
  if cls = clsStack then (s.stk.rd {} index).st = 1
  else if cls = clsPort then (s.port index).blockAt.isNone
  else if cls = clsQuad then
    (rangeFrom (3 * index) 3).all (fun n => (s.stk.rd {} n).st = 1) && !(bit s.rst.quads.toNat index)
  else true

/-- A slice enters service: its bins are emptied, and its test in the present bin has passed (R407, R410). -/
def State.slicePasses (s : State) (n : Nat) : State :=
  let m : BitVec 32 := 1#32 <<< n
  let s := { s with slc := { s.slc with
    quarantined := s.slc.quarantined &&& ~~~m, inService := s.slc.inService ||| m, bins := s.slc.bins.del n } }
  ((s.bump F.hltCnt1KatRuns).passBin n).setScore clsSlice n {}

/-- A stack serves again. -/
def State.stackPasses (s : State) (n : Nat) : State :=
  { s with stk := Tbl.upd {} n (fun (x : StackSt) => { x with noPlace := false }) s.stk }.setScore clsStack n {}

/-- A hold of cause 3 ends (R306, R410). -/
def State.endHold (s : State) (n : Nat) : State :=
  if (s.port n).st = .held && (s.port n).cause = 3 then
    (s.modPort n (fun p => { p with cause := 1 })).releasePort n
  else s

/-- A quadrant rejoins (R16, R410). -/
def State.quadPasses (s : State) (q : Nat) : State :=
  let m : BitVec 4 := 1#4 <<< q
  let s := { s with
    pwr := { s.pwr with
      fault := s.pwr.fault &&& ~~~m, causes := listMod s.pwr.causes q (fun _ => 0),
      breach := Tbl.keep (fun k _ => !(k / 16 = q || k / 4 % 4 = q)) s.pwr.breach },
    rst := { s.rst with away := s.rst.away &&& ~~~m } }
  let s := foldS (fun s n => s.stackPasses n) s (rangeFrom (3 * q) 3)
  let s := foldS (fun s n => (s.setScore clsPort n {}).endHold n) s (rangeFrom (16 * q) 16)
  foldS (fun s n => s.slicePasses n) s (rangeFrom (8 * q) 8)

/-- RETURN_TO_SERVICE_END (R410): a part that passes enters service with score 0; one that fails stays where it was; either
way a strongbox record says so. -/
def execReturnToServiceEnd (pass : Bool) (s : State) : Host.Outcome State Fault Refusal :=
  .next (
    if !s.hlt.rtsBusy then s
    else
      let cls := s.hlt.rtsPart / 256
      let index := s.hlt.rtsPart % 256
      let result := if cls = clsQuad && !(s.limitsMet index) then 3 else if pass && s.rtsReady cls index then 0 else 1
      let s := { s with hlt := { s.hlt with rtsBusy := false, rtsResult := result } }
      let s := s.bbxLog 0x04 cls index (leBytes 1 cls ++ leBytes 1 index ++ leBytes 1 result)
      if result ≠ 0 then s
      else if cls = clsSlice then (s.slicePasses index).goOn
      else if cls = clsStack then (s.stackPasses index).goOn
      else if cls = clsPort then ((s.setScore clsPort index {}).releasePort index).goOn
      else (s.quadPasses index).goOn)

/-! ### Patrol reads (R453) -/

/-- PATROL_READ (R453): a line of a running stack read by its patrol. -/
def execPatrolRead (stk : Stack) (addr : BitVec 37) (result : EccResult) (s : State) : Host.Outcome State Fault Refusal :=
  .next (
    let n := stk.val
    if s.fld F.hbmCtlPatrolH n = 0 || (s.stk.rd {} n).st ≠ 1 then s
    else
      match result with
      | .clean => s
      | .corrected => (s.bump F.hbmEccCorr n).addScore clsStack n 1
      | .uncorrected =>
        let s := { s with stk := Tbl.upd {} n (fun (x : StackSt) => { x with errAddr := addr.toNat, errValid := true }) s.stk }
        (s.bump F.hbmEccUncorr n).addScore clsStack n 100)

/-! ### The sticky area (R411) -/

/-- BBX_CTL.CLEAR_STICKY empties the sticky area. -/
def State.clearSticky (s : State) : State := { s with bbx := { s.bbx with sticky := [] } }

/-! ### The usage record (R416–R418) -/

/-- Nanoseconds as whole milliseconds. -/
def msOf (ns : Nat) : Nat := ns / 1000000

/-- The 80 bytes of a tenant's entry (R417). -/
def tollEntry (t : Nat) (c : TollCnt) : List Byte :=
  leBytes 8 t ++ (c.shelfMs.map (fun n => leBytes 8 (msOf n))).flatten ++ (c.pageMs.map (fun n => leBytes 8 (msOf n))).flatten ++
    leBytes 8 c.bytes ++ leBytes 8 c.cycles ++ leBytes 8 0

/-- A counter of the entry is not zero. -/
def TollCnt.counted (c : TollCnt) : Bool :=
  c.shelfMs.any (fun n => msOf n ≠ 0) || c.pageMs.any (fun n => msOf n ≠ 0) || c.bytes ≠ 0 || c.cycles ≠ 0

/-- The tenants of the record: a counter that is not zero, or a shelf assigned (R417). -/
def State.tollTenants (s : State) : List Nat :=
  (List.range 256).filter (fun t =>
    (s.toll.cnt.rd {} t).counted || [0, 1, 2].any (fun k => s.assignedIn k t ≠ 0))

/-- The record before its signature (R417). -/
def State.tollBody (s : State) : List Byte :=
  let ts := s.tollTenants
  leBytes 4 0x4C4C4F54 ++ leBytes 2 s.self ++ leBytes 2 ts.length ++ leBytes 8 s.toll.interval ++ leBytes 8 s.toll.startWall ++
    leBytes 8 s.time.wall ++ leBytes 4 (160 + 80 * ts.length) ++ leBytes 1 (b2n s.toll.gap + 2 * b2n (s.time.ptp = 0)) ++
    leBytes 27 0 ++ (ts.map (fun t => tollEntry t (s.toll.cnt.rd {} t))).flatten

/-- The 96 bytes of a signature: r then s, most significant byte first (R417). -/
def sigBytes (x : BitVec 384 × BitVec 384) : List Byte := (leBytes 48 x.1.toNat).reverse ++ (leBytes 48 x.2.toNat).reverse

/-- The record of the interval is written to its slot (R418); one that cannot leave is lost. -/
def State.writeToll (s : State) (n : Nat) (record : List Byte) : State :=
  let slot := n % 2 ^ s.fld F.tollBufCfgSlotsLog2
  let ptr := s.fld F.tollBufPtr + 32768 * slot
  match s.writeEp 0 ptr 2 record false (.toll n) with
  | (s, none) => { s with toll := { s.toll with sent := s.toll.sent ++ [(n, BitVec.ofNat 64 ptr)], gap := false } }
  | (s, some _) => { s.bump F.tollStsWriteFail with toll := { (s.bump F.tollStsWriteFail).toll with gap := false } }

/-- TOLL_INTERVAL_END (R417, R418): the interval's counts are closed and its record is written. -/
def execTollIntervalEnd (s : State) : Host.Outcome State Fault Refusal :=
  .next (
    let s := s.waitTill (s.toll.start + s.fld F.tollCtlIntervalMs * 1000000)
    let n := s.toll.interval
    let body := s.tollBody
    let record := body ++ sigBytes (Config.signP384 (Config.sha384 body))
    let s := { s with toll := { s.toll with
      cnt := [], interval := n + 1, start := s.now, startWall := s.time.wall, at_ := s.now } }
    if s.flag F.tollCtlEnable then s.writeToll n record else s)

end Sys2Proof.Machine
end

