-- ==== Sys2Proof/Machine/RegView.lean ====
section
/-! DEFINITION. What each register reads as (R7, R442): stored fields under their reading rules, and the read-only fields
that show the state of a block. -/

namespace Sys2Proof.Machine

/-! ### Words -/

/-- A value in bits [hi:lo] of a word. -/
def put (hi lo v : Nat) : Nat := v % 2 ^ (hi + 1 - lo) * 2 ^ lo

/-- One bit of a word. -/
def putB (n : Nat) (b : Bool) : Nat := b2n b * 2 ^ n

/-- A signed number in `n` bits from bit `lo`. -/
def putI (n lo : Nat) (v : Int) : Nat := (v % (2 ^ n : Nat)).toNat * 2 ^ lo

/-- A number cut off at 2^32 − 1. -/
def cut32 (v : Nat) : Nat := min v (2 ^ 32 - 1)

/-! ### Strongbox records (R412, R415) -/

/-- Bytes 0 to 251 of a record. -/
def BbxRec.body (r : BbxRec) (sticky : Bool) : List Byte :=
  leBytes 8 r.seq ++ leBytes 2 r.kind ++ leBytes 1 r.sev ++ leBytes 1 (b2n sticky) ++ leBytes 4 r.gen ++ leBytes 8 r.wall ++
    leBytes 8 r.mono ++ leBytes 1 (r.cls % 8) ++ leBytes 1 r.index ++ leBytes 2 (r.stage % 16) ++
    (listFit 0 4 r.tj).map (fun t => BitVec.ofInt 8 t) ++ ((listFit 0 4 r.vcore).map (leBytes 2)).flatten ++
    ((listFit 0 4 r.mhz).map (leBytes 2)).flatten ++ leBytes 4 r.ident ++ leBytes 2 (r.tenant % 256) ++ leBytes 2 r.job ++
    leBytes 6 r.position.toNat ++ leBytes 2 r.load ++ leBytes 2 r.p48 ++ leBytes 2 0 ++ listFit 0 176 r.data

/-- The 256 bytes of a record. -/
def BbxRec.bytes (r : BbxRec) (sticky : Bool) : List Byte := r.body sticky ++ leBytes 4 (crc32c (r.body sticky))

/-- The bytes of the record BBX_SEL selects; none where the slot holds no valid record (R415). -/
def State.bbxShown (s : State) : List Byte :=
  let slot := s.fld F.bbxSelSlot
  let sticky := s.fld F.bbxSelArea = 1
  let r := if sticky then s.bbx.sticky[slot]? else s.bbx.ring.find? (fun (r : BbxRec) => r.seq % bbxRing = slot)
  match r with
  | some r => if r.okA || r.okB then r.bytes sticky else []
  | none => []

/-! ### Stored fields -/

/-- The setting of the shaper SCH_SHP_SEL selects, as SCH_SHP_CFG shows it (R336). -/
def State.shpQueue (s : State) : SQueue := s.queue (schedKey (s.fld F.schShpSelPort) (s.fld F.schShpSelTenant) (s.fld F.schShpSelTc))

/-- The committed gate entry TIME_GATE_SEL selects (R140). -/
def State.selGate (s : State) : Gate := Tbl.rd {} (s.job (s.fld F.timeGateSelSlot)).gates (s.fld F.timeGateSelEntry)

/-- The bits a register holds that software can change: its stored word, with the bits other parts of the state hold. -/
def State.heldWord (s : State) (l : Loc) : Nat :=
  let w := s.word l
  match l.reg with
  | .genSts => putB 4 s.gen.mgmtErr
  | .genAlertSts => s.gen.alerts.toNat
  | .ldgSts => putB 27 s.ldg.lost
  | .hbmErrAddr => putB 63 (s.stk.rd {} l.i).errValid
  | .secKeyData => 0
  | .tierWinCtl => insBits w 0 0 (b2n (s.win l.i).on)
  | .timeJobCtl => insBits w 0 0 (b2n (s.job l.i).live)
  | .timeJobPos => if (s.job l.i).live then s.jobPos l.i else w
  | .timeJobEst => if (s.job l.i).live then insBits w 31 0 (s.job l.i).est else w
  | .timeGateW0 => s.selGate.w0.toNat
  | .timeGateW1 => s.selGate.w1.toNat
  | .schShpCfg =>
    let q := s.shpQueue
    put 31 0 q.rate + put 55 32 q.hi + putB 56 q.on
  | .schMtr0Ctl => put 1 0 (s.sw.meters.rd {} (meterKey l.i 0)).mode
  | .schMtr1Ctl => put 1 0 (s.sw.meters.rd {} (meterKey l.i 1)).mode
  | _ => w

/-- The fields of a register that are not write-only, each under its reading rule. -/
def State.plain (s : State) (l : Loc) : Nat :=
  let w := s.heldWord l
  sumOf (l.reg.flds.map (fun f => if f.acc = .wo then 0 else put f.hi f.lo (f.fix.read (bits w f.hi f.lo))))

/-! ### What the read-only fields show -/

/-- The odd port of a merged x16 pair (R19). -/
def State.oddHalf (s : State) (n : Nat) : Bool := n % 2 = 1 && (s.port n).x16

/-- A port has a sieve: its role is CXL-down and it is not the odd port of a merged pair (R271). -/
def State.hasSieve (s : State) (n : Nat) : Bool := (s.port n).role = roleDown && !(s.oddHalf n)

/-- Number of pages pinned (R102, R124). -/
def State.pinnedPages (s : State) : Nat :=
  let of := fun (v : Version) =>
    ((v.pages.filter (fun x => v.pins.any (fun (p : Pin) => p.lo ≤ x.1 && x.1 < p.hi))).filterMap
      (fun x => match x.2 with | .page id => some id | .revoked => none))
  ((s.allVersions.map (fun x => of x.2.2)).flatten.foldl (fun l id => listAdd id l) []).length

/-- Slots of a list with a state as R174 and R225 number them. -/
def slotCode : SlotState → Nat
  | .empty => 0
  | .loading => 1
  | .loaded => 2
  | .unloading => 3

/-- The states of a shelf as RGN_SHELF_INFO numbers them (R90). -/
def shelfCode : ShState → Nat
  | .system => 0
  | .free => 1
  | .assigned => 2
  | .draining => 3
  | .scrubbing => 4
  | .offline => 5

/-- The states of a port as PORT_STS numbers them (R308). -/
def portCode : PState → Nat
  | .down => 0
  | .training => 1
  | .up => 2
  | .held => 3

/-- The ledger's mode as LDG_STS numbers it (R368). -/
def modeCode : LMode → Nat
  | .loc => 0
  | .mirrored => 1
  | .solo => 2
  | .resync => 3

/-- RGN_SHELF_INFO (R90). -/
def State.shelfInfo (s : State) : Nat :=
  let t := s.fld F.rgnShelfSelTier
  let i := s.fld F.rgnShelfSelIndex
  match s.shelf t i with
  | none => 7
  | some h => shelfCode h.st + putB 3 h.common + put 15 8 h.tenant + put 47 16 (s.drainCount t i)

/-- HLT_PART of the part selected (R420). -/
def State.partInfo (s : State) : Nat :=
  let c := s.fld F.hltSelClass
  let i := s.fld F.hltSelIndex
  let x := s.score c i
  let slice := c = clsSlice && i < 32
  let st := if slice && bit s.slc.quarantined.toNat i then 3 else x.st
  put 15 0 x.pts + put 17 16 st + (if slice then put 47 32 (s.slc.bins.rd 0 i).toNat else 0)

/-- SW_MCAST_INFO of the group selected (R334). -/
def State.groupInfo (s : State) : Nat :=
  match s.fab.map.groups.look (s.fld F.swMcastSelGroup) with
  | none => 0
  | some g => 1 + putB 1 g.mark + put 14 8 g.members.length + put 23 16 g.owner

/-- LDG_PEER_STS of the peer selected (R368). -/
def State.peerInfo (s : State) : Nat :=
  let m := s.fld F.ldgPeerSelModule
  let p := s.ldg.peers.rd {} m
  let st := if p.expelled then 3 else if p.suspect then 2 else if s.monitored m then 1 else 0
  st + put 63 32 (cut32 ((s.now - p.heard) / 1000))

/-- The state of a slice (R225): 1 quarantined, 2 held with its quadrant. -/
def State.sliceCode (s : State) (n : Nat) : Nat :=
  if bit s.slc.quarantined.toNat n then 1 else if s.quadOut (n / 8) then 2 else 0

/-- Words W0 to W3 of an entry of a port's violation log (R304). -/
def State.vlogWord (s : State) (n e w : Nat) : Nat :=
  match (s.port n).vlog.look e with
  | none => 0
  | some v =>
    match w with
    | 0 => v.wall % 2 ^ 64
    | 1 => put 7 0 v.code + put 9 8 v.tc + put 31 16 v.src.toNat + put 63 32 v.seq.toNat
    | 2 => v.h0.toNat
    | _ => v.h1.toNat

/-- Stack temperatures from stack `a` on, a signed byte each. -/
def State.stackTemps (s : State) (a n : Nat) : Nat := sumOf ((List.range n).map (fun k => putI 8 (8 * k) (s.pwr.th.getD (a + k) 0)))

/-- What the read-only fields of a register show, beside its stored fields. -/
def State.shown (s : State) (l : Loc) : Nat :=
  let n := l.i
  match l.reg with
  | .genId => 0x46B + put 27 12 0x9400 + put 31 28 (if Config.steppingB0 then 2 else 1)
  | .genSerial => Config.serial.toNat
  | .genSts => put 3 0 s.gen.stage + s.plain l
  | .genMgmtErr =>
    put 2 0 s.gen.errCause + put 6 4 s.gen.errPath + put 23 8 s.gen.errCount + put 59 32 s.gen.errAddr
  | .genAlertSts => s.alertBits
  | .rstSts =>
    s.rst.asserted.toNat + put 15 8 s.rst.last.toNat + putB 16 (s.rst.held ≠ 0 || s.rst.quadWait ≠ 0) +
      put 23 20 s.rst.quads.toNat + put 27 24 s.rst.entry
  | .clkSts =>
    s.plain l + putB 0 s.pwr.refA + putB 1 s.pwr.refB + putB 2 s.pwr.usedB + putB 3 s.pwr.noRef + put 47 32 s.pwr.switches
  | .clkQSts =>
    s.plain l + put 11 0 (s.pwr.mhz.getD n 0) + putB 13 (bit s.pwr.fault.toNat n) + put 18 16 (s.pwr.causes.getD n 0)
  | .pwrSts =>
    s.plain l + put 15 0 s.pwr.mv48 + put 28 16 s.pwr.mvAux + putB 29 s.pwr.good48 + put 34 32 s.pwr.step +
      put 47 36 s.pwr.avg + putB 48 s.pwr.unmet
  | .pwrQSts => put 11 0 (s.pwr.vcore.getD n 0) + putI 8 16 (s.pwr.tj.getD n 0)
  | .pwrHbmTemp0 => s.stackTemps 0 8
  | .pwrHbmTemp1 => s.stackTemps 8 4
  | .secSts => s.plain l + putB 0 s.sec.root.isSome + putB 1 s.secureSession + putB 4 s.sec.bootCopy + put 47 32 s.sec.svn.toNat
  | .secKeyData => 0
  | .secKeySts =>
    b2n (s.sec.keys.look s.selKey).isSome + put 7 4 s.sec.keyErr + (if s.selKind = 0 then put 63 32 (s.keyRefs s.selIndex) else 0)
  | .tqSts => put 11 0 ((List.range 2048).filter s.liveP).length + putB 16 s.running
  | .tqTenSts =>
    b2n ((s.ten n).resetBusy || (s.ten n).resetHeld) + sumOf ((List.range 8).map (fun p => putB (8 + p) (s.ring (8 * n + p)).faulted)) +
      put 63 32 (s.ten n).aborted
  | .tqRingSqPtrs => (s.ring n).tail.toNat + put 63 32 (s.ring n).aidx.toNat
  | .tqRingCqPtrs => (s.ring n).head.toNat + put 63 32 (s.ring n).widx.toNat
  | .tqRingSts => b2n (s.liveP n) + putB 1 (s.ring n).faulted + put 15 8 (s.ring n).code + put 48 32 (s.pendingOf n)
  | .mapSts => s.fab.map.epoch.toNat + putB 32 s.fab.prev.isSome + put 49 33 s.fab.wins.length
  | .rgnSts => s.plain l + put 19 0 s.homed + put 46 22 s.liveVersions
  | .rgnShelfSts => b2n s.rgn.cmdBusy + put 7 4 s.rgn.cmdResult
  | .rgnShelfInfo => s.shelfInfo
  | .rgnTenShelves => put 10 0 (s.assignedIn 0 n) + put 31 15 (s.assignedIn 1 n) + put 50 32 (s.assignedIn 2 n)
  | .rgnTenUsedNear => cut32 (s.chargedTo 0 n)
  | .rgnTenUsedTray => cut32 (s.chargedTo 1 n)
  | .rgnTenUsedCellar => cut32 (s.chargedTo 2 n)
  | .tierSts => put 23 0 ((Tbl.vals s.rgn.pages).filter (fun (g : Page) => g.mv.isSome)).length + put 47 24 s.pinnedPages
  | .tierWinCtl => s.plain l + put 3 1 (s.win n).err
  | .tierWinLead => s.plain l + put 31 24 (s.win n).cur + put 39 32 (s.win n).run
  | .codecSts => ((Tbl.vals s.codec).filter (fun (c : CodecSlot) => c.st = .loaded)).length
  | .codecSlotSts =>
    let c := s.cslot n
    slotCode c.st + put 15 8 c.kind + put 23 16 c.owner + put 28 24 c.cls + put 63 32 (s.codecRefs n)
  | .codecSlotIdent => (s.cslot n).ident
  | .codecTenCtl => s.plain l + put 12 8 (s.slotsOwned n)
  | .timeSts => s.plain l + put 6 0 ((Tbl.vals s.time.jobs).filter (fun (j : Job) => j.live)).length
  | .timeMono => s.time.mono % 2 ^ 64
  | .timePtpNs => s.time.wall % 2 ^ 64
  | .timePtpSts => s.plain l + put 1 0 s.time.ptp + put 63 32 s.time.ptpOffset.toNat
  | .timeJobCtl => s.plain l + put 50 48 (s.job n).err
  | .timeJobRef => (s.job n).tref % 2 ^ 64
  | .timeJobSts => s.plain l + put 26 16 ((s.job n).gates.filter (fun (g : Nat × Gate) => g.2.valid)).length
  | .slcSts =>
    sumOf (s.slicesUp.map (fun k => 2 ^ k)) + put 44 32 (s.invocations (fun _ => true))
  | .slcRcpSts =>
    let k := s.fld F.slcRcpSelSlot
    let r := s.slc.slots.rd {} k
    let steps := match r.img with | some i => i.steps.length | none => 0
    slotCode r.st + put 15 8 r.owner + put 22 16 steps + put 63 32 (s.slotRefs k)
  | .slcRcpIdent => (match (s.slc.slots.rd {} (s.fld F.slcRcpSelSlot)).img with | some i => i.ident | none => 0)
  | .slcTenCtl =>
    s.plain l + put 23 16 ((Tbl.vals s.slc.slots).filter (fun (r : RecipeSlot) => r.st ≠ .empty && r.owner = n)).length
  | .slcSliceSts => s.sliceCode n + put 13 8 (s.sliceLoad n) + put 23 16 (if s.sliceUp n then s.freeTiles n else 0)
  | .swSts =>
    put 19 0 (4 * quadBuffer - sumOf ((List.range 4).map (fun q => s.quadCells q (fun _ => true)))) +
      put 31 24 ((List.range 64).filter s.congested).length
  | .swMcastInfo => s.groupInfo
  | .swOutSts => put 19 0 (s.occ n) + putB 20 (s.congested n) + put 46 32 (s.heldCells n)
  | .schShpSts => putI 32 0 (s.shpQueue.credit / 1000)
  | .ldgSts =>
    s.plain l + put 20 0 s.ldg.entries.length + put 25 24 (modeCode s.ldg.mode) + putB 26 s.ldg.fenced +
      putB 28 (!s.ldg.aborts.isEmpty) + putB 29 s.ldg.takeover + put 63 32 s.ldg.gen
  | .ldgMirrorSts =>
    put 11 0 (s.buddy.getD 0) + putB 12 s.buddy.isSome + put 47 16 (s.outstanding (fun p => p = .mirror))
  | .ldgAtomSts => s.plain l + put 20 0 s.ldg.atoms.length
  | .ldgPeerSts => s.peerInfo
  | .hltPart => s.partInfo
  | .hltMargin => (s.hlt.margins.rd 0 (marginKey (s.fld F.hltSelClass) (s.fld F.hltSelIndex) (s.fld F.hltSelUnit))).toNat
  | .hltRts => putB 32 s.hlt.rtsBusy + put 39 36 s.hlt.rtsResult
  | .bbxSts => s.plain l + put 31 0 s.bbx.next
  | .bbxData => leAt s.bbxShown (8 * n) 8
  | .tollSts => s.plain l + put 31 0 s.toll.lastWritten
  | .portSts => portCode (if (s.port n).st = .up && s.ideWaits n then .training else (s.port n).st) + put 5 4 (s.port n).role + put 9 8 (if (s.port n).st = .held then (s.port n).cause else 0)
  | .portVcnt => s.plain l + put 31 0 (s.port n).vsec
  | .portVlogIdx => s.plain l + put 5 0 (s.port n).vnext
  | .portPhyCtl => if s.oddHalf n then 0 else s.plain l
  | .portPhySts => if s.oddHalf n then 0 else (s.port n).locked.toNat + putB 8 (s.port n).reversed
  | .portPhyCnt => if s.oddHalf n then 0 else s.plain l
  | .portCmis => if s.oddHalf n then 0 else s.plain l + putB 1 (s.port n).cmis
  | .portVlogW0 => s.vlogWord n l.j 0
  | .portVlogW1 => s.vlogWord n l.j 1
  | .portVlogW2 => s.vlogWord n l.j 2
  | .portVlogW3 => s.vlogWord n l.j 3
  | .portSieveCtl => if s.hasSieve n then s.plain l else 0
  | .portSieveSts => if s.hasSieve n then (s.port n).sieve.length else 0
  | .portSieveCnt0 => if s.hasSieve n then s.plain l else 0
  | .portSieveCnt1 => if s.hasSieve n then s.plain l else 0
  | .portSieveCnt2 => if s.hasSieve n then s.plain l else 0
  | .hbmSts => put 1 0 (s.stk.rd {} n).st + put 63 32 (s.stk.rd {} n).chan.toNat
  | .hbmErrAddr => s.plain l + put 36 0 (s.stk.rd {} n).errAddr
  | _ => s.plain l

/-- What a register reads as. -/
def State.regView (s : State) (l : Loc) : W64 := BitVec.ofNat 64 (s.shown l)

end Sys2Proof.Machine
end

