-- ==== Sys2Proof/Machine/RegWrite.lean ====
section
/-! DEFINITION. Register writes (R7, R442, R450–R452): which fields take what is written, what a write to each register does,
and management errors. -/

namespace Sys2Proof.Machine

/-! ### Blocks (R442) -/

/-- The block an address lies in: 0 to 17 in the order of R442, 18 a port block, 19 an HBM block; with its index. -/
def blockAt (a : Nat) : Nat × Nat :=
  if a < 0x01200000 then (a / 0x100000, 0)
  else if a < 0x01600000 then (18, (a - 0x01200000) / 0x10000)
  else (19, (a - 0x01600000) / 0x10000)

/-- The blocks whose registers lie in the Riger island: GEN, RST, CLK, PWR, SEC, TIME, HLT, BBX (R17). -/
def inIsland (b : Nat) : Bool := b ≤ 4 || b = 10 || b = 15 || b = 16

/-- The block is served now (R17, R450). -/
def State.blockServed (s : State) (b : Nat) : Bool := inIsland b || (s.pwr.good48 && !s.rst.active)

/-- The world bit of a block is set (R373, R442); the SEC block is always secure. -/
def State.blockSecure (s : State) (b n : Nat) : Bool :=
  if b = 4 then true
  else if b < 18 then bit (s.fld F.secBlkWorldSecure) b
  else if b = 18 then bit (s.fld F.secPortWorldSecure) n
  else bit (s.fld F.secHbmWorldSecure) n

/-- The control register of a block, whose bit 0 is its LOCK (R451). -/
def ctlOf (b n : Nat) : Loc :=
  let r : Reg := match b with
    | 0 => .genCtl
    | 1 => .rstCtl
    | 2 => .clkCtl
    | 3 => .pwrCtl
    | 4 => .secCtl
    | 5 => .tqCtl
    | 6 => .mapCtl
    | 7 => .rgnCtl
    | 8 => .tierCtl
    | 9 => .codecCtl
    | 10 => .timeCtl
    | 11 => .slcCtl
    | 12 => .swCtl
    | 13 => .schCtl
    | 14 => .ldgCtl
    | 15 => .hltCtl
    | 16 => .bbxCtl
    | 17 => .tollCtl
    | 18 => .portCtl
    | _ => .hbmCtl
  { reg := r, i := n }

/-- The LOCK of a block is set; the TQ block and every other block have one. -/
def State.blockLocked (s : State) (b n : Nat) : Bool := bit (s.word (ctlOf b n)) 0

/-- GEN_CTL.LOCK_ALL (R451): every LOCK, that of SEC only from the secure world. -/
def State.lockAll (s : State) (secure : Bool) : State :=
  let lock := fun (s : State) (b n : Nat) => s.setWord (ctlOf b n) (insBits (s.word (ctlOf b n)) 0 0 1)
  let s := foldS (fun s b => if b = 4 && !secure then s else lock s b 0) s (List.range 18)
  foldS (fun s n => lock s 19 n) (foldS (fun s n => lock s 18 n) s (List.range 64)) (List.range 12)

/-! ### Which fields take a write (R7, R450, R452) -/

/-- What a field does with a write: it takes it; it ignores it as one of another world; or as locked; or it never takes one. -/
inductive Take where
  | yes | world | lock | no
  deriving DecidableEq, Repr

/-- A write-only field that only a secure source may set: BBX_CTL.CLEAR_STICKY (R420). -/
def secureOnly (r : Reg) (f : Fld) : Bool := r = .bbxCtl && f.acc = .wo

/-- How a field of a register meets a write from a world. The world check comes before the LOCK check (R452). -/
def State.takes (s : State) (l : Loc) (secure : Bool) (f : Fld) : Take :=
  let b := blockAt l.addr
  if f.acc = .ro then .no
  else if (f.acc = .rws || secureOnly l.reg f || s.blockSecure b.1 b.2) && !secure then .world
  else if f.acc = .rwl && s.blockLocked b.1 b.2 then .lock
  else .yes

/-- A written field would have changed something (R450): a bit that differs, a 1 on a WO bit, a 1 over a set W1C bit. -/
def Fld.changes (f : Fld) (held v : Nat) : Bool :=
  let a := bits v f.hi f.lo
  let h := bits held f.hi f.lo
  match f.acc with
  | .ro => false
  | .wo => a ≠ 0
  | .w1c => Nat.land a h ≠ 0
  | .rw => a ≠ h
  | .rwl => a ≠ h
  | .rws => a ≠ h

/-- A write as the fields that take it see it: the register's word with the new values of its read-write fields and with
the written 1s of W1C fields cleared; the written bits of its write-only and W1C fields; whether any field takes it. -/
structure Wr where
  w : Nat
  act : Nat
  any : Bool
  deriving DecidableEq, Repr

/-- Sort a written value by the fields that take it. -/
def State.sortWrite (s : State) (l : Loc) (secure : Bool) (v : Nat) : Wr :=
  let held := s.heldWord l
  let step := fun (x : Wr) (f : Fld) =>
    if s.takes l secure f ≠ .yes then x
    else
      let a := bits v f.hi f.lo
      match f.acc with
      | .wo => { x with act := insBits x.act f.hi f.lo a, any := true }
      | .w1c =>
        let h := bits held f.hi f.lo
        { x with act := insBits x.act f.hi f.lo a, w := insBits x.w f.hi f.lo (h - Nat.land h a), any := true }
      | _ => { x with w := insBits x.w f.hi f.lo a, any := true }
  l.reg.flds.foldl step { w := held, act := 0, any := false }

/-- The cause a write raises for what it could not change (R450): 5 before 4. -/
def State.writeCause (s : State) (l : Loc) (secure : Bool) (v : Nat) : Option Nat :=
  let hits := fun (t : Take) => l.reg.flds.any (fun f => s.takes l secure f = t && f.changes (s.heldWord l) v)
  if hits .world then some 5 else if hits .lock then some 4 else none

/-! ### Ring pairs (R30, R53, R56, R60) -/

/-- The code that refuses ENABLE of a pair; 0 when nothing does (R53). -/
def State.enableCode (s : State) (pair : Nat) : Nat :=
  let badPtr := fun (p align : Nat) => !(s.epPort (ptrPort p)) || p % align ≠ 0
  let sq := s.fld F.tqRingCtlSqLog2 pair
  let cq := s.fld F.tqRingCtlCqLog2 pair
  let notify := s.fld F.tqRingNotifyAddrPtr pair
  if badPtr (s.fld F.tqRingSqBasePtr pair) 4096 || badPtr (s.fld F.tqRingCqBasePtr pair) 4096 ||
      badPtr (s.fld F.tqRingAidxAddrPtr pair) 8 || (notify ≠ 0 && badPtr notify 8) then 0x06
  else if (1 ≤ sq && sq ≤ 5) || (1 ≤ cq && cq ≤ 5) || ringSize cq < ringSize sq then 0x07
  else 0

/-- ENABLE is set on a pair: it is checked, and records withheld from before a reset are delivered first (R53, R56). -/
def State.enablePair (s : State) (pair : Nat) : State :=
  match s.enableCode pair with
  | 0 => ((s.setFld F.tqRingCtlEnable 1 pair).sendPrior pair).goOn
  | c + 1 => s.faultPair pair (c + 1)

/-- A write of TQ_RING_CTL: sizes while ENABLE is 0, then ENABLE, then RESET; a pair in reset, or put in reset by this write,
keeps its ENABLE until step 6 of R56. So one write of RESET 1 with ENABLE 0 leaves ENABLE at 1 until then (log entry 194). -/
def State.writeRing (s : State) (l : Loc) (x : Wr) : State :=
  let pair := l.i
  let on := s.flag F.tqRingCtlEnable pair
  let s := s.when (!on) (fun s => s.setWord l (insBits x.w 0 0 0))
  let s :=
    if (s.ring pair).resetting.isSome then s
    else if bit x.w 0 then if on then s else s.enablePair pair
    else if bit x.act 16 then s
    else (s.setFld F.tqRingCtlEnable 0 pair).dropFetches (isFetchOf pair)
  let s := s.noteRing pair
  if bit x.act 16 then (s.startRingReset pair 0x0201).goOn else s

/-- A write of TQ_TEN_RESET (R57, R58): held before stage RUN, ignored while a reset of the tenant runs. -/
def State.writeTenReset (s : State) (t : Nat) : State :=
  if (s.ten t).resetBusy then s
  else if s.running then (s.startTenantReset t).goOn
  else s.modTen t (fun x => { x with resetHeld := true })

/-! ### Registers whose writes act -/

/-- Bits of `n` positions that rise or fall between two words. -/
def rising (old new n : Nat) : List Nat := (List.range n).filter (fun k => bit new k && !(bit old k))
def falling (old new n : Nat) : List Nat := (List.range n).filter (fun k => bit old k && !(bit new k))

/-- A write of CLK_Qn_CTL (R399, R403): a setting outside 1,530–2,070 is ignored; one more than 270 MHz from another
quadrant's setting too, and it sets SET_REFUSED. -/
def State.writeFreq (s : State) (l : Loc) (x : Wr) : State :=
  let f := bits x.w 11 0
  if f < 1530 || f > 2070 then s
  else if (List.range 4).any (fun q => q ≠ l.i && ((s.fld F.clkQCtlFreqMhz q : Int) - f).natAbs > 270) then
    s.setFld F.clkStsSetRefused 1
  else s.setWord l x.w

/-- A write of TIER_TEN_CTL (R124): PLACE and LEAD ignore 3; a LOW not below HIGH becomes HIGH − 10, or 0.
Autonomous moves end when PLACE is no longer ON (R118). -/
def State.writeTier (s : State) (l : Loc) (x : Wr) : State :=
  let keep := fun (w hi lo : Nat) => if bits w hi lo = 3 then insBits w hi lo (bits (s.word l) hi lo) else w
  let w := keep (keep x.w 1 0) 3 2
  let high := bits w 31 24
  let s := s.setWord l (if bits w 39 32 < high then w else insBits w 39 32 (high - 10))
  s.when (s.fld F.tierTenCtlPlace l.i ≠ 2) (fun s => s.stopAuto l.i)

/-- A field whose value 3 is ignored keeps what it holds. -/
def State.writeNot3 (s : State) (l : Loc) (x : Wr) (hi lo : Nat) : State :=
  s.setWord l (if bits x.w hi lo = 3 then insBits x.w hi lo (bits (s.word l) hi lo) else x.w)

/-- A write of TIER_WIN_CTL (R109, R124): while the window is on only ENABLE counts. -/
def State.writeWin (s : State) (l : Loc) (x : Wr) : State :=
  let w := l.i
  if (s.win w).on then if bit x.w 0 then s else (s.winOff w 0).goOn
  else
    let s := s.setWord l (insBits x.w 0 0 0)
    if bit x.w 0 then s.winOn w else s

/-- A write of TIME_JOB_CTL (R127, R128, R149): while the job is live only ENABLE counts. -/
def State.writeJob (s : State) (l : Loc) (x : Wr) : State :=
  let j := l.i
  if (s.job j).live then if bit x.w 0 then s else (s.jobOff j).goOn
  else
    let s := s.setWord l (insBits x.w 0 0 0)
    if bit x.w 0 then (s.jobOn j).goOn else s

/-- A write of TIME_JOB_EST (R137, R143): the guard settings at once, E at the next tick of a live job. -/
def State.writeEstReg (s : State) (l : Loc) (x : Wr) : State :=
  let s := s.setWord l (insBits x.w 31 0 (bits (s.word l) 31 0))
  (s.writeEst l.i (bits x.w 31 0)).evalGates l.i

/-- A write of PORT_HOLD (R306): RELEASE before HOLD. -/
def State.writeHold (s : State) (n act : Nat) : State :=
  let s := s.when (bit act 1) (fun s => (s.releasePort n).goOn)
  s.when (bit act 0) (fun s => s.holdPort n 2)

/-- A write of SEC_KEY_CMD (R375, R378, R384): COMMIT, ACTIVATE, CLEAR in this order. -/
def State.writeKeyCmd (s : State) (act : Nat) : State :=
  let s := s.when (bit act 0) (fun s => s.commitKey)
  let s := s.when (bit act 1) (fun s => s.activateKey)
  s.when (bit act 2) (fun s => s.clearKey)

/-- A write of RST_BLK_PORT or RST_BLK_HBM (R390): bits set put a port or stack in block reset, bits cleared release it. -/
def State.writeBlkPort (s : State) (l : Loc) (x : Wr) : State :=
  let old := s.word l
  let s := s.setWord l x.w
  let s := foldS (fun s n => s.blockPort n) s (rising old x.w 64)
  foldS (fun s n => s.unblockPort n) s (falling old x.w 64)

def State.writeBlkHbm (s : State) (l : Loc) (x : Wr) : State :=
  let old := s.word l
  let s := s.setWord l x.w
  let s := foldS (fun s n => s.blockStack n) s (rising old x.w 12)
  foldS (fun s n => s.unblockStack n) s (falling old x.w 12)

/-- A write of RST_WDT: the watchdog counts from its ENABLE (R392). -/
def State.writeWdt (s : State) (l : Loc) (x : Wr) : State :=
  let rise := bit x.w 0 && !(bit (s.word l) 0)
  (s.setWord l x.w).when rise (fun s => { s with rst := { s.rst with kickAt := s.now } })

/-- A write of RST_CMD (R385): the higher level of the two. -/
def State.writeRstCmd (s : State) (act : Nat) : State :=
  if bit act 1 then s.assertSource 3 true true false else if bit act 0 then s.assertSource 3 false true false else s

/-- A write of LDG_JOB_ABORT: GO requests the step abort (R358). -/
def State.writeAbort (s : State) (act : Nat) : State :=
  if bit act 31 then (s.requestAbort (bits act 23 16) (bits act 15 0)).goOn else s

/-- The management error flag is cleared, and GEN_MGMT_ERR with it (R449). -/
def State.clearMgmt (s : State) : State :=
  { s with gen := { s.gen with mgmtErr := false, errCause := 0, errPath := 0, errCount := 0, errAddr := 0 } }

/-- What a write that some field takes does. -/
def State.effect (s : State) (l : Loc) (secure : Bool) (x : Wr) : State :=
  let n := l.i
  match l.reg with
  | .genCtl => (s.setWord l x.w).when (bit x.act 1) (fun s => s.lockAll secure)
  | .genSts => if bit x.act 4 then s.clearMgmt else s
  | .genAlertSts =>
    { s with gen := { s.gen with alerts := s.gen.alerts &&& ~~~(BitVec.ofNat 12 x.act) } }.alertFrom s
  | .genAlertMask => (s.setWord l x.w).alertFrom s
  | .rstCmd => s.writeRstCmd x.act
  | .rstBlkPort => s.writeBlkPort l x
  | .rstBlkHbm => s.writeBlkHbm l x
  | .rstWdt => s.writeWdt l x
  | .rstWdtKick => s.kick x.act
  | .clkCtl =>
    let t := s.setWord l x.w
    t.when (t.fld F.clkCtlRefSel ≠ s.fld F.clkCtlRefSel) (fun s => s.chooseRef)
  | .clkQCtl => s.writeFreq l x
  | .secBlkWorld => s.setWord l (insBits x.w 4 4 1)
  | .secShelfCmd => (s.setWord l x.w).shelfWorld x.w
  | .secKeyData => s.stageKey (BitVec.ofNat 64 x.w)
  | .secKeyCmd => s.writeKeyCmd x.act
  | .tqTenReset => if bit x.act 0 then s.writeTenReset n else s
  | .tqRingCtl => s.writeRing l x
  | .tqRingSqBase => if s.flag F.tqRingCtlEnable n then s else s.setWord l x.w
  | .tqRingCqBase => if s.flag F.tqRingCtlEnable n then s else s.setWord l x.w
  | .tqRingAidxAddr => if s.flag F.tqRingCtlEnable n then s else s.setWord l x.w
  | .tqRingNotifyAddr => if s.flag F.tqRingCtlEnable n then s else s.setWord l x.w
  | .rgnShelfCmd => (s.shelfCmdWord secure x.act).goOn
  | .tierTenCtl => s.writeTier l x
  | .tierWinCtl => s.writeWin l x
  | .tierWinBase => if (s.win n).on then s else s.setWord l x.w
  | .tierWinStride => if (s.win n).on then s else s.setWord l x.w
  | .tierWinLead => if (s.win n).on then s else s.setWord l x.w
  | .timeGateW0 => { s with time := { s.time with w0 := BitVec.ofNat 64 x.w } }
  | .timeGateW1 => s.gateWrite (BitVec.ofNat 64 x.w)
  | .timeJobCtl => s.writeJob l x
  | .timeJobEst => s.writeEstReg l x
  | .timeJobPos => if (s.job n).live then s else s.setWord l x.w
  | .swCtl => (s.setWord l x.w).pumpWaiting
  | .schShpCfg => s.shaperCommit (x.w + x.act)
  | .schMtr0Ctl => s.meterCommit n 0 (x.w + x.act)
  | .schMtr1Ctl => s.meterCommit n 1 (x.w + x.act)
  | .ldgSts => { s with ldg := { s.ldg with lost := bit x.w 27 } }
  | .ldgJobAbort => s.writeAbort x.act
  | .hltCtl => s.writeNot3 l x 2 1
  | .hltRts => s.rtsStart x.act
  | .bbxCtl => (s.setWord l x.w).when (bit x.act 1) (fun s => s.clearSticky)
  | .portHold => s.writeHold n x.act
  | .portPhyCtl => if (s.port n).role = roleDown || (s.port n).role = roleUp || s.oddHalf n then s else s.writeNot3 l x 1 0
  | .portPhyCnt => if s.oddHalf n then s else s.setWord l x.w
  | .portCmis => if s.oddHalf n then s else s.setWord l x.w
  | .portEp => if (s.port n).st = .training || (s.port n).st = .up then s else s.setWord l x.w
  | .portSieveCtl => if s.hasSieve n then s.setWord l x.w else s
  | .portSieveCnt0 => if s.hasSieve n then s.setWord l x.w else s
  | .portSieveCnt1 => if s.hasSieve n then s.setWord l x.w else s
  | .portSieveCnt2 => if s.hasSieve n then s.setWord l x.w else s
  | .hbmErrAddr =>
    { s with stk := Tbl.upd {} n (fun (y : StackSt) => { y with errValid := bit x.w 63 }) s.stk }
  | _ => s.setWord l x.w

/-- A LOCK that is set stays set (R451): bit 0 of a block's control register. -/
def lockStays (l : Loc) (held : Nat) (x : Wr) : Wr :=
  let b := blockAt l.addr
  if ctlOf b.1 b.2 = l && bit held 0 then { x with w := insBits x.w 0 0 1 } else x

/-- A write of a register that is served: the fields that take it act, and a cause is raised for one that could not. -/
def State.writeLoc (s : State) (l : Loc) (secure : Bool) (v : W64) : State × Option Nat :=
  let x := lockStays l (s.heldWord l) (s.sortWrite l secure v.toNat)
  let c := s.writeCause l secure v.toNat
  let s := if x.any then s.effect l secure x else s
  (s.when (c = some 5) (fun s => s.worldViol), c)

/-! ### Accesses (R442, R447, R450) -/

/-- A management error (R450): the first since the flag was cleared keeps its cause, path and address. -/
def State.mgmtError (s : State) (path addr cause : Nat) : State :=
  let g := s.gen
  { s with gen :=
    if g.mgmtErr then { g with errCount := min 65535 (g.errCount + 1) }
    else { g with mgmtErr := true, errCause := cause, errPath := path, errAddr := addr % 2 ^ 28, errCount := 1 } }

/-- The register an access reaches, or the cause that stops it: alignment, unmapped, not served (R442, R450). -/
def State.reach (s : State) (addr : Nat) : Except Nat Loc :=
  if addr % 8 ≠ 0 then .error 1
  else
    match locate addr with
    | none => .error 2
    | some l => if s.blockServed (blockAt addr).1 then .ok l else .error 3

/-- A write of a register by a path, with the cause it raised. -/
def State.regWrite (s : State) (path : Nat) (secure : Bool) (addr : Nat) (v : W64) : State × Option Nat :=
  match s.reach addr with
  | .error c => (s.mgmtError path addr c, some c)
  | .ok l =>
    match s.writeLoc l secure v with
    | (s, none) => (s, none)
    | (s, some c) => (s.mgmtError path addr c, some c)

/-- A read of a register by a path: its value, and the cause it raised (R450). -/
def State.regRead (s : State) (path : Nat) (addr : Nat) : State × W64 × Option Nat :=
  match s.reach addr with
  | .error c => (s.mgmtError path addr c, 0, some c)
  | .ok l => (s, s.regView l, none)

end Sys2Proof.Machine
end

