-- ==== Sys2Proof/Machine/Mgmt.lean ====
section
/-! DEFINITION. Management access (R443–R447): the paths and what they carry, and the commands that write one register. -/

namespace Sys2Proof.Machine

/-! ### Paths (R369, R443) -/

/-- The number GEN_MGMT_ERR.PATH gives a path (R449). -/
def pathCode : Path → Nat
  | .bar0 _ => 0
  | .eth => 1
  | .i3c => 2
  | .secure => 3
  | .firmware => 4

/-- A path acts from the secure world (R369). -/
def pathSecure : Path → Bool
  | .secure => true
  | .firmware => true
  | _ => false

/-- Register access over Ethernet is on (R445). -/
def State.ethOn (s : State) : Bool := s.flag F.genEthCtlEnable && s.fld F.genEthCtlIp ≠ 0

/-- A path is open: a CXL-up port whose link runs, Ethernet access on, the secure session open; I3C and firmware always. -/
def State.pathOpen (s : State) : Path → Bool
  | .bar0 p => (s.port p.val).role = roleUp && s.linkUp p.val
  | .eth => s.ethOn
  | .i3c => true
  | .secure => s.secureSession
  | .firmware => true

/-- A write of a register that arrives by a path. -/
def State.writeBy (s : State) (path : Path) (addr : Nat) (v : W64) : State :=
  if s.pathOpen path then (s.regWrite (pathCode path) (pathSecure path) addr v).1 else s

/-- The address of a register with its index. -/
def addrOf (r : Reg) (i : Nat := 0) : Nat := (⟨r, i, 0⟩ : Loc).addr

/-- What the fields of a register that are set by writing hold; 0 in its write-only and W1C fields. -/
def State.rwWord (s : State) (l : Loc) : Nat :=
  sumOf (l.reg.flds.map (fun f => if f.acc = .wo || f.acc = .w1c then 0 else put f.hi f.lo (bits (s.heldWord l) f.hi f.lo)))

/-- What a register holds, with bits [hi:lo] replaced: the write that changes this field alone. -/
def State.withField (s : State) (r : Reg) (i hi lo v : Nat) : W64 := BitVec.ofNat 64 (insBits (s.rwWord ⟨r, i, 0⟩) hi lo v)

/-! ### Commands that write one register -/

/-- REGISTER_WRITE (R7): any register. -/
def execRegisterWrite (path : Path) (addr : BitVec 32) (value : W64) (s : State) : Host.Outcome State Fault Refusal :=
  .next (s.writeBy path addr.toNat value)

/-- RING_ENABLE (R30, R53): TQ_RING_CTL of a pair. -/
def execRingEnable (path : Path) (pair : Pair) (value : W64) (s : State) : Host.Outcome State Fault Refusal :=
  .next (s.writeBy path (addrOf .tqRingCtl pair.val) value)

/-- RING_RESET (R56): TQ_RING_CTL.RESET. -/
def execRingReset (path : Path) (pair : Pair) (s : State) : Host.Outcome State Fault Refusal :=
  .next (s.writeBy path (addrOf .tqRingCtl pair.val) (s.withField .tqRingCtl pair.val 16 16 1))

/-- TENANT_RESET (R57, R58): TQ_TEN_RESET.RESET. -/
def execTenantReset (path : Path) (tenant : Tenant) (s : State) : Host.Outcome State Fault Refusal :=
  .next (s.writeBy path (addrOf .tqTenReset tenant.val) 1)

/-- SHELF_ASSIGN (R65): RGN_SHELF_CMD. -/
def execShelfAssign (path : Path) (tier : Tier) (idx : Nat) (tenant : Tenant) (common : Bool) (s : State) :
    Host.Outcome State Fault Refusal :=
  checked s (.shelfAssign path tier idx tenant common) (s.writeBy path (addrOf .rgnShelfCmd) (shelfWord 1 tier.val idx false common tenant.val))

/-- SHELF_REVOKE_EVACUATE (R65): RGN_SHELF_CMD. -/
def execShelfRevokeEvacuate (path : Path) (tier : Tier) (idx : Nat) (s : State) : Host.Outcome State Fault Refusal :=
  checked s (.shelfRevokeEvacuate path tier idx) (s.writeBy path (addrOf .rgnShelfCmd) (shelfWord 2 tier.val idx false false 0))

/-- SHELF_REVOKE_FORCE (R65): RGN_SHELF_CMD. -/
def execShelfRevokeForce (path : Path) (tier : Tier) (idx : Nat) (s : State) : Host.Outcome State Fault Refusal :=
  checked s (.shelfRevokeForce path tier idx) (s.writeBy path (addrOf .rgnShelfCmd) (shelfWord 2 tier.val idx true false 0))

/-- SHELF_ONLINE (R65): RGN_SHELF_CMD. -/
def execShelfOnline (path : Path) (tier : Tier) (idx : Nat) (s : State) : Host.Outcome State Fault Refusal :=
  checked s (.shelfOnline path tier idx) (s.writeBy path (addrOf .rgnShelfCmd) (shelfWord 3 tier.val idx false false 0))

/-- SHELF_WORLD_SET (R371): SEC_SHELF_CMD. -/
def execShelfWorldSet (path : Path) (tier : Tier) (idx : Nat) (secure : Bool) (s : State) :
    Host.Outcome State Fault Refusal :=
  checked s (.shelfWorldSet path tier idx secure) (s.writeBy path (addrOf .secShelfCmd) (BitVec.ofNat 64 (put 1 0 tier.val + putB 2 secure + put 35 16 idx)))

/-- WINDOW_ENABLE (R109): TIER_WIN_CTL of a window. -/
def execWindowEnable (path : Path) (win : Win) (value : W64) (s : State) : Host.Outcome State Fault Refusal :=
  .next (s.writeBy path (addrOf .tierWinCtl win.val) value)

/-- JOB_ENABLE (R127): TIME_JOB_CTL of a slot. -/
def execJobEnable (path : Path) (slot : JobSlot) (value : W64) (s : State) : Host.Outcome State Fault Refusal :=
  .next (s.writeBy path (addrOf .timeJobCtl slot.val) value)

/-- JOB_DISABLE (R128): TIME_JOB_CTL.ENABLE cleared. -/
def execJobDisable (path : Path) (slot : JobSlot) (s : State) : Host.Outcome State Fault Refusal :=
  .next (s.writeBy path (addrOf .timeJobCtl slot.val) (s.withField .timeJobCtl slot.val 0 0 0))

/-- ESTIMATE_WRITE (R137): TIME_JOB_EST of a slot. -/
def execEstimateWrite (path : Path) (slot : JobSlot) (value : W64) (s : State) : Host.Outcome State Fault Refusal :=
  .next (s.writeBy path (addrOf .timeJobEst slot.val) value)

/-- GATE_W0_STAGE (R140): TIME_GATE_W0. -/
def execGateW0Stage (path : Path) (value : W64) (s : State) : Host.Outcome State Fault Refusal :=
  .next (s.writeBy path (addrOf .timeGateW0) value)

/-- GATE_COMMIT (R140): TIME_GATE_W1. -/
def execGateCommit (path : Path) (value : W64) (s : State) : Host.Outcome State Fault Refusal :=
  .next (s.writeBy path (addrOf .timeGateW1) value)

/-- PORT_HOLD (R306): PORT_HOLD.HOLD. -/
def execPortHold (path : Path) (port : Port) (s : State) : Host.Outcome State Fault Refusal :=
  .next (s.writeBy path (addrOf .portHold port.val) 1)

/-- PORT_RELEASE (R306): PORT_HOLD.RELEASE. -/
def execPortRelease (path : Path) (port : Port) (s : State) : Host.Outcome State Fault Refusal :=
  .next (s.writeBy path (addrOf .portHold port.val) 2)

/-- SHAPER_CONFIG (R331): SCH_SHP_CFG of the queue SCH_SHP_SEL selects. -/
def execShaperConfig (path : Path) (value : W64) (s : State) : Host.Outcome State Fault Refusal :=
  .next (s.writeBy path (addrOf .schShpCfg) value)

/-- METER_COMMIT (R331): SCH_MTR0_CTL or SCH_MTR1_CTL of a tenant. -/
def execMeterCommit (path : Path) (tenant : Tenant) (meter : Fin 2) (value : W64) (s : State) :
    Host.Outcome State Fault Refusal :=
  .next (s.writeBy path (addrOf (if meter = 0 then .schMtr0Ctl else .schMtr1Ctl) tenant.val) value)

/-- STEP_ABORT (R358): LDG_JOB_ABORT. -/
def execStepAbort (path : Path) (value : W64) (s : State) : Host.Outcome State Fault Refusal :=
  .next (s.writeBy path (addrOf .ldgJobAbort) value)

/-- KEY_DATA_STAGE (R375): SEC_KEY_DATA. -/
def execKeyDataStage (path : Path) (value : W64) (s : State) : Host.Outcome State Fault Refusal :=
  .next (s.writeBy path (addrOf .secKeyData) value)

/-- KEY_COMMIT (R375): SEC_KEY_CMD.COMMIT. -/
def execKeyCommit (path : Path) (s : State) : Host.Outcome State Fault Refusal :=
  .next (s.writeBy path (addrOf .secKeyCmd) 1)

/-- KEY_ACTIVATE (R378): SEC_KEY_CMD.ACTIVATE. -/
def execKeyActivate (path : Path) (s : State) : Host.Outcome State Fault Refusal :=
  .next (s.writeBy path (addrOf .secKeyCmd) 2)

/-- KEY_CLEAR (R384): SEC_KEY_CMD.CLEAR. -/
def execKeyClear (path : Path) (s : State) : Host.Outcome State Fault Refusal :=
  .next (s.writeBy path (addrOf .secKeyCmd) 4)

/-- RST_CMD_WARM (R385): RST_CMD.WARM. -/
def execRstCmdWarm (path : Path) (s : State) : Host.Outcome State Fault Refusal :=
  .next (s.writeBy path (addrOf .rstCmd) 1)

/-- RST_CMD_COLD (R385): RST_CMD.COLD. -/
def execRstCmdCold (path : Path) (s : State) : Host.Outcome State Fault Refusal :=
  .next (s.writeBy path (addrOf .rstCmd) 2)

/-- PORT_BLOCK_RESET (R390): RST_BLK_PORT. -/
def execPortBlockReset (path : Path) (value : W64) (s : State) : Host.Outcome State Fault Refusal :=
  .next (s.writeBy path (addrOf .rstBlkPort) value)

/-- HBM_BLOCK_RESET (R390): RST_BLK_HBM. -/
def execHbmBlockReset (path : Path) (value : W64) (s : State) : Host.Outcome State Fault Refusal :=
  .next (s.writeBy path (addrOf .rstBlkHbm) value)

/-- WATCHDOG_KICK (R392): RST_WDT_KICK. -/
def execWatchdogKick (path : Path) (value : W64) (s : State) : Host.Outcome State Fault Refusal :=
  .next (s.writeBy path (addrOf .rstWdtKick) value)

/-- QUADRANT_FREQ_WRITE (R399): CLK_Qn_CTL. -/
def execQuadrantFreqWrite (path : Path) (q : Quad) (value : W64) (s : State) : Host.Outcome State Fault Refusal :=
  .next (s.writeBy path (addrOf .clkQCtl q.val) value)

/-- RETURN_TO_SERVICE (R410): HLT_RTS. -/
def execReturnToService (path : Path) (value : W64) (s : State) : Host.Outcome State Fault Refusal :=
  .next (s.writeBy path (addrOf .hltRts) value)

/-- CLEAR_STICKY (R411): BBX_CTL.CLEAR_STICKY. -/
def execClearSticky (path : Path) (s : State) : Host.Outcome State Fault Refusal :=
  .next (s.writeBy path (addrOf .bbxCtl) (s.withField .bbxCtl 0 1 1 1))

/-- The number and index of a block (R442). -/
def blkCode : Blk → Nat × Nat
  | .gen => (0, 0)
  | .rst => (1, 0)
  | .clk => (2, 0)
  | .pwr => (3, 0)
  | .sec => (4, 0)
  | .tq => (5, 0)
  | .map => (6, 0)
  | .rgn => (7, 0)
  | .tier => (8, 0)
  | .codec => (9, 0)
  | .time => (10, 0)
  | .slc => (11, 0)
  | .sw => (12, 0)
  | .sch => (13, 0)
  | .ldg => (14, 0)
  | .hlt => (15, 0)
  | .bbx => (16, 0)
  | .toll => (17, 0)
  | .port n => (18, n.val)
  | .hbm n => (19, n.val)

/-- LOCK_SET (R451): the LOCK bit of a block's control register. -/
def execLockSet (path : Path) (block : Blk) (s : State) : Host.Outcome State Fault Refusal :=
  .next (
    let l := ctlOf (blkCode block).1 (blkCode block).2
    s.writeBy path l.addr (s.withField l.reg l.i 0 0 1))

/-- LOCK_ALL (R451): GEN_CTL.LOCK_ALL. -/
def execLockAll (path : Path) (s : State) : Host.Outcome State Fault Refusal :=
  .next (s.writeBy path (addrOf .genCtl) (s.withField .genCtl 0 1 1 1))

/-! ### BAR0 of CXL-up function 1 (R444) -/

/-- A read at BAR0: 8 bytes, or an aligned half of a register; any other is a management error and returns zero. -/
def State.barRead (s : State) (n addr size : Nat) : State :=
  if size = 8 && addr % 8 = 0 then
    let (s, v, _) := s.regRead 0 addr
    s.emit (.barRead n v)
  else if size = 4 && addr % 4 = 0 then
    let (s, v, _) := s.regRead 0 (addr / 8 * 8)
    s.emit (.barRead n (BitVec.ofNat 64 (if addr % 8 = 0 then bits v.toNat 31 0 else bits v.toNat 63 32)))
  else (s.mgmtError 0 addr 1).emit (.barRead n 0)

/-- BAR0_ACCESS (R444). -/
def execBar0Access (port : Port) (write : Bool) (addr : BitVec 32) (size : Nat) (value : W64) (s : State) :
    Host.Outcome State Fault Refusal :=
  .next (
    let n := port.val
    let a := addr.toNat
    if !(s.pathOpen (.bar0 port)) then s
    else if !write then s.barRead n a size
    else if size = 8 && a % 8 = 0 then (s.regWrite 0 false a value).1
    else s.mgmtError 0 a 1)

/-! ### Register access records (R445) -/

/-- A register access record: op, number, address, data; and whether it is well formed. -/
structure RegRec where
  op : Nat
  seq : W32
  addr : Nat
  data : W64
  ok : Bool
  deriving DecidableEq, Repr

/-- The record of a datagram; none where its length or magic is wrong. -/
def RegRec.of (b : List Byte) : Option RegRec :=
  if b.length ≠ 32 || leAt b 0 2 ≠ 0x4B52 then none
  else
    let op := leAt b 2 1
    let addr := leAt b 8 4
    some { op := op, seq := BitVec.ofNat 32 (leAt b 4 4), addr := addr, data := BitVec.ofNat 64 (leAt b 16 8),
           ok := (op = 1 || op = 2) && addr % 8 = 0 && bits addr 31 28 = 0 && leAt b 13 3 = 0 && leAt b 24 8 = 0 }

/-- The answer to a record. -/
def RegRec.answer (r : RegRec) (status cause : Nat) (data : W64) : List Byte :=
  leBytes 2 0x4B52 ++ leBytes 1 (r.op % 128 + 128) ++ leBytes 1 status ++ leBytes 4 r.seq.toNat ++ leBytes 4 r.addr ++
    leBytes 1 cause ++ leBytes 3 0 ++ leBytes 8 data.toNat ++ leBytes 8 0

/-- A record is applied by a path, and answered. -/
def State.applyRec (s : State) (path : Path) (r : RegRec) : State × List Byte :=
  if !r.ok then (s, r.answer 2 0 0)
  else if r.op = 1 then
    match s.regRead (pathCode path) r.addr with
    | (s, v, none) => (s, r.answer 0 0 v)
    | (s, _, some c) => (s, r.answer 1 c 0)
  else
    match s.regWrite (pathCode path) (pathSecure path) r.addr r.data with
    | (s, none) => (s, r.answer 0 0 0)
    | (s, some c) => (s, r.answer 1 c 0)

/-- Two requests come from one source: the same address and port (R445). -/
def sameSrc (a b : EthSrc) : Bool := a.ip = b.ip && a.port = b.port

/-- A datagram to the register access port (R445): a repeat of the source's kept number is answered from what is kept; the 16
sources heard most recently are kept. -/
def State.ethRecord (s : State) (src : EthSrc) (b : List Byte) : State :=
  match RegRec.of b with
  | none => s
  | some r =>
    if !s.ethOn then s
    else
      let kept := s.gen.ethKept.find? (fun k => sameSrc k.1 src)
      let old := kept.filter (fun k => k.2.1 = r.seq)
      let (s, a) := match old with
        | some k => (s, k.2.2)
        | none => s.applyRec .eth r
      let rest := s.gen.ethKept.filter (fun k => !(sameSrc k.1 src))
      { s with gen := { s.gen with ethKept := ((src, r.seq, a) :: rest).take 16 } }.emit (.eth src a)

/-- ETH_REGISTER_READ (R445). -/
def execEthRegisterRead (src : EthSrc) (rec : List Byte) (s : State) : Host.Outcome State Fault Refusal :=
  .next (s.ethRecord src rec)

/-- ETH_REGISTER_WRITE (R445). -/
def execEthRegisterWrite (src : EthSrc) (rec : List Byte) (s : State) : Host.Outcome State Fault Refusal :=
  .next (s.ethRecord src rec)

/-- ARP_REQUEST (R445): answered for the address in GEN_ETH_CTL.IP. -/
def execArpRequest (ip : BitVec 32) (mac : BitVec 48) (s : State) : Host.Outcome State Fault Refusal :=
  .next (if s.ethOn && s.fld F.genEthCtlIp = ip.toNat then s.emit (.arp ip mac) else s)

/-- SECURE_REGISTER_ACCESS (R372, R443): a record within the secure session. -/
def execSecureRegisterAccess (rec : List Byte) (s : State) : Host.Outcome State Fault Refusal :=
  .next (
    match RegRec.of rec with
    | none => s
    | some r =>
      if !s.secureSession then s
      else
        let (s, a) := s.applyRec .secure r
        s.emit (.secured a))

/-! ### I3C (R434, R446) -/

/-- A private write: 12 bytes write a register, 4 bytes set the read address, any other length is a management error. -/
def State.i3cWrite (s : State) (b : List Byte) : State :=
  if b.length = 12 then (s.regWrite 2 false (leAt b 0 4) (BitVec.ofNat 64 (leAt b 4 8))).1
  else if b.length = 4 then { s with gen := { s.gen with i3cRead := BitVec.ofNat 32 (leAt b 0 4) } }
  else s.mgmtError 2 0 1

/-- I3C_REGISTER_WRITE (R446). -/
def execI3cRegisterWrite (bytes : List Byte) (s : State) : Host.Outcome State Fault Refusal := .next (s.i3cWrite bytes)

/-- I3C_SET_READ_ADDRESS (R446). -/
def execI3cSetReadAddress (bytes : List Byte) (s : State) : Host.Outcome State Fault Refusal := .next (s.i3cWrite bytes)

/-- I3C_REGISTER_READ (R446): the register at the read address, which does not advance. -/
def execI3cRegisterRead (s : State) : Host.Outcome State Fault Refusal :=
  .next (
    let (t, v, _) := s.regRead 2 s.gen.i3cRead.toNat
    t.emit (.i3c (leBytes 8 v.toNat)))

/-- I3C_DYNAMIC_ADDRESS (R434): SETDASA at the static address or ENTDAA gives the module its dynamic address. -/
def execI3cDynamicAddress (_viaStatic : Bool) (addr : BitVec 7) (s : State) : Host.Outcome State Fault Refusal :=
  .next { s with gen := { s.gen with i3cDyn := some addr } }

/-! ### Boundary scan (R436) -/

/-- IDCODE of the part (R436). -/
def idcode : W32 := if Config.steppingB0 then 0x2940046B#32 else 0x1940046B#32

/-- An operation acts as itself: EXTEST-type operations only in stage FAULT; others act as BYPASS. -/
def State.tapActs (s : State) (i : TapInstr) : TapInstr :=
  match i with
  | .bypass => .bypass
  | .idcode => .idcode
  | .samplePreload => .samplePreload
  | .other => .bypass
  | _ => if s.gen.stage = stFault then i else .bypass

/-- TAP_INSTRUCTION (R436): the operation selected; IDCODE shifts out the part's code. -/
def execTapInstruction (ir : TapInstr) (s : State) : Host.Outcome State Fault Refusal :=
  .next (
    let t := s.tapActs ir
    { s with gen := { s.gen with tap := t } }.when (decide (t = TapInstr.idcode)) (fun s => s.emit (.tdo idcode)))

end Sys2Proof.Machine
end

