-- ==== Sys2Proof/Machine/Dispatch.lean ====
section
/-! DEFINITION. One arm per command. -/

namespace Sys2Proof.Machine

def exec (i : Instr) (s : State) : Host.Outcome State Fault Refusal :=
  match i with
  | .submissionDoorbell src off size value => Sys2Proof.Machine.execSubmissionDoorbell src off size value s
  | .completionDoorbell src off size value => Sys2Proof.Machine.execCompletionDoorbell src off size value s
  | .descriptorAccept pair => Sys2Proof.Machine.execDescriptorAccept pair s
  | .descriptorStart lsn => Sys2Proof.Machine.execDescriptorStart lsn s
  | .descriptorComplete lsn => Sys2Proof.Machine.execDescriptorComplete lsn s
  | .nop lsn => Sys2Proof.Machine.execNop lsn s
  | .move lsn => Sys2Proof.Machine.execMove lsn s
  | .alloc lsn => Sys2Proof.Machine.execAlloc lsn s
  | .free lsn => Sys2Proof.Machine.execFree lsn s
  | .openVersion lsn => Sys2Proof.Machine.execOpenVersion lsn s
  | .seal lsn => Sys2Proof.Machine.execSeal lsn s
  | .publish lsn => Sys2Proof.Machine.execPublish lsn s
  | .publishHolderSeal home region version tag => Sys2Proof.Machine.execPublishHolderSeal home region version tag s
  | .retire lsn => Sys2Proof.Machine.execRetire lsn s
  | .hold lsn => Sys2Proof.Machine.execHold lsn s
  | .release lsn => Sys2Proof.Machine.execRelease lsn s
  | .promote lsn => Sys2Proof.Machine.execPromote lsn s
  | .demote lsn => Sys2Proof.Machine.execDemote lsn s
  | .invoke lsn => Sys2Proof.Machine.execInvoke lsn s
  | .fence lsn => Sys2Proof.Machine.execFence lsn s
  | .mark lsn => Sys2Proof.Machine.execMark lsn s
  | .queryRegion lsn => Sys2Proof.Machine.execQueryRegion lsn s
  | .queryVersions lsn => Sys2Proof.Machine.execQueryVersions lsn s
  | .queryHolds lsn => Sys2Proof.Machine.execQueryHolds lsn s
  | .querySubparts lsn => Sys2Proof.Machine.execQuerySubparts lsn s
  | .queryUsage lsn => Sys2Proof.Machine.execQueryUsage lsn s
  | .queryAdvice lsn => Sys2Proof.Machine.execQueryAdvice lsn s
  | .loadRecipe lsn => Sys2Proof.Machine.execLoadRecipe lsn s
  | .loadTable lsn => Sys2Proof.Machine.execLoadTable lsn s
  | .ringEnable path pair value => Sys2Proof.Machine.execRingEnable path pair value s
  | .ringReset path pair => Sys2Proof.Machine.execRingReset path pair s
  | .tenantReset path tenant => Sys2Proof.Machine.execTenantReset path tenant s
  | .registerWrite path addr value => Sys2Proof.Machine.execRegisterWrite path addr value s
  | .shelfAssign path tier idx tenant common => Sys2Proof.Machine.execShelfAssign path tier idx tenant common s
  | .shelfRevokeEvacuate path tier idx => Sys2Proof.Machine.execShelfRevokeEvacuate path tier idx s
  | .shelfRevokeForce path tier idx => Sys2Proof.Machine.execShelfRevokeForce path tier idx s
  | .shelfOnline path tier idx => Sys2Proof.Machine.execShelfOnline path tier idx s
  | .evacuationDone tier idx => Sys2Proof.Machine.execEvacuationDone tier idx s
  | .drainComplete tier idx => Sys2Proof.Machine.execDrainComplete tier idx s
  | .scrubComplete tier idx => Sys2Proof.Machine.execScrubComplete tier idx s
  | .scrubTimeout tier idx => Sys2Proof.Machine.execScrubTimeout tier idx s
  | .shelfWorldSet path tier idx secure => Sys2Proof.Machine.execShelfWorldSet path tier idx secure s
  | .orphanHoldExpiry region version => Sys2Proof.Machine.execOrphanHoldExpiry region version s
  | .pageMoveSwitch page verified => Sys2Proof.Machine.execPageMoveSwitch page verified s
  | .stallBoundExpiry stall => Sys2Proof.Machine.execStallBoundExpiry stall s
  | .placementScan => Sys2Proof.Machine.execPlacementScan s
  | .adviceExpiry tenant => Sys2Proof.Machine.execAdviceExpiry tenant s
  | .windowEnable path win value => Sys2Proof.Machine.execWindowEnable path win value s
  | .windowLayerStage win => Sys2Proof.Machine.execWindowLayerStage win s
  | .windowLayerLanded win => Sys2Proof.Machine.execWindowLayerLanded win s
  | .jobEnable path slot value => Sys2Proof.Machine.execJobEnable path slot value s
  | .jobDisable path slot => Sys2Proof.Machine.execJobDisable path slot s
  | .ulpMark port h payload => Sys2Proof.Machine.execUlpMark port h payload s
  | .stepInEdge => Sys2Proof.Machine.execStepInEdge s
  | .positionResolve slot => Sys2Proof.Machine.execPositionResolve slot s
  | .estimateWrite path slot value => Sys2Proof.Machine.execEstimateWrite path slot value s
  | .gateW0Stage path value => Sys2Proof.Machine.execGateW0Stage path value s
  | .gateCommit path value => Sys2Proof.Machine.execGateCommit path value s
  | .guardBandStart slot entry => Sys2Proof.Machine.execGuardBandStart slot entry s
  | .guardBandExpire slot entry => Sys2Proof.Machine.execGuardBandExpire slot entry s
  | .ptpMessage master offset => Sys2Proof.Machine.execPtpMessage master offset s
  | .ppsEdge => Sys2Proof.Machine.execPpsEdge s
  | .subpartStart lsn k slice => Sys2Proof.Machine.execSubpartStart lsn k slice s
  | .budgetExhausted cx => Sys2Proof.Machine.execBudgetExhausted cx s
  | .phaseCommit cx => Sys2Proof.Machine.execPhaseCommit cx s
  | .finalSectionStart lsn slice => Sys2Proof.Machine.execFinalSectionStart lsn slice s
  | .invokeComplete lsn => Sys2Proof.Machine.execInvokeComplete lsn s
  | .workCommit lsn => Sys2Proof.Machine.execWorkCommit lsn s
  | .workKeyExpiry tenant work => Sys2Proof.Machine.execWorkKeyExpiry tenant work s
  | .loadTile cx => Sys2Proof.Machine.execLoadTile cx s
  | .storeTile cx => Sys2Proof.Machine.execStoreTile cx s
  | .decode cx => Sys2Proof.Machine.execDecode cx s
  | .encode cx => Sys2Proof.Machine.execEncode cx s
  | .macTile cx => Sys2Proof.Machine.execMacTile cx s
  | .vecAdd cx => Sys2Proof.Machine.execVecAdd cx s
  | .vecSub cx => Sys2Proof.Machine.execVecSub cx s
  | .vecMul cx => Sys2Proof.Machine.execVecMul cx s
  | .vecFma cx => Sys2Proof.Machine.execVecFma cx s
  | .vecDiv cx => Sys2Proof.Machine.execVecDiv cx s
  | .vecSqrt cx => Sys2Proof.Machine.execVecSqrt cx s
  | .vecExp2 cx => Sys2Proof.Machine.execVecExp2 cx s
  | .vecLog2 cx => Sys2Proof.Machine.execVecLog2 cx s
  | .vecRcp cx => Sys2Proof.Machine.execVecRcp cx s
  | .vecRsqrt cx => Sys2Proof.Machine.execVecRsqrt cx s
  | .vecMin cx => Sys2Proof.Machine.execVecMin cx s
  | .vecMax cx => Sys2Proof.Machine.execVecMax cx s
  | .vecMulRow cx => Sys2Proof.Machine.execVecMulRow cx s
  | .vecSumRow cx => Sys2Proof.Machine.execVecSumRow cx s
  | .vecMaxRow cx => Sys2Proof.Machine.execVecMaxRow cx s
  | .vecScale cx => Sys2Proof.Machine.execVecScale cx s
  | .scalarMovi cx => Sys2Proof.Machine.execScalarMovi cx s
  | .scalarAdd cx => Sys2Proof.Machine.execScalarAdd cx s
  | .scalarAddi cx => Sys2Proof.Machine.execScalarAddi cx s
  | .scalarSub cx => Sys2Proof.Machine.execScalarSub cx s
  | .scalarMul cx => Sys2Proof.Machine.execScalarMul cx s
  | .scalarShl cx => Sys2Proof.Machine.execScalarShl cx s
  | .scalarShr cx => Sys2Proof.Machine.execScalarShr cx s
  | .scalarAnd cx => Sys2Proof.Machine.execScalarAnd cx s
  | .scalarOr cx => Sys2Proof.Machine.execScalarOr cx s
  | .scalarXor cx => Sys2Proof.Machine.execScalarXor cx s
  | .scalarLd cx => Sys2Proof.Machine.execScalarLd cx s
  | .scalarSt cx => Sys2Proof.Machine.execScalarSt cx s
  | .softmaxStep cx => Sys2Proof.Machine.execSoftmaxStep cx s
  | .exactAcc cx => Sys2Proof.Machine.execExactAcc cx s
  | .exactRound cx => Sys2Proof.Machine.execExactRound cx s
  | .gather cx => Sys2Proof.Machine.execGather cx s
  | .scatter cx => Sys2Proof.Machine.execScatter cx s
  | .xorPopcount cx => Sys2Proof.Machine.execXorPopcount cx s
  | .heapInsert cx => Sys2Proof.Machine.execHeapInsert cx s
  | .heapDrain cx => Sys2Proof.Machine.execHeapDrain cx s
  | .compareSelect cx => Sys2Proof.Machine.execCompareSelect cx s
  | .compact cx => Sys2Proof.Machine.execCompact cx s
  | .prefetch cx => Sys2Proof.Machine.execPrefetch cx s
  | .send cx => Sys2Proof.Machine.execSend cx s
  | .recv cx => Sys2Proof.Machine.execRecv cx s
  | .recvTimeout cx => Sys2Proof.Machine.execRecvTimeout cx s
  | .messageArrive m => Sys2Proof.Machine.execMessageArrive m s
  | .messageHoldExpiry n => Sys2Proof.Machine.execMessageHoldExpiry n s
  | .waitMark cx => Sys2Proof.Machine.execWaitMark cx s
  | .waitMarkTimeout cx => Sys2Proof.Machine.execWaitMarkTimeout cx s
  | .atomic cx => Sys2Proof.Machine.execAtomic cx s
  | .loop cx => Sys2Proof.Machine.execLoop cx s
  | .branchIf cx => Sys2Proof.Machine.execBranchIf cx s
  | .emitStore cx => Sys2Proof.Machine.execEmitStore cx s
  | .emitResult cx => Sys2Proof.Machine.execEmitResult cx s
  | .ulpLoad port h => Sys2Proof.Machine.execUlpLoad port h s
  | .ulpStore port h data => Sys2Proof.Machine.execUlpStore port h data s
  | .ulpWriteFlag port h data => Sys2Proof.Machine.execUlpWriteFlag port h data s
  | .ulpAtomic port h data => Sys2Proof.Machine.execUlpAtomic port h data s
  | .ulpFence port h => Sys2Proof.Machine.execUlpFence port h s
  | .ulpAttach port h data => Sys2Proof.Machine.execUlpAttach port h data s
  | .ulpDetach port h => Sys2Proof.Machine.execUlpDetach port h s
  | .mapUpdate port h u => Sys2Proof.Machine.execMapUpdate port h u s
  | .mapGet port h => Sys2Proof.Machine.execMapGet port h s
  | .loadRsp port h data => Sys2Proof.Machine.execLoadRsp port h data s
  | .atomicRsp port h data => Sys2Proof.Machine.execAtomicRsp port h data s
  | .ack port h data => Sys2Proof.Machine.execAck port h data s
  | .fenceAck port h data => Sys2Proof.Machine.execFenceAck port h data s
  | .attachRsp port h data => Sys2Proof.Machine.execAttachRsp port h data s
  | .nak port h => Sys2Proof.Machine.execNak port h s
  | .resend port h => Sys2Proof.Machine.execResend port h s
  | .drain port h => Sys2Proof.Machine.execDrain port h s
  | .mapAck port h => Sys2Proof.Machine.execMapAck port h s
  | .linkFrame port f => Sys2Proof.Machine.execLinkFrame port f s
  | .linkRetryRequest port seq => Sys2Proof.Machine.execLinkRetryRequest port seq s
  | .linkDown port => Sys2Proof.Machine.execLinkDown port s
  | .linkTrained port locked full reversed => Sys2Proof.Machine.execLinkTrained port locked full reversed s
  | .ackTimerExpiry ep tc => Sys2Proof.Machine.execAckTimerExpiry ep tc s
  | .retxTimerExpiry ep tc => Sys2Proof.Machine.execRetxTimerExpiry ep tc s
  | .epochAdoptTimeout n => Sys2Proof.Machine.execEpochAdoptTimeout n s
  | .violationSecondRollover => Sys2Proof.Machine.execViolationSecondRollover s
  | .portHold path port => Sys2Proof.Machine.execPortHold path port s
  | .portRelease path port => Sys2Proof.Machine.execPortRelease path port s
  | .windowReferenceWrite port win word value => Sys2Proof.Machine.execWindowReferenceWrite port win word value s
  | .cxlMemRequest port write off len data => Sys2Proof.Machine.execCxlMemRequest port write off len data s
  | .ideKeyExchange port txKey rxKey => Sys2Proof.Machine.execIdeKeyExchange port txKey rxKey s
  | .cellArrive cell => Sys2Proof.Machine.execCellArrive cell s
  | .cellGapExpiry inp out tc => Sys2Proof.Machine.execCellGapExpiry inp out tc s
  | .streamGapExpiry ep tc => Sys2Proof.Machine.execStreamGapExpiry ep tc s
  | .messageAdmit m => Sys2Proof.Machine.execMessageAdmit m s
  | .unitStart out => Sys2Proof.Machine.execUnitStart out s
  | .shaperConfig path value => Sys2Proof.Machine.execShaperConfig path value s
  | .meterCommit path tenant meter value => Sys2Proof.Machine.execMeterCommit path tenant meter value s
  | .mirrorStore port h data => Sys2Proof.Machine.execMirrorStore port h data s
  | .atomicRecordExpiry ep tag seq => Sys2Proof.Machine.execAtomicRecordExpiry ep tag seq s
  | .stepAbort path value => Sys2Proof.Machine.execStepAbort path value s
  | .livenessProbe peer => Sys2Proof.Machine.execLivenessProbe peer s
  | .peerSuspect peer => Sys2Proof.Machine.execPeerSuspect peer s
  | .resyncComplete => Sys2Proof.Machine.execResyncComplete s
  | .stageAdvance r => Sys2Proof.Machine.execStageAdvance r s
  | .stageTimeout => Sys2Proof.Machine.execStageTimeout s
  | .keyDataStage path value => Sys2Proof.Machine.execKeyDataStage path value s
  | .keyCommit path => Sys2Proof.Machine.execKeyCommit path s
  | .keyActivate path => Sys2Proof.Machine.execKeyActivate path s
  | .keyClear path => Sys2Proof.Machine.execKeyClear path s
  | .linkCounterLimit port rx kslot => Sys2Proof.Machine.execLinkCounterLimit port rx kslot s
  | .spdmGetVersion via => Sys2Proof.Machine.execSpdmGetVersion via s
  | .spdmGetCapabilities via => Sys2Proof.Machine.execSpdmGetCapabilities via s
  | .spdmNegotiateAlgorithms via algs => Sys2Proof.Machine.execSpdmNegotiateAlgorithms via algs s
  | .spdmGetDigests via => Sys2Proof.Machine.execSpdmGetDigests via s
  | .spdmGetCertificate via slot off len => Sys2Proof.Machine.execSpdmGetCertificate via slot off len s
  | .spdmChallenge via slot nonce => Sys2Proof.Machine.execSpdmChallenge via slot nonce s
  | .spdmGetMeasurements via index nonce => Sys2Proof.Machine.execSpdmGetMeasurements via index nonce s
  | .spdmKeyExchange via share => Sys2Proof.Machine.execSpdmKeyExchange via share s
  | .spdmFinish via root ok => Sys2Proof.Machine.execSpdmFinish via root ok s
  | .spdmHeartbeat via => Sys2Proof.Machine.execSpdmHeartbeat via s
  | .spdmEndSession via => Sys2Proof.Machine.execSpdmEndSession via s
  | .porstNAssert => Sys2Proof.Machine.execPorstNAssert s
  | .mrstNAssert => Sys2Proof.Machine.execMrstNAssert s
  | .wrstNAssert => Sys2Proof.Machine.execWrstNAssert s
  | .resetPinRelease pin => Sys2Proof.Machine.execResetPinRelease pin s
  | .rstCmdWarm path => Sys2Proof.Machine.execRstCmdWarm path s
  | .rstCmdCold path => Sys2Proof.Machine.execRstCmdCold path s
  | .resetStretchExpiry => Sys2Proof.Machine.execResetStretchExpiry s
  | .mramPulseEnd => Sys2Proof.Machine.execMramPulseEnd s
  | .portBlockReset path value => Sys2Proof.Machine.execPortBlockReset path value s
  | .hbmBlockReset path value => Sys2Proof.Machine.execHbmBlockReset path value s
  | .watchdogKick path value => Sys2Proof.Machine.execWatchdogKick path value s
  | .watchdogExpiry silent => Sys2Proof.Machine.execWatchdogExpiry silent s
  | .criticalEccError q => Sys2Proof.Machine.execCriticalEccError q s
  | .power48vGood mv => Sys2Proof.Machine.execPower48vGood mv s
  | .power48vLost mv => Sys2Proof.Machine.execPower48vLost mv s
  | .auxPowerGood mv i3cAddr bscanN => Sys2Proof.Machine.execAuxPowerGood mv i3cAddr bscanN s
  | .powerLimiterSample avgW mv => Sys2Proof.Machine.execPowerLimiterSample avgW mv s
  | .thermalSample quads stks => Sys2Proof.Machine.execThermalSample quads stks s
  | .thermalTrip isStack idx deg => Sys2Proof.Machine.execThermalTrip isStack idx deg s
  | .refclkLoss b => Sys2Proof.Machine.execRefclkLoss b s
  | .refclkReturn b => Sys2Proof.Machine.execRefclkReturn b s
  | .neighbourCompare mhz mv deg => Sys2Proof.Machine.execNeighbourCompare mhz mv deg s
  | .quadrantFreqWrite path q value => Sys2Proof.Machine.execQuadrantFreqWrite path q value s
  | .crossingTimeout q => Sys2Proof.Machine.execCrossingTimeout q s
  | .scoreDecay => Sys2Proof.Machine.execScoreDecay s
  | .serdesScan port lane mv mui => Sys2Proof.Machine.execSerdesScan port lane mv mui s
  | .hbmScan stk chan pct => Sys2Proof.Machine.execHbmScan stk chan pct s
  | .opticalScan port lane power warn => Sys2Proof.Machine.execOpticalScan port lane power warn s
  | .knownAnswerTest slice pass vector => Sys2Proof.Machine.execKnownAnswerTest slice pass vector s
  | .shadowThirdRun cx third agree => Sys2Proof.Machine.execShadowThirdRun cx third agree s
  | .returnToService path value => Sys2Proof.Machine.execReturnToService path value s
  | .returnToServiceEnd pass => Sys2Proof.Machine.execReturnToServiceEnd pass s
  | .clearSticky path => Sys2Proof.Machine.execClearSticky path s
  | .tollIntervalEnd => Sys2Proof.Machine.execTollIntervalEnd s
  | .patrolRead stk addr result => Sys2Proof.Machine.execPatrolRead stk addr result s
  | .ethRegisterRead src rec => Sys2Proof.Machine.execEthRegisterRead src rec s
  | .ethRegisterWrite src rec => Sys2Proof.Machine.execEthRegisterWrite src rec s
  | .arpRequest ip mac => Sys2Proof.Machine.execArpRequest ip mac s
  | .i3cRegisterWrite bytes => Sys2Proof.Machine.execI3cRegisterWrite bytes s
  | .i3cSetReadAddress bytes => Sys2Proof.Machine.execI3cSetReadAddress bytes s
  | .i3cRegisterRead => Sys2Proof.Machine.execI3cRegisterRead s
  | .i3cDynamicAddress viaStatic addr => Sys2Proof.Machine.execI3cDynamicAddress viaStatic addr s
  | .bar0Access port write addr size value => Sys2Proof.Machine.execBar0Access port write addr size value s
  | .lockSet path block => Sys2Proof.Machine.execLockSet path block s
  | .lockAll path => Sys2Proof.Machine.execLockAll path s
  | .fenceTimeout lsn => Sys2Proof.Machine.execFenceTimeout lsn s
  | .secureRegisterAccess rec => Sys2Proof.Machine.execSecureRegisterAccess rec s
  | .tapInstruction ir => Sys2Proof.Machine.execTapInstruction ir s
  | .cxlCompletion port tag res => Sys2Proof.Machine.execCxlCompletion port tag res s
  | .holderAnswer home tag res slack => Sys2Proof.Machine.execHolderAnswer home tag res slack s
  | .moveSubpartRequest home tag mv => Sys2Proof.Machine.execMoveSubpartRequest home tag mv s
  | .stackRetrainComplete stk ok => Sys2Proof.Machine.execStackRetrainComplete stk ok s
  | .cxlRetrainDelayExpiry port => Sys2Proof.Machine.execCxlRetrainDelayExpiry port s
  | .resetPulseEnd bit => Sys2Proof.Machine.execResetPulseEnd bit s
  | .railRegulationTimeout rail => Sys2Proof.Machine.execRailRegulationTimeout rail s
  | .switchSlot => Sys2Proof.Machine.execSwitchSlot s
  | .windowStatusRead port word => Sys2Proof.Machine.execWindowStatusRead port word s

end Sys2Proof.Machine
end

