-- ==== Sys2Proof/Safety.lean ====
section
/-! DEFINITION. What counts as a safe run, and the words the statements are written in: a command's next state, a context that
stands at a step, the state after a step has retired, and what two states have in common. -/

namespace Sys2Proof.Machine

/-! ### Safe runs -/

/-- A step answers a next state: the module neither stops nor turns the command away. -/
def goesOn (o : Host.Outcome State Fault Refusal) : Prop := ∃ t, o = .next t

/-- Every command of a queue can be carried by a wire, a record or a register of the spec. -/
def carried (q : List Instr) : Prop := ∀ c ∈ q, c.wf = true

/-- `n` steps from a state all answer a next state. -/
def safeFor : Nat → State → Prop
  | 0, _ => True
  | n + 1, s => ∃ t, step s = .next t ∧ safeFor n t

/-- The stage codes of R21: the eight boot stages and two bring-up stages 0 to 9, and FAULT, 15. -/
def stageLegal (n : Nat) : Prop := n ≤ 9 ∨ n = 15

/-! ### Recipe steps (R200, R206, R211, R217) -/

/-- Context `cx` stands ready at a step whose primitive is `op`, and may run it: its descriptor runs, the module is not
fenced, its slice is in service and has passed the present bin, and steps of its budget are left (R16, R206, R217, R407); it
runs the image's steps, not a library recipe phase by phase (log entry 157). -/
structure Stands (s : State) (cx op : Nat) (r : Run) : Prop where
  isCx : r.cx = cx
  context : s.ctx cx = some r.c
  invocation : s.inv r.c.lsn = some r.v
  entry : s.entry r.c.lsn = some r.e
  step : r.v.img.steps[r.c.pc]? = some r.st
  prim : r.st.op = op
  ready : r.c.status = .ready
  running : r.e.running = true
  unfenced : s.ldg.fenced = false
  going : s.halting r.e = false
  inService : s.sliceUp r.c.slice = true
  tested : s.sliceTested r.c.slice = true
  budget : r.c.used < r.v.img.budget
  stepwise : r.c.lib = none

/-- The context after its step has retired as `c` with control at `pc`: loops that end there run again or end (R211), the step
counts against the budget, and a COMMIT step or the end of the section ends the phase (R206). -/
def Run.retired (r : Run) (c : Ctx) (pc : Nat) : Ctx :=
  { c with
    pc := (closeLoops c.loops pc c.regs).1,
    loops := (closeLoops c.loops pc c.regs).2.1,
    regs := (closeLoops c.loops pc c.regs).2.2,
    used := c.used + 1,
    status := if r.st.commit || (closeLoops c.loops pc c.regs).1 > r.v.img.lastStep c.sub then .commit 0 else .ready,
    pass := false }

/-- The state with context `cx` as given, and nothing else changed. -/
def State.withCtx (s : State) (cx : Nat) (c : Ctx) : State :=
  { s with slc := { s.slc with ctxs := Tbl.ins cx c s.slc.ctxs } }

/-- The little-endian 32-bit elements of a tile, `n` of them from its byte 0. -/
def Run.elems (r : Run) (t n : Nat) : List Nat := wordsOf 4 (Bytes.rd r.c.scratch (tileSize * t) (4 * n))

/-- The scratch memory with a byte list at byte 0 of a tile. -/
def Run.tileWith (r : Run) (t : Nat) (data : List Byte) : Bytes := Bytes.wr r.c.scratch (tileSize * t) data

/-! ### Descriptors (R39, R46, R363) -/

/-- Descriptor `lsn` of the given opcode runs, on a module that is not fenced. -/
structure Working (s : State) (lsn op : Nat) (e : Entry) : Prop where
  entry : s.entry lsn = some e
  running : e.running = true
  opcode : e.opcode = op
  unfenced : s.ldg.fenced = false
  going : s.halting e = false

/-! ### What every step keeps (R20, R21, R343) -/

/-- The boot stage is one of R20's, so is the stage a reset in effect will enter, and the mirror half is a memory in its one
form. -/
structure Sound (s : State) : Prop where
  stage : stageLegal s.gen.stage
  entry : stageLegal s.rst.entryMin
  mirror : Memory.wf s.ldg.mirrorHalf = true

/-! ### Register accesses (R369, R442, R450, R452) -/

/-- A path is open and the block of a register is served: an access by the path reaches the register (R17, R443, R450). -/
structure Reaches (s : State) (path : Path) (l : Loc) : Prop where
  opened : s.pathOpen path = true
  served : s.blockServed (blockAt l.addr).1 = true
  located : locate l.addr = some l
  aligned : l.addr % 8 = 0

/-- An access reaches a register, and comes from a world that may write its block (R369, R373, R452). -/
structure Accepts (s : State) (path : Path) (r : Reg) (i : Nat) : Prop where
  opened : s.pathOpen path = true
  served : s.blockServed (blockAt (addrOf r i)).1 = true
  world : pathSecure path = true ∨ s.blockSecure (blockAt (addrOf r i)).1 (blockAt (addrOf r i)).2 = false

/-- Registers whose write does nothing but set their fields. -/
def plainReg : Reg → Bool
  | .genCtl | .genSts | .genAlertSts | .genAlertMask | .rstCmd | .rstBlkPort | .rstBlkHbm | .rstWdt | .rstWdtKick | .clkCtl
  | .clkQCtl | .secBlkWorld | .secShelfCmd | .secKeyData | .secKeyCmd | .tqTenReset | .tqRingCtl | .tqRingSqBase
  | .tqRingCqBase | .tqRingAidxAddr | .tqRingNotifyAddr | .rgnShelfCmd | .tierTenCtl | .tierWinCtl | .tierWinBase
  | .tierWinStride | .tierWinLead | .timeGateW0 | .timeGateW1 | .timeJobCtl | .timeJobEst | .timeJobPos | .schShpCfg
  | .schMtr0Ctl | .schMtr1Ctl | .ldgSts | .ldgJobAbort | .hltCtl | .hltRts | .bbxCtl | .portHold | .portPhyCtl
  | .portPhyCnt | .portCmis | .portEp | .portSieveCtl | .portSieveCnt0 | .portSieveCnt1 | .portSieveCnt2
  | .hbmErrAddr => false
  | _ => true

/-- The word a write of a register leaves in its read-write fields (R7). -/
def State.newWord (s : State) (path : Path) (l : Loc) (v : W64) : Nat := (s.sortWrite l (pathSecure path) v.toNat).w

/-- The block of a number and index of R442's list exists. -/
def blockIs (b n : Nat) : Prop := (b < 18 ∧ n = 0) ∨ (b = 18 ∧ n < 64) ∨ (b = 19 ∧ n < 12)

/-! ### Messages (R285, R302, R303, R359) -/

/-- A message comes in at a ULP port that is up and not held, and is no violation once its source has been heard. -/
structure Comes (s : State) (n ty : Nat) (h : Hdr) (payload : List Byte) : Prop where
  port : s.ulpIn n = true
  notShut : s.shut n = false
  form : (s.hear h.src.toNat).violation n ty h payload = none

/-- A request comes to the stream as `g` with failure `deny`, in state `u`: from an endpoint by the edge check, its payload
counted, or refused by the edge, which a fenced module does with FENCED; from a module as it is, with the failure its edge
found. -/
def Passes (s : State) (n ty : Nat) (h g : Hdr) (deny : Option (Nat × Nat)) (u : State) : Prop :=
  (h.ext = false ∧ s.ldg.fenced = false ∧ s.edgeCheck n ty h = .ok g ∧ deny = none ∧
      u = s.when (ty ≠ tyLoad) (fun s => s.tollBytes g.xTenant g.len)) ∨
    (h.ext = false ∧ s.ldg.fenced = false ∧ (∃ f, s.edgeCheck n ty h = .error f ∧ deny = some f) ∧ g = h ∧ u = s.edgeDeny n) ∨
    (h.ext = false ∧ s.ldg.fenced = true ∧ deny = some (St.fenced, 0x0D01) ∧ g = h ∧ u = s) ∨
    (h.ext = true ∧ g = h ∧ u = s ∧ deny = if h.status = 0 then none else some (h.status.toNat, h.detail.toNat))

end Sys2Proof.Machine
end

