-- ==== Sys2Proof/Certificates/Slice0/Obligations.lean ====
section
/-! DEFINITION. The statements for the provers, each from the rules of the spec it names. -/

section
open Sys2Proof Sys2Proof.Machine

/-! ### The module as a whole -/

/-- The step takes the front command and gives exec the rest of the queue; every command completes. -/
def Obligations.StepRunsTheFrontCommand : Prop :=
  (∀ (c : Instr) (cs : List Instr) (s : State), step { s with pending := c :: cs } = exec c { s with pending := cs }) ∧
  (∀ (c : Instr) (s : State), ∃ t : State, exec c s = .next t ∧ (c.wf = false → t = s))

/-- A step on an empty queue (the model's choice, log entry 2). -/
def Obligations.IdleStepLetsATickPass : Prop :=
  ∀ (s : State), s.pending = [] →
    ∃ t : State, step s = .next t ∧ t.time = { s.time with mono := s.time.mono + 8, wall := s.time.wall + 8 } ∧
      t = { s with time := t.time, toll := t.toll, sw := t.sw, pwr := t.pwr, regs := t.regs, fab := t.fab } ∧
      (∃ c, t.toll = { s.toll with cnt := c }) ∧ (∃ q, t.sw = { s.sw with queues := q }) ∧
      (∃ a b, t.pwr = { s.pwr with thrNs := a, thermNs := b }) ∧
      t.fab = (if s.time.mono / 1000000000 = (s.time.mono + 8) / 1000000000 then s.fab
        else { s.fab with ports := s.fab.ports.mapV (fun _ (p : PortSt) => { p with vsec := 0 }) })

/-- State.reset against R21 and the register tables. -/
def Obligations.ResetIsPowerOn : Prop :=
  State.reset.pending = [] ∧ State.reset.gen.stage = 0 ∧ State.reset.ldg.entries = [] ∧ State.reset.rgn.regions = [] ∧
    State.reset.rgn.pages = [] ∧ State.reset.time.jobs = [] ∧ State.reset.sec.keys = [] ∧ State.reset.bbx.ring = [] ∧
    State.reset.fld F.rgnCtlOrphanHold = 100 ∧ State.reset.gen.mgmtErr = false ∧
    (∀ p : Pair, State.reset.flag F.tqRingCtlEnable p.val = false) ∧ Sound State.reset

/-- The invariant of R20's stages and of the mirror half's memory. -/
def Obligations.StepKeepsSound : Prop :=
  ∀ (s t : State), Sound s → step s = .next t → Sound t

/-- R20's order of stages: never skipped, and FAULT left by a reset only. -/
def Obligations.StagesGoInOrder : Prop :=
  ∀ (s t : State), step s = .next t → s.rst.active = false → t.rst.active = false →
    (t.gen.stage = s.gen.stage ∨ (s.gen.stage ≤ 8 ∧ t.gen.stage = s.gen.stage + 1) ∨ t.gen.stage = 15) ∧
      (s.gen.stage = 15 → t.gen.stage = 15)

/-- Read after write, and the frame of a write. -/
def Obligations.BytesReadBack : Prop :=
  ∀ (m : Bytes) (a : Nat) (d : List Byte),
    (∀ k, (Bytes.wr m a d).get k = if a ≤ k ∧ k < a + d.length then d.getD (k - a) 0 else m.get k) ∧
      Bytes.rd (Bytes.wr m a d) a d.length = d ∧ (Memory.wf m = true → Memory.wf (Bytes.wr m a d) = true)

/-! ### Recipe steps -/

/-- The scalar register forms (R212) run wherever the context may run its step (R206, R217): register GA receives the
wrapping 64-bit result, the step retires, and the rest of the module is as it was. -/
def Obligations.ScalarRegisterFormsWriteGA : Prop :=
  ∀ (s : State) (cx : Nat) (r : Run), Stands s cx 0x06 r →
    let gb := r.c.regs.getD (r.st.b % 32) 0
    let gc := r.c.regs.getD (r.st.c % 32) 0
    let ends := fun (v : W64) =>
      Host.Outcome.next (s.withCtx cx (r.retired { r.c with regs := r.c.regs.set (r.st.a % 32) v } (r.c.pc + 1)))
    (r.st.m 7 0 = 0x80 → exec (.scalarMovi cx) s = ends r.st.imm) ∧
    (r.st.m 7 0 = 0x81 → exec (.scalarAdd cx) s = ends (gb + gc)) ∧
    (r.st.m 7 0 = 0x82 → exec (.scalarAddi cx) s = ends (gb + r.st.imm)) ∧
    (r.st.m 7 0 = 0x83 → exec (.scalarSub cx) s = ends (gb - gc)) ∧
    (r.st.m 7 0 = 0x84 → exec (.scalarMul cx) s = ends (gb * gc)) ∧
    (r.st.m 7 0 = 0x85 → exec (.scalarShl cx) s = ends (gb <<< (gc.toNat % 64))) ∧
    (r.st.m 7 0 = 0x86 → exec (.scalarShr cx) s = ends (gb >>> (gc.toNat % 64))) ∧
    (r.st.m 7 0 = 0x87 → exec (.scalarAnd cx) s = ends (gb &&& gc)) ∧
    (r.st.m 7 0 = 0x88 → exec (.scalarOr cx) s = ends (gb ||| gc)) ∧
    (r.st.m 7 0 = 0x89 → exec (.scalarXor cx) s = ends (gb ^^^ gc))

/-- LD and ST of R212. -/
def Obligations.ScalarScratchForms : Prop :=
  ∀ (s : State) (cx : Nat) (r : Run), Stands s cx 0x06 r →
    let a := (r.c.regs.getD (r.st.b % 32) 0 + r.st.imm).toNat
    let gc := r.c.regs.getD (r.st.c % 32) 0
    (a % 8 = 0 ∧ a + 8 ≤ 16384 * r.v.img.scratch →
      (r.st.m 7 0 = 0x8A →
        exec (.scalarLd cx) s = .next (s.withCtx cx (r.retired
          { r.c with regs := r.c.regs.set (r.st.a % 32) (BitVec.ofNat 64 (leNat (Bytes.rd r.c.scratch a 8))) } (r.c.pc + 1)))) ∧
      (r.st.m 7 0 = 0x8B →
        ∃ m : Bytes,
          exec (.scalarSt cx) s = .next (s.withCtx cx (r.retired { r.c with scratch := m } (r.c.pc + 1))) ∧
          (∀ k, k < 8 → Bytes.get m (a + k) = gc.extractLsb' (8 * k) 8) ∧
          (∀ x, x < a ∨ a + 8 ≤ x → Bytes.get m x = Bytes.get r.c.scratch x))) ∧
    (¬(a % 8 = 0 ∧ a + 8 ≤ 16384 * r.v.img.scratch) →
      (r.st.m 7 0 = 0x8A → exec (.scalarLd cx) s = .next (s.faultSub cx St.malformed 0x0801)) ∧
      (r.st.m 7 0 = 0x8B → exec (.scalarSt cx) s = .next (s.faultSub cx St.malformed 0x0801)))

/-- The element-wise vector forms of R212 over the operations of R184. -/
def Obligations.VectorElementForms : Prop :=
  ∀ (s : State) (cx : Nat) (r : Run), Stands s cx 0x06 r →
    let n := r.st.n
    let bs := r.elems r.st.b n
    let cs := r.elems r.st.c n
    let ds := r.elems r.st.d n
    let ends := fun (out : List Nat) =>
      Host.Outcome.next (s.withCtx cx (r.retired { r.c with scratch := r.tileWith r.st.a (bytes32 out) } (r.c.pc + 1)))
    r.tileOk r.st.a (4 * n) = true → r.tileOk r.st.b (4 * n) = true →
    ((∀ p ∈ ([(0x05, Instr.vecSqrt, sqrt32), (0x06, Instr.vecExp2, exp232), (0x07, Instr.vecLog2, log232),
              (0x08, Instr.vecRcp, rcp32), (0x09, Instr.vecRsqrt, rsqrt32),
              (0x0F, Instr.vecScale, fun x => mul32 x (r.st.i 63 32))] : List (Nat × (Nat → Instr) × (Nat → Nat))),
        r.st.m 7 0 = p.1 → exec (p.2.1 cx) s = ends (bs.map p.2.2)) ∧
     (r.tileOk r.st.c (4 * n) = true →
       (∀ p ∈ ([(0x00, Instr.vecAdd, add32), (0x01, Instr.vecSub, sub32), (0x02, Instr.vecMul, mul32),
                (0x04, Instr.vecDiv, div32), (0x0A, Instr.vecMin, min32), (0x0B, Instr.vecMax, max32)] :
                List (Nat × (Nat → Instr) × (Nat → Nat → Nat))),
          r.st.m 7 0 = p.1 → exec (p.2.1 cx) s = ends (List.zipWith p.2.2 bs cs)) ∧
       (r.tileOk r.st.d (4 * n) = true → r.st.m 7 0 = 0x03 →
          exec (.vecFma cx) s = ends ((List.range n).map (fun i => fma32 (bs.getD i 0) (cs.getD i 0) (ds.getD i 0))))))

/-- The row forms of R212. -/
def Obligations.VectorRowForms : Prop :=
  ∀ (s : State) (cx : Nat) (r : Run), Stands s cx 0x06 r →
    let n := r.st.n
    let w := r.st.i 31 16
    let bs := r.elems r.st.b n
    let ends := fun (out : List Nat) =>
      Host.Outcome.next (s.withCtx cx (r.retired { r.c with scratch := r.tileWith r.st.a (bytes32 out) } (r.c.pc + 1)))
    let row := fun (j : Nat) => (bs.drop (w * j)).take w
    (w ≠ 0 ∧ n % w = 0 ∧ r.tileOk r.st.b (4 * n) = true →
      (r.st.m 7 0 = 0x0C → r.tileOk r.st.c (4 * (n / w)) = true → r.tileOk r.st.a (4 * n) = true →
        exec (.vecMulRow cx) s = ends ((List.range n).map (fun i =>
          mul32 (bs.getD i 0) ((r.elems r.st.c (n / w)).getD (i / w) 0)))) ∧
      (r.st.m 7 0 = 0x0D → r.tileOk r.st.a (4 * (n / w)) = true →
        exec (.vecSumRow cx) s = ends ((List.range (n / w)).map (fun j => foldRow add32 (row j)))) ∧
      (r.st.m 7 0 = 0x0E → r.tileOk r.st.a (4 * (n / w)) = true →
        exec (.vecMaxRow cx) s = ends ((List.range (n / w)).map (fun j => foldRow max32 (row j))))) ∧
    (¬(w ≠ 0 ∧ n % w = 0) →
      ∀ p ∈ ([(0x0C, Instr.vecMulRow), (0x0D, Instr.vecSumRow), (0x0E, Instr.vecMaxRow)] : List (Nat × (Nat → Instr))),
        r.st.m 7 0 = p.1 → exec (p.2 cx) s = .next (s.faultSub cx St.malformed 0x0801))

/-- DECODE and ENCODE of R211. -/
def Obligations.DecodeAndEncodeSteps : Prop :=
  ∀ (s : State) (cx : Nat) (r : Run) (kc : KcTable),
    let n := r.st.i 15 0
    let sf := r.st.m 7 0
    let tf := r.st.m 15 8
    (Stands s cx 0x03 r → s.kcFor r sf r.st.d = .ok kc →
      (fmtBlock sf = true → fmtElem tf = true → n % (unitOf sf).1 = 0 → n * (unitOf tf).2 ≤ 16384 →
        r.tileOk r.st.b (n / (unitOf sf).1 * (unitOf sf).2) = true →
        let src := Bytes.rd r.c.scratch (16384 * r.st.b) (n / (unitOf sf).1 * (unitOf sf).2)
        let out := ((rangeDec kc sf src).map (fun x => leBytes (unitOf tf).2 (elemEnc tf x))).flatten
        r.tileOk r.st.a out.length = true →
        exec (.decode cx) s =
          .next (s.withCtx cx (r.retired { r.c with scratch := r.tileWith r.st.a out } (r.c.pc + 1)))) ∧
      (n % (unitOf sf).1 ≠ 0 → exec (.decode cx) s = .next (s.faultSub cx St.malformed 0x0801))) ∧
    (Stands s cx 0x04 r → ∀ t, s.encodeSlot r = (t, none) →
      (fmtBlock tf = true → n % (unitOf tf).1 = 0 → r.tileOk r.st.b (4 * n) = true →
        let enc := rangeEnc (s.kcOf (r.st.i 19 16)) tf ((r.elems r.st.b n).map f32.dec)
        r.tileOk r.st.a enc.1.length = true →
        exec (.encode cx) s =
          .next ((t.bump F.codecCnt0NanBlocks 0 0 enc.2).retire r
            { r.c with scratch := r.tileWith r.st.a enc.1 } (r.c.pc + 1)) ∧
        (tf ≠ fmtKc → t = s)) ∧
      (n % (unitOf tf).1 ≠ 0 → exec (.encode cx) s = .next (s.faultSub cx St.malformed 0x0801))) ∧
    (Stands s cx 0x04 r → ∀ t st d, s.encodeSlot r = (t, some (st, d)) → d ≠ 0x080D →
      exec (.encode cx) s = .next (s.faultSub cx st d))

/-- MAC_TILE (R457), over the dot products of R182 and R183. -/
def Obligations.MacTileWritesProducts : Prop :=
  ∀ (s : State) (cx : Nat) (r : Run) (g : Nat) (kc : KcTable) (am bm : List (List Machine.Num)), Stands s cx 0x05 r →
    let fa := r.st.i 7 0
    let fb := r.st.i 15 8
    let k := r.st.i 28 16
    let m := 8 * (r.st.i 35 32 + 1)
    let n := 8 * (r.st.i 39 36 + 1)
    let bt := r.st.i 40 40 = 1
    macGroupOf fa fb = some g → 8 ≤ k → k ≤ 4096 → k % g = 0 → m * n ≤ 4096 → (fb = 0x23 → bt) →
    s.kcFor r fb r.st.d = .ok kc →
    r.matrix kc r.st.a 0 fa m k = .ok am →
    (if bt then r.matrix kc r.st.b (r.st.m 13 0) fb n k else r.matrix kc r.st.b (r.st.m 13 0) fb k n) = .ok bm →
    r.tileOk r.st.c (4 * (m * n)) = true →
    ∃ out : List Nat, out.length = m * n ∧
      (∀ i j, i < m → j < n →
        out.getD (i * n + j) 0 =
          macOut fa g (if r.st.i 41 41 = 1 then 0 else (r.elems r.st.c (m * n)).getD (i * n + j) 0)
            (am.getD i []) (if bt then bm.getD j [] else column bm j)) ∧
      exec (.macTile cx) s =
        .next (s.withCtx cx (r.retired { r.c with scratch := r.tileWith r.st.c (bytes32 out) } (r.c.pc + 1)))

/-- SOFTMAX_STEP (R213). -/
def Obligations.SoftmaxStepUpdatesRows : Prop :=
  ∀ (s : State) (cx : Nat) (r : Run), Stands s cx 0x07 r →
    let f := r.st.m 7 0
    let rows := r.st.i 7 0
    let cols := r.st.i 23 8
    let enc := fun (x : Nat) => leBytes (unitOf f).2 (elemEnc f (f32.dec x))
    let one := f32.enc (.ofInt 1)
    let rowOf := fun (i : Nat) => ((r.elems r.st.b (rows * cols)).drop (cols * i)).take cols
    let st := fun (i k : Nat) => (r.elems r.st.c (3 * rows)).getD (3 * i + k) 0
    let m2 := fun (i : Nat) => (rowOf i).foldl max32 (st i 0)
    let isMin := fun (i : Nat) => f32.dec (m2 i) = .inf true
    let cOf := fun (i : Nat) => if isMin i then one else exp232 (sub32 (st i 0) (m2 i))
    let pOf := fun (i : Nat) => (rowOf i).map (fun x => if isMin i then 0 else exp232 (sub32 x (m2 i)))
    let lOf := fun (i : Nat) => add32 (mul32 (st i 1) (cOf i)) (foldRow add32 (pOf i))
    let ps := ((List.range rows).map (fun i => ((pOf i).map enc).flatten)).flatten
    let ss := bytes32 ((List.range rows).map (fun i => [m2 i, lOf i, cOf i])).flatten
    (f = 1 ∨ f = 2 ∨ f = 4) → 1 ≤ rows → rows ≤ 64 → 1 ≤ cols → cols ≤ 4096 →
    r.tileOk r.st.b (4 * (rows * cols)) = true → r.tileOk r.st.c (4 * (3 * rows)) = true →
    r.tileOk r.st.a ps.length = true →
    exec (.softmaxStep cx) s =
      .next (s.withCtx cx (r.retired
        { r.c with scratch := Bytes.wr (r.tileWith r.st.a ps) (16384 * r.st.c) ss } (r.c.pc + 1)))

/-- EXACT_ACC and EXACT_ROUND (R186–R188, R211). -/
def Obligations.QuernSteps : Prop :=
  ∀ (s : State) (cx : Nat) (r : Run) (bank : List Lane) (kc : KcTable),
    let f := r.st.m 7 0
    let b := r.st.m 9 8
    let clears := r.st.m 10 10 = 1
    let rows := r.st.i 15 0
    let lanes := r.st.i 22 16
    r.c.quern[b]? = some bank → 1 ≤ lanes → lanes ≤ 64 →
    (Stands s cx 0x08 r → accFormat f = true → s.kcFor r f r.st.d = .ok kc → rows ≤ 4096 → rows * lanes % (unitOf f).1 = 0 →
      let size := rows * lanes / (unitOf f).1 * (unitOf f).2
      r.tileOk r.st.a size = true →
      let data := chunks lanes (addends kc f (Bytes.rd r.c.scratch (16384 * r.st.a) size))
      let sum := addRows (if clears then List.replicate 64 {} else bank) data
      (∀ l, sum = some l →
        exec (.exactAcc cx) s =
          .next (s.withCtx cx (r.retired { r.c with quern := r.c.quern.set b l } (r.c.pc + 1)))) ∧
      (sum = none → exec (.exactAcc cx) s = .next (s.faultSub cx St.malformed 0x0804))) ∧
    (Stands s cx 0x09 r →
      ∀ out nans, roundLanes f (bank.take lanes) = some (out, nans) → r.tileOk r.st.a out.length = true →
        exec (.exactRound cx) s =
          .next ((s.bump F.codecCnt0NanBlocks 0 0 nans).withCtx cx (r.retired
            { r.c with
              scratch := r.tileWith r.st.a out,
              quern := if clears then r.c.quern.set b (List.replicate 64 {}) else r.c.quern } (r.c.pc + 1))))

/-- R186: the sum does not depend on the order in which addends arrive; R192: the same for QW40 partials. -/
def Obligations.QuernSumIgnoresOrder : Prop :=
  (∀ (l : Lane) (xs ys : List Machine.Num), xs.Perm ys → xs.foldl Lane.addNum l = ys.foldl Lane.addNum l) ∧
  (∀ (l : Lane) (xs ys : List Nat), xs.Perm ys → xs.foldl Lane.addQw l = ys.foldl Lane.addQw l) ∧
  (∀ (l : Lane) (xs ys : List Addend), xs.Perm ys → xs.foldl Lane.addOne l = ys.foldl Lane.addOne l)

/-- XOR_POPCOUNT, HEAP_INSERT and HEAP_DRAIN (R211). -/
def Obligations.SieveSteps : Prop :=
  ∀ (s : State) (cx : Nat) (r : Run),
    (Stands s cx 0x0C r →
      let w := r.st.i 15 0
      let n := r.st.i 31 16
      64 ≤ w → w ≤ 4096 → w % 64 = 0 → r.tileOk r.st.b (w / 8) = true → r.tileOk r.st.c (w / 8 * n) = true →
      r.tileOk r.st.a (2 * n) = true →
      let q := leNat (Bytes.rd r.c.scratch (16384 * r.st.b) (w / 8))
      let cand := fun (j : Nat) => leNat (Bytes.rd r.c.scratch (16384 * r.st.c + w / 8 * j) (w / 8))
      let out := ((List.range n).map (fun j => leBytes 2 (popcount w (Nat.xor q (cand j))))).flatten
      exec (.xorPopcount cx) s =
        .next (s.withCtx cx (r.retired { r.c with scratch := r.tileWith r.st.a out } (r.c.pc + 1)))) ∧
    (Stands s cx 0x0D r →
      let fp := r.st.m 0 0 = 1
      let n := r.st.i 15 0
      let ks := if fp then 4 else 2
      let cap := r.v.img.heap
      r.tileOk r.st.a (ks * n) = true → r.tileOk r.st.b (8 * n) = true →
      let keys := wordsOf ks (Bytes.rd r.c.scratch (16384 * r.st.a) (ks * n))
      let pays := wordsOf 8 (Bytes.rd r.c.scratch (16384 * r.st.b) (8 * n))
      let ins := (keys.zip pays).filter (fun x => !(decide fp && (f32.dec x.1).isNan))
      let h := ins.foldl (fun h x =>
        (heapIns (heapBefore fp (r.st.m 1 1 = 1)) (x.1, BitVec.ofNat 64 x.2) h).take cap) r.c.heap
      let worst := if cap = 0 ∨ h.length < cap then 2 ^ 64 - 1 else (h.getLast?.map Prod.fst).getD 0
      exec (.heapInsert cx) s =
        .next (s.withCtx cx (r.retired
          { r.c with heap := h, regs := r.c.regs.set (r.st.d % 32) (BitVec.ofNat 64 worst) } (r.c.pc + 1)))) ∧
    (Stands s cx 0x0E r →
      let out := (r.c.heap.map (fun x => leBytes 8 x.1 ++ leBytes 8 x.2.toNat)).flatten
      r.tileOk r.st.a out.length = true →
      exec (.heapDrain cx) s =
        .next (s.withCtx cx (r.retired
          { r.c with
            scratch := r.tileWith r.st.a out, heap := [],
            regs := r.c.regs.set (r.st.b % 32) (BitVec.ofNat 64 r.c.heap.length) } (r.c.pc + 1))))

/-- COMPARE_SELECT and COMPACT (R211). -/
def Obligations.SelectionSteps : Prop :=
  ∀ (s : State) (cx : Nat) (r : Run),
    (Stands s cx 0x0F r →
      let f := r.st.m 7 0
      let p := r.st.m 11 8
      let n := (r.c.regs.getD (r.st.c % 32) 0).toNat
      let b := (unitOf f).2
      (f = 1 ∨ f = 2 ∨ f = 3 ∨ f = 6 ∨ f = 7) → p ≤ 6 → r.tileOk r.st.b (n * b) = true →
      let elem := fun (i : Nat) => leNat (Bytes.rd r.c.scratch (16384 * r.st.b + b * i) b)
      let hit := (List.range n).map (fun i =>
        predHolds p (elemDec f (elem i)) (f32.dec (r.st.i 31 0)) (f32.dec (r.st.i 63 32)))
      r.tileOk r.st.a (bitsToBytes hit).length = true →
      exec (.compareSelect cx) s =
        .next (s.withCtx cx (r.retired
          { r.c with
            scratch := r.tileWith r.st.a (bitsToBytes hit),
            regs := r.c.regs.set (r.st.d % 32) (BitVec.ofNat 64 (hit.filter id).length) } (r.c.pc + 1)))) ∧
    (Stands s cx 0x10 r →
      let rb := r.st.i 15 0
      let rows := r.st.i 31 16
      rb ≠ 0 → rb % 8 = 0 → r.tileOk r.st.b (rb * rows) = true → r.tileOk r.st.c ((rows + 7) / 8) = true →
      let row := fun (j : Nat) => Bytes.rd r.c.scratch (16384 * r.st.b + rb * j) rb
      let chosen := fun (j : Nat) => bit (Bytes.get r.c.scratch (16384 * r.st.c + j / 8)).toNat (j % 8)
      let sel := ((List.range rows).filter chosen).map row
      r.tileOk r.st.a sel.flatten.length = true →
      exec (.compact cx) s =
        .next (s.withCtx cx (r.retired
          { r.c with
            scratch := r.tileWith r.st.a sel.flatten,
            regs := r.c.regs.set (r.st.d % 32) (BitVec.ofNat 64 sel.length) } (r.c.pc + 1))))

/-- LOOP, BRANCH_IF and PREFETCH (R211). -/
def Obligations.ControlSteps : Prop :=
  ∀ (s : State) (cx : Nat) (r : Run),
    (Stands s cx 0x16 r →
      let count := if r.st.m 0 0 = 1 then r.st.i 47 16 else (r.c.regs.getD (r.st.a % 32) 0).toNat
      let last := r.st.i 7 0
      (count = 0 → exec (.loop cx) s = .next (s.withCtx cx (r.retired r.c (last + 1)))) ∧
      (0 < count → exec (.loop cx) s = .next (s.withCtx cx (r.retired
        { r.c with
          loops := { first := r.c.pc + 1, last := last, reg := r.st.b % 32, idx := 0, count := count } :: r.c.loops,
          regs := r.c.regs.set (r.st.b % 32) 0 } (r.c.pc + 1))))) ∧
    (Stands s cx 0x17 r →
      let x := r.c.regs.getD (r.st.a % 32) 0
      let y : W64 := if r.st.m 4 4 = 1 then (BitVec.ofNat 32 (r.st.i 63 32)).signExtend 64 else r.c.regs.getD (r.st.b % 32) 0
      let goes := fun (taken : Bool) =>
        exec (.branchIf cx) s = .next (s.withCtx cx (r.retired r.c (if taken then r.st.i 7 0 else r.c.pc + 1)))
      (r.st.m 3 0 = 0 → goes (decide (x = y))) ∧
      (r.st.m 3 0 = 1 → goes (decide (x ≠ y))) ∧
      (r.st.m 3 0 = 2 → goes (x.slt y)) ∧
      (r.st.m 3 0 = 3 → goes (y.sle x)) ∧
      (r.st.m 3 0 = 4 → goes (x.ult y)) ∧
      (r.st.m 3 0 = 5 → goes (y.ule x)) ∧
      (5 < r.st.m 3 0 → exec (.branchIf cx) s = .next (s.faultSub cx St.malformed 0x0801))) ∧
    (Stands s cx 0x11 r → exec (.prefetch cx) s = .next (s.withCtx cx (r.retired r.c (r.c.pc + 1))))

/-- LOAD_TILE and GATHER (R211). -/
def Obligations.LoadsFillTheTile : Prop :=
  ∀ (s : State) (cx : Nat) (r : Run) (b : Bind) (d : List Byte),
    let n := r.st.i 15 0
    let k := r.st.m 2 0
    let gb := (r.c.regs.getD (r.st.b % 32) 0).toNat
    let gc := (r.c.regs.getD (r.st.c % 32) 0).toNat
    let rows := (r.c.regs.getD (r.st.d % 32) 0).toNat
    let offs := (r.elems r.st.b rows).map (fun i => gc + i * n)
    let pagesOf := fun (l : List Nat) => (l.map (fun o => (pageSpans o n).map (fun q => q.1))).flatten
    let open_ := fun (l : List Nat) => r.c.pass = true ∨ s.tryStall (.ctx cx) r.e.tenant b.region b.version (pagesOf l) = (s, .go)
    let after := fun (l : List Nat) => l.foldl (fun t o => t.trayRead b.region b.version o n) s
    let ends := fun (l : List Nat) (d : List Byte) =>
      Host.Outcome.next ((after l).retire r { r.logged r.c d with scratch := r.tileWith r.st.a d } (r.c.pc + 1))
    let near := fun (l : List Nat) => ∀ v, s.version b.region b.version = some v → ∀ k ∈ pagesOf l, ∀ p g,
      v.pages.look k = some (.page p) → s.page p = some g → s.trayPort g.tier g.shelf = none
    (∀ l, near l → after l = s) ∧ (r.c.shadowOf = none → r.v.binds.getD k none = some b → s.libIdent r.e ≠ 0x4B500401 →
    (Stands s cx 0x01 r → tileLen n = true → gb % 64 = 0 → r.tileOk r.st.a n = true →
      s.checkLoads r k n [gb] = .ok () → open_ [gb] → s.runRead r.v k b gb n = .ok d → d.length = n →
      exec (.loadTile cx) s = ends [gb] (r.overlay b gb d)) ∧
    (Stands s cx 0x01 r → ¬(tileLen n = true ∧ gb % 64 = 0) →
      exec (.loadTile cx) s = .next (s.faultSub cx St.malformed 0x0801)) ∧
    (Stands s cx 0x0A r → n ≠ 0 → n % 8 = 0 → rows * n ≤ 16384 → r.tileOk r.st.a (rows * n) = true →
      r.tileOk r.st.b (4 * rows) = true → s.checkLoads r k n offs = .ok () → open_ offs →
      s.runReads r k n b offs = .ok d → r.tileOk r.st.a d.length = true →
      exec (.gather cx) s = ends offs d) ∧
    (Stands s cx 0x0A r → ¬(n % 8 = 0 ∧ rows * n ≤ 16384) →
      exec (.gather cx) s = .next (s.faultSub cx St.malformed 0x0801)))

/-- STORE_TILE and SCATTER (R211, R214): their stores wait in the stage until the phase commits (R206). -/
def Obligations.StoresEnterTheStage : Prop :=
  ∀ (s : State) (cx : Nat) (r : Run),
    let n := r.st.i 15 0
    let k := r.st.m 2 0
    let gb := (r.c.regs.getD (r.st.b % 32) 0).toNat
    let gc := (r.c.regs.getD (r.st.c % 32) 0).toNat
    let rows := (r.c.regs.getD (r.st.d % 32) 0).toNat
    let mode := r.st.m 5 4
    let held := sumOf (r.c.stage.map (fun e => e.bytes.length))
    (Stands s cx 0x02 r → tileLen n = true → r.tileOk r.st.a n = true →
      (∃ b, s.bindFor r k gb n true = .ok b) → held + n ≤ r.v.img.stage * 16384 →
      exec (.storeTile cx) s = .next (s.withCtx cx (r.retired
        { r.c with stage := r.c.stage ++
            [{ bind := k, off := gb, mode := 0, bytes := Bytes.rd r.c.scratch (16384 * r.st.a) n }] } (r.c.pc + 1)))) ∧
    (Stands s cx 0x02 r → tileLen n = false →
      exec (.storeTile cx) s = .next (s.faultSub cx St.malformed 0x0801)) ∧
    (Stands s cx 0x0B r → n ≠ 0 → mode ≠ 3 → (mode = 1 → n % 4 = 0) → (mode = 2 → n % 40 = 0) →
      r.tileOk r.st.a (rows * n) = true → r.tileOk r.st.b (4 * rows) = true →
      (∀ i ∈ r.elems r.st.b rows, ∃ b, s.bindFor r k (gc + i * n) n true = .ok b) →
      held + rows * n ≤ r.v.img.stage * 16384 →
      exec (.scatter cx) s = .next (s.withCtx cx (r.retired
        { r.c with stage := r.c.stage ++ (List.range rows).map (fun j =>
            { bind := k, off := gc + (r.elems r.st.b rows).getD j 0 * n, mode := mode,
              bytes := Bytes.rd r.c.scratch (16384 * r.st.a + n * j) n }) } (r.c.pc + 1)))) ∧
    (Stands s cx 0x0B r → ¬(mode ≠ 3 ∧ (mode = 1 → n % 4 = 0) ∧ (mode = 2 → n % 40 = 0)) →
      exec (.scatter cx) s = .next (s.faultSub cx St.malformed 0x0801))

/-- ATOMIC (R216) and its record (R352). -/
def Obligations.AtomicAppliesOnce : Prop :=
  ∀ (s : State) (cx : Nat) (r : Run), Stands s cx 0x15 r →
    let k := r.st.m 10 8
    let gb := (r.c.regs.getD (r.st.b % 32) 0).toNat
    let gc := (r.c.regs.getD (r.st.c % 32) 0).toNat
    let gd := (r.c.regs.getD (r.st.d % 32) 0).toNat
    let done := fun (old : W64) =>
      { r.c with ordinal := r.c.ordinal + 1, regs := r.c.regs.set (r.st.a % 32) old }
    (∀ a, s.recipeAtom r.c = some a → s.durable a.till = true → a.status = St.ok →
      exec (.atomic cx) s = .next (s.withCtx cx (r.retired (done a.old) (r.c.pc + 1)))) ∧
    (∀ b d w, s.recipeAtom r.c = none → r.c.shadowOf = none → gb % 8 = 0 → r.st.m 3 0 ≤ 9 →
      s.bindFor r k gb 8 true = .ok b → r.hazard b gb 8 true = false →
      (r.c.pass = true ∨ s.tryStall (.ctx cx) r.e.tenant b.region b.version [gb / 65536] = (s, .go)) →
      s.ldg.atoms.length < 1048576 → s.runRead r.v k b gb 8 = .ok d →
      s.runWrite r.e r.v k gb (leBytes 8 (atomOp (r.st.m 3 0) (leNat d) gc gd)) = (w, none) →
      w.ldg.atoms = s.ldg.atoms → w.ldg.mode ≠ .mirrored → w.ldg.bound = none →
      ∃ u : State,
        u = (w.gainLine b.region b.version gb r.c.slice).addAtom
          { recipe := true, k0 := r.c.lsn % 2 ^ 31, k1 := r.c.sub, k2 := r.c.ordinal,
            old := BitVec.ofNat 64 (leNat d), stamp := w.now } ∧
        exec (.atomic cx) s = .next (u.retire r (done (BitVec.ofNat 64 (leNat d))) (r.c.pc + 1)))

/-- SEND, RECV, their timeouts and arrivals (R215). -/
def Obligations.MessageSteps : Prop :=
  ∀ (s : State) (cx : Nat) (r : Run),
    let n := r.st.i 15 0
    let tc := r.st.m 5 4
    let g := fun (x : Nat) => (r.c.regs.getD (x % 32) 0)
    (Stands s cx 0x12 r → 1 ≤ n → n ≤ 16384 → tc ≠ 3 → r.tileOk r.st.a n = true →
      exec (.send cx) s = .next (s.withCtx cx (r.retired
        { r.c with sends := r.c.sends ++ [((g r.st.c).toNat,
            { tenant := r.e.tenant, lsn := r.c.lsn, key := g r.st.d, srcMod := BitVec.ofNat 12 s.self,
              srcSub := r.c.sub, dstSub := (g r.st.b).toNat, chan := r.st.m 3 0, tc := Fin.ofNat 4 tc,
              data := Bytes.rd r.c.scratch (16384 * r.st.a) n })] } (r.c.pc + 1)))) ∧
    (Stands s cx 0x13 r → r.c.shadowOf = none → r.tileOk r.st.a n = true →
      (∀ h, s.slc.held.find? (fun h => r.wants h.1) = some h → h.1.data.length ≤ n →
        exec (.recv cx) s = .next
          (({ s with slc := { s.slc with held := listDrop1 (fun x => r.wants x.1) s.slc.held } }).withCtx cx (r.retired
            { r.logged r.c h.1.data with
              scratch := r.tileWith r.st.a h.1.data, recvd := r.c.recvd ++ [h.1],
              regs := r.c.regs.set (r.st.m 12 8 % 32) (BitVec.ofNat 64 h.1.data.length) } (r.c.pc + 1)))) ∧
      (s.slc.held.find? (fun h => r.wants h.1) = none →
        exec (.recv cx) s = .next (s.withCtx cx
          { r.c with
            status := .recv (s.now + 1000 * (if r.st.i 47 16 = 0 then s.fld F.slcCtlRecvTmo else r.st.i 47 16)) }))) ∧
    (∀ t c, s.ctx cx = some c → c.status = .recv t →
      (s.waitTill t).runOf cx = some { r with c := c } → r.cx = cx → r.st.op = 0x13 →
      (s.waitTill t).slc.held.find? (fun h => { r with c := c }.wants h.1) = none →
      exec (.recvTimeout cx) s = .next (((s.waitTill t).noteLate r.e.tenant c.lsn (c.regs.getD (r.st.d % 32) 0)
        (c.regs.getD (r.st.c % 32) 0).toNat (c.regs.getD (r.st.b % 32) 0).toNat c.sub (r.st.m 3 0)).faultSub cx
          St.timeout 0x0808)) ∧
    (∀ m : RMsg, m.wf = true → (m.key = 0 → (s.inv m.lsn).isSome = true) →
      s.slc.late.any (fun x => x.is m) = false →
      exec (.messageArrive m) s = .next { s with slc := { s.slc with held := s.slc.held ++ [(m, s.now)] } }) ∧
    (∀ m : RMsg, m.wf = true → s.slc.late.any (fun x => x.is m) = true →
      exec (.messageArrive m) s = .next (({ s with slc := { s.slc with
        late := listDrop1 (fun x => x.is m) s.slc.late } } : State).bump F.slcCnt1LateRecv)) ∧
    (∀ k h, s.slc.held[k]? = some h → s.hasTaker h.1 = false →
      ∃ u, u = s.waitTill (h.2 + 1000 * s.fld F.slcCtlRecvTmo) ∧
        exec (.messageHoldExpiry k) s =
          .next (({ u with slc := { u.slc with held := u.slc.held.eraseIdx k } }).bump F.slcCnt1LateRecv))

/-- WAIT_MARK and its timeout (R211, R217). -/
def Obligations.WaitMarkSteps : Prop :=
  ∀ (s : State) (cx : Nat) (r : Run),
    let target := (r.c.regs.getD (r.st.a % 32) 0).toNat % 2 ^ 48
    (∀ j, Stands s cx 0x14 r → r.c.shadowOf = none → r.e.jobLive = true → s.jobSlot r.e.job = some j →
      (posLater target (s.jobPos j) = false →
        exec (.waitMark cx) s = .next (s.withCtx cx (r.retired (r.logged r.c []) (r.c.pc + 1)))) ∧
      (posLater target (s.jobPos j) = true →
        exec (.waitMark cx) s = .next (s.withCtx cx
          { r.c with
            status := .markWait (BitVec.ofNat 64 target)
              (s.now + 1000 * (if r.st.i 31 0 = 0 then s.fld F.slcCtlWaitTmo else r.st.i 31 0)) }))) ∧
    (Stands s cx 0x14 r → r.c.shadowOf = none → (r.e.jobLive = false ∨ s.jobSlot r.e.job = none) →
      exec (.waitMark cx) s = .next (s.faultSub cx St.aborted 0x0807)) ∧
    (∀ c w t j, s.ctx cx = some c → c.status = .markWait w t → c.shadowOf = none →
      (s.waitTill t).runOf cx = some { r with c := c } → r.cx = cx → r.st.op = 0x14 →
      r.e.jobLive = true → (s.waitTill t).jobSlot r.e.job = some j →
      posLater ((c.regs.getD (r.st.a % 32) 0).toNat % 2 ^ 48) ((s.waitTill t).jobPos j) = true →
      exec (.waitMarkTimeout cx) s = .next ((s.waitTill t).faultSub cx St.timeout 0x0809))

/-- EMIT_STORE, EMIT_RESULT and BUDGET_EXHAUSTED (R211, R217). -/
def Obligations.EmitAndBudget : Prop :=
  ∀ (s : State) (cx : Nat) (r : Run),
    let n := r.st.i 15 0
    let tc := r.st.m 2 1
    let g := fun (x : Nat) => (r.c.regs.getD (x % 32) 0)
    (Stands s cx 0x18 r → r.st.m 0 0 = 0 → 1 ≤ n → n ≤ 16384 → tc ≠ 3 → r.tileOk r.st.a n = true →
      exec (.emitStore cx) s = .next (s.withCtx cx (r.retired
        { r.c with emits := r.c.emits ++
            [{ ptr := g r.st.b, tc := tc, bytes := Bytes.rd r.c.scratch (16384 * r.st.a) n }] } (r.c.pc + 1)))) ∧
    (Stands s cx 0x18 r → r.st.m 0 0 = 1 →
      ((r.c.sub = finalSub ∨ r.v.img.stride = false) →
        exec (.emitResult cx) s = .next (s.withCtx cx (r.retired
          { r.c with result := some (g r.st.a, g r.st.b) } (r.c.pc + 1)))) ∧
      (r.c.sub ≠ finalSub ∧ r.v.img.stride = true →
        exec (.emitResult cx) s = .next (s.faultSub cx St.malformed 0x0801))) ∧
    (∀ c v e, s.ctx cx = some c → s.inv c.lsn = some v → s.entry c.lsn = some e → e.running = true →
      s.ldg.fenced = false → c.status = .ready → v.img.budget ≤ c.used →
      exec (.budgetExhausted cx) s = .next (s.faultSub cx St.timeout 0x0806))

/-- SUBPART_START, FINAL_SECTION_START and PHASE_COMMIT (R197, R198, R196, R207). -/
def Obligations.SubpartsStartAndCommit : Prop :=
  ∀ (s : State) (lsn : Nat) (slice : Slice) (e : Entry) (v : Inv),
    s.entry lsn = some e → e.running = true → s.ldg.fenced = false → s.halting e = false → s.inv lsn = some v →
    let back := fun (k : Nat) => ((v.restarts.find? (fun r => r.1 = k)).map Prod.snd).getD none
    let begun := fun (k : Nat) =>
      (s.modInv lsn (fun v => { v with restarts := v.restarts.filter (fun r => r.1 ≠ k) })).addCtx
        (s.newCtx lsn k slice.val v (back k) none)
    let started := fun (k : Nat) => (begun k).libStart s.slc.nextCtx
    let fits := fun (k : Nat) =>
      s.subWaits lsn k v = true ∧ s.leastOf (s.slicesFor (s.subQuad v k)) slice.val = true ∧ s.slicesUp ≠ [] ∧
      s.sliceRoom slice.val v.img = true ∧ v.shadow ≠ some k
    (∀ k, e.opcode = opInvoke → k < v.count → fits k →
      exec (.subpartStart lsn k slice) s = .next (started k) ∧
      (begun k).ctx s.slc.nextCtx = some { s.newCtx lsn k slice.val v (back k) none with slot := s.freeSlot } ∧
      (s.libIdent e ≠ libAppend → started k = begun k)) ∧
    (e.opcode = opInvoke → v.img.final ≠ 0 → v.allEnded = true → v.finalDone = none →
      (s.endsOf lsn v).all (fun x => statusGood x.2.1) = true → fits finalSub →
      exec (.finalSectionStart lsn slice) s = .next (started finalSub)) ∧
    (∀ k c, s.ctx k = some c → c.lsn = lsn → c.status = .commit 0 → c.shadowOf = none →
      s.sliceUp c.slice = true → s.sliceTested c.slice = true → s.shadowCx k = none →
      c.stage = [] → c.sends = [] → c.emits = [] → c.pc ≤ v.img.lastStep c.sub → s.ldg.mode = .loc →
      s.ldg.bound = none →
      ∃ t, exec (.phaseCommit k) s = .next t ∧
        t.ctx k = some { c with
          recvd := [], result := none, log := [], taken := 0, status := .ready,
          record := some (c.phaseRec v.img), phases := c.phases + 1 } ∧
        t.fld F.slcCnt1Commits = min (s.fld F.slcCnt1Commits + 1) (2 ^ 32 - 1) ∧
        t.rgn = s.rgn ∧ t.out = s.out)

/-! ### Rings and descriptors -/

/-- R32. -/
def Obligations.CompletionDoorbellMovesHeadOrFaults : Prop :=
  ∀ (s : State) (src : DbSrc) (t p : Nat) (h : W32), t < 256 → p < 8 → s.ldg.fenced = false →
    s.entitled src t = true → s.liveP (8 * t + p) = true →
    let r := s.ring (8 * t + p)
    let c := Instr.completionDoorbell src (4096 * t + 0x40 + 8 * p) 8 (h.setWidth 64)
    ((h - r.head).toNat ≤ (r.widx - r.head).toNat →
      ∃ u, exec c s = .next u ∧ (u.ring (8 * t + p)).head = h) ∧
    ((r.widx - r.head).toNat < (h - r.head).toNat →
      ∃ u, exec c s = .next u ∧ (u.ring (8 * t + p)).head = r.head ∧
        (r.faulted = false → (u.ring (8 * t + p)).faulted = true ∧ (u.ring (8 * t + p)).code = 0x02) ∧
        (r.faulted = true → u = s))

/-- R28, R31: which doorbell it is, its offset says; its tail is taken, or the pair faults. -/
def Obligations.SubmissionDoorbellMovesTailOrIsTurnedAway : Prop :=
  ∀ (s : State) (src : DbSrc) (off size : Nat) (v : W64), off < 2 ^ 20 → s.ldg.fenced = false →
    let c := Instr.submissionDoorbell src off size v
    let o := off % 4096
    let pair := 8 * (off / 4096) + o / 8 % 8
    let r := s.ring pair
    let n := 2 ^ (if s.fld F.tqRingCtlSqLog2 pair = 0 then 16 else s.fld F.tqRingCtlSqLog2 pair)
    let tail := v.setWidth 32
    (s.entitled src (off / 4096) = false → exec c s = .next (s.bump F.portEcntEdgeDeny src.port.val)) ∧
    (s.entitled src (off / 4096) = true →
      ((size ≠ 8 ∨ o % 8 ≠ 0 ∨ 0x80 ≤ o ∨ 2 ^ 32 ≤ v.toNat) → exec c s = .next (s.bump F.tqDbErrCount)) ∧
      (size = 8 → o % 8 = 0 → v.toNat < 2 ^ 32 →
        (o < 0x80 → s.liveP pair = false → exec c s = .next (s.bump F.tqDbDropCount)) ∧
        (o < 0x40 → s.liveP pair = true →
          (tail = r.tail → exec c s = .next s) ∧
          (tail ≠ r.tail → (tail - r.tail).toNat ≤ n → (tail - r.aidx).toNat ≤ n →
            exec c s = .next { s with tq := { s.tq with rings := Tbl.upd {} pair (fun r => { r with tail := tail }) s.tq.rings } }) ∧
          (tail ≠ r.tail → ¬((tail - r.tail).toNat ≤ n ∧ (tail - r.aidx).toNat ≤ n) →
            ∃ u, exec c s = .next u ∧ (u.ring pair).tail = r.tail ∧
              (r.faulted = false → (u.ring pair).faulted = true ∧ (u.ring pair).code = 0x01)))))

/-- DESCRIPTOR_ACCEPT (R34–R36). -/
def Obligations.DescriptorAcceptEntersLedger : Prop :=
  ∀ (s : State) (pair : Pair),
    let p := pair.val
    let i := (s.ring p).aidx + BitVec.ofNat 32 (s.stagedOf p)
    let slot := s.fld F.tqRingSqBasePtr p + 64 * (i.toNat % s.sqSize p)
    let asked := s.readEp (p / 8) slot 64 (.sqFetch p i.toNat)
    (s.mayAccept p = false →
      ((∀ b, s.fetchOf (.sqFetch p i.toNat) ≠ some (.got b)) → exec (.descriptorAccept pair) s = .next s) ∧
      (∀ b, s.fetchOf (.sqFetch p i.toNat) = some (.got b) →
        exec (.descriptorAccept pair) s = .next (s.dropFetch (.sqFetch p i.toNat)))) ∧
    (∀ b, s.mayAccept p = true → s.fetchOf (.sqFetch p i.toNat) = some (.got b) → s.ldg.mode ≠ .mirrored → s.ldg.bound = none →
      s.entry s.ldg.nextLsn = none →
      ∃ u e, exec (.descriptorAccept pair) s = .next u ∧ (u.ring p).aidx = (s.ring p).aidx + 1 ∧
        u.entry s.ldg.nextLsn = some e ∧ e.state = .accepted ∧ e.kind = .desc ∧ e.pair = p ∧ e.index = i ∧
        e.words = descWords b ∧ e.opcode = bits (leAt b 0 8) 7 0 ∧ u.ldg.nextLsn = s.ldg.nextLsn + 1) ∧
    (s.mayAccept p = true → s.fetchOf (.sqFetch p i.toNat) = none →
      (∀ st d, asked.fetchOf (.sqFetch p i.toNat) ≠ some (.failed st d)) →
      exec (.descriptorAccept pair) s = .next asked)

/-- DESCRIPTOR_START (R39, R44, R50). -/
def Obligations.DescriptorStartOrMalformed : Prop :=
  ∀ (s : State) (lsn : Nat) (e : Entry), s.entry lsn = some e →
    (s.mayStart e = false → exec (.descriptorStart lsn) s = .next s) ∧
    (s.mayStart e = true → descBad e.words = none →
      ∃ u, exec (.descriptorStart lsn) s = .next u ∧
        u.entry lsn = some { e with state := .started, startAt := s.now } ∧ u.rgn = s.rgn ∧ u.slc = s.slc) ∧
    (∀ d, s.mayStart e = true → descBad e.words = some d →
      ∃ u x c, exec (.descriptorStart lsn) s = .next u ∧ u.entry lsn = some x ∧ x.state = .committed ∧ x.cpl = some c ∧
        c.status = 0x0C ∧ c.detail = d ∧ c.index = e.index)

/-- DESCRIPTOR_COMPLETE (R40, R47). -/
def Obligations.DescriptorCompleteWritesRecord : Prop :=
  ∀ (s : State) (lsn : Nat) (e : Entry) (c : Cpl), s.entry lsn = some e → e.acceptedDesc = true → e.state = .committed →
    e.cpl = some c → s.durable e.till = true → (e.opcode = opInvoke → s.hasFabric lsn = false) → s.ldg.fenced = false →
    s.epRefusal (ptrPort (s.fld F.tqRingCqBasePtr e.pair)) = none → s.cqBad e.pair = false →
    let w := (s.ring e.pair).widx
    let u := s.completeRec lsn
    exec (.descriptorComplete lsn) s = .next (u.autoAbort e c.status).settle ∧
    (u.ring e.pair).widx = w + 1 ∧
    ∃ x y, u.entry lsn = some x ∧ x.state = .completing ∧ x.cidx = w ∧ x.cpl = some y ∧ y.status = c.status ∧
      y.detail = c.detail ∧ y.index = c.index ∧ y.r0 = c.r0 ∧ y.r1 = c.r1 ∧
      y.phase = decide (w.toNat / s.cqSize e.pair % 2 = 0)

/-- NOP, FENCE and FENCE_TIMEOUT (R44, R46). -/
def Obligations.NopAndFenceFixTheirResults : Prop :=
  ∀ (s : State) (lsn : Nat) (e : Entry),
    (Working s lsn 0x00 e →
      ∃ u x c, exec (.nop lsn) s = .next u ∧ u.entry lsn = some x ∧ x.state = .committed ∧ x.cpl = some c ∧
        c.status = 0 ∧ c.detail = 0 ∧ c.index = e.index ∧ c.tag = BitVec.ofNat 32 (bits (e.w 0) 63 32)) ∧
    (Working s lsn 0x0D e →
      let blocks := fun (x : Entry) => x.live &&
        ((x.pair = e.pair && x.lsn < e.lsn) || (bit (e.w 2) 0 && x.tenant = e.tenant && x.accepted < e.accepted))
      (s.ldg.entries.any blocks = true → exec (.fence lsn) s = .next s) ∧
      (s.ldg.entries.any blocks = false → e.note = [] →
        (s.fenceStreams e = [] →
          ∃ u x c, exec (.fence lsn) s = .next u ∧ u.entry lsn = some x ∧ x.state = .committed ∧ x.cpl = some c ∧ c.status = 0) ∧
        (s.fenceStreams e ≠ [] →
          exec (.fence lsn) s = .next (foldS (fun s k =>
            s.sendFence (s.streamPort (k / 4) (k % 4)) (k / 4) (k % 4) (.fenceOp lsn)) (s.setNote lsn [1]) (s.fenceStreams e)))) ∧
      (let us := if bits (e.w 2) 63 32 = 0 then s.fld F.tqTenCtlFenceTmo e.tenant else bits (e.w 2) 63 32
       (s.ldg.entries.any blocks = true ∨ s.fenceStreams e ≠ []) →
        ∃ u x c, exec (.fenceTimeout lsn) s = .next u ∧ u.entry lsn = some x ∧ x.state = .committed ∧ x.cpl = some c ∧
          c.status = 0x0A ∧ s.time.mono ≤ u.time.mono ∧ e.startAt + 1000 * us ≤ u.time.mono))

/-- MOVE (R181) and LOAD_TABLE (R167, R170). -/
def Obligations.MoveAndLoadTable : Prop :=
  ∀ (s : State) (lsn : Nat) (e : Entry),
    let x := e.w 7
    let len := bits (e.w 6) 39 0
    let sf := bits x 15 8
    let df := bits x 23 16
    (Working s lsn 0x01 e → e.note = [] →
      (∀ r n v dst b, bit x 0 = false → s.resolveRead (s.callerOf e) (refOf (e.w 2)) = .ok (r, n, v) →
        bits (e.w 3) 55 0 + len ≤ r.size → s.moveDst e = .ok dst → (sf = fmtKc → s.kcMismatch v (bits x 27 24) = false) →
        let id := (refOf (e.w 2)).region
        let off := bits (e.w 3) 55 0
        let u := (s.addRef id n).putEntry { e with ref := some (id, n) }
        let got := u.readVersion id n off len e.acceptAt
        let w := u.countRead got id n off len
        got = .ok (b, []) →
        (w.farSpans id r off len = [] → exec (.move lsn) s = .next (w.moveOut e dst b)) ∧
        (w.farSpans id r off len ≠ [] → exec (.move lsn) s = .next ((w.setNote lsn [2, dst]).loadRest e id n r off len b))) ∧
      (∀ dst, bit x 0 = true → s.moveDst e = .ok dst →
        let u := (s.setNote lsn [2, dst]).readEp e.tenant (e.w 2) len (.moveRead lsn)
        (∀ st d, u.fetchOf (.moveRead lsn) ≠ some (.failed st d)) → exec (.move lsn) s = .next u)) ∧
    (Working s lsn 0x01 e →
      (∀ dst b, e.note = [2, dst] → s.fetchOf (.moveRead lsn) = some (.got b) →
        exec (.move lsn) s = .next ((s.dropFetch (.moveRead lsn)).moveOut e dst b)) ∧
      (e.note = [1] → s.hasFabric lsn = false → (∀ st d, s.fetchOf (.moveWrite lsn) ≠ some (.failed st d)) →
        exec (.move lsn) s = .next (s.fixResult lsn Res.ok))) ∧
    (∀ dst b,
      let out := convert (s.kcOf (bits x 27 24)) (s.kcOf (bits x 27 24)) sf df b
      let id := (refOf (e.w 4)).region
      (∀ w, bit x 1 = true → s.writeEp e.tenant (e.w 4) 2 out.1 false (.moveWrite e.lsn) = (w, none) →
        s.moveOut e dst b = (w.bump F.codecCnt0NanBlocks 0 0 out.2).setNote e.lsn [1]) ∧
      (∀ u w, bit x 1 = false → (if df = fmtKc then s.recordSlot id dst (bits x 27 24) else (s, none)) = (u, none) →
        u.writeVersion id dst (bits (e.w 5) 55 0) out.1 false e.acceptAt e.job (.moveWrite e.lsn) = (w, none) →
        let v := w.bump F.codecCnt0NanBlocks 0 0 out.2
        (v.hasFabric e.lsn = false → s.moveOut e dst b = v.fixResult e.lsn Res.ok) ∧
        (v.hasFabric e.lsn = true → s.moveOut e dst b = v.setNote e.lsn [1]))) ∧
    (Working s lsn 0x11 e →
      let len := bits (e.w 4) 31 0
      (∀ slot, e.note = [] → s.loadTarget e.tenant (bits (e.w 2) 4 0) = .ok slot → 64 ≤ len → len ≤ 8256 →
        let a := s.setNote lsn [slot, if (s.cslot slot).st = SlotState.empty then 0 else 1, s.now]
        let b : State := { a with codec := Tbl.upd {} slot (fun c =>
          { c with st := .loading, owner := if c.st = SlotState.empty then e.tenant else c.owner }) a.codec }
        let u := b.readEp e.tenant (e.w 3) len (.image lsn)
        (∀ st d, u.fetchOf (.image lsn) ≠ some (.failed st d)) →
          exec (.loadTable lsn) s = .next u ∧ (u.cslot slot).st = .loading) ∧
      (∀ slot old at_ b, e.note = [slot, old, at_] → s.fetchOf (.image lsn) = some (.got b) →
        let t := tabImg b
        t.good len (bits (e.w 2) 15 8) = true →
        ∃ u x c, exec (.loadTable lsn) s = .next u ∧ u.entry lsn = some x ∧ x.cpl = some c ∧ c.status = 0 ∧
          c.r0 = BitVec.ofNat 64 slot ∧
          u.cslot slot = (if t.kind = 0 then {} else
            { st := .loaded, kind := t.kind, owner := e.tenant, cls := t.cls, count := t.count, ident := t.ident, body := t.body })))

/-! ### Regions and versions -/

/-- What the shared operation of R342's commit does to the entry. -/
def Obligations.FixedResultIsRecorded : Prop :=
  ∀ (s : State) (lsn : Nat) (e : Entry) (r : Res), s.entry lsn = some e → e.acceptedDesc = true →
    (e.state = .accepted ∨ e.state = .started) →
    ∃ x c, (s.fixResult lsn r).entry lsn = some x ∧ x.state = .committed ∧ x.cpl = some c ∧
      c.status = r.status ∧ c.detail = (if r.status = 0 then 0 else r.detail) ∧ c.opcode = e.opcode ∧
      c.tag = BitVec.ofNat 32 (bits (e.w 0) 63 32) ∧ c.index = e.index ∧ c.pair = e.pair % 8 ∧
      (r.status = 0 → c.r0 = BitVec.ofNat 64 r.r0 ∧ c.r1 = BitVec.ofNat 64 r.r1)

/-- ALLOC, FREE, OPEN and SEAL (R70, R72, R76, R77). -/
def Obligations.RegionsAndVersionsChange : Prop :=
  ∀ (s : State) (lsn : Nat) (e : Entry),
    let id := bits (e.w 2) 23 0
    let ref := refOf (e.w 2)
    (Working s lsn 0x02 e →
      (∀ st d, s.allocFail e = some (st, d) → exec (.alloc lsn) s = .next (s.fixResult lsn (Res.fail st d))) ∧
      (s.allocFail e = none →
        ∃ (k : Nat) (u : State), exec (.alloc lsn) s = .next ((u.logVersion lsn k 1).fixResult lsn { r0 := k }) ∧
          (id ≠ 0 → k = id) ∧ (id = 0 → 0x10000 ≤ k) ∧
          (∃ r v, u.region k = some r ∧ r.owner = e.tenant ∧ r.size = bits (e.w 3) 55 0 ∧ r.tier = bits (e.w 2) 25 24 ∧
            r.mirrored = bit (e.w 2) 26 ∧ r.prot = bit (e.w 2) 27 ∧ r.flat = bit (e.w 2) 28 ∧ r.fmt = bits (e.w 4) 7 0 ∧
            r.tslot = bits (e.w 4) 11 8 ∧ r.home = BitVec.ofNat 12 s.self ∧ r.latest = 1 ∧ r.highest = 1 ∧ r.vers = [(1, v)] ∧ v.state = .published ∧
            v.pages = [] ∧ v.refs = 0 ∧ v.holds = []) ∧
          (∀ j, j ≠ k → u.region j = s.region j) ∧ u.rgn.pages = s.rgn.pages ∧ u.rgn.shelves = s.rgn.shelves)) ∧
    (Working s lsn 0x03 e → ∀ r, s.rights (s.callerOf e) ref.region false false = .ok r →
      exec (.free lsn) s = .next (((s.freeRegion ref.region).logVersion lsn ref.region 0).fixResult lsn Res.ok) ∧
      (∀ q, (s.freeRegion ref.region).region ref.region = some q → q.latest = 0 ∧ q.freeing.isSome = true) ∧
      (∀ j, j ≠ ref.region → (s.freeRegion ref.region).region j = s.region j)) ∧
    (Working s lsn 0x04 e → ∀ r b v, s.named (s.callerOf e) ref false false = .ok (r, b, v) → openFail r v e.pair = none →
      s.region ref.region = some r →
      let n := r.highest + 1
      ∃ u : State, exec (.openVersion lsn) s = .next ((u.logVersion lsn ref.region n).fixResult lsn { r0 := n }) ∧
        u.region ref.region = some { r with
          highest := n,
          vers := Tbl.ins n { state := .opened, writer := e.pair, base := b, pages := v.pages, slotRec := v.slotRec,
                              jobs := if e.job = 0xFFFF then [] else [e.job] } r.vers } ∧
        (∀ j, j ≠ ref.region → u.region j = s.region j) ∧ u.rgn.pages = s.rgn.pages) ∧
    (Working s lsn 0x05 e → ∀ r n v, s.named (s.callerOf e) ref false false = .ok (r, n, v) → v.state = .opened → v.parted = false →
      v.writer = e.pair → (s.ldg.entries.any (fun x => x.pair = e.pair && x.live && x.lsn < e.lsn)) = false →
      s.version ref.region n = some v →
      ∃ u : State, exec (.seal lsn) s = .next ((u.logVersion lsn ref.region n).fixResult lsn Res.ok) ∧
        u.version ref.region n = some { v with state := .sealed } ∧ u.rgn.pages = s.rgn.pages)

/-- PUBLISH, the holders' seals and answers, RETIRE and the orphan hold (R76–R81). -/
def Obligations.PublishAndRetire : Prop :=
  ∀ (s : State),
    (∀ lsn e r n v, Working s lsn 0x06 e → e.note = [] →
      s.named (s.callerOf e) (refOf (e.w 2)) false false = .ok (r, n, v) → s.publishFail e v = none →
      v.incomplete = false → (s.holderList (refOf (e.w 2)).region n).filter (· ≠ s.self) = [] →
      s.region (refOf (e.w 2)).region = some r → s.version (refOf (e.w 2)).region n = some v →
      let id := (refOf (e.w 2)).region
      (bits (e.w 3) 31 0 = r.latest →
        ∃ u : State, exec (.publish lsn) s = .next ((u.logVersion lsn id n).fixResult lsn { r0 := n }) ∧
          u.version id n = some { v with state := .published, parted := false } ∧ (∃ q, u.region id = some q ∧ q.latest = n)) ∧
      (bits (e.w 3) 31 0 ≠ r.latest →
        ∃ u : State, exec (.publish lsn) s = .next ((u.logVersion lsn id n).fixResult lsn
            { status := 0x03, r0 := n, r1 := r.latest }) ∧
          u.version id n = some { v with
            state := .orphan, orphanUntil := s.now + 1000000 * s.fld F.rgnCtlOrphanHold, parted := false } ∧
          (∃ q, u.region id = some q ∧ q.latest = r.latest))) ∧
    (∀ home region version tag, region < 2 ^ 24 → version < 2 ^ 32 →
      (s.ldg.fenced = true → exec (.publishHolderSeal home region version tag) s =
        .next { s with out := s.out ++ [.sealAns home.toNat tag false] }) ∧
      (s.ldg.fenced = false → ∃ u, exec (.publishHolderSeal home region version tag) s = .next u ∧
        u.out = s.out ++ [.sealAns home.toNat tag true] ∧
        (∀ v, s.version region version = some v → v.state = .opened →
          u.version region version = some { v with state := .sealed, parted := false }))) ∧
    (∀ lsn e n (home : ModId) slack, Working s lsn 0x06 e → e.note = [n, home.toNat] → e.failedParts = [] →
      s.tier.moves = [] →
      let u := s.putEntry { e with note := [n] }
      (∀ k : Nat × MoveJob, (u.publishCompare { e with note := [n] } (refOf (e.w 2)).region n).tier.moves.find?
        (fun x => (x.2.mover = .promote lsn || x.2.mover = .demote lsn) && x.2.remote.any (· = home.toNat)) ≠ some k) →
      exec (.holderAnswer home lsn .good slack) s =
        .next (u.publishCompare { e with note := [n] } (refOf (e.w 2)).region n)) ∧
    (∀ lsn e r n v, Working s lsn 0x07 e → s.named (s.callerOf e) (refOf (e.w 2)) false false = .ok (r, n, v) →
      v.state ≠ .opened → v.state ≠ .retiring →
      let id := (refOf (e.w 2)).region
      (n ≠ r.latest → exec (.retire lsn) s = .next (((s.retireVersion id n).logVersion lsn id n).fixResult lsn Res.ok)) ∧
      (n = r.latest → exec (.retire lsn) s = .next (s.fixResult lsn (Res.fail 0x08 0x0305)))) ∧
    (∀ region version v, s.version region version = some v → v.state = .orphan →
      exec (.orphanHoldExpiry region version) s = .next ((((s.waitTill v.orphanUntil).modVersion region version (fun x =>
        { x with expired := true })).retireVersion region version).logSelf region version))

/-- The six kinds of QUERY (R88, R121). What SUBPARTS and USAGE write is the model's free value (log entries 147 and 3). -/
def Obligations.QueriesWriteAndComplete : Prop :=
  ∀ (s : State) (lsn : Nat) (e : Entry), Working s lsn 0x0F e →
    let kind := bits (e.w 2) 7 0
    let ref := refOf (e.w 3)
    (∀ p ∈ ([(1, Instr.queryRegion), (2, Instr.queryVersions), (3, Instr.queryHolds), (4, Instr.querySubparts),
              (5, Instr.queryUsage), (6, Instr.queryAdvice)] : List (Nat × (Nat → Instr))),
      kind = p.1 → ∀ n, e.note = [1, n] → s.hasFabric lsn = false →
        (∀ st d, s.fetchOf (.query lsn) ≠ some (.failed st d)) →
        exec (p.2 lsn) s = .next (s.fixResult lsn { r0 := n })) ∧
    (e.note = [] →
      (∀ r, kind = 1 → s.rights (s.callerOf e) ref.region true false = .ok r →
        (s.regionRecord ref.region r).length = 64 ∧
        exec (.queryRegion lsn) s = .next (s.queryWrite e [s.regionRecord ref.region r])) ∧
      (∀ r, kind = 2 → s.rights (s.callerOf e) ref.region true false = .ok r →
        exec (.queryVersions lsn) s = .next (s.queryWrite e (r.vers.map (fun x => s.versionRecord x.1 x.2)))) ∧
      (∀ r n v, kind = 3 → s.named (s.callerOf e) ref true false = .ok (r, n, v) →
        (s.holdsRecord r n v e.tenant).length = 64 ∧
        exec (.queryHolds lsn) s = .next (s.queryWrite e [s.holdsRecord r n v e.tenant])) ∧
      (kind = 6 → exec (.queryAdvice lsn) s = .next (s.queryWrite e
        ((s.ten e.tenant).advice.map (fun a => leBytes 8 a.1.toNat ++ leBytes 8 a.2.1.toNat)))) ∧
      (kind = 4 → exec (.querySubparts lsn) s = .next (s.queryWrite e [(Config.subpartList e.words
        ((s.ldg.entries.filter (fun (x : Entry) => x.kind = .desc && x.tenant = e.tenant && x.cpl.isSome)).map
          (fun (x : Entry) => (x.index.toNat, x.failedParts)))).take (bits (e.w 5) 31 0)])) ∧
      (kind = 5 → ∃ b : List Byte, b.length ≤ bits (e.w 5) 31 0 ∧
        exec (.queryUsage lsn) s = .next (s.tickFree.queryWrite e [b]))) ∧
    (∀ b w, b ≠ [] → b.length ≤ bits (e.w 5) 31 0 →
      s.writeEp e.tenant (e.w 4) 2 b false (.query e.lsn) = (w, none) →
      s.queryWrite e [b] = w.setNote lsn [1, b.length])

/-- HOLD, RELEASE, PROMOTE and DEMOTE (R96, R101, R102, R104). -/
def Obligations.HoldsAndMoves : Prop :=
  ∀ (s : State) (lsn : Nat) (e : Entry),
    let id := (refOf (e.w 2)).region
    (Working s lsn 0x08 e → ∀ r n v, s.heldRef e false false false = .ok (r, n, v) → s.version id n = some v →
      ∃ u : State, exec (.hold lsn) s = .next (u.fixResult lsn Res.ok) ∧
        u.version id n = some { v with holds := if e.tenant ∈ v.holds then v.holds else v.holds ++ [e.tenant] } ∧
        u.rgn.pages = s.rgn.pages ∧ u.tier = s.tier) ∧
    (Working s lsn 0x09 e → ∀ r n v, s.heldRef e false true true = .ok (r, n, v) →
      (e.tenant ∈ v.holds → exec (.release lsn) s = .next ((s.dropHold id n e.tenant).fixResult lsn Res.ok)) ∧
      (e.tenant ∉ v.holds → exec (.release lsn) s = .next (s.fixResult lsn (Res.fail 0x08 0x0401)))) ∧
    (Working s lsn 0x0A e → ∀ r n v lo hi, (s.tier.moves.any (fun m => m.2.mover = .promote lsn)) = false →
      s.pacedFail e = none → s.heldRef e true false false = .ok (r, n, v) → moveRange e r = some (lo, hi) →
      exec (.promote lsn) s = .next (s.promoteBegin e r n v lo hi)) ∧
    (Working s lsn 0x0B e → ∀ r n v lo hi, (s.tier.moves.any (fun m => m.2.mover = .demote lsn)) = false →
      s.heldRef e false false false = .ok (r, n, v) → moveRange e r = some (lo, hi) → s.demoteFail e r = none →
      s.version id n = some v →
      (e.tenant ≠ r.owner → exec (.demote lsn) s = .next ((s.dropHold id n e.tenant).fixResult lsn Res.ok)) ∧
      (e.tenant = r.owner →
        let u := s.dropHold id n e.tenant
        let slot := bits (e.w 5) 19 16
        (∀ w, u.version id n = some w →
          (w.holds ≠ [] → exec (.demote lsn) s = .next ((u.modVersion id n (fun x => { x with
            pend := some { tier := bits (e.w 5) 1 0, lo := lo, hi := hi,
                           recode := if bit (e.w 5) 2 then some (slot, (u.cslot slot).ident) else none } })).fixResult lsn
            Res.ok)) ∧
          (w.holds = [] → exec (.demote lsn) s = .next (u.demoteMove e r n w lo hi))))) ∧
    (∀ id n t v, s.version id n = some v → v.state ≠ .retiring → (v.holds.filter (· ≠ t) ≠ [] ∨ v.pend = none) →
      (s.dropHold id n t).version id n = some { v with holds := v.holds.filter (· ≠ t) } ∧
        (s.dropHold id n t).rgn.pages = s.rgn.pages ∧ (s.dropHold id n t).tier = s.tier)

/-- PAGE_MOVE_SWITCH, MOVE_SUBPART_REQUEST and STALL_BOUND_EXPIRY (R95, R97, R113). -/
def Obligations.PagesSwitchAndStallsEnd : Prop :=
  ∀ (s : State),
    (∀ p g v m, s.page p = some g → g.mv = some v → s.move? v.job = some m → s.autoOff m = false →
      let stays := fun (u : State) => u.modPage p (fun g => { g with mv := none })
      let drop := fun (m : MoveJob) => { m with todo := m.todo.filter (· ≠ p) }
      let fails := Host.Outcome.next (((stays (s.dropTray p)).modMove v.job (fun m =>
        { m with todo := m.todo.filter (· ≠ p), failed := m.failed + 1 })).pumpMoves)
      exec (.pageMoveSwitch p false) s = fails ∧
      (s.trayOpen p = true → exec (.pageMoveSwitch p true) s = .next s) ∧
      (m.next p = false → exec (.pageMoveSwitch p true) s = .next s) ∧
      (m.next p = true → s.trayOpen p = false →
        (s.unreadable g = true → exec (.pageMoveSwitch p true) s = fails) ∧
        (s.unreadable g = false →
          (m.down = true → s.pagePinned p = true → exec (.pageMoveSwitch p true) s = .next (stays s).pumpMoves) ∧
          (m.down = true → s.pagePinned p = false → s.downOk p = false → exec (.pageMoveSwitch p true) s =
            .next ((stays s).modMove v.job drop).pumpMoves) ∧
          ((m.down = true → s.pagePinned p = false ∧ s.downOk p = true) →
            let u := s.switchPage m p g v
            let w := u.modMove v.job (fun m => { drop m with moved := m.moved ++ [p] })
            (∃ q, u.page p = some q ∧ q.tier = v.tier ∧ q.shelf = v.shelf ∧ q.mv = none) ∧
            (∀ k, k ≠ p → u.page k = s.page k) ∧
            (m.up = false → exec (.pageMoveSwitch p true) s = .next w.pumpMoves) ∧
            (m.up = true → exec (.pageMoveSwitch p true) s = .next ((w.boundsMet p).endStalls
              (fun t => match (w.boundsMet p).version t.region t.version with
                | some x => x.pageAt t.page = some (.page p)
                | none => false) false).pumpMoves))))) ∧
    (∀ p g, s.page p = some g → g.mv = none →
      exec (.pageMoveSwitch p false) s = .next ((s.dropTray p).failCopy p) ∧
      (s.trayOpen p = false → exec (.pageMoveSwitch p true) s = .next (s.landCopy p))) ∧
    (∀ (home : ModId) tag (q : MoveReq), q.wf = true →
      (s.ldg.fenced = true → exec (.moveSubpartRequest home tag q) s =
        .next { s with out := s.out ++ [.moveAns home.toNat tag false false 0] }) ∧
      (s.ldg.fenced = false → s.tier.moves.any (fun x => x.2.mover = .remote home.toNat tag) = false →
        let u := s.meet q.region q.version q.tenant
        let lo := q.off / 65536
        let hi := (q.off + q.len) / 65536
        (u.version q.region q.version = none → exec (.moveSubpartRequest home tag q) s =
          .next { u with out := u.out ++ [.moveAns home.toNat tag true false 0] }) ∧
        (∀ r v, u.region q.region = some r → u.version q.region q.version = some v →
          (q.promote = false → exec (.moveSubpartRequest home tag q) s = .next (u.addMove
            { mover := .remote home.toNat tag, asker := q.tenant, tenant := r.owner, region := q.region, version := q.version,
              target := q.tier, todo := v.idsAt ((rangeFrom lo (hi - lo)).filter (fun k => u.heldHere q.region k)),
              recode := if q.recode then some (q.tslot, (u.cslot q.tslot).ident) else none })) ∧
          (q.promote = true →
            let w := (u.takeUp q.region q.version lo hi).modVersion q.region q.version (fun v => { v with
              pins := v.pins ++ [{ pair := 2048, lsn := remotePin home.toNat tag, lo := lo, hi := hi }] })
            let per := if q.paced then (hi - lo) / q.layers else 0
            exec (.moveSubpartRequest home tag q) s = .next (w.addMove
              { mover := .remote home.toNat tag, up := true, asker := q.tenant, tenant := r.owner, region := q.region,
                version := q.version, target := q.tier,
                todo := w.belowTier q.region q.tier v (promoteOrder lo hi per q.first),
                paced := if q.paced then some (lo, per, q.job, q.first) else none,
                recode := if q.recode then some (q.tslot, (w.cslot q.tslot).ident) else none }))))) ∧
    (∀ k t, s.tier.stalls.look k = some t →
      (t.gates = [] →
        exec (.stallBoundExpiry k) s = .next ((s.waitTill (t.since + 1000 * s.fld F.tierCtlStallMax)).endStall k true)) ∧
      (t.gates ≠ [] → t.gates.any s.instOpen = false → exec (.stallBoundExpiry k) s = .next (s.endStall k true)) ∧
      (t.gates.any s.instOpen = true → exec (.stallBoundExpiry k) s = .next s))

/-- WINDOW_LAYER_STAGE, WINDOW_LAYER_LANDED, PLACEMENT_SCAN and ADVICE_EXPIRY (R110, R112, R119, R120). -/
def Obligations.WindowsStageAndScansRun : Prop :=
  ∀ (s : State),
    (∀ (w : Win) j st l, s.winSlot w.val = some j → (s.win w.val).on = true → (s.win w.val).staging = none →
      gatesAllow (s.winGates w.val) = true →
      (s.winDue w.val j).find? (fun k => !((s.win w.val).landed.any (· = k))) = some (st, l) →
      ((s.winTake w.val st).winVersion w.val st).isSome = true →
      let u := (s.winTake w.val st).modWin w.val (fun x => { x with staging := some (st, l, []) })
      exec (.windowLayerStage w) s = .next (foldS (fun s n => s.stageOne w.val st l n) u (u.blockPages w.val l)) ∧
      (u.win w.val).staging = some (st, l, [])) ∧
    (∀ (w : Win) st l left, (s.win w.val).staging = some (st, l, left) →
      let waits := (s.win w.val).copies.any (fun c => c.1 = st && c.2.1 = l && s.trayOpen c.2.2.2)
      let u := s.modWin w.val (fun x => { x with staging := none, landed := x.landed ++ [(st, l)] })
      (waits = true → exec (.windowLayerLanded w) s = .next s) ∧
      (waits = false → exec (.windowLayerLanded w) s =
        .next (((foldS (fun s pg => s.inTime w.val pg) u left).endStalls
          (fun t => t.win = some w.val && left.any (· = t.page)) false).pushLayer w.val st l)) ∧
      (u.win w.val).staging = none ∧ (u.win w.val).landed = (s.win w.val).landed ++ [(st, l)]) ∧
    (let u := s.waitTill (s.tier.lastScan + 1000000 * s.fld F.tierCtlScanMs)
     let w : State := { u with tier := { u.tier with lastScan := u.now } }
     let pools := fun (t : Nat) => if t = 0 then [false, true] else [false]
     let idle := fun (s : State) (t : Nat) => 1000000000 * s.fld F.tierTenCtlIdleS t
     let scan := fun (s : State) (t : Nat) => foldS (fun x common =>
       ((x.scanTier t 0 (idle s t) common (fun r =>
         if r.tier ≠ 0 then some r.tier else if (x.partition 1 t common).isEmpty then none else some 1)).scanTier t 1
           (16 * idle s t) common (fun _ => some 2)).scanUp t common) s (pools t)
     exec .placementScan s = .next (foldS (fun s t => if s.fld F.tierTenCtlPlace t = 0 then s else scan s t) w (List.range 256)) ∧
     ((∀ t, t < 256 → u.fld F.tierTenCtlPlace t = 0) → exec .placementScan s = .next w)) ∧
    (∀ (t : Tenant) a rest, (s.ten t.val).advice = a :: rest →
      ∃ u, u = s.waitTill (a.2.2 + 1000000000 * s.fld F.tierCtlAdviceS) ∧
        exec (.adviceExpiry t) s = .next (u.modTen t.val (fun x => { x with advice := rest })))

/-- EVACUATION_DONE, DRAIN_COMPLETE, SCRUB_COMPLETE and SCRUB_TIMEOUT (R65–R67). -/
def Obligations.ShelvesDrainAndScrub : Prop :=
  ∀ (s : State) (tier : Tier) (idx : Nat) (h : Shelf), s.shelf tier.val idx = some h →
    (∀ k m, s.running = true → s.evacMove tier.val idx = some (k, m) → s.idsOn tier.val idx = [] →
      ∃ u, u = { s with tier := { s.tier with moves := Tbl.del k s.tier.moves } } ∧
        exec (.evacuationDone tier idx) s = .next ((u.drainShelf tier.val idx).shelfResult 0)) ∧
    (h.st = .draining → s.drainCount tier.val idx = 0 →
      ∃ u, exec (.drainComplete tier idx) s = .next u ∧
        u.shelf tier.val idx = some { h with st := .scrubbing, scrubAt := s.now } ∧ u.rgn.pages = s.rgn.pages ∧ u.out = s.out ∧
        u.regs = s.regs) ∧
    (h.st = .draining → s.drainCount tier.val idx ≠ 0 → exec (.drainComplete tier idx) s = .next s) ∧
    (h.st = .scrubbing →
      (s.pwr.step = 0 → ∃ u, exec (.scrubComplete tier idx) s = .next u ∧ u.shelf tier.val idx = some {} ∧
        u.idsOn tier.val idx = [] ∧ u.out = s.out) ∧
      (∃ u, exec (.scrubTimeout tier idx) s = .next u ∧
        u.shelf tier.val idx = some { h with st := .offline } ∧ u.flag F.rgnStsScrubFail = true ∧
        h.scrubAt + 10000000000 ≤ u.time.mono))

/-- LOAD_RECIPE, INVOKE, its completion and work runs (R222, R223, R218, R355–R357). NOT_READY of several parts is the model's choice
(log entry 189). -/
def Obligations.RecipesLoadRunAndComplete : Prop :=
  ∀ (s : State) (lsn : Nat) (e : Entry),
    (Working s lsn 0x10 e →
      (let slot := bits (e.w 2) 7 0
       let len := bits (e.w 4) 31 0
       e.note = [] →
        (∀ st d, s.recipeFail e.tenant slot = some (st, d) → exec (.loadRecipe lsn) s = .next (s.fixResult lsn (Res.fail st d))) ∧
        (s.recipeFail e.tenant slot = none → 80 ≤ len → len ≤ 1088 → len % 16 = 0 →
          let r := s.slc.slots.rd {} slot
          let a := s.setNote lsn [slot, if r.st = SlotState.empty then 0 else 1, s.now]
          let b : State := { a with slc := { a.slc with
            slots := Tbl.put {} slot { r with st := .loading, owner := e.tenant } a.slc.slots } }
          let u := b.readEp e.tenant (e.w 3) len (.image lsn)
          (∀ st d, u.fetchOf (.image lsn) ≠ some (.failed st d)) → exec (.loadRecipe lsn) s = .next u)) ∧
      (∀ slot old at_ b, e.note = [slot, old, at_] → s.fetchOf (.image lsn) = some (.got b) →
        (∀ i, goodImage b = some i →
          ∃ u : State, exec (.loadRecipe lsn) s = .next (u.fixResult lsn Res.ok) ∧
            u.slc.slots.rd {} slot = { st := .loaded, owner := e.tenant, img := some i } ∧
            u.slc.ctxs = s.slc.ctxs ∧ u.rgn = s.rgn) ∧
        (goodImage b = none → exec (.loadRecipe lsn) s = .next (s.fixResult lsn (Res.fail 0x0C 0x0003))))) ∧
    (Working s lsn 0x0C e →
      (s.inv lsn = none →
        (∀ p, (bit (e.w 2) 8 = false ∧ p = (((e.words.drop 3).take 5).map (fun w => leBytes 8 w.toNat)).flatten) ∨
            (bit (e.w 2) 8 = true ∧ s.fetchOf (.params lsn) = some (.got p)) →
          (∀ v, s.invokeCheck e p = .ok v → exec (.invoke lsn) s = .next (s.invokeBegin e v)) ∧
          (∀ st d, s.invokeCheck e p = .error (st, d) → exec (.invoke lsn) s = .next (s.fixResult lsn (Res.fail st d)))) ∧
        (bit (e.w 2) 8 = true → s.fetchOf (.params lsn) = none →
          let u := s.readEp e.tenant (e.w 3) (bits (e.w 2) 28 16) (.params lsn)
          (∀ st d, u.fetchOf (.params lsn) ≠ some (.failed st d)) → exec (.invoke lsn) s = .next u)) ∧
      (∀ v, s.inv lsn = some v → s.invokeOver lsn v = true → (s.endsOf lsn v).all (fun x => statusGood x.2.1) = true →
        (e.workId = 0 → exec (.invokeComplete lsn) s =
          .next ((s.modEntry lsn (fun x => { x with used := v.used, failedParts := [] })).fixResult lsn (s.goodResult e v))) ∧
        (∀ k, e.workId ≠ 0 → (∀ l ∈ s.rivals lsn, s.commitWork l = s) → s.workKey e = some k → k.winner = none →
          exec (.workCommit lsn) s = .next (s.winWork e v)) ∧
        (∀ k l n, e.workId ≠ 0 → (∀ l ∈ s.rivals lsn, s.commitWork l = s) → s.workKey e = some k → k.winner = some (l, n) →
          exec (.workCommit lsn) s = .next ((s.bump F.ldgCnt1Superseded).fixResult lsn
            { status := 0x0B, detail := 0x0D04, r0 := n }))) ∧
      (∀ v k st d rest, s.inv lsn = some v → s.invokeOver lsn v = true →
        (s.endsOf lsn v).filter (fun x => !(statusGood x.2.1)) = (k, st, d) :: rest →
        let u := if v.poisoned then s else s.poisonGather e v
        (v.poisoned = false → u.hasFabric lsn = true → exec (.invokeComplete lsn) s = .next u) ∧
        (v.poisoned = true ∨ u.hasFabric lsn = false →
          exec (.invokeComplete lsn) s = .next (u.finishInvoke e v (u.invokeResult e v))) ∧
        (v.count = 1 → v.img.final = 0 → s.invokeResult e v = Res.fail st d) ∧
        (¬(v.count = 1 ∧ v.img.final = 0) → st = 0x06 → (∀ x ∈ rest, x.2.1 = 0x06) → s.invokeResult e v = Res.fail st d) ∧
        (¬(v.count = 1 ∧ v.img.final = 0) → ¬(st = 0x06 ∧ ∀ x ∈ rest, x.2.1 = 0x06) → s.invokeResult e v =
          { status := 0x02, detail := d, r0 := v.count, r1 := partialBitmap (k :: rest.map (fun x => x.1)) })) ∧
      (∀ l x v k, s.rivals lsn = [l] → Working s l 0x0C x → s.inv l = some v → x.workId ≠ 0 → s.invokeOver l v = true →
        (s.endsOf l v).all (fun y => statusGood y.2.1) = true → s.workKey x = some k → k.winner = none →
        exec (.workCommit lsn) s = .next ((s.winWork x v).commitWork lsn))) ∧
    (∀ (t : Tenant) (w : W64) k, s.ldg.works.find? (fun k => k.tenant = t.val && k.work = w && k.winner.isSome && !k.writes)
        = some k →
      ∃ u, u = s.waitTill (k.wonAt + 1000000 * s.fld F.ldgCtlWorkHoldMs) ∧
        exec (.workKeyExpiry t w) s = .next (u.setWorks
          (u.ldg.works.filter (fun k => !(k.tenant = t.val && k.work = w && k.winner.isSome && !k.writes)))))

/-! ### Registers and the commands that write one -/

/-- The register space map read both ways. -/
def Obligations.RegistersHaveTheirOwnAddresses : Prop :=
  (∀ (r : Reg) (i j : Nat), i < r.place.n1 → j < r.place.n2 →
    locate (⟨r, i, j⟩ : Loc).addr = some ⟨r, i, j⟩ ∧ (⟨r, i, j⟩ : Loc).addr % 8 = 0 ∧ (⟨r, i, j⟩ : Loc).addr < 0x10000000) ∧
  (∀ (a : Nat) (l : Loc), locate a = some l → l.addr = a ∧ l.i < l.reg.place.n1 ∧ l.j < l.reg.place.n2)

/-- R7's access types, for every plain register. -/
def Obligations.RegisterWriteSetsByAccessType : Prop :=
  ∀ (s : State) (path : Path) (l : Loc) (v : W64), Reaches s path l → plainReg l.reg = true →
    s.writeCause l (pathSecure path) v.toNat = none →
    ∃ t : State, exec (.registerWrite path (BitVec.ofNat 32 l.addr) v) s = .next t ∧ t = { s with regs := t.regs } ∧
      (∀ k : Loc, k.addr ≠ l.addr → t.word k = s.word k) ∧
      (∀ f ∈ l.reg.flds, bits (t.word l) f.hi f.lo =
        if ctlOf (blockAt l.addr).1 (blockAt l.addr).2 = l ∧ f.lo = 0 ∧ bit (s.word l) 0 = true then bits (s.word l) f.hi f.lo
        else if s.takes l (pathSecure path) f = .yes then
          match f.acc with
          | .wo => bits (s.word l) f.hi f.lo
          | .w1c => bits (s.word l) f.hi f.lo - Nat.land (bits (s.word l) f.hi f.lo) (bits v.toNat f.hi f.lo)
          | _ => bits v.toNat f.hi f.lo
        else bits (s.word l) f.hi f.lo)

/-- R450's causes of a write without effect. -/
def Obligations.AccessErrorsAreRecorded : Prop :=
  ∀ (s : State) (path : Path) (a : BitVec 32) (v : W64), s.pathOpen path = true →
    let er := fun (s : State) (c : Nat) => { s with gen :=
      if s.gen.mgmtErr then { s.gen with errCount := min 65535 (s.gen.errCount + 1) }
      else { s.gen with
        mgmtErr := true, errCause := c, errPath := pathCode path, errAddr := a.toNat % 2 ^ 28, errCount := 1 } }
    let x := exec (.registerWrite path a v) s
    (a.toNat % 8 ≠ 0 → x = .next (er s 1)) ∧
    (a.toNat % 8 = 0 → locate a.toNat = none → x = .next (er s 2)) ∧
    (∀ l, a.toNat % 8 = 0 → locate a.toNat = some l → s.blockServed (blockAt a.toNat).1 = false → x = .next (er s 3)) ∧
    (∀ l, a.toNat % 8 = 0 → locate a.toNat = some l → s.blockServed (blockAt a.toNat).1 = true →
      (∀ f ∈ l.reg.flds, s.takes l (pathSecure path) f ≠ .yes) →
      (s.writeCause l (pathSecure path) v.toNat = some 4 → x = .next (er s 4)) ∧
      (s.writeCause l (pathSecure path) v.toNat = some 5 → x = .next (er s.worldViol 5)))

/-- TQ_RING_CTL and TQ_TEN_RESET. -/
def Obligations.RingsTurnOnAndReset : Prop :=
  ∀ (s : State) (path : Path),
    (∀ (pair : Pair) (v : W64), Accepts s path .tqRingCtl pair.val → bit v.toNat 0 = true → bit v.toNat 16 = false →
      s.flag F.tqRingCtlEnable pair.val = false → (s.ring pair.val).resetting = none →
      let l : Loc := ⟨.tqRingCtl, pair.val, 0⟩
      let u := s.setWord l (insBits (s.newWord path l v) 0 0 0)
      (u.enableCode pair.val = 0 → exec (.ringEnable path pair v) s =
        .next ((((u.setFld F.tqRingCtlEnable 1 pair.val).sendPrior pair.val).goOn).noteRing pair.val)) ∧
      (∀ c, u.enableCode pair.val = c + 1 →
        exec (.ringEnable path pair v) s = .next ((u.faultPair pair.val (c + 1)).noteRing pair.val))) ∧
    (∀ (pair : Pair) (v : W64), Accepts s path .tqRingCtl pair.val → bit v.toNat 0 = false → bit v.toNat 16 = false →
      s.flag F.tqRingCtlEnable pair.val = true → (s.ring pair.val).resetting = none →
      exec (.ringEnable path pair v) s =
        .next (((s.setFld F.tqRingCtlEnable 0 pair.val).dropFetches (isFetchOf pair.val)).noteRing pair.val)) ∧
    (∀ (pair : Pair), Accepts s path .tqRingCtl pair.val → s.flag F.tqRingCtlEnable pair.val = true →
      (s.ring pair.val).resetting = none →
      exec (.ringReset path pair) s =
        .next ((((s.noteRing pair.val).modRing pair.val (fun r => { r with resetting := some 0x0201 })).dropFetches
          (isFetchOf pair.val)).goOn)) ∧
    (∀ (t : Tenant), Accepts s path .tqTenReset t.val → (s.ten t.val).resetBusy = false →
      (s.running = true → exec (.tenantReset path t) s = .next (s.startTenantReset t.val).goOn) ∧
      (s.running = false →
        exec (.tenantReset path t) s = .next (s.modTen t.val (fun x => { x with resetHeld := true }))))

/-- R65's commands through RGN_SHELF_CMD and SEC_SHELF_CMD. -/
def Obligations.ShelfCommandsAct : Prop :=
  ∀ (s : State) (path : Path) (tier : Tier) (idx : Nat), idx < 2 ^ 18 →
    (Accepts s path .rgnShelfCmd 0 → s.rgn.cmdBusy = false →
      (∀ h, s.shelf tier.val idx = some h → (h.secure = true → pathSecure path = true) → h.st ≠ .system →
        (∀ (tenant : Tenant) common, (common = true → tenant.val = 0) →
          exec (.shelfAssign path tier idx tenant common) s = .next (if h.st = .free then
            ((s.modShelf tier.val idx (fun h => { h with st := .assigned, tenant := tenant.val, common := common })).shelfResult
              0).goOn
            else (s.shelfResult 2).goOn)) ∧
        exec (.shelfRevokeEvacuate path tier idx) s = .next (if h.st ≠ .assigned then (s.shelfResult 2).goOn
          else if (s.idsOn tier.val idx).length > s.evacRoom tier.val idx h then (s.shelfResult 3).goOn
          else (s.evacuate tier.val idx h).goOn) ∧
        exec (.shelfRevokeForce path tier idx) s = .next (if h.st ≠ .assigned then (s.shelfResult 2).goOn
          else (s.forceRevoke tier.val idx).goOn) ∧
        exec (.shelfOnline path tier idx) s = .next (if h.st = .offline then
            ((s.modShelf tier.val idx (fun h => { h with st := .scrubbing, scrubAt := s.now })).shelfResult 0).goOn
          else (s.shelfResult 2).goOn)) ∧
      (s.shelf tier.val idx = none → ∀ (tenant : Tenant) common,
        exec (.shelfAssign path tier idx tenant common) s = .next (s.shelfResult 1).goOn)) ∧
    (∀ secure, Accepts s path .secShelfCmd 0 →
      ∃ u : State, u = { s with regs := u.regs } ∧
        exec (.shelfWorldSet path tier idx secure) s = .next (match s.shelf tier.val idx with
          | some h => if h.st = .free then u.modShelf tier.val idx (fun h => { h with secure := secure }) else u
          | none => u))

/-- TIME_JOB_CTL, TIME_JOB_EST, TIER_WIN_CTL, TIME_GATE_W0 and W1. -/
def Obligations.JobsWindowsAndGatesAreSet : Prop :=
  ∀ (s : State) (path : Path) (v : W64),
    (∀ j : JobSlot, Accepts s path .timeJobCtl j.val →
      let l : Loc := ⟨.timeJobCtl, j.val, 0⟩
      let u := s.setWord l (insBits (s.newWord path l v) 0 0 0)
      ((s.job j.val).live = false → bit v.toNat 0 = true →
        (u.jobCheck j.val = 0 → exec (.jobEnable path j v) s = .next (((u.modJob j.val (fun y => { y with
          live := true, err := 0, step := u.fld F.timeJobPosStep j.val, layer := u.fld F.timeJobPosLayer j.val,
          phase := u.fld F.timeJobPosPhase j.val, est := u.fld F.timeJobEstEstNs j.val, tref := s.now - s.now % 8,
          refStep := u.fld F.timeJobPosStep j.val, refLayer := u.fld F.timeJobPosLayer j.val,
          refPhase := u.fld F.timeJobPosPhase j.val, cands := [], estWrite := none })).evalGates j.val).flushGated.pumpMoves.goOn)) ∧
        (∀ e, u.jobCheck j.val = e + 1 →
          exec (.jobEnable path j v) s = .next ((u.modJob j.val (fun y => { y with err := e + 1 })).goOn))) ∧
      ((s.job j.val).live = true → exec (.jobDisable path j) s = .next (s.jobOff j.val).goOn)) ∧
    (∀ j : JobSlot, Accepts s path .timeJobEst j.val →
      let l : Loc := ⟨.timeJobEst, j.val, 0⟩
      let u := s.setWord l (insBits (s.newWord path l v) 31 0 (bits (s.word l) 31 0))
      exec (.estimateWrite path j v) s = .next ((if (s.job j.val).live
        then u.modJob j.val (fun x => { x with estWrite := some (bits v.toNat 31 0) })
        else u.setFld F.timeJobEstEstNs (bits v.toNat 31 0) j.val).evalGates j.val)) ∧
    (∀ w : Win, Accepts s path .tierWinCtl w.val →
      let l : Loc := ⟨.tierWinCtl, w.val, 0⟩
      let u := s.setWord l (insBits (s.newWord path l v) 0 0 0)
      ((s.win w.val).on = false → bit v.toNat 0 = true →
        (u.winCheck w.val = 0 → exec (.windowEnable path w v) s = .next (u.modWin w.val (fun _ =>
          { on := true, reserve := u.winReserve w.val, cur := u.fld F.tierWinLeadInit w.val }))) ∧
        (∀ e, u.winCheck w.val = e + 1 → exec (.windowEnable path w v) s =
          .next (u.modWin w.val (fun x => { x with on := false, err := e + 1 })))) ∧
      ((s.win w.val).on = true → bit v.toNat 0 = false → exec (.windowEnable path w v) s = .next (s.winOff w.val 0).goOn)) ∧
    (Accepts s path .timeGateW0 0 → exec (.gateW0Stage path v) s = .next { s with time := { s.time with w0 := v } }) ∧
    (Accepts s path .timeGateW1 0 →
      let j := s.fld F.timeGateSelSlot
      let k := s.fld F.timeGateSelEntry
      let code := gateCheck (s.jobC j) (s.jobP j) s.time.w0.toNat v.toNat
      (code ≠ 0 → exec (.gateCommit path v) s = .next ((s.setFld F.timeStsGateErr 1).setFld F.timeStsGateErrCode code)) ∧
      (code = 0 → (Tbl.rd {} (s.job j).gates k).inst = none →
        let u := ((s.modJob j (fun x => { x with gates := Tbl.put {} k { w0 := s.time.w0, w1 := v } x.gates })).evalGate
          j k).gatesMoved j false
        exec (.gateCommit path v) s = .next (if u.flag F.timeGateSelAutoinc
          then u.setFld F.timeGateSelEntry ((k + 1) % 1024) else u)))

/-- The key store's commands, and LOCK. -/
def Obligations.KeysAndLocksAreSet : Prop :=
  ∀ (s : State) (path : Path),
    (∀ v, Accepts s path .secKeyData 0 → exec (.keyDataStage path v) s = .next (if s.sec.staged.length < 8
      then { s with sec := { s.sec with staged := s.sec.staged ++ [v] } } else s)) ∧
    (Accepts s path .secKeyCmd 0 →
      let a := keyWords (s.sec.staged.take 4)
      let b := keyWords (s.sec.staged.drop 4)
      (s.commitErr a b ≠ 0 → exec (.keyCommit path) s =
        .next { s with sec := { s.sec with staged := [], keyErr := s.commitErr a b } }) ∧
      (s.commitErr a b = 0 →
        let k : KeySt := { a := a, b := b, owner := if s.selKind = 0 then s.fld F.secKeySelOwner else 0,
                           salt := if s.selKind = 1 then BitVec.ofNat 32 (s.fld F.secKeySelSalt) else 0 }
        let d : State := { s with sec := { s.sec with staged := [], keyErr := 0 } }
        let d := if s.selKind = 2 then d.keepKey s.selKey else d
        let u : State := { d with sec := { d.sec with keys := Tbl.ins s.selKey k s.sec.keys } }
        (s.selKind ≠ 1 → exec (.keyCommit path) s = .next u) ∧
        (s.selKind = 1 → exec (.keyCommit path) s = .next ((u.modPort s.selIndex (fun p => { p with
          ctr := listMod (listMod p.ctr s.selKslot (fun _ => 0)) (2 + s.selKslot) (fun _ => 0) })).flushPort s.selIndex)) ∧
        u.sec.keys.look s.selKey = some k ∧ (∀ j, j ≠ s.selKey → u.sec.keys.look j = s.sec.keys.look j)) ∧
      (s.selKind = 1 → (s.sec.keys.look s.selKey).isSome = true → exec (.keyActivate path) s =
        .next ((s.modPort s.selIndex (fun p => { p with kslot := s.selKslot })).flushPort s.selIndex)) ∧
      exec (.keyClear path) s = .next (if s.selKind = 0 ∧ s.keyRefs s.selIndex > 0
        then { s with sec := { s.sec with keyErr := 2 } }
        else { s with sec := { s.sec with
          keys := s.sec.keys.del s.selKey, former := s.sec.former.del s.selKey, keyErr := 0 } })) ∧
    (∀ blk : Blk, Accepts s path (ctlOf (blkCode blk).1 (blkCode blk).2).reg (blkCode blk).2 →
      ∃ t : State, exec (.lockSet path blk) s = .next t ∧ t = { s with regs := t.regs } ∧
        t.blockLocked (blkCode blk).1 (blkCode blk).2 = true ∧
        (∀ k : Loc, k.addr ≠ (ctlOf (blkCode blk).1 (blkCode blk).2).addr → t.word k = s.word k)) ∧
    (Accepts s path .genCtl 0 → ∃ t : State, exec (.lockAll path) s = .next t ∧ t = { s with regs := t.regs } ∧
      (∀ b n, blockIs b n → (b ≠ 4 ∨ pathSecure path = true) → t.blockLocked b n = true) ∧
      (pathSecure path = false → t.blockLocked 4 0 = s.blockLocked 4 0))

/-- The other commands that write one register. -/
def Obligations.ControlWritesAct : Prop :=
  ∀ (s : State) (path : Path) (v : W64),
    (∀ p : Port, Accepts s path .portHold p.val → exec (.portHold path p) s = .next (s.holdPort p.val 2) ∧
      exec (.portRelease path p) s = .next (s.releasePort p.val).goOn) ∧
    (Accepts s path .schShpCfg 0 →
      exec (.shaperConfig path v) s = .next (s.modQueue (schedKey (s.fld F.schShpSelPort) (s.fld F.schShpSelTenant)
        (s.fld F.schShpSelTc)) (fun q => { q with
          rate := bits v.toNat 31 0, hi := bits v.toNat 55 32, on := bit v.toNat 56,
          credit := (if bit v.toNat 57 then ((1000 * bits v.toNat 55 32 : Nat) : Int) else 0) -
            ((if bit v.toNat 56 && decide (q.began.1 = s.now) then 1000 * q.began.2 else 0 : Nat) : Int) }))) ∧
    (∀ (t : Tenant) (m : Fin 2), Accepts s path (if m = 0 then .schMtr0Ctl else .schMtr1Ctl) t.val →
      bits v.toNat 1 0 ≠ 3 →
      let cbs := if m = 0 then s.fld F.schMtr0BurstCbs t.val else s.fld F.schMtr1BurstCbs t.val
      let ebs := if m = 0 then s.fld F.schMtr0BurstEbs t.val else s.fld F.schMtr1BurstEbs t.val
      let x : Meter := {
        mode := bits v.toNat 1 0
        cir := if m = 0 then s.fld F.schMtr0RateCir t.val else s.fld F.schMtr1RateCir t.val
        pir := if m = 0 then s.fld F.schMtr0RatePir t.val else s.fld F.schMtr1RatePir t.val
        cbs := cbs
        ebs := ebs
        c := if bit v.toNat 2 then 1000 * cbs else 0
        e := if bit v.toNat 2 then 1000 * ebs else 0
        at_ := s.now }
      exec (.meterCommit path t m v) s =
        .next { s with sw := { s.sw with meters := Tbl.put {} (meterKey t.val m.val) x s.sw.meters } }) ∧
    (Accepts s path .ldgJobAbort 0 → bit v.toNat 31 = true → exec (.stepAbort path v) s =
      .next (s.requestAbort (bits v.toNat 23 16) (bits v.toNat 15 0)).goOn) ∧
    (Accepts s path .rstBlkPort 0 →
      let l : Loc := ⟨.rstBlkPort, 0, 0⟩
      let u := foldS (fun s n => s.blockPort n) (s.setWord l v.toNat) (rising (s.word l) v.toNat 64)
      exec (.portBlockReset path v) s = .next (foldS (fun s n => s.unblockPort n) u (falling (s.word l) v.toNat 64))) ∧
    (Accepts s path .rstBlkHbm 0 →
      let l : Loc := ⟨.rstBlkHbm, 0, 0⟩
      let u := foldS (fun s n => s.blockStack n) (s.setWord l (s.newWord path l v)) (rising (s.word l) v.toNat 12)
      exec (.hbmBlockReset path v) s = .next (foldS (fun s n => s.unblockStack n) u (falling (s.word l) v.toNat 12))) ∧
    (Accepts s path .rstCmd 0 → exec (.rstCmdWarm path) s = .next (s.assertSource 3 false true false) ∧
      exec (.rstCmdCold path) s = .next (s.assertSource 3 true true false)) ∧
    (Accepts s path .rstWdtKick 0 → exec (.watchdogKick path v) s = .next (if bits v.toNat 15 0 = 0x4B48
      then { s with rst := { s.rst with kickAt := s.now } } else s)) ∧
    (∀ q : Quad, Accepts s path .clkQCtl q.val → s.blockLocked 2 0 = false →
      let f := bits v.toNat 11 0
      let l : Loc := ⟨.clkQCtl, q.val, 0⟩
      let far := (List.range 4).any (fun k => decide (k ≠ q.val) &&
        decide (((s.fld F.clkQCtlFreqMhz k : Int) - f).natAbs > 270))
      (f < 1530 ∨ 2070 < f → exec (.quadrantFreqWrite path q v) s = .next s) ∧
      (1530 ≤ f → f ≤ 2070 → far = true →
        exec (.quadrantFreqWrite path q v) s = .next (s.setFld F.clkStsSetRefused 1)) ∧
      (1530 ≤ f → f ≤ 2070 → far = false →
        ∃ t : State, exec (.quadrantFreqWrite path q v) s = .next t ∧ t = { s with regs := t.regs } ∧
          t.fld F.clkQCtlFreqMhz q.val = f ∧ (∀ k : Loc, k.addr ≠ l.addr → t.word k = s.word k))) ∧
    (Accepts s path .hltRts 0 → exec (.returnToService path v) s = .next (s.rtsStart v.toNat)) ∧
    (Accepts s path .bbxCtl 0 → pathSecure path = true →
      ∃ t : State, exec (.clearSticky path) s = .next t ∧ t.bbx = { s.bbx with sticky := [] } ∧
        t = { s with bbx := t.bbx, regs := t.regs } ∧ (∀ k : Loc, k.addr ≠ addrOf .bbxCtl → t.word k = s.word k))

/-! ### The time base, the third run, the ledger's own commands and timers -/

/-- The commands of the time base. -/
def Obligations.TimeBaseCommands : Prop :=
  ∀ (s : State),
    (∀ lsn e, Working s lsn opMark e → e.note = [] →
      (∀ st d, s.markFail e.job e.tenant (e.w 2) = some (st, d) →
        exec (.mark lsn) s = .next (s.fixResult lsn (Res.fail st d))) ∧
      (∀ j, s.markFail e.job e.tenant (e.w 2) = none → s.jobSlot e.job = some j →
        exec (.mark lsn) s = .next ((s.modJob j (fun x => { x with
          cands := x.cands ++ [BitVec.ofNat 64 (e.w 2 % 2 ^ 48)] })).setNote lsn [j + 1]))) ∧
    (s.flag F.timeStepCtlEnable = true →
      (∀ t, s.time.lastEdge = some t → s.now < t + 100 →
        exec .stepInEdge s = .next (s.setFld F.timeStepCtlStepOverrun 1)) ∧
      ((∀ t, s.time.lastEdge = some t → t + 100 ≤ s.now) → ∀ j, s.fld F.timeStepCtlSlot = j → (s.job j).live = true →
        exec .stepInEdge s =
          .next (({ s with time := { s.time with lastEdge := some s.now } }.bump F.timeStepCtlEdges).modJob j (fun x => { x with
            cands := x.cands ++ [BitVec.ofNat 64 (posWord ((s.job j).step + 1) 0 0)] })))) ∧
    (∀ slot : JobSlot,
      let j := slot.val
      let u := (s.takeEst j).modJob j (fun x => { x with cands := [] })
      (((s.takeEst j).job j).cands = [] → exec (.positionResolve slot) s = .next (u.finishMarks j)) ∧
      (∀ c rest, ((s.takeEst j).job j).cands = c :: rest →
        let x := if rest.isEmpty then u
          else (u.bump F.timeJobCnt1Coalesced j 0 rest.length).setFld F.timeJobStsMarkOverrun 1 j
        (posLater (highest c rest) (x.jobPos j) = false →
          exec (.positionResolve slot) s = .next ((x.bump F.timeJobCnt0Back j).finishMarks j)) ∧
        (posLater (highest c rest) (x.jobPos j) = true →
          exec (.positionResolve slot) s = .next (((x.bump F.timeJobCnt0Marks j).moveTo j (highest c rest)).finishMarks j)))) ∧
    (∀ (slot : JobSlot) entry g, entry < 1024 → (s.job slot.val).gates.look entry = some g → g.inst.isSome = true →
      s.gateHeld g = false →
      (g.guard = false → g.spent = false →
        exec (.guardBandStart slot entry) s = .next ((s.waitTill (s.guardFrom slot.val g)).modJob slot.val (fun x =>
          { x with gates := Tbl.ins entry { g with guard := true } x.gates }))) ∧
      (g.guard = true →
        exec (.guardBandExpire slot entry) s = .next ((((s.waitTill (s.guardTo slot.val g)).modJob slot.val (fun x =>
          { x with gates := Tbl.ins entry { g with guard := false, spent := true } x.gates })).bump
            F.timeJobCnt1GuardExpired slot.val).gatesMoved slot.val false))) ∧
    (∀ master offset, exec (.ptpMessage master offset) s =
      .next { s with time := { s.time with wall := master.toNat, ptpOffset := offset, ptp := max 1 s.time.ptp } }) ∧
    (s.flag F.timePtpStsPpsEn = true → s.time.ptp ≠ 0 → ∀ (k : Nat),
      (s.time.wall ≤ 1000000000 * k + 10000 → 1000000000 * k ≤ s.time.wall + 10000 →
        exec .ppsEdge s = .next { s with time := { s.time with wall := 1000000000 * k, ptp := 2 } }))

/-- Timers and the ledger's own commands. -/
def Obligations.TimersAndRecovery : Prop :=
  ∀ (s : State),
    (let s0 := s
     ∀ cx (third : Slice) c k sh e v, s.ctx cx = some c → s.shadowCx cx = some (k, sh) → s.mayCommit c = some (e, v) →
      c.compares = true → (sh.compares = true ∨ ∃ r d, sh.status = .ended r d) →
      s.thirdOk c.slice sh.slice third.val = true →
      let s : State := if c.status = .mismatch then s else s.bump F.hltCnt0Mismatches
      exec (.shadowThirdRun cx third .placed) s0 = .next ((((({ s with slc := { s.slc with
        ctxs := Tbl.del k s.slc.ctxs } } : State).modCtx cx (fun c => { c with status := .commit 0 })).quarantine
          sh.slice 2 c.pc e.ident e.tenant e.job).phaseCommit cx)) ∧
      exec (.shadowThirdRun cx third .shadow) s0 = .next ((((({ s with slc := { s.slc with
        ctxs := Tbl.del k s.slc.ctxs } } : State).modCtx cx (fun _ => { sh with
          shadowOf := none, slot := c.slot, recvd := c.recvd, startAt := c.startAt, record := c.record, log := [], taken := 0,
          status := .commit 0 })).quarantine c.slice 2 c.pc e.ident e.tenant e.job).phaseCommit cx)) ∧
      exec (.shadowThirdRun cx third .neither) s0 = .next ((((s.hwFault cx).quarantine c.slice 2 c.pc e.ident e.tenant
        e.job).quarantine sh.slice 2 c.pc e.ident e.tenant e.job).quarantine third.val 2 c.pc e.ident e.tenant e.job)) ∧
    (∀ (ep : Ep) tag (seq : W32) a, s.ldg.atoms.find? (fun a => !a.recipe && decide (a.k0 = ep.toNat) &&
        decide (a.k1 = tag) && decide (a.k2 = seq.toNat)) = some a →
      ∃ t : State, exec (.atomicRecordExpiry ep tag seq) s = .next t ∧ a ∉ t.ldg.atoms ∧
        (∀ x ∈ s.ldg.atoms, x ≠ a → x ∈ t.ldg.atoms) ∧
        a.stamp + 1000000 * s.fld F.ldgAtomCtlRetainMs ≤ t.now) ∧
    (∀ peer : ModId, s.watches peer.toNat = true →
      exec (.livenessProbe peer) s =
        (let u := s.waitTill ((s.ldg.peers.rd {} peer.toNat).heard + 1000 * s.fld F.ldgLiveCtlPeriodUs)
         .next (u.sendFence (u.portTo peer.toNat u.self 2) peer.toNat 2 .probe)) ∧
      ((s.ldg.peers.rd {} peer.toNat).suspect = false →
        let p := s.ldg.peers.rd {} peer.toNat
        let u := s.waitTill (p.heard + 1000 * s.fld F.ldgLiveCtlTmoUs)
        let probes := (u.tx peer.toNat 2).fence.filter (fun f => f.purpose = .probe)
        let x := if probes.length = 0 then u else u.modTx peer.toNat 2 (fun t =>
          { t with fence := t.fence.filter (fun f => f.purpose ≠ .probe) })
        let doubt : Peer → Peer := fun p => { p with suspect := true, probed := p.probed + probes.length }
        let y : State := { x with ldg := { x.ldg with peers := Tbl.upd {} peer.toNat doubt x.ldg.peers } }
        exec (.peerSuspect peer) s = .next (y.bbxLog 0x0B 0 0
          (leBytes 2 peer.toNat ++ leBytes 4 ((x.now - p.heard) / 1000))))) ∧
    (s.ldg.mode = .resync → s.buddy.isSome = true → s.ldg.fenced = false → s.resynced = true →
      exec .resyncComplete s =
        .next ({ s with ldg := { s.ldg with mode := .mirrored, bound := none } } : State).contactBuddy.goOn) ∧
    (∀ (ep : Ep) (tc : Tc),
      let r := s.rx ep.toNat tc.val
      (r.ackDue = true → exec (.ackTimerExpiry ep tc) s =
        .next ((s.waitTill (r.ackAt + 1000 * s.fld F.mapTmoAckUs)).sendAck ep.toNat tc.val)) ∧
      (∀ t, r.gapAt = some t → exec (.streamGapExpiry ep tc) s =
        (let u := s.waitTill (t + 1000 * s.fld F.swRsqCtlStreamGapUs)
         .next (((u.modRx ep.toNat tc.val (fun r => { r with gapAt := some u.now })).bump F.swCnt1Resends).askResend
           ep.toNat tc.val))) ∧
      (∀ t, s.retxAt ep.toNat tc.val = some t → exec (.retxTimerExpiry ep tc) s =
        (let u := s.waitTill t
         let x := foldS (fun s f => s.retxFence ep.toNat tc.val f) (u.retxStream ep.toNat tc.val) (u.tx ep.toNat tc.val).fence
         .next ((foldS (fun s w => s.retxWait w) x (u.ulpWaits ep.toNat tc.val)).goOn)))) ∧
    (∀ n q t, s.fab.later.look n = some (q, t) → q.kind = .load → exec (.epochAdoptTimeout n) s =
      (let u := s.waitTill (t + 1000 * s.fld F.mapTmoAdoptUs)
       .next ({ u with fab := { u.fab with later := Tbl.del n u.fab.later } }.loadFail q.port q.h St.epoch 0x0B11))) ∧
    (∀ n q t, s.fab.later.look n = some (q, t) → q.kind ≠ .load → exec (.epochAdoptTimeout n) s =
      (let u := s.waitTill (t + 1000 * s.fld F.mapTmoAdoptUs)
       let w : State := { u with fab := { u.fab with later := Tbl.del n u.fab.later } }
       .next ((w.modRx (w.rxSrc q.h) q.h.tc.val (fun r => { r with held := r.held.map (fun (x : RxReq) =>
         if x.h.seq = q.h.seq && x.deny.isNone && w.epochAt x.h = .later then { x with deny := some (St.epoch, 0x0B11) } else x)
         })).pumpStream (w.rxSrc q.h) q.h.tc.val))) ∧
    (∃ t : State, exec .violationSecondRollover s = .next t ∧ t.now = (s.now / 1000000000 + 1) * 1000000000 ∧
      (∀ x ∈ t.fab.ports, x.2.vsec = 0))

/-! ### The fabric -/

/-- What arrives outside the streams' order. -/
def Obligations.RequestsAreServed : Prop :=
  ∀ (s : State) (port : Port) (h : Hdr),
    let n := port.val
    let u := s.hear h.src.toNat
    (Comes s n tyLoad h [] → h.ext = false → (Instr.ulpLoad port h).wf = true → u.ldg.fenced = true →
      exec (.ulpLoad port h) s = .next (u.failAnswer n tyLoadRsp h St.fenced 0x0D01)) ∧
    (Comes s n tyLoad h [] → h.ext = false → (Instr.ulpLoad port h).wf = true → u.ldg.fenced = false →
      (∀ st d, u.edgeCheck n tyLoad h = .error (st, d) →
        exec (.ulpLoad port h) s = .next ((u.edgeDeny n).failAnswer n tyLoadRsp h st d)) ∧
      (∀ g, u.edgeCheck n tyLoad h = .ok g → g.dst = h.dst →
        (u.serves h.dst = false → exec (.ulpLoad port h) s = .next (u.transit tyLoad g [])) ∧
        (u.serves h.dst = true → g.dep = true →
          exec (.ulpLoad port h) s = .next (u.arriveLoad { kind := .load, port := n, h := g, data := [] })) ∧
        (u.serves h.dst = true → g.dep = false →
          (∀ st d, u.refuse { kind := .load, port := n, h := g, data := [] } = some (st, d) →
            exec (.ulpLoad port h) s = .next (u.loadFail n g st d)) ∧
          (u.refuse { kind := .load, port := n, h := g, data := [] } = none → u.epochAt g = .later →
            exec (.ulpLoad port h) s = .next (u.holdLater
              { kind := .load, port := n, h := g, data := [], at_ := u.now, drains := u.shelvesOf g.xRegion })) ∧
          (u.refuse { kind := .load, port := n, h := g, data := [] } = none → u.epochAt g ≠ .later → hdrControl g = false →
            let y := u.meet g.xRegion g.xVersion g.xTenant
            ((y.version g.xRegion g.xVersion).isSome = false →
              exec (.ulpLoad port h) s = .next (y.loadFail n g St.denied 0x0301)) ∧
            ((y.version g.xRegion g.xVersion).isSome = true →
              y.heldHere g.xRegion (addrOff g.addr.toNat / 65536) = false → exec (.ulpLoad port h) s =
                .next (y.fwdLoad n g (y.holderOf g.xRegion (addrOff g.addr.toNat / 65536))))) ∧
          (u.refuse { kind := .load, port := n, h := g, data := [] } = none → u.epochAt g ≠ .later → hdrControl g = false →
            let y := u.meet g.xRegion g.xVersion g.xTenant
            (y.version g.xRegion g.xVersion).isSome = true → y.heldHere g.xRegion (addrOff g.addr.toNat / 65536) = true →
            ∀ w, let x := y.tryStall (.load n g) g.xTenant g.xRegion g.xVersion [addrOff g.addr.toNat / 65536]
              (x = (w, .go) → exec (.ulpLoad port h) s =
                .next ((if g.ext then w else w.tollBytes g.xTenant g.len).serveLoad n g g.xRegion g.xVersion u.now)) ∧
              (x = (w, .stalled) → exec (.ulpLoad port h) s = .next w) ∧
              (x = (w, .notReady) → exec (.ulpLoad port h) s = .next (w.loadFail n g St.notReady 0x0411)))))) ∧
    (Comes s n tyLoad h [] → h.ext = true → (Instr.ulpLoad port h).wf = true →
      exec (.ulpLoad port h) s = .next (if h.status ≠ 0 then u.failAnswer n tyLoadRsp h h.status.toNat h.detail.toNat
        else if u.serves h.dst then u.arriveLoad { kind := .load, port := n, h := h, data := [] }
        else u.transit tyLoad h [])) ∧
    (Comes s n tyFence h [] → h.ext = false → (Instr.ulpFence port h).wf = true → u.serves h.dst = true →
      u.ldg.fenced = false → ∀ k, u.srcEntry n h.src = some k →
      let g := { h with xTenant := u.fld F.portEpTenant n k, xSecure := u.flag F.portEpSecure n k }
      let w := (u.tollBytes g.xTenant g.len).hearBuddy g
      exec (.ulpFence port h) s = .next ((w.modRx (w.rxSrc g) g.tc.val (fun r =>
        { r with fences := r.fences ++ [(n, g)] })).pumpFences (w.rxSrc g) g.tc.val)) ∧
    (∀ data, Comes s n tyAttach h data → h.ext = false → (Instr.ulpAttach port h data).wf = true → u.ldg.fenced = false →
      ∀ k, u.srcEntry n h.src = some k →
      let g := { h with xTenant := u.fld F.portEpTenant n k, xSecure := u.flag F.portEpSecure n k }
      let w := u.tollBytes g.xTenant g.len
      let a := w.attach { port := n, bar2 := false, detach := false, h := g, data := data }
      (∀ x v id, a = (x, some (.ok (v, id))) → exec (.ulpAttach port h data) s =
        .next (x.answer n tyAttachRsp g St.ok 0 false 8 (leBytes 4 v ++ leBytes 3 id ++ leBytes 1 0))) ∧
      (∀ x st d, a = (x, some (.error (st, d))) →
        exec (.ulpAttach port h data) s = .next ((x.edgeDeny n).failAnswer n tyAttachRsp g st d)) ∧
      (∀ x, a = (x, none) → exec (.ulpAttach port h data) s = .next x)) ∧
    (∀ data, Comes s n tyAttach h data → h.ext = true → h.status = 0 → (Instr.ulpAttach port h data).wf = true →
      u.serves h.dst = true → exec (.ulpAttach port h data) s = .next (u.homeAttach n h data)) ∧
    (Comes s n tyDetach h [] → h.ext = false → (Instr.ulpDetach port h).wf = true → u.ldg.fenced = false →
      ∀ k, u.srcEntry n h.src = some k →
      let g := { h with xTenant := u.fld F.portEpTenant n k, xSecure := u.flag F.portEpSecure n k }
      let w := u.tollBytes g.xTenant g.len
      ∀ x, w.window h.src.toNat (addrWin h.addr.toNat) = some x →
        (w.homeOf x.region = w.self → exec (.ulpDetach port h) s =
          .next (({ w with fab := { w.fab with wins := w.fab.wins.filter (fun (y : FabWin) =>
            !(decide (y.ep = h.src.toNat) && decide (y.w = addrWin h.addr.toNat))) } }.dropRef x.region x.version).answer n
              tyAttachRsp g St.ok 0 false 8 (leBytes 8 0))) ∧
        (w.homeOf x.region ≠ w.self → exec (.ulpDetach port h) s =
          .next (w.askHome { port := n, bar2 := false, detach := true, h := g, data := [] } (w.homeOf x.region)))) ∧
    (Comes s n tyDetach h [] → h.ext = true → h.status = 0 → (Instr.ulpDetach port h).wf = true → u.serves h.dst = true →
      exec (.ulpDetach port h) s = .next (u.homeDetach n h)) ∧
    (∀ payload : W64, Comes s n tyMark h (leBytes 8 payload.toNat) → h.ext = false → h.addr.toNat % 4096 = 0 →
      (Instr.ulpMark port h payload).wf = true → u.ldg.fenced = false → u.serves h.dst = true →
      ∀ k j, u.srcEntry n h.src = some k → u.jobSlot (bits payload.toNat 63 48) = some j →
        u.fld F.timeJobCtlTenant j = u.fld F.portEpTenant n k →
        posLayer payload.toNat < u.jobC j → posPhase payload.toNat < u.jobP j →
        exec (.ulpMark port h payload) s = .next ((u.tollBytes (u.fld F.portEpTenant n k) h.len).modJob j (fun x => { x with
          cands := x.cands ++ [BitVec.ofNat 64 (payload.toNat % 2 ^ 48)] }))) ∧
    ((s.port n).role = roleUp → ∀ win (value : W64), win < 255 →
      exec (.windowReferenceWrite port win 1 value) s = .next { s with fab := { s.fab with
        bar2 := Tbl.upd {} (256 * n + win) (fun x => { x with access := value }) s.fab.bar2 } } ∧
      exec (.windowReferenceWrite port win 2 value) s = .next (s.bar2Ref n win value) ∧
      (exec (.windowStatusRead port ⟨win, 1⟩) s = .next { s with
        out := s.out ++ [.barRead n (s.fab.bar2.rd {} (256 * n + win)).access] }) ∧
      (exec (.windowStatusRead port ⟨win, 2⟩) s = .next { s with
        freeIdx := s.freeIdx + 1, out := s.out ++ [.barRead n (Config.freeWord (s.freeIdx + 1))] }) ∧
      (exec (.windowStatusRead port ⟨win, 3⟩) s = .next { s with out := s.out ++ [.barRead n 0] }) ∧
      (let x : Bar2Win := s.fab.bar2.rd {} (256 * n + win)
       ∀ st d, (x.failed = some (st, d) ∨ (x.failed = none ∧ st = x.status ∧ d = x.detail)) →
       exec (.windowStatusRead port ⟨win, 0⟩) s = .next { s with
        fab := { s.fab with bar2 := Tbl.upd {} (256 * n + win) (fun y => { y with failed := none }) s.fab.bar2 },
        out := s.out ++ [.barRead n (BitVec.ofNat 64 (x.version.toNat + st * 2 ^ 32 + d * 2 ^ 40))] })) ∧
    ((s.port n).role = roleUp → s.linkUp n = true → s.shut n = false → s.ideWaits n = false →
      s.flag F.portEpValid n 0 = true →
      ∀ off len, 0 < len → (Instr.cxlMemRequest port false off len []).wf = true →
      (2 ^ 46 < off + len → exec (.cxlMemRequest port false off len []) s = .next (s.violateCxl n true)) ∧
      (off + len ≤ 2 ^ 46 →
        (∀ g, s.edgeCheck n tyLoad (s.hostHdr n false off len) = .ok g → exec (.cxlMemRequest port false off len []) s =
          .next (s.arriveLoad { kind := .load, port := n, h := g, data := [] })) ∧
        (∀ st d, s.edgeCheck n tyLoad (s.hostHdr n false off len) = .error (st, d) →
          exec (.cxlMemRequest port false off len []) s =
            .next ((s.edgeDeny n).loadFail n (s.hostHdr n false off len) st d)))) ∧
    ((s.port n).role = roleUp → s.linkUp n = true → s.shut n = false → s.ideWaits n = false →
      s.flag F.portEpValid n 0 = true →
      ∀ off (data : List Byte), 0 < data.length → off + data.length ≤ 2 ^ 46 →
      (Instr.cxlMemRequest port true off data.length data).wf = true →
      ∀ g, s.edgeCheck n tyStore (s.hostHdr n true off data.length) = .ok g →
        exec (.cxlMemRequest port true off data.length data) s =
          .next ((s.tollBytes g.xTenant g.len).passReq n tyStore .store data g none))

/-- The streams' order (R273, R277, R279, R289), and what applying each kind of request does. -/
def Obligations.StreamRequestsApplyInOrder : Prop :=
  (∀ (s u : State) (port : Port) (h g : Hdr) (deny : Option (Nat × Nat)) (data : List Byte) (k : ReqKind) (c : Instr) (ty : Nat),
    ((c = .ulpStore port h data ∧ ty = tyStore ∧ k = storeKind g) ∨ (c = .mirrorStore port h data ∧ ty = tyStore ∧
      k = storeKind g) ∨ (c = .ulpWriteFlag port h data ∧ ty = tyFlag ∧ k = .flag) ∨
      (c = .ulpAtomic port h data ∧ ty = tyAtomic ∧ k = .atomic)) →
    c.wf = true → Comes s port.val ty h data →
    Passes (s.hear h.src.toNat) port.val ty h g deny u → u.serves g.dst = true → g.sync = false →
    let src := u.rxSrc g
    let tc := g.tc.val
    let r := u.rx src tc
    let q : RxReq := { kind := k, port := port.val, h := g, data := data, deny := deny, at_ := u.now,
                       drains := u.shelvesOf g.xRegion }
    r.known = true → r.held = [] →
    (g.seq = r.contig + 1 → u.epochAt g ≠ .later →
      let v := u.modRx src tc (fun r => { r with
        held := [q], port := port.val, tag := g.tag,
        ackAt := if r.sinceAck = 0 && !r.ackDue && decide (r.ackAt = 0) then u.now else r.ackAt })
      (∀ w st d, v.applyReq q = (w, .done st d) →
        exec c s = .next ((((w.consume src tc q st d).setGap src tc).pumpFences src tc).pumpDeps src tc)) ∧
      (∀ w, v.applyReq q = (w, .wait) → exec c s = .next (((w.setGap src tc).pumpFences src tc).pumpDeps src tc))) ∧
    (g.seq ≠ r.contig + 1 → 0 < serDiff g.seq r.contig → u.epochAt g ≠ .later → 0 < u.fld F.swRsqCtlHoldMsgs →
      exec c s = .next ((((u.modRx src tc (fun r => { r with
        held := [q], port := port.val, tag := g.tag,
        ackAt := if r.sinceAck = 0 && !r.ackDue && decide (r.ackAt = 0) then u.now else r.ackAt })).setGap src tc).pumpFences
          src tc).pumpDeps src tc)) ∧
    (serDiff g.seq r.contig ≤ 0 →
      (k ≠ .atomic → exec c s = .next (u.bump F.portEcntDup port.val)) ∧
      (k = .atomic →
        (∀ a, u.remoteAtom g = some a → exec c s = .next ((u.bump F.portEcntDup port.val).atomAnswer port.val g a)) ∧
        (u.remoteAtom g = none → exec c s = .next (((u.bump F.portEcntDup port.val).bump F.ldgCnt0Stale).failAnswer port.val
          tyAtomicRsp g St.stale 0x0D03))))) ∧
  (∀ (s : State) (src tc : Nat) (q : RxReq) (st d : Nat), (s.port q.port).role ≠ roleUp →
    let w := s.modRx src tc (fun r => { r with
      contig := q.h.seq, held := r.held.filter (fun x => decide (x.h.seq ≠ q.h.seq)), sinceAck := r.sinceAck + 1, ackDue := true,
      failCount := if statusGood st then r.failCount else r.failCount + 1,
      first := if !(statusGood st) && r.first.isNone then some (st, d, q.h.seq) else r.first, port := q.port, tag := q.h.tag })
    let x := if q.kind = .mirror then w else w.noteStream src tc
    (x.port q.port).role ≠ roleUp →
    s.consume src tc q st d = if (x.rx src tc).sinceAck ≥ 64 ∨ q.kind = .mirror then x.sendAck src tc else x) ∧
  (∀ (s : State) (q : RxReq) (st d : Nat), q.kind ≠ .atomic → s.fetchOf (.fwd q.port q.h) = none → s.refuse q = some (st, d) →
    s.applyReq q = (s.countEpoch q.port st, .done st d)) ∧
  (∀ (s : State) (q : RxReq), s.fetchOf (.fwd q.port q.h) = none → s.refuse q = none → s.epochAt q.h ≠ .later →
    ((q.kind = .store ∨ q.kind = .flag) → hdrControl q.h = false →
      let y := s.meet q.h.xRegion q.h.xVersion q.h.xTenant
      (y.version q.h.xRegion q.h.xVersion).isSome = true → y.isCopy q.h = false →
      ∀ w, y.writeVersion q.h.xRegion q.h.xVersion (addrOff q.h.addr.toNat) (q.data.take q.h.len) q.h.poison q.at_ 0xFFFF
          (.fwd q.port q.h) = (w, none) →
        (w.dropOwners q.h.xRegion q.h.xVersion (addrOff q.h.addr.toNat) (q.data.take q.h.len).length).outstanding
          (fun x => x = .fwd q.port q.h) = 0 →
        s.applyReq q =
          (w.dropOwners q.h.xRegion q.h.xVersion (addrOff q.h.addr.toNat) (q.data.take q.h.len).length, .done St.ok 0)) ∧
    ((q.kind = .store ∨ q.kind = .flag) → hdrControl q.h = false →
      let y := s.meet q.h.xRegion q.h.xVersion q.h.xTenant
      (y.version q.h.xRegion q.h.xVersion).isSome = true → y.isCopy q.h = true →
      ∀ w, y.writeCopy q.h.xRegion q.h.xVersion (addrOff q.h.addr.toNat) (q.data.take q.h.len) q.h.poison q.at_ = (w, none) →
        s.applyReq q = (w, .done St.ok 0)) ∧
    ((q.kind = .store ∨ q.kind = .flag) → hdrControl q.h = true → q.h.addr.toNat < s.dbBase →
      s.applyReq q = (s, .done St.denied 0x0B02)) ∧
    ((q.kind = .store ∨ q.kind = .flag) → hdrControl q.h = true → s.dbBase ≤ q.h.addr.toNat → q.h.ext = false →
      s.applyReq q = (s.doorbell { port := Fin.ofNat 64 q.port, ep := q.h.src } (q.h.addr.toNat - s.dbBase)
        (q.data.take q.h.len).length (BitVec.ofNat 64 (leNat (q.data.take q.h.len))), .done St.ok 0)) ∧
    (q.kind = .mirror → s.buddy = some q.h.src.toNat →
      s.applyReq q = ({ s with ldg := { s.ldg with
        mirrorHalf := Bytes.wr s.ldg.mirrorHalf q.h.addr.toNat (q.data.take q.h.len) } }, .done St.ok 0)) ∧
    (q.kind = .mirror → s.buddy ≠ some q.h.src.toNat → s.applyReq q = (s, .done St.denied 0x0D05)) ∧
    (q.kind = .atomic → s.remoteAtom q.h = none →
      let y := s.meet q.h.xRegion q.h.xVersion q.h.xTenant
      ∀ v, y.version q.h.xRegion q.h.xVersion = some v → v.writable = true →
      let off := addrOff q.h.addr.toNat
      y.heldHere q.h.xRegion (off / 65536) = true → ∀ a, y.atomRoom = some a →
      ∀ b, a.readVersion q.h.xRegion q.h.xVersion off 8 q.at_ = .ok (b, []) →
      ∀ w, (a.countRead (.ok (b, [])) q.h.xRegion q.h.xVersion off 8).writeVersion q.h.xRegion q.h.xVersion off
          (leBytes 8 (atomOp q.h.op.toNat (leNat b) (leAt (q.data.take q.h.len) 0 8) (leAt (q.data.take q.h.len) 8 8))) false
          q.at_ 0xFFFF (.fwd q.port q.h) = (w, none) →
        let x := (w.gainLine q.h.xRegion q.h.xVersion off (w.free % 32)).tickFree
        x.outstanding (fun y => y = .fwd q.port q.h) = 0 →
        s.applyReq q = (x.recordAtom q.h (BitVec.ofNat 64 (leNat b)) St.ok 0).settleAtom q))

/-- What an answer does. -/
def Obligations.AnswersSettleRequests : Prop :=
  ∀ (s : State) (port : Port) (h : Hdr) (data : List Byte),
    let n := port.val
    let u := s.hear h.src.toNat
    let ep := u.txEp n h.src h.tc.val
    let t := u.tx ep h.tc.val
    u.serves h.dst = true →
    (Comes s n tyLoadRsp h data → (Instr.loadRsp port h data).wf = true → ∀ w, u.waitFor n h.src h.tag.toNat = some w →
      ((h.status.toNat = St.ok → h.len = w.len) → exec (.loadRsp port h data) s = .next (u.tookLoad w h data).goOn) ∧
      (h.status.toNat = St.ok → h.len ≠ w.len →
        exec (.loadRsp port h data) s = .next (u.violate n 0x03 tyLoadRsp h).goOn)) ∧
    (Comes s n tyLoadRsp h data → (Instr.loadRsp port h data).wf = true → u.waitFor n h.src h.tag.toNat = none →
      exec (.loadRsp port h data) s = .next ((match u.lateTag n h.src h.tag.toNat with
        | some w => w
        | none => u.violate n 0x09 tyLoadRsp h) : State).goOn) ∧
    (Comes s n tyAtomicRsp h data → (Instr.atomicRsp port h data).wf = true →
      ∀ r, t.una.find? (fun (r : TxReq) => decide (r.kind = .atomic) && decide (r.seq = h.seq) && decide (r.tag = h.tag)) =
        some r →
      let w := u.modTx ep h.tc.val (fun t => { t with una := t.una.filter (fun x => decide (x.seq ≠ r.seq)), progAt := u.now })
      (h.status.toNat = St.ok → exec (.atomicRsp port h data) s = .next (w.setFetch r.purpose (.got data)).goOn) ∧
      (h.status.toNat ≠ St.ok → exec (.atomicRsp port h data) s = .next (w.noteFail r.purpose
        (r.failure ep h.status.toNat h.detail.toNat data).1 (r.failure ep h.status.toNat h.detail.toNat data).2).goOn)) ∧
    (Comes s n tyAck h data → (Instr.ack port h data).wf = true → t.sent h.seq = true → 
      let x := u.lateMirrors ep h.tc.val h.seq
      let y := if t.covered h.seq = [] then (x.lateStream ep h.tc.val (upTo h.seq)).getD x else x
      (leAt data 0 4 = 0 → exec (.ack port h data) s = .next ((foldS (fun s r => s.settleReq r none)
        (y.coverTx ep h.tc.val h.seq) (t.covered h.seq)).goOn)) ∧
      (leAt data 0 4 ≠ 0 → exec (.ack port h data) s =
        (let z := (y.coverTx ep h.tc.val h.seq).modTx ep h.tc.val (fun t' => { t' with doubt := t'.doubt ++ t.covered h.seq })
         .next (if t.fence = [] then z.sendFence n ep h.tc.val .notify else z).goOn))) ∧
    (Comes s n tyFenceAck h data → (Instr.fenceAck port h data).wf = true → ∀ f rest, t.fence = f :: rest →
      (serDiff f.seq h.seq ≤ 0 ∨ h.status.toNat = St.fenced) →
      exec (.fenceAck port h data) s = .next (u.tookFence ep h.tc.val h.seq data f).goOn) ∧
    (Comes s n tyAttachRsp h data → (Instr.attachRsp port h data).wf = true →
      (∀ a, u.askFor h = some a → exec (.attachRsp port h data) s = .next (u.tookAttach a h data)) ∧
      (u.askFor h = none → exec (.attachRsp port h data) s = .next (u.violate n 0x09 tyAttachRsp h))) ∧
    (Comes s n tyMapAck h [] → (Instr.mapAck port h).wf = true →
      exec (.mapAck port h) s = .next (u.violate n 0x09 tyMapAck h).goOn) ∧
    (Comes s n tyNak h [] → (Instr.nak port h).wf = true →
      (∀ w, u.waitFor n h.src h.tag.toNat = some w →
        exec (.nak port h) s = .next ((u.dropWait w).failWait w St.denied 0x0B13).goOn) ∧
      (u.waitFor n h.src h.tag.toNat = none → ((∃ r ∈ t.una, r.seq = h.seq) ∨ ∃ f ∈ t.fence, f.seq = h.seq) → exec (.nak port h) s = .next u.goOn)) ∧
    (Comes s n tyResend h [] → (Instr.resend port h).wf = true →
      exec (.resend port h) s =
        .next (u.resendReqs ep h.tc.val (fun r => decide (serDiff r.seq h.seq ≥ 0))).goOn) ∧
    (Comes s n tyDrain h [] → (Instr.drain port h).wf = true →
      let w := u.bump F.mapCnt0Drains
      let r := w.rx (w.rxSrc h) h.tc.val
      exec (.drain port h) s = .next (if r.known && decide (serDiff r.missing h.seq ≤ 0)
        then (w.askResend (w.rxSrc h) h.tc.val).goOn else w.goOn)) ∧
    (∀ tag res, s.linkUp n = true → (s.port n).role = roleDown → (Instr.cxlCompletion port tag res).wf = true →
      (∀ w, s.fab.waits.find? (fun (w : Wait) => decide (w.tag.toNat = tag) && decide (w.port = n)) = some w →
        (∀ b, res = .data b → b.length = w.len) → exec (.cxlCompletion port tag res) s = .next (s.trayDone w res).goOn) ∧
      (s.fab.waits.find? (fun (w : Wait) => decide (w.tag.toNat = tag) && decide (w.port = n)) = none →
        s.lateTag n 0xFFFF tag = none → exec (.cxlCompletion port tag res) s = .next (s.violateCxl n false))) ∧
    (∀ tag res, s.linkUp n = true → (s.port n).role = roleUp → (Instr.cxlCompletion port tag res).wf = true →
      ∀ w, s.fab.waits.find? (fun (w : Wait) => decide (w.tag.toNat = tag) && decide (w.port = n)) = some w →
        (∀ b, res = .data b → b.length = w.len) → exec (.cxlCompletion port tag res) s = .next (s.hostDone w res).goOn)

/-- Maps and links. -/
def Obligations.MapsAndLinks : Prop :=
  ∀ (s : State) (port : Port),
    let n := port.val
    (∀ h up, Comes s n tyMapUpdate h (updWire up) → (Instr.mapUpdate port h up).wf = true →
      let u := s.hear h.src.toNat
      u.serves h.dst = true → u.ldg.fenced = false → (∀ e ∈ up.entries, ∀ c, e ≠ .cert c) →
      (∀ st d, u.updRefusal up = some (st, d) →
        exec (.mapUpdate port h up) s = .next (u.tickFree.answer n tyMapAck h st d false 0 [])) ∧
      (u.updRefusal up = none →
        exec (.mapUpdate port h up) s = .next ((u.adopt (u.newMap up)).answer n tyMapAck h St.ok 0 false 0 []))) ∧
    (∀ h, Comes s n tyMapGet h [] → (Instr.mapGet port h).wf = true →
      let u := s.hear h.src.toNat
      u.serves h.dst = true →
      (u.ldg.fenced = false → exec (.mapGet port h) s = .next (u.sendBy n
        (.fullMap n { u.hdr h.tc.val h.src.toNat with seq := h.seq, tag := h.tag } u.fab.map))) ∧
      (u.ldg.fenced = true →
        exec (.mapGet port h) s = .next (u.answer n tyMapUpdate h St.fenced 0x0D01 false 0 []))) ∧
    ((s.port n).role = roleUlp → s.linkUp n = true → ∀ f : Frame, (Instr.linkFrame port f).wf = true →
      ((f.crcOk = false ∨ 4160 < f.len) → exec (.linkFrame port f) s = .next (s.badFrame n false)) ∧
      (f.crcOk = true → f.len ≤ 4160 → s.tagOk n f = true → f.msg = none →
        let x := (if (s.port n).enc then s.countFrame n (2 + f.key.val) else s).frameBack n f
        (x.port n).rxNext = f.seq →
        exec (.linkFrame port f) s = .next (((x.modPort n (fun p => { p with
          rxNext := p.rxNext + 1, retries := 0 })).emit (.linkAck n f.seq)).goOn)) ∧
      (f.crcOk = true → f.len ≤ 4160 → s.tagOk n f = false → exec (.linkFrame port f) s = .next (s.badFrame n true))) ∧
    ((s.port n).role ≠ roleUlp → s.linkUp n = true → ∀ f : Frame, (Instr.linkFrame port f).wf = true →
      exec (.linkFrame port f) s = .next (if (s.port n).ide.isSome = true ∧ f.tagOk = false
        then ((s.bump F.secCntIdeFail).addScore clsPort n 10).loseLink n else s)) ∧
    ((s.port n).role = roleUlp → s.linkUp n = true → ∀ q : BitVec 12,
      ((∀ x ∈ (s.port n).kept, x.1 ≠ q) →
        exec (.linkRetryRequest port q) s = .next (s.violate n 0x0A 0 { tc := 0, src := 0, dst := 0 })) ∧
      ((∃ x ∈ (s.port n).kept, x.1 = q) → (s.port n).asked = none →
        let again := ((s.port n).kept.dropWhile (fun x => decide (x.1 ≠ q))).map Prod.fst
        exec (.linkRetryRequest port q) s = .next (foldS (fun s _ => if (s.port n).enc then s.sealFrame n else s)
          ((s.modPort n (fun p => { p with asked := some (q, 1) })).emit (.linkResend n again)) again))) ∧
    ((s.port n).st = .up ∨ ((s.port n).st = .held ∧ (s.port n).noLink = false) →
      exec (.linkDown port) s = .next (((s.dropLink n .training).addScore clsPort n 50).goOn)) ∧
    (s.trains n = true →
      let s0 := s
      let s := if (s.port n).spent then ((s.dropLink n .training).addScore clsPort n 50).goOn else s
      ((s.port n).role = roleUlp → ∀ full reversed, exec (.linkTrained port 0xFF full reversed) s0 =
        .next ((s.modPort n (fun p => { p with locked := 0xFF, reversed := reversed && decide (p.role ≠ roleUlp) })).linkReady
          n)) ∧
    ((s.port n).role ≠ roleUlp → ∀ locked reversed,
      let u := s.modPort n (fun p => { p with locked := locked, reversed := reversed && decide (p.role ≠ roleUlp) })
      exec (.linkTrained port locked false reversed) s0 = .next ((u.modPort n (fun p => { p with
        retrainAt := some (u.now + 1000000000), locked := 0 })).addScore clsPort n 50) ∧
      (locked = 0xFF → u.ideWaits n = false → exec (.linkTrained port locked true reversed) s0 = .next (u.linkReady n)) ∧
      (locked = 0xFF → u.ideWaits n = true → exec (.linkTrained port locked true reversed) s0 = .next u))) ∧
    ((s.port n).enc = true → s.linkUp n = true → ∀ rx (k : Fin 2),
      ((s.port n).ctr.getD (2 * b2n rx + k.val) 0 < 2 ^ 47 → exec (.linkCounterLimit port rx k) s =
        .next ((s.modPort n (fun p => { p with ctr := listMod p.ctr (2 * b2n rx + k.val) (fun _ => 2 ^ 47) })).setFld
          F.secStsRekey 1)) ∧
      (2 ^ 47 ≤ (s.port n).ctr.getD (2 * b2n rx + k.val) 0 →
        exec (.linkCounterLimit port rx k) s = .next (s.loseLink n))) ∧
    (∀ t, (s.port n).retrainAt = some t →
      exec (.cxlRetrainDelayExpiry port) s = .next ((s.waitTill t).modPort n (fun p => { p with retrainAt := none }))) ∧
    (((s.port n).role = roleUp ∨ (s.port n).role = roleDown) → (s.port n).locked = 0xFF → ∀ a b,
      let u := s.modPort n (fun p => { p with ide := some (a, b) })
      let x := if (s.port n).role = roleDown then u.emit (.ide n 64) else u
      exec (.ideKeyExchange port a b) s = .next (if s.ideWaits n && x.trains n then x.linkReady n else x))

/-! ### The switch core -/

/-- The commands of the switch core. -/
def Obligations.SwitchCoreMovesCells : Prop :=
  ∀ (s : State),
    (∀ m : SwMsg, m.wf = true → ∀ c u, s.colour (placeMsg m) = (c, u) →
      let w := (if c = .yellow then u.bump F.schMtrCntYellow m.tenant else if c = .red then u.bump F.schMtrCntRed m.tenant else u)
      exec (.messageAdmit m) s = .next (foldS (fun s m => s.offer m c) w (w.copiesOf m)) ∧
      (m.group = none → w.copiesOf m = [placeMsg m])) ∧
    (∀ (m : SwMsg) c,
      (c = .red → s.congested m.out.val = true → s.offer m c = s.bump F.swCnt2RedDrops) ∧
      ((c ≠ .red ∨ s.congested m.out.val = false) → s.mustWait m s.sw.waiting = true →
        s.offer m c = { s with sw := { s.sw with waiting := s.sw.waiting ++ [m] } }) ∧
      ((c ≠ .red ∨ s.congested m.out.val = false) → s.mustWait m s.sw.waiting = false →
        s.offer m c = s.takeIn m ∧
        ((s.takeIn m).sw.inputs.rd [] m.inp.val).length = (s.sw.inputs.rd [] m.inp.val).length + (m.bytes + 239) / 240 ∧
        ((s.takeIn m).sw.flows.rd (0, 0) (flowKey m.inp.val m.out.val m.tc.val)).1 =
          ((s.sw.flows.rd (0, 0) (flowKey m.inp.val m.out.val m.tc.val)).1 + (m.bytes + 239) / 240) % 2 ^ 32)) ∧
    (∀ c : Cell, c.wf = true →
      let k := flowKey c.inp.val c.out.val c.tc.val
      let r := s.reseq k
      (c.check.toNat ≠ cellCrc c → exec (.cellArrive c) s = .next (s.bump F.swCnt0CellLost).pumpWaiting) ∧
      (c.check.toNat = cellCrc c → s.takesCell c = false → exec (.cellArrive c) s = .next { s with sw := { s.sw with
        mids := Tbl.upd [] (midKey c.mid c.out.val) (fun l => l ++ [c]) s.sw.mids } }) ∧
      (c.check.toNat = cellCrc c → s.takesCell c = true →
        (c.seq = r.next → exec (.cellArrive c) s = .next (State.drainCells k r.held.length (s.passCell k c)).pumpWaiting) ∧
        (seqAhead c.seq r.next = true → (∀ x ∈ r.held, x.seq ≠ c.seq) → exec (.cellArrive c) s = .next (s.modReseq k
          (fun r => { r with held := r.held ++ [c], came := r.came.ins c.seq s.now })).pumpWaiting) ∧
        (c.seq ≠ r.next → seqAhead c.seq r.next = false → c.seq ∈ r.lost → exec (.cellArrive c) s = .next ((s.modReseq k
          (fun r => { r with lost := r.lost.filter (fun x => decide (x ≠ c.seq)) })).bump F.swCnt0LateCells).pumpWaiting) ∧
        (c.seq ≠ r.next → seqAhead c.seq r.next = false → c.seq ∉ r.lost →
          exec (.cellArrive c) s = .next s.pumpWaiting))) ∧
    (let u := foldS (fun s i => s.stageOne1 i) (foldS (fun s m => s.stageTwo m) s (List.range 64)) (List.range 64)
     exec .switchSlot s = .next ({ u with sw := { u.sw with slot := (u.sw.slot + 1) % 64 } } : State).pumpWaiting) ∧
    (∀ (inp out : Port) (tc : Tc) t f a b,
      let k := flowKey inp.val out.val tc.val
      s.gapTime k = some t → (s.reseq k).held = a ++ f :: b → f.seq < 2 ^ 32 →
      (∀ x ∈ a ++ b, x.seq < 2 ^ 32 ∧ seqAhead x.seq f.seq = true) →
      let n := (f.seq + 2 ^ 32 - (s.reseq k).next) % 2 ^ 32
      let u := (s.waitTill t).modReseq k (fun r => { r with
        next := f.seq, lost := r.lost ++ (List.range n).map (fun i => (r.next + i) % 2 ^ 32),
        dropMsg := if f.first then [] else [f.msg], open_ := [] })
      exec (.cellGapExpiry inp out tc) s = .next (State.drainCells k (a ++ f :: b).length
        (u.bump F.swCnt0CellLost 0 0 n)).pumpWaiting) ∧
    (∀ out : Port,
      let x := match s.sw.sending.look out.val with | some (_, t, _) => s.waitTill t | none => s
      let u := x.pumpWaiting.tagHeads out.val
      let l := u.readyQueues out.val
      let tc3 := l.filter (fun k => decide (k % 4 = 3))
      (∀ k, u.tc3First out.val = true → tc3 ≠ [] → u.earliest tc3 = some k →
        exec (.unitStart out) s = .next (u.startUnit out.val k true)) ∧
      ((tc3 = [] ∨ u.tc3First out.val = false) →
        (l = [] → exec (.unitStart out) s = .next u) ∧
        (∀ k, u.earliest l = some k → exec (.unitStart out) s = .next (u.startUnit out.val k false)))) ∧
    (∀ n k x rest prio, (s.queue k).units = x :: rest →
      let tag := (s.queue k).headTag.getD 0
      let u := s.modQueue k (fun q => { q with
        units := rest, tag := tag, headTag := none, last := x.stream,
        began := (s.now, if q.began.1 = s.now then q.began.2 + x.bytes else x.bytes),
        credit := if q.on then q.credit - (1000 * x.bytes : Nat) else q.credit })
      let v := u.modPort n (fun p => if p.role = roleUlp && !x.here
        then { p with credTx := listMod p.credTx (k % 4) (· + ceilDiv x.len 256) } else p)
      let live := (v.sw.recent.rd [] n).filter (fun y => decide (v.now < y.1 + 10000))
      let w : State := { v with sw := { v.sw with
        vt := if prio then v.sw.vt else Tbl.put 0 n tag v.sw.vt,
        recent := Tbl.put [] n (live ++ [(v.now, decide (k % 4 = 3), x.len)]) v.sw.recent,
        sending := Tbl.ins n (k, v.now + sendTime x.len, x) v.sw.sending } }
      (x.copy = none → s.startUnit n k prio = ((w.emit (.unit n (k / 4 % 256) (k % 4) x)).tagHeads n).pumpWaiting) ∧
      (∀ c, x.copy = some c → s.startUnit n k prio = ((w.sendCopy n c).tagHeads n).pumpWaiting))

/-! ### Security, stages and resets -/

/-- Attestation, and the stages' commands. -/
def Obligations.AttestationAndStages : Prop :=
  ∀ (s : State),
    (∀ via : SpdmPath, s.spdmOpen via = true →
      let c := s.spdm via
      let bad := fun (item : Nat) => (Host.Outcome.next (s.spdmAnswer via spdmError item) : Host.Outcome State Fault Refusal)
      let good := fun (code item : Nat) (f : SpdmSt → SpdmSt) =>
        (Host.Outcome.next ((s.modSpdm via f).spdmAnswer via code item) : Host.Outcome State Fault Refusal)
      exec (.spdmGetVersion via) s = good 0x04 0 (fun _ => { version := true }) ∧
      exec (.spdmGetCapabilities via) s =
        (if c.version then good 0x61 0 (fun c => { c with caps := true }) else bad 0) ∧
      (∀ a : SpdmAlgs, exec (.spdmNegotiateAlgorithms via a) s =
        if c.caps && a.p384 && a.sha384 && a.ecdhe384 && a.aes256 then good 0x63 0 (fun c => { c with algs := true })
        else bad 0) ∧
      exec (.spdmGetDigests via) s = (if c.algs then good 0x01 0 id else bad 0) ∧
      (∀ slot off len, slot < 16 → off < 2 ^ 16 → len < 2 ^ 16 → exec (.spdmGetCertificate via slot off len) s =
        if c.algs = true ∧ slot = 0 then good 0x02 off id else bad off) ∧
      (∀ slot nonce, exec (.spdmChallenge via slot nonce) s =
        if c.algs = true ∧ slot = 0 then good 0x03 slot id else bad slot) ∧
      (∀ i nonce, exec (.spdmGetMeasurements via i nonce) s =
        if c.algs = true ∧ (i ≤ 6 ∨ i = 0xFF) then good 0x60 i id else bad i) ∧
      (∀ share, exec (.spdmKeyExchange via share) s =
        if c.algs = true then good 0x64 0 (fun c => { c with exchanged := true }) else bad 0) ∧
      (∀ (root : Option (BitVec 384)) ok,
        let fine := c.exchanged = true ∧ ok = true ∧ (via ≠ .i3c ∨ (∃ r, root = some r ∧
          (s.sec.root = some r ∨ s.sec.root = none ∨ c.session = true)))
        let opened : SpdmSt → SpdmSt := fun c => { c with exchanged := false, session := true }
        (¬ fine → exec (.spdmFinish via root ok) s = bad 0) ∧
        (fine → (via ≠ .i3c ∨ s.sec.root = root) → exec (.spdmFinish via root ok) s = good 0x65 0 opened) ∧
        (fine → via = .i3c → ∀ r, root = some r → s.sec.root ≠ root → exec (.spdmFinish via root ok) s =
          .next (((({ s with sec := { s.sec with root := root } } : State).bbxLog 0x0D 0 0
            (leBytes 48 r.toNat).reverse).modSpdm via opened).spdmAnswer via 0x65 0))) ∧
      exec (.spdmHeartbeat via) s = (if c.session then good 0x68 0 id else bad 0) ∧
      exec (.spdmEndSession via) s = (if c.session then good 0x6C 0 (fun c => { c with session := false }) else bad 0)) ∧
    (s.rst.active = false → s.rst.asserted &&& 1#8 = 0 → ∀ r : StageReport, r.wf = true →
      (s.gen.stage = 0 → s.pwr.auxGood = true → exec (.stageAdvance r) s = .next (s.enterStage 1)) ∧
      (s.gen.stage = 1 → exec (.stageAdvance r) s = .next (if fwPasses r.copyA
        then ({ s with sec := { s.sec with bootCopy := false, svn := r.copyA.svn } } : State).enterStage 2
        else if fwPasses r.copyB
        then ({ s with sec := { s.sec with bootCopy := true, svn := r.copyB.svn } } : State).enterStage 2
        else s.stopAt whyFirmware)) ∧
      (s.gen.stage = 5 →
        let u := s.scanBox r.repaired r.voided
        exec (.stageAdvance r) s = .next ((if u.ldg.half && r.ownHalf && u.halfRead then u.restoreHalf
          else u.loseLedger).settle.enterStage 6)) ∧
      (s.gen.stage = 2 → s.pwr.good48 = true →
        let u := ({ s with pwr := { s.pwr with rails := 8 } } : State).drivePower
        exec (.stageAdvance r) s = .next (if u.pwr.bscanN then u.enterStage 3 else u.stopAt whyScan)) ∧
      (s.gen.stage = 3 →
        let u := (s.trainStacks r.stk).restoreCopies
        exec (.stageAdvance r) s = .next (if u.rst.copies = 0 then u.stopAt whyShared else u.enterStage 4)) ∧
      (s.gen.stage = 4 → exec (.stageAdvance r) s = .next ((s.testSlices r.slices).enterStage 5)) ∧
      (s.gen.stage = 6 → exec (.stageAdvance r) s = .next (if s.rolesOk
        then ((foldS (fun s n => s.applyRole r.alien n) s (List.range 64)).setDecoders r.attested r.decoders).enterStage 7
        else s.stopAt whyRoles)) ∧
      (s.gen.stage = 7 → exec (.stageAdvance r) s = .next (if s.flag F.mapCtlIdValid ∧ s.mapped = true
        then s.joinMirror.contactBuddy.enterStage 8 else s)) ∧
      (s.gen.stage = 8 → (∀ e ∈ s.ldg.entries, e.live = false ∧ (e.kind = .desc → e.staged = none)) →
        exec (.stageAdvance r) s = .next (s.enterStage 9)) ∧
      (s.gen.stage = 15 → exec (.stageAdvance r) s = .next s)) ∧
    (s.rst.active = false → ∀ t, s.stageBound = some t →
      ∃ u : State, exec .stageTimeout s = .next u ∧ u.gen.stage = 15 ∧ s.gen.stageAt + t ≤ u.now) ∧
    (s.rst.active = false → s.gen.stage = 2 → s.pwr.good48 = true → ∀ rail, 1 ≤ rail → rail ≤ 8 →
      ∃ u : State, exec (.railRegulationTimeout rail) s = .next u ∧ u.gen.stage = 15 ∧ u.pwr.rails = rail - 1)

/-- The reset sources and what they bring about. -/
def Obligations.ResetsTakeEffect : Prop :=
  ∀ (s : State),
    (s.bbx.pulse = none → s.rst.active = false →
      (∃ t : State, exec .porstNAssert s = .next t ∧ t.rst.active = true ∧ t.gen.stage = 0 ∧ t.rst.rstOutN = false ∧
        bit t.rst.asserted.toNat 0 = true ∧ t.ldg.entries = [] ∧ t.regs = [] ∧ t.bbx.ring = s.bbx.ring) ∧
      (∃ t : State, exec .mrstNAssert s = .next t ∧ t.rst.active = true ∧ t.gen.stage = 2 ∧ t.rst.rstOutN = false ∧
        bit t.rst.asserted.toNat 1 = true) ∧
      (∃ t : State, exec .wrstNAssert s = .next t ∧ t.rst.active = true ∧ t.gen.stage = 4 ∧
        bit t.rst.asserted.toNat 2 = true) ∧
      (∃ t : State, exec (.criticalEccError none) s = .next t ∧ t.rst.active = true ∧ t.gen.stage = 2 ∧
        bit t.rst.asserted.toNat 5 = true)) ∧
    (∀ b, s.bbx.pulse = some b →
      (∃ t : State, exec .mrstNAssert s = .next t ∧ t.gen = s.gen ∧ t.rst.active = s.rst.active ∧
        bit t.rst.held.toNat 1 = true) ∧
      (∃ t : State, exec .wrstNAssert s = .next t ∧ t.gen = s.gen ∧ bit t.rst.held.toNat 2 = true) ∧
      exec .mramPulseEnd s =
        (let u := foldS (fun s b => s.takeReset b) s.bbxPulseEnd ((List.range 8).filter (fun b => bit s.rst.held.toNat b))
         .next ((foldS (fun s q =>
          let s := s.resetQuad q
          if bit s.rst.asserted.toNat 5 then s
          else { s with rst := { s.rst with quadAt := Tbl.ins q (s.now + s.stretch) s.rst.quadAt } }) u
            ((List.range 4).filter (fun q => bit s.rst.quadWait.toNat q))).checkRelease))) ∧
    (s.bbx.pulse = none → ∀ q : Quad, ∃ t : State, exec (.criticalEccError (some q)) s = .next t ∧
      t.rst.active = s.rst.active ∧ bit t.rst.quads.toNat q.val = true ∧ t.rst.copies = s.rst.copies &&& ~~~(1#4 <<< q.val) ∧
      t.gen.stage = (if s.rst.copies ≠ 0 ∧ t.rst.copies = 0 ∧ 3 < s.gen.stage ∧ s.gen.stage ≠ 15 then 15
        else s.gen.stage)) ∧
    (exec (.resetPinRelease .mrst) s = .next (s.releaseSource 1) ∧ exec (.resetPinRelease .wrst) s = .next (s.releaseSource 2) ∧
      (s.pwr.auxGood = true → ∃ t : State, exec (.resetPinRelease .porst) s = .next t ∧ t.rst.porLow = false ∧
        bit t.rst.asserted.toNat 0 = false)) ∧
    (s.rst.active = true → ∀ t, s.rst.releasedAt = some t → s.stretchEnds = [t + s.stretch] → s.rst.hbmAt = [] →
      s.rst.quadAt = [] → (∀ x ∈ s.fab.ports, x.2.blockAt = none) → t + s.stretch ≤ s.now →
      exec .resetStretchExpiry s = .next ((s.waitTill (t + s.stretch)).leaveReset)) ∧
    (∀ b t, b < 8 → b ≠ 5 → s.rst.pulseAt.look b = some t → ∃ u : State, exec (.resetPulseEnd b) s = .next u ∧
      bit u.rst.asserted.toNat b = false ∧ u.rst.pulseAt.look b = none ∧ t ≤ u.now) ∧
    (∀ mv, (∃ t : State, exec (.power48vLost mv) s = .next t ∧ t.rst.active = true ∧ t.pwr.good48 = false ∧
        t.ldg.entries = [] ∧ t.rgn = {} ∧ bit t.rst.asserted.toNat 7 = true) ∧
      (∃ t : State, exec (.power48vGood mv) s = .next t ∧ t.pwr.good48 = true ∧ t.pwr.mv48 = mv.toNat ∧
        bit t.rst.asserted.toNat 7 = false ∧ t.gen.stage = s.gen.stage)) ∧
    (∀ mv i3c scan, s.rst.porLow = false → ∃ t : State, exec (.auxPowerGood mv i3c scan) s = .next t ∧
      t.pwr.auxGood = true ∧ t.pwr.straps = i3c ∧ t.pwr.bscanN = scan ∧ bit t.rst.asserted.toNat 0 = false) ∧
    (s.bbx.pulse = none → s.flag F.rstWdtEnable = true → ∀ silent, ∃ t : State,
      exec (.watchdogExpiry silent) s = .next t ∧ bit t.rst.asserted.toNat 4 = true) ∧
    (bit s.rst.asserted.toNat 6 = false → ∀ idx deg, idx < 4 → 115 ≤ deg → deg ≤ 127 → ∃ t : State,
      exec (.thermalTrip false idx deg) s = .next t ∧ bit t.rst.asserted.toNat 6 = true) ∧
    (∀ stk : Stack, (s.stk.rd {} stk.val).st = 0 → s.rst.hbmAt.look stk.val = none →
      bit (s.fld F.rstBlkHbmAssert) stk.val = false → s.rst.active = false → 4 ≤ s.gen.stage →
      exec (.stackRetrainComplete stk true) s = .next ({ s with
        stk := Tbl.upd {} stk.val (fun (x : StackSt) => { x with st := 1, chan := BitVec.allOnes 32 }) s.stk } : State).goOn ∧
      (∃ t : State, exec (.stackRetrainComplete stk false) s = .next t ∧
        bit t.pwr.fault.toNat (stackQuad stk.val) = true))

/-- Measurements and what follows from them. -/
def Obligations.HealthCommands : Prop :=
  ∀ (s : State),
    (∀ avg mv, avg < 2 ^ 12 →
      let u := s.waitTill (s.pwr.limitAt + 1000)
      let p : PwrSt := { u.pwr with avg := avg, mv48 := mv.toNat, limitAt := u.now }
      let lim := u.fld F.pwrCtlLimitW
      let q : PwrSt := if 96 * lim ≤ avg * 100 then p.tighten u.now lim
        else if avg * 10 ≤ 9 * lim then p.loosen u.now else { p with lowAt := none }
      exec (.powerLimiterSample avg mv) s = .next ((({ u with pwr := q } : State).alertFrom u).when
        (decide (u.pwr.step ≠ 0) && decide (q.step = 0)) (fun s => s.goOn)) ∧
      (96 * lim ≤ avg * 100 → p.step < 4 → p.step = 0 ∨ p.stepAt + 20000 ≤ u.now →
        (p.tighten u.now lim).step = p.step + 1) ∧
      (∀ t, p.lowAt = some t → t + 1000000 ≤ u.now → 0 < p.step → (p.loosen u.now).step = p.step - 1)) ∧
    (∀ quads stks, (Instr.thermalSample quads stks).wf = true → s.pwr.tj.length = 4 → s.pwr.th.length = 12 →
      bit s.rst.asserted.toNat 6 = false →
      ∃ t : State, exec (.thermalSample quads stks) s = .next t ∧ t.pwr.tj = quads ∧ t.pwr.th = stks ∧
        (quads.any (fun x => decide (x ≥ (s.fld F.pwrCtlThrHubC : Int))) = true → t.pwr.hubThr = true) ∧
        t.rst = s.rst) ∧
    (∀ quads stks, (Instr.thermalSample quads stks).wf = true → s.pwr.tj.length = 4 → s.pwr.th.length = 12 →
      bit s.rst.asserted.toNat 6 = true → (∀ x ∈ quads, x ≤ 95) → (∀ x ∈ stks, x ≤ 80) →
      ∃ t : State, exec (.thermalSample quads stks) s = .next t ∧ bit t.rst.asserted.toNat 6 = false) ∧
    (∀ b, exec (.refclkLoss b) s = .next ((({ s with pwr :=
        if b then { s.pwr with refB := false } else { s.pwr with refA := false } } : State).chooseRef).alertFrom s) ∧
      exec (.refclkReturn b) s = .next ((({ s with pwr :=
        if b then { s.pwr with refB := true } else { s.pwr with refA := true } } : State).chooseRef).alertFrom s)) ∧
    (∀ mhz mv deg, (Instr.neighbourCompare mhz mv deg).wf = true → s.pwr.mhz.length = 4 → s.pwr.vcore.length = 4 →
      s.pwr.tj.length = 4 →
      let u := s.waitTill (s.pwr.pairAt + 1000)
      exec (.neighbourCompare mhz mv deg) s = .next ((foldS (fun s (p : Nat × Nat) =>
        foldS (fun s c => s.comparePair c p.1 p.2) s [1, 2, 3])
        { u with pwr := { u.pwr with mhz := mhz, vcore := mv, tj := deg, pairAt := u.now } }
        [(0, 1), (0, 2), (0, 3), (1, 2), (1, 3), (2, 3)]).goOn)) ∧
    (∀ q : Quad, exec (.crossingTimeout q) s =
      .next (((s.setFld F.clkQStsXingTmo 1 q.val).bump F.clkXingCntTmo).faultQuad q.val 4 0 0).goOn) ∧
    (let u := s.waitTill (s.hlt.decayAt + 1000000000)
     exec .scoreDecay s = .next { u with hlt := { u.hlt with
       decayAt := u.now,
       scores := Tbl.keep (fun _ (x : Score) => decide (x ≠ {})) (u.hlt.scores.mapV (fun _ (x : Score) =>
        let y := x.decay (u.fld F.hltCtlHalfLifeS)
        if y.pts = 0 then {} else { y with st := u.scoreState y.pts })) } }) ∧
    (∀ (port : Port) (lane : Fin 8) (mv : BitVec 8) (mui : BitVec 10), s.scansRun (s.fld F.hltScanSerdesS) = true →
      (s.port port.val).st = .up →
      let u := (s.setMargin clsPort port.val lane.val 7 0 mv.toNat).setMargin clsPort port.val lane.val 17 8 mui.toNat
      exec (.serdesScan port lane mv mui) s = .next (if mv.toNat < u.fld F.hltLimEyeMv ∨ mui.toNat < u.fld F.hltLimEyeMui
        then u.addScore clsPort port.val 200 else u)) ∧
    (∀ (stk : Stack) (chan : Fin 32) (pct : BitVec 8), s.scansRun (s.fld F.hltScanHbmS) = true →
      (s.stk.rd {} stk.val).st = 1 →
      let u := s.setMargin clsStack stk.val chan.val 31 24 pct.toNat
      exec (.hbmScan stk chan pct) s = .next (if pct.toNat < u.fld F.hltLimHbmPct
        then u.addScore clsStack stk.val 200 else u)) ∧
    (∀ (port : Port) (lane : Fin 8) (w warn : BitVec 32), s.scansRun (s.fld F.hltScanOptS) = true →
      s.flag F.portCmisEnable port.val = true →
      let v := s.emit (.cmis port.val (s.fld F.portCmisMuxAddr port.val) (s.fld F.portCmisMuxChan port.val))
      let u := (v.modPort port.val (fun p => { p with cmis := true })).setMargin clsPort port.val
        lane.val 63 32 w.toNat
      exec (.opticalScan port lane none warn) s = .next (v.modPort port.val (fun p => { p with cmis := false })) ∧
      exec (.opticalScan port lane (some w) warn) s = .next (if w.toNat < warn.toNat
        then u.addScore clsPort port.val 200 else u)) ∧
    (∀ (sl : Slice) vector, s.sliceUp sl.val = true → s.sliceTested sl.val = false →
      exec (.knownAnswerTest sl true vector) s = .next ((s.bump F.hltCnt1KatRuns).passBin sl.val) ∧
      exec (.knownAnswerTest sl false vector) s = .next (((s.bump F.hltCnt1KatRuns).bump F.hltCnt1KatFails).quarantine
        sl.val 1 vector 0 0 0xFFFF)) ∧
    (s.hlt.rtsBusy = true → ∀ pass,
      let cls := s.hlt.rtsPart / 256
      let index := s.hlt.rtsPart % 256
      let rec_ := fun (result : Nat) => ({ s with hlt := { s.hlt with rtsBusy := false, rtsResult := result } } : State).bbxLog
        0x04 cls index (leBytes 1 cls ++ leBytes 1 index ++ leBytes 1 result)
      (cls = clsQuad → s.limitsMet index = false → exec (.returnToServiceEnd pass) s = .next (rec_ 3)) ∧
      (cls ≠ clsQuad → (pass = false ∨ s.rtsReady cls index = false) → exec (.returnToServiceEnd pass) s = .next (rec_ 1)) ∧
      (cls = clsQuad → s.limitsMet index = true → (pass = false ∨ s.rtsReady cls index = false) →
        exec (.returnToServiceEnd pass) s = .next (rec_ 1)) ∧
      (cls = clsSlice → pass = true → s.rtsReady cls index = true →
        exec (.returnToServiceEnd pass) s = .next ((rec_ 0).slicePasses index).goOn) ∧
      (cls = clsStack → pass = true → s.rtsReady cls index = true →
        exec (.returnToServiceEnd pass) s = .next ((rec_ 0).stackPasses index).goOn) ∧
      (cls = clsPort → pass = true → s.rtsReady cls index = true →
        exec (.returnToServiceEnd pass) s = .next ((((rec_ 0).setScore clsPort index {}).releasePort index).goOn)) ∧
      (cls = clsQuad → s.limitsMet index = true → pass = true → s.rtsReady cls index = true →
        exec (.returnToServiceEnd pass) s = .next ((rec_ 0).quadPasses index).goOn)) ∧
    (let u := s.waitTill (s.toll.start + s.fld F.tollCtlIntervalMs * 1000000)
     let w : State := { u with toll := { u.toll with
       cnt := [], interval := u.toll.interval + 1, start := u.now, startWall := u.time.wall, at_ := u.now } }
     exec .tollIntervalEnd s = .next (if w.flag F.tollCtlEnable
       then w.writeToll u.toll.interval (u.tollBody ++ sigBytes (Config.signP384 (Config.sha384 u.tollBody))) else w)) ∧
    (∀ (stk : Stack) a, s.fld F.hbmCtlPatrolH stk.val ≠ 0 → (s.stk.rd {} stk.val).st = 1 →
      exec (.patrolRead stk a .clean) s = .next s ∧
      exec (.patrolRead stk a .corrected) s =
        .next ((s.bump F.hbmEccCorr stk.val).addScore clsStack stk.val 1) ∧
      exec (.patrolRead stk a .uncorrected) s = .next ((({ s with stk := (Tbl.upd {} stk.val
        (fun (x : StackSt) => { x with errAddr := a.toNat, errValid := true }) s.stk) } : State).bump
          F.hbmEccUncorr stk.val).addScore clsStack stk.val 100))

/-! ### Management paths -/

/-- The management paths. -/
def Obligations.ManagementPaths : Prop :=
  ∀ (s : State),
    (∀ (port : Port) (a : BitVec 32) (v : W64), s.pathOpen (.bar0 port) = true →
      (∀ size, size ≠ 8 ∨ a.toNat % 8 ≠ 0 → exec (.bar0Access port true a size v) s = .next (s.mgmtError 0 a.toNat 1)) ∧
      (a.toNat % 8 = 0 → exec (.bar0Access port true a 8 v) s = .next (s.regWrite 0 false a.toNat v).1) ∧
      (∀ l, s.reach a.toNat = .ok l → exec (.bar0Access port false a 8 v) s = .next (s.emit (.barRead port.val (s.regView l)))) ∧
      (∀ l, a.toNat % 4 = 0 → s.reach (a.toNat / 8 * 8) = .ok l →
        exec (.bar0Access port false a 4 v) s = .next (s.emit (.barRead port.val (if a.toNat % 8 = 0
          then (s.regView l) &&& 0xFFFFFFFF#64 else (s.regView l) >>> 32)))) ∧
      (∀ size, ¬(size = 8 ∧ a.toNat % 8 = 0) → ¬(size = 4 ∧ a.toNat % 4 = 0) →
        exec (.bar0Access port false a size v) s = .next ((s.mgmtError 0 a.toNat 1).emit (.barRead port.val 0)))) ∧
    (∀ (src : EthSrc) (b : List Byte) (r : RegRec), RegRec.of b = some r → s.ethOn = true →
      (∀ c, (c = .ethRegisterRead src b ∨ c = .ethRegisterWrite src b) →
        ((∀ k ∈ s.gen.ethKept, sameSrc k.1 src = true → k.2.1 ≠ r.seq) →
          let u := (s.applyRec .eth r).1
          let ans := (s.applyRec .eth r).2
          ∃ t : State, exec c s = .next t ∧ t = { u with gen := t.gen, out := u.out ++ [.eth src ans] } ∧
            t.gen = { u.gen with ethKept := t.gen.ethKept } ∧ t.gen.ethKept.head? = some (src, r.seq, ans)) ∧
        (∀ k, s.gen.ethKept.find? (fun k => sameSrc k.1 src) = some k → k.2.1 = r.seq →
          ∃ t : State, exec c s = .next t ∧ t.out = s.out ++ [.eth src k.2.2] ∧ t.regs = s.regs))) ∧
    (∀ b r, RegRec.of b = some r → s.secureSession = true → exec (.secureRegisterAccess b) s =
      .next ((s.applyRec .secure r).1.emit (.secured (s.applyRec .secure r).2))) ∧
    (∀ r : RegRec, r.ok = true → r.op = 2 → s.reach r.addr = .error 2 →
      s.applyRec .eth r = (s.mgmtError 1 r.addr 2, r.answer 1 2 0)) ∧
    (∀ (ip : BitVec 32) (mac : BitVec 48), s.ethOn = true → s.fld F.genEthCtlIp = ip.toNat →
      exec (.arpRequest ip mac) s = .next (s.emit (.arp ip mac))) ∧
    (∀ b : List Byte, ∀ c, (c = .i3cRegisterWrite b ∨ c = .i3cSetReadAddress b) →
      (b.length = 12 → exec c s = .next (s.regWrite 2 false (leAt b 0 4) (BitVec.ofNat 64 (leAt b 4 8))).1) ∧
      (b.length = 4 → exec c s = .next { s with gen := { s.gen with i3cRead := BitVec.ofNat 32 (leAt b 0 4) } }) ∧
      (b.length ≠ 12 → b.length ≠ 4 → exec c s = .next (s.mgmtError 2 0 1))) ∧
    (∀ l, s.reach s.gen.i3cRead.toNat = .ok l →
      exec .i3cRegisterRead s = .next (s.emit (.i3c (leBytes 8 (s.regView l).toNat)))) ∧
    (∀ st addr, exec (.i3cDynamicAddress st addr) s = .next { s with gen := { s.gen with i3cDyn := some addr } }) ∧
    (∀ ir : TapInstr, ∃ t : State, exec (.tapInstruction ir) s = .next t ∧ t.gen.tap = s.tapActs ir ∧
      t = { s with gen := t.gen, out := t.out } ∧
      t.out = (if s.tapActs ir = .idcode then s.out ++ [.tdo idcode] else s.out))

end
end

