-- ==== Sys2Proof/Laws/State.lean ====
section
/-! SUPPORT. What the plain updates of the state leave alone: one lemma for each update and each block it does not touch,
and what it leaves in the block it does. -/

namespace Sys2Proof.Machine

/-! `State.emit` writes `out` alone. -/
@[simp] theorem State.emit_pending (s : State) (o : Out) : (s.emit o).pending = s.pending := rfl
@[simp] theorem State.emit_freeIdx (s : State) (o : Out) : (s.emit o).freeIdx = s.freeIdx := rfl
@[simp] theorem State.emit_regs (s : State) (o : Out) : (s.emit o).regs = s.regs := rfl
@[simp] theorem State.emit_gen (s : State) (o : Out) : (s.emit o).gen = s.gen := rfl
@[simp] theorem State.emit_tq (s : State) (o : Out) : (s.emit o).tq = s.tq := rfl
@[simp] theorem State.emit_ldg (s : State) (o : Out) : (s.emit o).ldg = s.ldg := rfl
@[simp] theorem State.emit_rgn (s : State) (o : Out) : (s.emit o).rgn = s.rgn := rfl
@[simp] theorem State.emit_tier (s : State) (o : Out) : (s.emit o).tier = s.tier := rfl
@[simp] theorem State.emit_codec (s : State) (o : Out) : (s.emit o).codec = s.codec := rfl
@[simp] theorem State.emit_time (s : State) (o : Out) : (s.emit o).time = s.time := rfl
@[simp] theorem State.emit_slc (s : State) (o : Out) : (s.emit o).slc = s.slc := rfl
@[simp] theorem State.emit_fab (s : State) (o : Out) : (s.emit o).fab = s.fab := rfl
@[simp] theorem State.emit_sw (s : State) (o : Out) : (s.emit o).sw = s.sw := rfl
@[simp] theorem State.emit_sec (s : State) (o : Out) : (s.emit o).sec = s.sec := rfl
@[simp] theorem State.emit_rst (s : State) (o : Out) : (s.emit o).rst = s.rst := rfl
@[simp] theorem State.emit_pwr (s : State) (o : Out) : (s.emit o).pwr = s.pwr := rfl
@[simp] theorem State.emit_stk (s : State) (o : Out) : (s.emit o).stk = s.stk := rfl
@[simp] theorem State.emit_hlt (s : State) (o : Out) : (s.emit o).hlt = s.hlt := rfl
@[simp] theorem State.emit_bbx (s : State) (o : Out) : (s.emit o).bbx = s.bbx := rfl
@[simp] theorem State.emit_toll (s : State) (o : Out) : (s.emit o).toll = s.toll := rfl

/-! `State.emits` writes `out` alone. -/
@[simp] theorem State.emits_pending (s : State) (l : List Out) : (s.emits l).pending = s.pending := rfl
@[simp] theorem State.emits_freeIdx (s : State) (l : List Out) : (s.emits l).freeIdx = s.freeIdx := rfl
@[simp] theorem State.emits_regs (s : State) (l : List Out) : (s.emits l).regs = s.regs := rfl
@[simp] theorem State.emits_gen (s : State) (l : List Out) : (s.emits l).gen = s.gen := rfl
@[simp] theorem State.emits_tq (s : State) (l : List Out) : (s.emits l).tq = s.tq := rfl
@[simp] theorem State.emits_ldg (s : State) (l : List Out) : (s.emits l).ldg = s.ldg := rfl
@[simp] theorem State.emits_rgn (s : State) (l : List Out) : (s.emits l).rgn = s.rgn := rfl
@[simp] theorem State.emits_tier (s : State) (l : List Out) : (s.emits l).tier = s.tier := rfl
@[simp] theorem State.emits_codec (s : State) (l : List Out) : (s.emits l).codec = s.codec := rfl
@[simp] theorem State.emits_time (s : State) (l : List Out) : (s.emits l).time = s.time := rfl
@[simp] theorem State.emits_slc (s : State) (l : List Out) : (s.emits l).slc = s.slc := rfl
@[simp] theorem State.emits_fab (s : State) (l : List Out) : (s.emits l).fab = s.fab := rfl
@[simp] theorem State.emits_sw (s : State) (l : List Out) : (s.emits l).sw = s.sw := rfl
@[simp] theorem State.emits_sec (s : State) (l : List Out) : (s.emits l).sec = s.sec := rfl
@[simp] theorem State.emits_rst (s : State) (l : List Out) : (s.emits l).rst = s.rst := rfl
@[simp] theorem State.emits_pwr (s : State) (l : List Out) : (s.emits l).pwr = s.pwr := rfl
@[simp] theorem State.emits_stk (s : State) (l : List Out) : (s.emits l).stk = s.stk := rfl
@[simp] theorem State.emits_hlt (s : State) (l : List Out) : (s.emits l).hlt = s.hlt := rfl
@[simp] theorem State.emits_bbx (s : State) (l : List Out) : (s.emits l).bbx = s.bbx := rfl
@[simp] theorem State.emits_toll (s : State) (l : List Out) : (s.emits l).toll = s.toll := rfl

/-! `State.tickFree` writes `freeIdx` alone. -/
@[simp] theorem State.tickFree_pending (s : State) : (s.tickFree).pending = s.pending := rfl
@[simp] theorem State.tickFree_out (s : State) : (s.tickFree).out = s.out := rfl
@[simp] theorem State.tickFree_regs (s : State) : (s.tickFree).regs = s.regs := rfl
@[simp] theorem State.tickFree_gen (s : State) : (s.tickFree).gen = s.gen := rfl
@[simp] theorem State.tickFree_tq (s : State) : (s.tickFree).tq = s.tq := rfl
@[simp] theorem State.tickFree_ldg (s : State) : (s.tickFree).ldg = s.ldg := rfl
@[simp] theorem State.tickFree_rgn (s : State) : (s.tickFree).rgn = s.rgn := rfl
@[simp] theorem State.tickFree_tier (s : State) : (s.tickFree).tier = s.tier := rfl
@[simp] theorem State.tickFree_codec (s : State) : (s.tickFree).codec = s.codec := rfl
@[simp] theorem State.tickFree_time (s : State) : (s.tickFree).time = s.time := rfl
@[simp] theorem State.tickFree_slc (s : State) : (s.tickFree).slc = s.slc := rfl
@[simp] theorem State.tickFree_fab (s : State) : (s.tickFree).fab = s.fab := rfl
@[simp] theorem State.tickFree_sw (s : State) : (s.tickFree).sw = s.sw := rfl
@[simp] theorem State.tickFree_sec (s : State) : (s.tickFree).sec = s.sec := rfl
@[simp] theorem State.tickFree_rst (s : State) : (s.tickFree).rst = s.rst := rfl
@[simp] theorem State.tickFree_pwr (s : State) : (s.tickFree).pwr = s.pwr := rfl
@[simp] theorem State.tickFree_stk (s : State) : (s.tickFree).stk = s.stk := rfl
@[simp] theorem State.tickFree_hlt (s : State) : (s.tickFree).hlt = s.hlt := rfl
@[simp] theorem State.tickFree_bbx (s : State) : (s.tickFree).bbx = s.bbx := rfl
@[simp] theorem State.tickFree_toll (s : State) : (s.tickFree).toll = s.toll := rfl

/-! `State.setWord` writes `regs` alone. -/
@[simp] theorem State.setWord_pending (s : State) (l : Loc) (w : Nat) : (s.setWord l w).pending = s.pending := rfl
@[simp] theorem State.setWord_freeIdx (s : State) (l : Loc) (w : Nat) : (s.setWord l w).freeIdx = s.freeIdx := rfl
@[simp] theorem State.setWord_out (s : State) (l : Loc) (w : Nat) : (s.setWord l w).out = s.out := rfl
@[simp] theorem State.setWord_gen (s : State) (l : Loc) (w : Nat) : (s.setWord l w).gen = s.gen := rfl
@[simp] theorem State.setWord_tq (s : State) (l : Loc) (w : Nat) : (s.setWord l w).tq = s.tq := rfl
@[simp] theorem State.setWord_ldg (s : State) (l : Loc) (w : Nat) : (s.setWord l w).ldg = s.ldg := rfl
@[simp] theorem State.setWord_rgn (s : State) (l : Loc) (w : Nat) : (s.setWord l w).rgn = s.rgn := rfl
@[simp] theorem State.setWord_tier (s : State) (l : Loc) (w : Nat) : (s.setWord l w).tier = s.tier := rfl
@[simp] theorem State.setWord_codec (s : State) (l : Loc) (w : Nat) : (s.setWord l w).codec = s.codec := rfl
@[simp] theorem State.setWord_time (s : State) (l : Loc) (w : Nat) : (s.setWord l w).time = s.time := rfl
@[simp] theorem State.setWord_slc (s : State) (l : Loc) (w : Nat) : (s.setWord l w).slc = s.slc := rfl
@[simp] theorem State.setWord_fab (s : State) (l : Loc) (w : Nat) : (s.setWord l w).fab = s.fab := rfl
@[simp] theorem State.setWord_sw (s : State) (l : Loc) (w : Nat) : (s.setWord l w).sw = s.sw := rfl
@[simp] theorem State.setWord_sec (s : State) (l : Loc) (w : Nat) : (s.setWord l w).sec = s.sec := rfl
@[simp] theorem State.setWord_rst (s : State) (l : Loc) (w : Nat) : (s.setWord l w).rst = s.rst := rfl
@[simp] theorem State.setWord_pwr (s : State) (l : Loc) (w : Nat) : (s.setWord l w).pwr = s.pwr := rfl
@[simp] theorem State.setWord_stk (s : State) (l : Loc) (w : Nat) : (s.setWord l w).stk = s.stk := rfl
@[simp] theorem State.setWord_hlt (s : State) (l : Loc) (w : Nat) : (s.setWord l w).hlt = s.hlt := rfl
@[simp] theorem State.setWord_bbx (s : State) (l : Loc) (w : Nat) : (s.setWord l w).bbx = s.bbx := rfl
@[simp] theorem State.setWord_toll (s : State) (l : Loc) (w : Nat) : (s.setWord l w).toll = s.toll := rfl

/-! `State.setFld` writes `regs` alone. -/
@[simp] theorem State.setFld_pending (s : State) (f : FRef) (v i j : Nat) : (s.setFld f v i j).pending = s.pending := rfl
@[simp] theorem State.setFld_freeIdx (s : State) (f : FRef) (v i j : Nat) : (s.setFld f v i j).freeIdx = s.freeIdx := rfl
@[simp] theorem State.setFld_out (s : State) (f : FRef) (v i j : Nat) : (s.setFld f v i j).out = s.out := rfl
@[simp] theorem State.setFld_gen (s : State) (f : FRef) (v i j : Nat) : (s.setFld f v i j).gen = s.gen := rfl
@[simp] theorem State.setFld_tq (s : State) (f : FRef) (v i j : Nat) : (s.setFld f v i j).tq = s.tq := rfl
@[simp] theorem State.setFld_ldg (s : State) (f : FRef) (v i j : Nat) : (s.setFld f v i j).ldg = s.ldg := rfl
@[simp] theorem State.setFld_rgn (s : State) (f : FRef) (v i j : Nat) : (s.setFld f v i j).rgn = s.rgn := rfl
@[simp] theorem State.setFld_tier (s : State) (f : FRef) (v i j : Nat) : (s.setFld f v i j).tier = s.tier := rfl
@[simp] theorem State.setFld_codec (s : State) (f : FRef) (v i j : Nat) : (s.setFld f v i j).codec = s.codec := rfl
@[simp] theorem State.setFld_time (s : State) (f : FRef) (v i j : Nat) : (s.setFld f v i j).time = s.time := rfl
@[simp] theorem State.setFld_slc (s : State) (f : FRef) (v i j : Nat) : (s.setFld f v i j).slc = s.slc := rfl
@[simp] theorem State.setFld_fab (s : State) (f : FRef) (v i j : Nat) : (s.setFld f v i j).fab = s.fab := rfl
@[simp] theorem State.setFld_sw (s : State) (f : FRef) (v i j : Nat) : (s.setFld f v i j).sw = s.sw := rfl
@[simp] theorem State.setFld_sec (s : State) (f : FRef) (v i j : Nat) : (s.setFld f v i j).sec = s.sec := rfl
@[simp] theorem State.setFld_rst (s : State) (f : FRef) (v i j : Nat) : (s.setFld f v i j).rst = s.rst := rfl
@[simp] theorem State.setFld_pwr (s : State) (f : FRef) (v i j : Nat) : (s.setFld f v i j).pwr = s.pwr := rfl
@[simp] theorem State.setFld_stk (s : State) (f : FRef) (v i j : Nat) : (s.setFld f v i j).stk = s.stk := rfl
@[simp] theorem State.setFld_hlt (s : State) (f : FRef) (v i j : Nat) : (s.setFld f v i j).hlt = s.hlt := rfl
@[simp] theorem State.setFld_bbx (s : State) (f : FRef) (v i j : Nat) : (s.setFld f v i j).bbx = s.bbx := rfl
@[simp] theorem State.setFld_toll (s : State) (f : FRef) (v i j : Nat) : (s.setFld f v i j).toll = s.toll := rfl

/-! `State.bump` writes `regs` alone. -/
@[simp] theorem State.bump_pending (s : State) (f : FRef) (i j d : Nat) : (s.bump f i j d).pending = s.pending := rfl
@[simp] theorem State.bump_freeIdx (s : State) (f : FRef) (i j d : Nat) : (s.bump f i j d).freeIdx = s.freeIdx := rfl
@[simp] theorem State.bump_out (s : State) (f : FRef) (i j d : Nat) : (s.bump f i j d).out = s.out := rfl
@[simp] theorem State.bump_gen (s : State) (f : FRef) (i j d : Nat) : (s.bump f i j d).gen = s.gen := rfl
@[simp] theorem State.bump_tq (s : State) (f : FRef) (i j d : Nat) : (s.bump f i j d).tq = s.tq := rfl
@[simp] theorem State.bump_ldg (s : State) (f : FRef) (i j d : Nat) : (s.bump f i j d).ldg = s.ldg := rfl
@[simp] theorem State.bump_rgn (s : State) (f : FRef) (i j d : Nat) : (s.bump f i j d).rgn = s.rgn := rfl
@[simp] theorem State.bump_tier (s : State) (f : FRef) (i j d : Nat) : (s.bump f i j d).tier = s.tier := rfl
@[simp] theorem State.bump_codec (s : State) (f : FRef) (i j d : Nat) : (s.bump f i j d).codec = s.codec := rfl
@[simp] theorem State.bump_time (s : State) (f : FRef) (i j d : Nat) : (s.bump f i j d).time = s.time := rfl
@[simp] theorem State.bump_slc (s : State) (f : FRef) (i j d : Nat) : (s.bump f i j d).slc = s.slc := rfl
@[simp] theorem State.bump_fab (s : State) (f : FRef) (i j d : Nat) : (s.bump f i j d).fab = s.fab := rfl
@[simp] theorem State.bump_sw (s : State) (f : FRef) (i j d : Nat) : (s.bump f i j d).sw = s.sw := rfl
@[simp] theorem State.bump_sec (s : State) (f : FRef) (i j d : Nat) : (s.bump f i j d).sec = s.sec := rfl
@[simp] theorem State.bump_rst (s : State) (f : FRef) (i j d : Nat) : (s.bump f i j d).rst = s.rst := rfl
@[simp] theorem State.bump_pwr (s : State) (f : FRef) (i j d : Nat) : (s.bump f i j d).pwr = s.pwr := rfl
@[simp] theorem State.bump_stk (s : State) (f : FRef) (i j d : Nat) : (s.bump f i j d).stk = s.stk := rfl
@[simp] theorem State.bump_hlt (s : State) (f : FRef) (i j d : Nat) : (s.bump f i j d).hlt = s.hlt := rfl
@[simp] theorem State.bump_bbx (s : State) (f : FRef) (i j d : Nat) : (s.bump f i j d).bbx = s.bbx := rfl
@[simp] theorem State.bump_toll (s : State) (f : FRef) (i j d : Nat) : (s.bump f i j d).toll = s.toll := rfl

/-! `State.modCtx` writes `slc` alone. -/
@[simp] theorem State.modCtx_pending (s : State) (cx : Nat) (f : Ctx → Ctx) : (s.modCtx cx f).pending = s.pending := rfl
@[simp] theorem State.modCtx_freeIdx (s : State) (cx : Nat) (f : Ctx → Ctx) : (s.modCtx cx f).freeIdx = s.freeIdx := rfl
@[simp] theorem State.modCtx_out (s : State) (cx : Nat) (f : Ctx → Ctx) : (s.modCtx cx f).out = s.out := rfl
@[simp] theorem State.modCtx_regs (s : State) (cx : Nat) (f : Ctx → Ctx) : (s.modCtx cx f).regs = s.regs := rfl
@[simp] theorem State.modCtx_gen (s : State) (cx : Nat) (f : Ctx → Ctx) : (s.modCtx cx f).gen = s.gen := rfl
@[simp] theorem State.modCtx_tq (s : State) (cx : Nat) (f : Ctx → Ctx) : (s.modCtx cx f).tq = s.tq := rfl
@[simp] theorem State.modCtx_ldg (s : State) (cx : Nat) (f : Ctx → Ctx) : (s.modCtx cx f).ldg = s.ldg := rfl
@[simp] theorem State.modCtx_rgn (s : State) (cx : Nat) (f : Ctx → Ctx) : (s.modCtx cx f).rgn = s.rgn := rfl
@[simp] theorem State.modCtx_tier (s : State) (cx : Nat) (f : Ctx → Ctx) : (s.modCtx cx f).tier = s.tier := rfl
@[simp] theorem State.modCtx_codec (s : State) (cx : Nat) (f : Ctx → Ctx) : (s.modCtx cx f).codec = s.codec := rfl
@[simp] theorem State.modCtx_time (s : State) (cx : Nat) (f : Ctx → Ctx) : (s.modCtx cx f).time = s.time := rfl
@[simp] theorem State.modCtx_fab (s : State) (cx : Nat) (f : Ctx → Ctx) : (s.modCtx cx f).fab = s.fab := rfl
@[simp] theorem State.modCtx_sw (s : State) (cx : Nat) (f : Ctx → Ctx) : (s.modCtx cx f).sw = s.sw := rfl
@[simp] theorem State.modCtx_sec (s : State) (cx : Nat) (f : Ctx → Ctx) : (s.modCtx cx f).sec = s.sec := rfl
@[simp] theorem State.modCtx_rst (s : State) (cx : Nat) (f : Ctx → Ctx) : (s.modCtx cx f).rst = s.rst := rfl
@[simp] theorem State.modCtx_pwr (s : State) (cx : Nat) (f : Ctx → Ctx) : (s.modCtx cx f).pwr = s.pwr := rfl
@[simp] theorem State.modCtx_stk (s : State) (cx : Nat) (f : Ctx → Ctx) : (s.modCtx cx f).stk = s.stk := rfl
@[simp] theorem State.modCtx_hlt (s : State) (cx : Nat) (f : Ctx → Ctx) : (s.modCtx cx f).hlt = s.hlt := rfl
@[simp] theorem State.modCtx_bbx (s : State) (cx : Nat) (f : Ctx → Ctx) : (s.modCtx cx f).bbx = s.bbx := rfl
@[simp] theorem State.modCtx_toll (s : State) (cx : Nat) (f : Ctx → Ctx) : (s.modCtx cx f).toll = s.toll := rfl

/-! `State.modInv` writes `slc` alone. -/
@[simp] theorem State.modInv_pending (s : State) (lsn : Nat) (f : Inv → Inv) : (s.modInv lsn f).pending = s.pending := rfl
@[simp] theorem State.modInv_freeIdx (s : State) (lsn : Nat) (f : Inv → Inv) : (s.modInv lsn f).freeIdx = s.freeIdx := rfl
@[simp] theorem State.modInv_out (s : State) (lsn : Nat) (f : Inv → Inv) : (s.modInv lsn f).out = s.out := rfl
@[simp] theorem State.modInv_regs (s : State) (lsn : Nat) (f : Inv → Inv) : (s.modInv lsn f).regs = s.regs := rfl
@[simp] theorem State.modInv_gen (s : State) (lsn : Nat) (f : Inv → Inv) : (s.modInv lsn f).gen = s.gen := rfl
@[simp] theorem State.modInv_tq (s : State) (lsn : Nat) (f : Inv → Inv) : (s.modInv lsn f).tq = s.tq := rfl
@[simp] theorem State.modInv_ldg (s : State) (lsn : Nat) (f : Inv → Inv) : (s.modInv lsn f).ldg = s.ldg := rfl
@[simp] theorem State.modInv_rgn (s : State) (lsn : Nat) (f : Inv → Inv) : (s.modInv lsn f).rgn = s.rgn := rfl
@[simp] theorem State.modInv_tier (s : State) (lsn : Nat) (f : Inv → Inv) : (s.modInv lsn f).tier = s.tier := rfl
@[simp] theorem State.modInv_codec (s : State) (lsn : Nat) (f : Inv → Inv) : (s.modInv lsn f).codec = s.codec := rfl
@[simp] theorem State.modInv_time (s : State) (lsn : Nat) (f : Inv → Inv) : (s.modInv lsn f).time = s.time := rfl
@[simp] theorem State.modInv_fab (s : State) (lsn : Nat) (f : Inv → Inv) : (s.modInv lsn f).fab = s.fab := rfl
@[simp] theorem State.modInv_sw (s : State) (lsn : Nat) (f : Inv → Inv) : (s.modInv lsn f).sw = s.sw := rfl
@[simp] theorem State.modInv_sec (s : State) (lsn : Nat) (f : Inv → Inv) : (s.modInv lsn f).sec = s.sec := rfl
@[simp] theorem State.modInv_rst (s : State) (lsn : Nat) (f : Inv → Inv) : (s.modInv lsn f).rst = s.rst := rfl
@[simp] theorem State.modInv_pwr (s : State) (lsn : Nat) (f : Inv → Inv) : (s.modInv lsn f).pwr = s.pwr := rfl
@[simp] theorem State.modInv_stk (s : State) (lsn : Nat) (f : Inv → Inv) : (s.modInv lsn f).stk = s.stk := rfl
@[simp] theorem State.modInv_hlt (s : State) (lsn : Nat) (f : Inv → Inv) : (s.modInv lsn f).hlt = s.hlt := rfl
@[simp] theorem State.modInv_bbx (s : State) (lsn : Nat) (f : Inv → Inv) : (s.modInv lsn f).bbx = s.bbx := rfl
@[simp] theorem State.modInv_toll (s : State) (lsn : Nat) (f : Inv → Inv) : (s.modInv lsn f).toll = s.toll := rfl

/-! `State.placeCtx` writes `slc` alone. -/
@[simp] theorem State.placeCtx_pending (s : State) (c : Ctx) : (s.placeCtx c).pending = s.pending := rfl
@[simp] theorem State.placeCtx_freeIdx (s : State) (c : Ctx) : (s.placeCtx c).freeIdx = s.freeIdx := rfl
@[simp] theorem State.placeCtx_out (s : State) (c : Ctx) : (s.placeCtx c).out = s.out := rfl
@[simp] theorem State.placeCtx_regs (s : State) (c : Ctx) : (s.placeCtx c).regs = s.regs := rfl
@[simp] theorem State.placeCtx_gen (s : State) (c : Ctx) : (s.placeCtx c).gen = s.gen := rfl
@[simp] theorem State.placeCtx_tq (s : State) (c : Ctx) : (s.placeCtx c).tq = s.tq := rfl
@[simp] theorem State.placeCtx_ldg (s : State) (c : Ctx) : (s.placeCtx c).ldg = s.ldg := rfl
@[simp] theorem State.placeCtx_rgn (s : State) (c : Ctx) : (s.placeCtx c).rgn = s.rgn := rfl
@[simp] theorem State.placeCtx_tier (s : State) (c : Ctx) : (s.placeCtx c).tier = s.tier := rfl
@[simp] theorem State.placeCtx_codec (s : State) (c : Ctx) : (s.placeCtx c).codec = s.codec := rfl
@[simp] theorem State.placeCtx_time (s : State) (c : Ctx) : (s.placeCtx c).time = s.time := rfl
@[simp] theorem State.placeCtx_fab (s : State) (c : Ctx) : (s.placeCtx c).fab = s.fab := rfl
@[simp] theorem State.placeCtx_sw (s : State) (c : Ctx) : (s.placeCtx c).sw = s.sw := rfl
@[simp] theorem State.placeCtx_sec (s : State) (c : Ctx) : (s.placeCtx c).sec = s.sec := rfl
@[simp] theorem State.placeCtx_rst (s : State) (c : Ctx) : (s.placeCtx c).rst = s.rst := rfl
@[simp] theorem State.placeCtx_pwr (s : State) (c : Ctx) : (s.placeCtx c).pwr = s.pwr := rfl
@[simp] theorem State.placeCtx_stk (s : State) (c : Ctx) : (s.placeCtx c).stk = s.stk := rfl
@[simp] theorem State.placeCtx_hlt (s : State) (c : Ctx) : (s.placeCtx c).hlt = s.hlt := rfl
@[simp] theorem State.placeCtx_bbx (s : State) (c : Ctx) : (s.placeCtx c).bbx = s.bbx := rfl
@[simp] theorem State.placeCtx_toll (s : State) (c : Ctx) : (s.placeCtx c).toll = s.toll := rfl

/-! `State.withCtx` writes `slc` alone. -/
@[simp] theorem State.withCtx_pending (s : State) (cx : Nat) (c : Ctx) : (s.withCtx cx c).pending = s.pending := rfl
@[simp] theorem State.withCtx_freeIdx (s : State) (cx : Nat) (c : Ctx) : (s.withCtx cx c).freeIdx = s.freeIdx := rfl
@[simp] theorem State.withCtx_out (s : State) (cx : Nat) (c : Ctx) : (s.withCtx cx c).out = s.out := rfl
@[simp] theorem State.withCtx_regs (s : State) (cx : Nat) (c : Ctx) : (s.withCtx cx c).regs = s.regs := rfl
@[simp] theorem State.withCtx_gen (s : State) (cx : Nat) (c : Ctx) : (s.withCtx cx c).gen = s.gen := rfl
@[simp] theorem State.withCtx_tq (s : State) (cx : Nat) (c : Ctx) : (s.withCtx cx c).tq = s.tq := rfl
@[simp] theorem State.withCtx_ldg (s : State) (cx : Nat) (c : Ctx) : (s.withCtx cx c).ldg = s.ldg := rfl
@[simp] theorem State.withCtx_rgn (s : State) (cx : Nat) (c : Ctx) : (s.withCtx cx c).rgn = s.rgn := rfl
@[simp] theorem State.withCtx_tier (s : State) (cx : Nat) (c : Ctx) : (s.withCtx cx c).tier = s.tier := rfl
@[simp] theorem State.withCtx_codec (s : State) (cx : Nat) (c : Ctx) : (s.withCtx cx c).codec = s.codec := rfl
@[simp] theorem State.withCtx_time (s : State) (cx : Nat) (c : Ctx) : (s.withCtx cx c).time = s.time := rfl
@[simp] theorem State.withCtx_fab (s : State) (cx : Nat) (c : Ctx) : (s.withCtx cx c).fab = s.fab := rfl
@[simp] theorem State.withCtx_sw (s : State) (cx : Nat) (c : Ctx) : (s.withCtx cx c).sw = s.sw := rfl
@[simp] theorem State.withCtx_sec (s : State) (cx : Nat) (c : Ctx) : (s.withCtx cx c).sec = s.sec := rfl
@[simp] theorem State.withCtx_rst (s : State) (cx : Nat) (c : Ctx) : (s.withCtx cx c).rst = s.rst := rfl
@[simp] theorem State.withCtx_pwr (s : State) (cx : Nat) (c : Ctx) : (s.withCtx cx c).pwr = s.pwr := rfl
@[simp] theorem State.withCtx_stk (s : State) (cx : Nat) (c : Ctx) : (s.withCtx cx c).stk = s.stk := rfl
@[simp] theorem State.withCtx_hlt (s : State) (cx : Nat) (c : Ctx) : (s.withCtx cx c).hlt = s.hlt := rfl
@[simp] theorem State.withCtx_bbx (s : State) (cx : Nat) (c : Ctx) : (s.withCtx cx c).bbx = s.bbx := rfl
@[simp] theorem State.withCtx_toll (s : State) (cx : Nat) (c : Ctx) : (s.withCtx cx c).toll = s.toll := rfl

/-! `State.unreceive` writes `slc` alone. -/
@[simp] theorem State.unreceive_pending (s : State) (c : Ctx) : (s.unreceive c).pending = s.pending := rfl
@[simp] theorem State.unreceive_freeIdx (s : State) (c : Ctx) : (s.unreceive c).freeIdx = s.freeIdx := rfl
@[simp] theorem State.unreceive_out (s : State) (c : Ctx) : (s.unreceive c).out = s.out := rfl
@[simp] theorem State.unreceive_regs (s : State) (c : Ctx) : (s.unreceive c).regs = s.regs := rfl
@[simp] theorem State.unreceive_gen (s : State) (c : Ctx) : (s.unreceive c).gen = s.gen := rfl
@[simp] theorem State.unreceive_tq (s : State) (c : Ctx) : (s.unreceive c).tq = s.tq := rfl
@[simp] theorem State.unreceive_ldg (s : State) (c : Ctx) : (s.unreceive c).ldg = s.ldg := rfl
@[simp] theorem State.unreceive_rgn (s : State) (c : Ctx) : (s.unreceive c).rgn = s.rgn := rfl
@[simp] theorem State.unreceive_tier (s : State) (c : Ctx) : (s.unreceive c).tier = s.tier := rfl
@[simp] theorem State.unreceive_codec (s : State) (c : Ctx) : (s.unreceive c).codec = s.codec := rfl
@[simp] theorem State.unreceive_time (s : State) (c : Ctx) : (s.unreceive c).time = s.time := rfl
@[simp] theorem State.unreceive_fab (s : State) (c : Ctx) : (s.unreceive c).fab = s.fab := rfl
@[simp] theorem State.unreceive_sw (s : State) (c : Ctx) : (s.unreceive c).sw = s.sw := rfl
@[simp] theorem State.unreceive_sec (s : State) (c : Ctx) : (s.unreceive c).sec = s.sec := rfl
@[simp] theorem State.unreceive_rst (s : State) (c : Ctx) : (s.unreceive c).rst = s.rst := rfl
@[simp] theorem State.unreceive_pwr (s : State) (c : Ctx) : (s.unreceive c).pwr = s.pwr := rfl
@[simp] theorem State.unreceive_stk (s : State) (c : Ctx) : (s.unreceive c).stk = s.stk := rfl
@[simp] theorem State.unreceive_hlt (s : State) (c : Ctx) : (s.unreceive c).hlt = s.hlt := rfl
@[simp] theorem State.unreceive_bbx (s : State) (c : Ctx) : (s.unreceive c).bbx = s.bbx := rfl
@[simp] theorem State.unreceive_toll (s : State) (c : Ctx) : (s.unreceive c).toll = s.toll := rfl

/-! `State.putEntry` writes `ldg` alone. -/
@[simp] theorem State.putEntry_pending (s : State) (e : Entry) : (s.putEntry e).pending = s.pending := rfl
@[simp] theorem State.putEntry_freeIdx (s : State) (e : Entry) : (s.putEntry e).freeIdx = s.freeIdx := rfl
@[simp] theorem State.putEntry_out (s : State) (e : Entry) : (s.putEntry e).out = s.out := rfl
@[simp] theorem State.putEntry_regs (s : State) (e : Entry) : (s.putEntry e).regs = s.regs := rfl
@[simp] theorem State.putEntry_gen (s : State) (e : Entry) : (s.putEntry e).gen = s.gen := rfl
@[simp] theorem State.putEntry_tq (s : State) (e : Entry) : (s.putEntry e).tq = s.tq := rfl
@[simp] theorem State.putEntry_rgn (s : State) (e : Entry) : (s.putEntry e).rgn = s.rgn := rfl
@[simp] theorem State.putEntry_tier (s : State) (e : Entry) : (s.putEntry e).tier = s.tier := rfl
@[simp] theorem State.putEntry_codec (s : State) (e : Entry) : (s.putEntry e).codec = s.codec := rfl
@[simp] theorem State.putEntry_time (s : State) (e : Entry) : (s.putEntry e).time = s.time := rfl
@[simp] theorem State.putEntry_slc (s : State) (e : Entry) : (s.putEntry e).slc = s.slc := rfl
@[simp] theorem State.putEntry_fab (s : State) (e : Entry) : (s.putEntry e).fab = s.fab := rfl
@[simp] theorem State.putEntry_sw (s : State) (e : Entry) : (s.putEntry e).sw = s.sw := rfl
@[simp] theorem State.putEntry_sec (s : State) (e : Entry) : (s.putEntry e).sec = s.sec := rfl
@[simp] theorem State.putEntry_rst (s : State) (e : Entry) : (s.putEntry e).rst = s.rst := rfl
@[simp] theorem State.putEntry_pwr (s : State) (e : Entry) : (s.putEntry e).pwr = s.pwr := rfl
@[simp] theorem State.putEntry_stk (s : State) (e : Entry) : (s.putEntry e).stk = s.stk := rfl
@[simp] theorem State.putEntry_hlt (s : State) (e : Entry) : (s.putEntry e).hlt = s.hlt := rfl
@[simp] theorem State.putEntry_bbx (s : State) (e : Entry) : (s.putEntry e).bbx = s.bbx := rfl
@[simp] theorem State.putEntry_toll (s : State) (e : Entry) : (s.putEntry e).toll = s.toll := rfl

/-! `State.freeEntry` writes `ldg` alone. -/
@[simp] theorem State.freeEntry_pending (s : State) (n : Nat) : (s.freeEntry n).pending = s.pending := rfl
@[simp] theorem State.freeEntry_freeIdx (s : State) (n : Nat) : (s.freeEntry n).freeIdx = s.freeIdx := rfl
@[simp] theorem State.freeEntry_out (s : State) (n : Nat) : (s.freeEntry n).out = s.out := rfl
@[simp] theorem State.freeEntry_regs (s : State) (n : Nat) : (s.freeEntry n).regs = s.regs := rfl
@[simp] theorem State.freeEntry_gen (s : State) (n : Nat) : (s.freeEntry n).gen = s.gen := rfl
@[simp] theorem State.freeEntry_tq (s : State) (n : Nat) : (s.freeEntry n).tq = s.tq := rfl
@[simp] theorem State.freeEntry_rgn (s : State) (n : Nat) : (s.freeEntry n).rgn = s.rgn := rfl
@[simp] theorem State.freeEntry_tier (s : State) (n : Nat) : (s.freeEntry n).tier = s.tier := rfl
@[simp] theorem State.freeEntry_codec (s : State) (n : Nat) : (s.freeEntry n).codec = s.codec := rfl
@[simp] theorem State.freeEntry_time (s : State) (n : Nat) : (s.freeEntry n).time = s.time := rfl
@[simp] theorem State.freeEntry_slc (s : State) (n : Nat) : (s.freeEntry n).slc = s.slc := rfl
@[simp] theorem State.freeEntry_fab (s : State) (n : Nat) : (s.freeEntry n).fab = s.fab := rfl
@[simp] theorem State.freeEntry_sw (s : State) (n : Nat) : (s.freeEntry n).sw = s.sw := rfl
@[simp] theorem State.freeEntry_sec (s : State) (n : Nat) : (s.freeEntry n).sec = s.sec := rfl
@[simp] theorem State.freeEntry_rst (s : State) (n : Nat) : (s.freeEntry n).rst = s.rst := rfl
@[simp] theorem State.freeEntry_pwr (s : State) (n : Nat) : (s.freeEntry n).pwr = s.pwr := rfl
@[simp] theorem State.freeEntry_stk (s : State) (n : Nat) : (s.freeEntry n).stk = s.stk := rfl
@[simp] theorem State.freeEntry_hlt (s : State) (n : Nat) : (s.freeEntry n).hlt = s.hlt := rfl
@[simp] theorem State.freeEntry_bbx (s : State) (n : Nat) : (s.freeEntry n).bbx = s.bbx := rfl
@[simp] theorem State.freeEntry_toll (s : State) (n : Nat) : (s.freeEntry n).toll = s.toll := rfl

/-! `State.modRing` writes `tq` alone. -/
@[simp] theorem State.modRing_pending (s : State) (p : Nat) (f : Ring → Ring) : (s.modRing p f).pending = s.pending := rfl
@[simp] theorem State.modRing_freeIdx (s : State) (p : Nat) (f : Ring → Ring) : (s.modRing p f).freeIdx = s.freeIdx := rfl
@[simp] theorem State.modRing_out (s : State) (p : Nat) (f : Ring → Ring) : (s.modRing p f).out = s.out := rfl
@[simp] theorem State.modRing_regs (s : State) (p : Nat) (f : Ring → Ring) : (s.modRing p f).regs = s.regs := rfl
@[simp] theorem State.modRing_gen (s : State) (p : Nat) (f : Ring → Ring) : (s.modRing p f).gen = s.gen := rfl
@[simp] theorem State.modRing_ldg (s : State) (p : Nat) (f : Ring → Ring) : (s.modRing p f).ldg = s.ldg := rfl
@[simp] theorem State.modRing_rgn (s : State) (p : Nat) (f : Ring → Ring) : (s.modRing p f).rgn = s.rgn := rfl
@[simp] theorem State.modRing_tier (s : State) (p : Nat) (f : Ring → Ring) : (s.modRing p f).tier = s.tier := rfl
@[simp] theorem State.modRing_codec (s : State) (p : Nat) (f : Ring → Ring) : (s.modRing p f).codec = s.codec := rfl
@[simp] theorem State.modRing_time (s : State) (p : Nat) (f : Ring → Ring) : (s.modRing p f).time = s.time := rfl
@[simp] theorem State.modRing_slc (s : State) (p : Nat) (f : Ring → Ring) : (s.modRing p f).slc = s.slc := rfl
@[simp] theorem State.modRing_fab (s : State) (p : Nat) (f : Ring → Ring) : (s.modRing p f).fab = s.fab := rfl
@[simp] theorem State.modRing_sw (s : State) (p : Nat) (f : Ring → Ring) : (s.modRing p f).sw = s.sw := rfl
@[simp] theorem State.modRing_sec (s : State) (p : Nat) (f : Ring → Ring) : (s.modRing p f).sec = s.sec := rfl
@[simp] theorem State.modRing_rst (s : State) (p : Nat) (f : Ring → Ring) : (s.modRing p f).rst = s.rst := rfl
@[simp] theorem State.modRing_pwr (s : State) (p : Nat) (f : Ring → Ring) : (s.modRing p f).pwr = s.pwr := rfl
@[simp] theorem State.modRing_stk (s : State) (p : Nat) (f : Ring → Ring) : (s.modRing p f).stk = s.stk := rfl
@[simp] theorem State.modRing_hlt (s : State) (p : Nat) (f : Ring → Ring) : (s.modRing p f).hlt = s.hlt := rfl
@[simp] theorem State.modRing_bbx (s : State) (p : Nat) (f : Ring → Ring) : (s.modRing p f).bbx = s.bbx := rfl
@[simp] theorem State.modRing_toll (s : State) (p : Nat) (f : Ring → Ring) : (s.modRing p f).toll = s.toll := rfl

/-! `State.modTen` writes `tq` alone. -/
@[simp] theorem State.modTen_pending (s : State) (t : Nat) (f : Ten → Ten) : (s.modTen t f).pending = s.pending := rfl
@[simp] theorem State.modTen_freeIdx (s : State) (t : Nat) (f : Ten → Ten) : (s.modTen t f).freeIdx = s.freeIdx := rfl
@[simp] theorem State.modTen_out (s : State) (t : Nat) (f : Ten → Ten) : (s.modTen t f).out = s.out := rfl
@[simp] theorem State.modTen_regs (s : State) (t : Nat) (f : Ten → Ten) : (s.modTen t f).regs = s.regs := rfl
@[simp] theorem State.modTen_gen (s : State) (t : Nat) (f : Ten → Ten) : (s.modTen t f).gen = s.gen := rfl
@[simp] theorem State.modTen_ldg (s : State) (t : Nat) (f : Ten → Ten) : (s.modTen t f).ldg = s.ldg := rfl
@[simp] theorem State.modTen_rgn (s : State) (t : Nat) (f : Ten → Ten) : (s.modTen t f).rgn = s.rgn := rfl
@[simp] theorem State.modTen_tier (s : State) (t : Nat) (f : Ten → Ten) : (s.modTen t f).tier = s.tier := rfl
@[simp] theorem State.modTen_codec (s : State) (t : Nat) (f : Ten → Ten) : (s.modTen t f).codec = s.codec := rfl
@[simp] theorem State.modTen_time (s : State) (t : Nat) (f : Ten → Ten) : (s.modTen t f).time = s.time := rfl
@[simp] theorem State.modTen_slc (s : State) (t : Nat) (f : Ten → Ten) : (s.modTen t f).slc = s.slc := rfl
@[simp] theorem State.modTen_fab (s : State) (t : Nat) (f : Ten → Ten) : (s.modTen t f).fab = s.fab := rfl
@[simp] theorem State.modTen_sw (s : State) (t : Nat) (f : Ten → Ten) : (s.modTen t f).sw = s.sw := rfl
@[simp] theorem State.modTen_sec (s : State) (t : Nat) (f : Ten → Ten) : (s.modTen t f).sec = s.sec := rfl
@[simp] theorem State.modTen_rst (s : State) (t : Nat) (f : Ten → Ten) : (s.modTen t f).rst = s.rst := rfl
@[simp] theorem State.modTen_pwr (s : State) (t : Nat) (f : Ten → Ten) : (s.modTen t f).pwr = s.pwr := rfl
@[simp] theorem State.modTen_stk (s : State) (t : Nat) (f : Ten → Ten) : (s.modTen t f).stk = s.stk := rfl
@[simp] theorem State.modTen_hlt (s : State) (t : Nat) (f : Ten → Ten) : (s.modTen t f).hlt = s.hlt := rfl
@[simp] theorem State.modTen_bbx (s : State) (t : Nat) (f : Ten → Ten) : (s.modTen t f).bbx = s.bbx := rfl
@[simp] theorem State.modTen_toll (s : State) (t : Nat) (f : Ten → Ten) : (s.modTen t f).toll = s.toll := rfl

/-! `State.setFetch` writes `tq` alone. -/
@[simp] theorem State.setFetch_pending (s : State) (p : Purpose) (f : Fetch) : (s.setFetch p f).pending = s.pending := rfl
@[simp] theorem State.setFetch_freeIdx (s : State) (p : Purpose) (f : Fetch) : (s.setFetch p f).freeIdx = s.freeIdx := rfl
@[simp] theorem State.setFetch_out (s : State) (p : Purpose) (f : Fetch) : (s.setFetch p f).out = s.out := rfl
@[simp] theorem State.setFetch_regs (s : State) (p : Purpose) (f : Fetch) : (s.setFetch p f).regs = s.regs := rfl
@[simp] theorem State.setFetch_gen (s : State) (p : Purpose) (f : Fetch) : (s.setFetch p f).gen = s.gen := rfl
@[simp] theorem State.setFetch_ldg (s : State) (p : Purpose) (f : Fetch) : (s.setFetch p f).ldg = s.ldg := rfl
@[simp] theorem State.setFetch_rgn (s : State) (p : Purpose) (f : Fetch) : (s.setFetch p f).rgn = s.rgn := rfl
@[simp] theorem State.setFetch_tier (s : State) (p : Purpose) (f : Fetch) : (s.setFetch p f).tier = s.tier := rfl
@[simp] theorem State.setFetch_codec (s : State) (p : Purpose) (f : Fetch) : (s.setFetch p f).codec = s.codec := rfl
@[simp] theorem State.setFetch_time (s : State) (p : Purpose) (f : Fetch) : (s.setFetch p f).time = s.time := rfl
@[simp] theorem State.setFetch_slc (s : State) (p : Purpose) (f : Fetch) : (s.setFetch p f).slc = s.slc := rfl
@[simp] theorem State.setFetch_fab (s : State) (p : Purpose) (f : Fetch) : (s.setFetch p f).fab = s.fab := rfl
@[simp] theorem State.setFetch_sw (s : State) (p : Purpose) (f : Fetch) : (s.setFetch p f).sw = s.sw := rfl
@[simp] theorem State.setFetch_sec (s : State) (p : Purpose) (f : Fetch) : (s.setFetch p f).sec = s.sec := rfl
@[simp] theorem State.setFetch_rst (s : State) (p : Purpose) (f : Fetch) : (s.setFetch p f).rst = s.rst := rfl
@[simp] theorem State.setFetch_pwr (s : State) (p : Purpose) (f : Fetch) : (s.setFetch p f).pwr = s.pwr := rfl
@[simp] theorem State.setFetch_stk (s : State) (p : Purpose) (f : Fetch) : (s.setFetch p f).stk = s.stk := rfl
@[simp] theorem State.setFetch_hlt (s : State) (p : Purpose) (f : Fetch) : (s.setFetch p f).hlt = s.hlt := rfl
@[simp] theorem State.setFetch_bbx (s : State) (p : Purpose) (f : Fetch) : (s.setFetch p f).bbx = s.bbx := rfl
@[simp] theorem State.setFetch_toll (s : State) (p : Purpose) (f : Fetch) : (s.setFetch p f).toll = s.toll := rfl

/-! `State.dropFetch` writes `tq` alone. -/
@[simp] theorem State.dropFetch_pending (s : State) (p : Purpose) : (s.dropFetch p).pending = s.pending := rfl
@[simp] theorem State.dropFetch_freeIdx (s : State) (p : Purpose) : (s.dropFetch p).freeIdx = s.freeIdx := rfl
@[simp] theorem State.dropFetch_out (s : State) (p : Purpose) : (s.dropFetch p).out = s.out := rfl
@[simp] theorem State.dropFetch_regs (s : State) (p : Purpose) : (s.dropFetch p).regs = s.regs := rfl
@[simp] theorem State.dropFetch_gen (s : State) (p : Purpose) : (s.dropFetch p).gen = s.gen := rfl
@[simp] theorem State.dropFetch_ldg (s : State) (p : Purpose) : (s.dropFetch p).ldg = s.ldg := rfl
@[simp] theorem State.dropFetch_rgn (s : State) (p : Purpose) : (s.dropFetch p).rgn = s.rgn := rfl
@[simp] theorem State.dropFetch_tier (s : State) (p : Purpose) : (s.dropFetch p).tier = s.tier := rfl
@[simp] theorem State.dropFetch_codec (s : State) (p : Purpose) : (s.dropFetch p).codec = s.codec := rfl
@[simp] theorem State.dropFetch_time (s : State) (p : Purpose) : (s.dropFetch p).time = s.time := rfl
@[simp] theorem State.dropFetch_slc (s : State) (p : Purpose) : (s.dropFetch p).slc = s.slc := rfl
@[simp] theorem State.dropFetch_fab (s : State) (p : Purpose) : (s.dropFetch p).fab = s.fab := rfl
@[simp] theorem State.dropFetch_sw (s : State) (p : Purpose) : (s.dropFetch p).sw = s.sw := rfl
@[simp] theorem State.dropFetch_sec (s : State) (p : Purpose) : (s.dropFetch p).sec = s.sec := rfl
@[simp] theorem State.dropFetch_rst (s : State) (p : Purpose) : (s.dropFetch p).rst = s.rst := rfl
@[simp] theorem State.dropFetch_pwr (s : State) (p : Purpose) : (s.dropFetch p).pwr = s.pwr := rfl
@[simp] theorem State.dropFetch_stk (s : State) (p : Purpose) : (s.dropFetch p).stk = s.stk := rfl
@[simp] theorem State.dropFetch_hlt (s : State) (p : Purpose) : (s.dropFetch p).hlt = s.hlt := rfl
@[simp] theorem State.dropFetch_bbx (s : State) (p : Purpose) : (s.dropFetch p).bbx = s.bbx := rfl
@[simp] theorem State.dropFetch_toll (s : State) (p : Purpose) : (s.dropFetch p).toll = s.toll := rfl

/-! `State.dropFetches` writes `tq` alone. -/
@[simp] theorem State.dropFetches_pending (s : State) (p : Purpose → Bool) : (s.dropFetches p).pending = s.pending := rfl
@[simp] theorem State.dropFetches_freeIdx (s : State) (p : Purpose → Bool) : (s.dropFetches p).freeIdx = s.freeIdx := rfl
@[simp] theorem State.dropFetches_out (s : State) (p : Purpose → Bool) : (s.dropFetches p).out = s.out := rfl
@[simp] theorem State.dropFetches_regs (s : State) (p : Purpose → Bool) : (s.dropFetches p).regs = s.regs := rfl
@[simp] theorem State.dropFetches_gen (s : State) (p : Purpose → Bool) : (s.dropFetches p).gen = s.gen := rfl
@[simp] theorem State.dropFetches_ldg (s : State) (p : Purpose → Bool) : (s.dropFetches p).ldg = s.ldg := rfl
@[simp] theorem State.dropFetches_rgn (s : State) (p : Purpose → Bool) : (s.dropFetches p).rgn = s.rgn := rfl
@[simp] theorem State.dropFetches_tier (s : State) (p : Purpose → Bool) : (s.dropFetches p).tier = s.tier := rfl
@[simp] theorem State.dropFetches_codec (s : State) (p : Purpose → Bool) : (s.dropFetches p).codec = s.codec := rfl
@[simp] theorem State.dropFetches_time (s : State) (p : Purpose → Bool) : (s.dropFetches p).time = s.time := rfl
@[simp] theorem State.dropFetches_slc (s : State) (p : Purpose → Bool) : (s.dropFetches p).slc = s.slc := rfl
@[simp] theorem State.dropFetches_sw (s : State) (p : Purpose → Bool) : (s.dropFetches p).sw = s.sw := rfl
@[simp] theorem State.dropFetches_sec (s : State) (p : Purpose → Bool) : (s.dropFetches p).sec = s.sec := rfl
@[simp] theorem State.dropFetches_rst (s : State) (p : Purpose → Bool) : (s.dropFetches p).rst = s.rst := rfl
@[simp] theorem State.dropFetches_pwr (s : State) (p : Purpose → Bool) : (s.dropFetches p).pwr = s.pwr := rfl
@[simp] theorem State.dropFetches_stk (s : State) (p : Purpose → Bool) : (s.dropFetches p).stk = s.stk := rfl
@[simp] theorem State.dropFetches_hlt (s : State) (p : Purpose → Bool) : (s.dropFetches p).hlt = s.hlt := rfl
@[simp] theorem State.dropFetches_bbx (s : State) (p : Purpose → Bool) : (s.dropFetches p).bbx = s.bbx := rfl
@[simp] theorem State.dropFetches_toll (s : State) (p : Purpose → Bool) : (s.dropFetches p).toll = s.toll := rfl

/-! `State.modShelf` writes `rgn` alone. -/
@[simp] theorem State.modShelf_pending (s : State) (t i : Nat) (f : Shelf → Shelf) : (s.modShelf t i f).pending = s.pending := rfl
@[simp] theorem State.modShelf_freeIdx (s : State) (t i : Nat) (f : Shelf → Shelf) : (s.modShelf t i f).freeIdx = s.freeIdx := rfl
@[simp] theorem State.modShelf_out (s : State) (t i : Nat) (f : Shelf → Shelf) : (s.modShelf t i f).out = s.out := rfl
@[simp] theorem State.modShelf_regs (s : State) (t i : Nat) (f : Shelf → Shelf) : (s.modShelf t i f).regs = s.regs := rfl
@[simp] theorem State.modShelf_gen (s : State) (t i : Nat) (f : Shelf → Shelf) : (s.modShelf t i f).gen = s.gen := rfl
@[simp] theorem State.modShelf_tq (s : State) (t i : Nat) (f : Shelf → Shelf) : (s.modShelf t i f).tq = s.tq := rfl
@[simp] theorem State.modShelf_ldg (s : State) (t i : Nat) (f : Shelf → Shelf) : (s.modShelf t i f).ldg = s.ldg := rfl
@[simp] theorem State.modShelf_tier (s : State) (t i : Nat) (f : Shelf → Shelf) : (s.modShelf t i f).tier = s.tier := rfl
@[simp] theorem State.modShelf_codec (s : State) (t i : Nat) (f : Shelf → Shelf) : (s.modShelf t i f).codec = s.codec := rfl
@[simp] theorem State.modShelf_time (s : State) (t i : Nat) (f : Shelf → Shelf) : (s.modShelf t i f).time = s.time := rfl
@[simp] theorem State.modShelf_slc (s : State) (t i : Nat) (f : Shelf → Shelf) : (s.modShelf t i f).slc = s.slc := rfl
@[simp] theorem State.modShelf_fab (s : State) (t i : Nat) (f : Shelf → Shelf) : (s.modShelf t i f).fab = s.fab := rfl
@[simp] theorem State.modShelf_sw (s : State) (t i : Nat) (f : Shelf → Shelf) : (s.modShelf t i f).sw = s.sw := rfl
@[simp] theorem State.modShelf_sec (s : State) (t i : Nat) (f : Shelf → Shelf) : (s.modShelf t i f).sec = s.sec := rfl
@[simp] theorem State.modShelf_rst (s : State) (t i : Nat) (f : Shelf → Shelf) : (s.modShelf t i f).rst = s.rst := rfl
@[simp] theorem State.modShelf_pwr (s : State) (t i : Nat) (f : Shelf → Shelf) : (s.modShelf t i f).pwr = s.pwr := rfl
@[simp] theorem State.modShelf_stk (s : State) (t i : Nat) (f : Shelf → Shelf) : (s.modShelf t i f).stk = s.stk := rfl
@[simp] theorem State.modShelf_hlt (s : State) (t i : Nat) (f : Shelf → Shelf) : (s.modShelf t i f).hlt = s.hlt := rfl
@[simp] theorem State.modShelf_bbx (s : State) (t i : Nat) (f : Shelf → Shelf) : (s.modShelf t i f).bbx = s.bbx := rfl
@[simp] theorem State.modShelf_toll (s : State) (t i : Nat) (f : Shelf → Shelf) : (s.modShelf t i f).toll = s.toll := rfl

/-! `State.modRegion` writes `rgn` alone. -/
@[simp] theorem State.modRegion_pending (s : State) (id : Nat) (f : Region → Region) : (s.modRegion id f).pending = s.pending := rfl
@[simp] theorem State.modRegion_freeIdx (s : State) (id : Nat) (f : Region → Region) : (s.modRegion id f).freeIdx = s.freeIdx := rfl
@[simp] theorem State.modRegion_out (s : State) (id : Nat) (f : Region → Region) : (s.modRegion id f).out = s.out := rfl
@[simp] theorem State.modRegion_regs (s : State) (id : Nat) (f : Region → Region) : (s.modRegion id f).regs = s.regs := rfl
@[simp] theorem State.modRegion_gen (s : State) (id : Nat) (f : Region → Region) : (s.modRegion id f).gen = s.gen := rfl
@[simp] theorem State.modRegion_tq (s : State) (id : Nat) (f : Region → Region) : (s.modRegion id f).tq = s.tq := rfl
@[simp] theorem State.modRegion_ldg (s : State) (id : Nat) (f : Region → Region) : (s.modRegion id f).ldg = s.ldg := rfl
@[simp] theorem State.modRegion_tier (s : State) (id : Nat) (f : Region → Region) : (s.modRegion id f).tier = s.tier := rfl
@[simp] theorem State.modRegion_codec (s : State) (id : Nat) (f : Region → Region) : (s.modRegion id f).codec = s.codec := rfl
@[simp] theorem State.modRegion_time (s : State) (id : Nat) (f : Region → Region) : (s.modRegion id f).time = s.time := rfl
@[simp] theorem State.modRegion_slc (s : State) (id : Nat) (f : Region → Region) : (s.modRegion id f).slc = s.slc := rfl
@[simp] theorem State.modRegion_fab (s : State) (id : Nat) (f : Region → Region) : (s.modRegion id f).fab = s.fab := rfl
@[simp] theorem State.modRegion_sw (s : State) (id : Nat) (f : Region → Region) : (s.modRegion id f).sw = s.sw := rfl
@[simp] theorem State.modRegion_sec (s : State) (id : Nat) (f : Region → Region) : (s.modRegion id f).sec = s.sec := rfl
@[simp] theorem State.modRegion_rst (s : State) (id : Nat) (f : Region → Region) : (s.modRegion id f).rst = s.rst := rfl
@[simp] theorem State.modRegion_pwr (s : State) (id : Nat) (f : Region → Region) : (s.modRegion id f).pwr = s.pwr := rfl
@[simp] theorem State.modRegion_stk (s : State) (id : Nat) (f : Region → Region) : (s.modRegion id f).stk = s.stk := rfl
@[simp] theorem State.modRegion_hlt (s : State) (id : Nat) (f : Region → Region) : (s.modRegion id f).hlt = s.hlt := rfl
@[simp] theorem State.modRegion_bbx (s : State) (id : Nat) (f : Region → Region) : (s.modRegion id f).bbx = s.bbx := rfl
@[simp] theorem State.modRegion_toll (s : State) (id : Nat) (f : Region → Region) : (s.modRegion id f).toll = s.toll := rfl

/-! `State.modPage` writes `rgn` alone. -/
@[simp] theorem State.modPage_pending (s : State) (p : Nat) (f : Page → Page) : (s.modPage p f).pending = s.pending := rfl
@[simp] theorem State.modPage_freeIdx (s : State) (p : Nat) (f : Page → Page) : (s.modPage p f).freeIdx = s.freeIdx := rfl
@[simp] theorem State.modPage_out (s : State) (p : Nat) (f : Page → Page) : (s.modPage p f).out = s.out := rfl
@[simp] theorem State.modPage_regs (s : State) (p : Nat) (f : Page → Page) : (s.modPage p f).regs = s.regs := rfl
@[simp] theorem State.modPage_gen (s : State) (p : Nat) (f : Page → Page) : (s.modPage p f).gen = s.gen := rfl
@[simp] theorem State.modPage_tq (s : State) (p : Nat) (f : Page → Page) : (s.modPage p f).tq = s.tq := rfl
@[simp] theorem State.modPage_ldg (s : State) (p : Nat) (f : Page → Page) : (s.modPage p f).ldg = s.ldg := rfl
@[simp] theorem State.modPage_tier (s : State) (p : Nat) (f : Page → Page) : (s.modPage p f).tier = s.tier := rfl
@[simp] theorem State.modPage_codec (s : State) (p : Nat) (f : Page → Page) : (s.modPage p f).codec = s.codec := rfl
@[simp] theorem State.modPage_time (s : State) (p : Nat) (f : Page → Page) : (s.modPage p f).time = s.time := rfl
@[simp] theorem State.modPage_slc (s : State) (p : Nat) (f : Page → Page) : (s.modPage p f).slc = s.slc := rfl
@[simp] theorem State.modPage_fab (s : State) (p : Nat) (f : Page → Page) : (s.modPage p f).fab = s.fab := rfl
@[simp] theorem State.modPage_sw (s : State) (p : Nat) (f : Page → Page) : (s.modPage p f).sw = s.sw := rfl
@[simp] theorem State.modPage_sec (s : State) (p : Nat) (f : Page → Page) : (s.modPage p f).sec = s.sec := rfl
@[simp] theorem State.modPage_rst (s : State) (p : Nat) (f : Page → Page) : (s.modPage p f).rst = s.rst := rfl
@[simp] theorem State.modPage_pwr (s : State) (p : Nat) (f : Page → Page) : (s.modPage p f).pwr = s.pwr := rfl
@[simp] theorem State.modPage_stk (s : State) (p : Nat) (f : Page → Page) : (s.modPage p f).stk = s.stk := rfl
@[simp] theorem State.modPage_hlt (s : State) (p : Nat) (f : Page → Page) : (s.modPage p f).hlt = s.hlt := rfl
@[simp] theorem State.modPage_bbx (s : State) (p : Nat) (f : Page → Page) : (s.modPage p f).bbx = s.bbx := rfl
@[simp] theorem State.modPage_toll (s : State) (p : Nat) (f : Page → Page) : (s.modPage p f).toll = s.toll := rfl

/-! `State.modVersion` writes `rgn` alone. -/
@[simp] theorem State.modVersion_pending (s : State) (id n : Nat) (f : Version → Version) : (s.modVersion id n f).pending = s.pending := rfl
@[simp] theorem State.modVersion_freeIdx (s : State) (id n : Nat) (f : Version → Version) : (s.modVersion id n f).freeIdx = s.freeIdx := rfl
@[simp] theorem State.modVersion_out (s : State) (id n : Nat) (f : Version → Version) : (s.modVersion id n f).out = s.out := rfl
@[simp] theorem State.modVersion_regs (s : State) (id n : Nat) (f : Version → Version) : (s.modVersion id n f).regs = s.regs := rfl
@[simp] theorem State.modVersion_gen (s : State) (id n : Nat) (f : Version → Version) : (s.modVersion id n f).gen = s.gen := rfl
@[simp] theorem State.modVersion_tq (s : State) (id n : Nat) (f : Version → Version) : (s.modVersion id n f).tq = s.tq := rfl
@[simp] theorem State.modVersion_ldg (s : State) (id n : Nat) (f : Version → Version) : (s.modVersion id n f).ldg = s.ldg := rfl
@[simp] theorem State.modVersion_tier (s : State) (id n : Nat) (f : Version → Version) : (s.modVersion id n f).tier = s.tier := rfl
@[simp] theorem State.modVersion_codec (s : State) (id n : Nat) (f : Version → Version) : (s.modVersion id n f).codec = s.codec := rfl
@[simp] theorem State.modVersion_time (s : State) (id n : Nat) (f : Version → Version) : (s.modVersion id n f).time = s.time := rfl
@[simp] theorem State.modVersion_slc (s : State) (id n : Nat) (f : Version → Version) : (s.modVersion id n f).slc = s.slc := rfl
@[simp] theorem State.modVersion_fab (s : State) (id n : Nat) (f : Version → Version) : (s.modVersion id n f).fab = s.fab := rfl
@[simp] theorem State.modVersion_sw (s : State) (id n : Nat) (f : Version → Version) : (s.modVersion id n f).sw = s.sw := rfl
@[simp] theorem State.modVersion_sec (s : State) (id n : Nat) (f : Version → Version) : (s.modVersion id n f).sec = s.sec := rfl
@[simp] theorem State.modVersion_rst (s : State) (id n : Nat) (f : Version → Version) : (s.modVersion id n f).rst = s.rst := rfl
@[simp] theorem State.modVersion_pwr (s : State) (id n : Nat) (f : Version → Version) : (s.modVersion id n f).pwr = s.pwr := rfl
@[simp] theorem State.modVersion_stk (s : State) (id n : Nat) (f : Version → Version) : (s.modVersion id n f).stk = s.stk := rfl
@[simp] theorem State.modVersion_hlt (s : State) (id n : Nat) (f : Version → Version) : (s.modVersion id n f).hlt = s.hlt := rfl
@[simp] theorem State.modVersion_bbx (s : State) (id n : Nat) (f : Version → Version) : (s.modVersion id n f).bbx = s.bbx := rfl
@[simp] theorem State.modVersion_toll (s : State) (id n : Nat) (f : Version → Version) : (s.modVersion id n f).toll = s.toll := rfl

/-! `State.shelfResult` writes `rgn` alone. -/
@[simp] theorem State.shelfResult_pending (s : State) (n : Nat) : (s.shelfResult n).pending = s.pending := rfl
@[simp] theorem State.shelfResult_freeIdx (s : State) (n : Nat) : (s.shelfResult n).freeIdx = s.freeIdx := rfl
@[simp] theorem State.shelfResult_out (s : State) (n : Nat) : (s.shelfResult n).out = s.out := rfl
@[simp] theorem State.shelfResult_regs (s : State) (n : Nat) : (s.shelfResult n).regs = s.regs := rfl
@[simp] theorem State.shelfResult_gen (s : State) (n : Nat) : (s.shelfResult n).gen = s.gen := rfl
@[simp] theorem State.shelfResult_tq (s : State) (n : Nat) : (s.shelfResult n).tq = s.tq := rfl
@[simp] theorem State.shelfResult_ldg (s : State) (n : Nat) : (s.shelfResult n).ldg = s.ldg := rfl
@[simp] theorem State.shelfResult_tier (s : State) (n : Nat) : (s.shelfResult n).tier = s.tier := rfl
@[simp] theorem State.shelfResult_codec (s : State) (n : Nat) : (s.shelfResult n).codec = s.codec := rfl
@[simp] theorem State.shelfResult_time (s : State) (n : Nat) : (s.shelfResult n).time = s.time := rfl
@[simp] theorem State.shelfResult_slc (s : State) (n : Nat) : (s.shelfResult n).slc = s.slc := rfl
@[simp] theorem State.shelfResult_fab (s : State) (n : Nat) : (s.shelfResult n).fab = s.fab := rfl
@[simp] theorem State.shelfResult_sw (s : State) (n : Nat) : (s.shelfResult n).sw = s.sw := rfl
@[simp] theorem State.shelfResult_sec (s : State) (n : Nat) : (s.shelfResult n).sec = s.sec := rfl
@[simp] theorem State.shelfResult_rst (s : State) (n : Nat) : (s.shelfResult n).rst = s.rst := rfl
@[simp] theorem State.shelfResult_pwr (s : State) (n : Nat) : (s.shelfResult n).pwr = s.pwr := rfl
@[simp] theorem State.shelfResult_stk (s : State) (n : Nat) : (s.shelfResult n).stk = s.stk := rfl
@[simp] theorem State.shelfResult_hlt (s : State) (n : Nat) : (s.shelfResult n).hlt = s.hlt := rfl
@[simp] theorem State.shelfResult_bbx (s : State) (n : Nat) : (s.shelfResult n).bbx = s.bbx := rfl
@[simp] theorem State.shelfResult_toll (s : State) (n : Nat) : (s.shelfResult n).toll = s.toll := rfl

/-! `State.modMove` writes `tier` alone. -/
@[simp] theorem State.modMove_pending (s : State) (k : Nat) (f : MoveJob → MoveJob) : (s.modMove k f).pending = s.pending := rfl
@[simp] theorem State.modMove_freeIdx (s : State) (k : Nat) (f : MoveJob → MoveJob) : (s.modMove k f).freeIdx = s.freeIdx := rfl
@[simp] theorem State.modMove_out (s : State) (k : Nat) (f : MoveJob → MoveJob) : (s.modMove k f).out = s.out := rfl
@[simp] theorem State.modMove_regs (s : State) (k : Nat) (f : MoveJob → MoveJob) : (s.modMove k f).regs = s.regs := rfl
@[simp] theorem State.modMove_gen (s : State) (k : Nat) (f : MoveJob → MoveJob) : (s.modMove k f).gen = s.gen := rfl
@[simp] theorem State.modMove_tq (s : State) (k : Nat) (f : MoveJob → MoveJob) : (s.modMove k f).tq = s.tq := rfl
@[simp] theorem State.modMove_ldg (s : State) (k : Nat) (f : MoveJob → MoveJob) : (s.modMove k f).ldg = s.ldg := rfl
@[simp] theorem State.modMove_rgn (s : State) (k : Nat) (f : MoveJob → MoveJob) : (s.modMove k f).rgn = s.rgn := rfl
@[simp] theorem State.modMove_codec (s : State) (k : Nat) (f : MoveJob → MoveJob) : (s.modMove k f).codec = s.codec := rfl
@[simp] theorem State.modMove_time (s : State) (k : Nat) (f : MoveJob → MoveJob) : (s.modMove k f).time = s.time := rfl
@[simp] theorem State.modMove_slc (s : State) (k : Nat) (f : MoveJob → MoveJob) : (s.modMove k f).slc = s.slc := rfl
@[simp] theorem State.modMove_fab (s : State) (k : Nat) (f : MoveJob → MoveJob) : (s.modMove k f).fab = s.fab := rfl
@[simp] theorem State.modMove_sw (s : State) (k : Nat) (f : MoveJob → MoveJob) : (s.modMove k f).sw = s.sw := rfl
@[simp] theorem State.modMove_sec (s : State) (k : Nat) (f : MoveJob → MoveJob) : (s.modMove k f).sec = s.sec := rfl
@[simp] theorem State.modMove_rst (s : State) (k : Nat) (f : MoveJob → MoveJob) : (s.modMove k f).rst = s.rst := rfl
@[simp] theorem State.modMove_pwr (s : State) (k : Nat) (f : MoveJob → MoveJob) : (s.modMove k f).pwr = s.pwr := rfl
@[simp] theorem State.modMove_stk (s : State) (k : Nat) (f : MoveJob → MoveJob) : (s.modMove k f).stk = s.stk := rfl
@[simp] theorem State.modMove_hlt (s : State) (k : Nat) (f : MoveJob → MoveJob) : (s.modMove k f).hlt = s.hlt := rfl
@[simp] theorem State.modMove_bbx (s : State) (k : Nat) (f : MoveJob → MoveJob) : (s.modMove k f).bbx = s.bbx := rfl
@[simp] theorem State.modMove_toll (s : State) (k : Nat) (f : MoveJob → MoveJob) : (s.modMove k f).toll = s.toll := rfl

/-! `State.modWin` writes `tier` alone. -/
@[simp] theorem State.modWin_pending (s : State) (w : Nat) (f : WinSt → WinSt) : (s.modWin w f).pending = s.pending := rfl
@[simp] theorem State.modWin_freeIdx (s : State) (w : Nat) (f : WinSt → WinSt) : (s.modWin w f).freeIdx = s.freeIdx := rfl
@[simp] theorem State.modWin_out (s : State) (w : Nat) (f : WinSt → WinSt) : (s.modWin w f).out = s.out := rfl
@[simp] theorem State.modWin_regs (s : State) (w : Nat) (f : WinSt → WinSt) : (s.modWin w f).regs = s.regs := rfl
@[simp] theorem State.modWin_gen (s : State) (w : Nat) (f : WinSt → WinSt) : (s.modWin w f).gen = s.gen := rfl
@[simp] theorem State.modWin_tq (s : State) (w : Nat) (f : WinSt → WinSt) : (s.modWin w f).tq = s.tq := rfl
@[simp] theorem State.modWin_ldg (s : State) (w : Nat) (f : WinSt → WinSt) : (s.modWin w f).ldg = s.ldg := rfl
@[simp] theorem State.modWin_rgn (s : State) (w : Nat) (f : WinSt → WinSt) : (s.modWin w f).rgn = s.rgn := rfl
@[simp] theorem State.modWin_codec (s : State) (w : Nat) (f : WinSt → WinSt) : (s.modWin w f).codec = s.codec := rfl
@[simp] theorem State.modWin_time (s : State) (w : Nat) (f : WinSt → WinSt) : (s.modWin w f).time = s.time := rfl
@[simp] theorem State.modWin_slc (s : State) (w : Nat) (f : WinSt → WinSt) : (s.modWin w f).slc = s.slc := rfl
@[simp] theorem State.modWin_fab (s : State) (w : Nat) (f : WinSt → WinSt) : (s.modWin w f).fab = s.fab := rfl
@[simp] theorem State.modWin_sw (s : State) (w : Nat) (f : WinSt → WinSt) : (s.modWin w f).sw = s.sw := rfl
@[simp] theorem State.modWin_sec (s : State) (w : Nat) (f : WinSt → WinSt) : (s.modWin w f).sec = s.sec := rfl
@[simp] theorem State.modWin_rst (s : State) (w : Nat) (f : WinSt → WinSt) : (s.modWin w f).rst = s.rst := rfl
@[simp] theorem State.modWin_pwr (s : State) (w : Nat) (f : WinSt → WinSt) : (s.modWin w f).pwr = s.pwr := rfl
@[simp] theorem State.modWin_stk (s : State) (w : Nat) (f : WinSt → WinSt) : (s.modWin w f).stk = s.stk := rfl
@[simp] theorem State.modWin_hlt (s : State) (w : Nat) (f : WinSt → WinSt) : (s.modWin w f).hlt = s.hlt := rfl
@[simp] theorem State.modWin_bbx (s : State) (w : Nat) (f : WinSt → WinSt) : (s.modWin w f).bbx = s.bbx := rfl
@[simp] theorem State.modWin_toll (s : State) (w : Nat) (f : WinSt → WinSt) : (s.modWin w f).toll = s.toll := rfl

/-! `State.modJob` writes `time` alone. -/
@[simp] theorem State.modJob_pending (s : State) (j : Nat) (f : Job → Job) : (s.modJob j f).pending = s.pending := rfl
@[simp] theorem State.modJob_freeIdx (s : State) (j : Nat) (f : Job → Job) : (s.modJob j f).freeIdx = s.freeIdx := rfl
@[simp] theorem State.modJob_out (s : State) (j : Nat) (f : Job → Job) : (s.modJob j f).out = s.out := rfl
@[simp] theorem State.modJob_regs (s : State) (j : Nat) (f : Job → Job) : (s.modJob j f).regs = s.regs := rfl
@[simp] theorem State.modJob_gen (s : State) (j : Nat) (f : Job → Job) : (s.modJob j f).gen = s.gen := rfl
@[simp] theorem State.modJob_tq (s : State) (j : Nat) (f : Job → Job) : (s.modJob j f).tq = s.tq := rfl
@[simp] theorem State.modJob_ldg (s : State) (j : Nat) (f : Job → Job) : (s.modJob j f).ldg = s.ldg := rfl
@[simp] theorem State.modJob_rgn (s : State) (j : Nat) (f : Job → Job) : (s.modJob j f).rgn = s.rgn := rfl
@[simp] theorem State.modJob_tier (s : State) (j : Nat) (f : Job → Job) : (s.modJob j f).tier = s.tier := rfl
@[simp] theorem State.modJob_codec (s : State) (j : Nat) (f : Job → Job) : (s.modJob j f).codec = s.codec := rfl
@[simp] theorem State.modJob_slc (s : State) (j : Nat) (f : Job → Job) : (s.modJob j f).slc = s.slc := rfl
@[simp] theorem State.modJob_fab (s : State) (j : Nat) (f : Job → Job) : (s.modJob j f).fab = s.fab := rfl
@[simp] theorem State.modJob_sw (s : State) (j : Nat) (f : Job → Job) : (s.modJob j f).sw = s.sw := rfl
@[simp] theorem State.modJob_sec (s : State) (j : Nat) (f : Job → Job) : (s.modJob j f).sec = s.sec := rfl
@[simp] theorem State.modJob_rst (s : State) (j : Nat) (f : Job → Job) : (s.modJob j f).rst = s.rst := rfl
@[simp] theorem State.modJob_pwr (s : State) (j : Nat) (f : Job → Job) : (s.modJob j f).pwr = s.pwr := rfl
@[simp] theorem State.modJob_stk (s : State) (j : Nat) (f : Job → Job) : (s.modJob j f).stk = s.stk := rfl
@[simp] theorem State.modJob_hlt (s : State) (j : Nat) (f : Job → Job) : (s.modJob j f).hlt = s.hlt := rfl
@[simp] theorem State.modJob_bbx (s : State) (j : Nat) (f : Job → Job) : (s.modJob j f).bbx = s.bbx := rfl
@[simp] theorem State.modJob_toll (s : State) (j : Nat) (f : Job → Job) : (s.modJob j f).toll = s.toll := rfl

/-! `State.modPort` writes `fab` alone. -/
@[simp] theorem State.modPort_pending (s : State) (n : Nat) (f : PortSt → PortSt) : (s.modPort n f).pending = s.pending := rfl
@[simp] theorem State.modPort_freeIdx (s : State) (n : Nat) (f : PortSt → PortSt) : (s.modPort n f).freeIdx = s.freeIdx := rfl
@[simp] theorem State.modPort_out (s : State) (n : Nat) (f : PortSt → PortSt) : (s.modPort n f).out = s.out := rfl
@[simp] theorem State.modPort_regs (s : State) (n : Nat) (f : PortSt → PortSt) : (s.modPort n f).regs = s.regs := rfl
@[simp] theorem State.modPort_gen (s : State) (n : Nat) (f : PortSt → PortSt) : (s.modPort n f).gen = s.gen := rfl
@[simp] theorem State.modPort_tq (s : State) (n : Nat) (f : PortSt → PortSt) : (s.modPort n f).tq = s.tq := rfl
@[simp] theorem State.modPort_ldg (s : State) (n : Nat) (f : PortSt → PortSt) : (s.modPort n f).ldg = s.ldg := rfl
@[simp] theorem State.modPort_rgn (s : State) (n : Nat) (f : PortSt → PortSt) : (s.modPort n f).rgn = s.rgn := rfl
@[simp] theorem State.modPort_tier (s : State) (n : Nat) (f : PortSt → PortSt) : (s.modPort n f).tier = s.tier := rfl
@[simp] theorem State.modPort_codec (s : State) (n : Nat) (f : PortSt → PortSt) : (s.modPort n f).codec = s.codec := rfl
@[simp] theorem State.modPort_time (s : State) (n : Nat) (f : PortSt → PortSt) : (s.modPort n f).time = s.time := rfl
@[simp] theorem State.modPort_slc (s : State) (n : Nat) (f : PortSt → PortSt) : (s.modPort n f).slc = s.slc := rfl
@[simp] theorem State.modPort_sw (s : State) (n : Nat) (f : PortSt → PortSt) : (s.modPort n f).sw = s.sw := rfl
@[simp] theorem State.modPort_sec (s : State) (n : Nat) (f : PortSt → PortSt) : (s.modPort n f).sec = s.sec := rfl
@[simp] theorem State.modPort_rst (s : State) (n : Nat) (f : PortSt → PortSt) : (s.modPort n f).rst = s.rst := rfl
@[simp] theorem State.modPort_pwr (s : State) (n : Nat) (f : PortSt → PortSt) : (s.modPort n f).pwr = s.pwr := rfl
@[simp] theorem State.modPort_stk (s : State) (n : Nat) (f : PortSt → PortSt) : (s.modPort n f).stk = s.stk := rfl
@[simp] theorem State.modPort_hlt (s : State) (n : Nat) (f : PortSt → PortSt) : (s.modPort n f).hlt = s.hlt := rfl
@[simp] theorem State.modPort_bbx (s : State) (n : Nat) (f : PortSt → PortSt) : (s.modPort n f).bbx = s.bbx := rfl
@[simp] theorem State.modPort_toll (s : State) (n : Nat) (f : PortSt → PortSt) : (s.modPort n f).toll = s.toll := rfl

/-! `State.modTx` writes `fab` alone. -/
@[simp] theorem State.modTx_pending (s : State) (e t : Nat) (f : TxStream → TxStream) : (s.modTx e t f).pending = s.pending := rfl
@[simp] theorem State.modTx_freeIdx (s : State) (e t : Nat) (f : TxStream → TxStream) : (s.modTx e t f).freeIdx = s.freeIdx := rfl
@[simp] theorem State.modTx_out (s : State) (e t : Nat) (f : TxStream → TxStream) : (s.modTx e t f).out = s.out := rfl
@[simp] theorem State.modTx_regs (s : State) (e t : Nat) (f : TxStream → TxStream) : (s.modTx e t f).regs = s.regs := rfl
@[simp] theorem State.modTx_gen (s : State) (e t : Nat) (f : TxStream → TxStream) : (s.modTx e t f).gen = s.gen := rfl
@[simp] theorem State.modTx_tq (s : State) (e t : Nat) (f : TxStream → TxStream) : (s.modTx e t f).tq = s.tq := rfl
@[simp] theorem State.modTx_ldg (s : State) (e t : Nat) (f : TxStream → TxStream) : (s.modTx e t f).ldg = s.ldg := rfl
@[simp] theorem State.modTx_rgn (s : State) (e t : Nat) (f : TxStream → TxStream) : (s.modTx e t f).rgn = s.rgn := rfl
@[simp] theorem State.modTx_tier (s : State) (e t : Nat) (f : TxStream → TxStream) : (s.modTx e t f).tier = s.tier := rfl
@[simp] theorem State.modTx_codec (s : State) (e t : Nat) (f : TxStream → TxStream) : (s.modTx e t f).codec = s.codec := rfl
@[simp] theorem State.modTx_time (s : State) (e t : Nat) (f : TxStream → TxStream) : (s.modTx e t f).time = s.time := rfl
@[simp] theorem State.modTx_slc (s : State) (e t : Nat) (f : TxStream → TxStream) : (s.modTx e t f).slc = s.slc := rfl
@[simp] theorem State.modTx_sw (s : State) (e t : Nat) (f : TxStream → TxStream) : (s.modTx e t f).sw = s.sw := rfl
@[simp] theorem State.modTx_sec (s : State) (e t : Nat) (f : TxStream → TxStream) : (s.modTx e t f).sec = s.sec := rfl
@[simp] theorem State.modTx_rst (s : State) (e t : Nat) (f : TxStream → TxStream) : (s.modTx e t f).rst = s.rst := rfl
@[simp] theorem State.modTx_pwr (s : State) (e t : Nat) (f : TxStream → TxStream) : (s.modTx e t f).pwr = s.pwr := rfl
@[simp] theorem State.modTx_stk (s : State) (e t : Nat) (f : TxStream → TxStream) : (s.modTx e t f).stk = s.stk := rfl
@[simp] theorem State.modTx_hlt (s : State) (e t : Nat) (f : TxStream → TxStream) : (s.modTx e t f).hlt = s.hlt := rfl
@[simp] theorem State.modTx_bbx (s : State) (e t : Nat) (f : TxStream → TxStream) : (s.modTx e t f).bbx = s.bbx := rfl
@[simp] theorem State.modTx_toll (s : State) (e t : Nat) (f : TxStream → TxStream) : (s.modTx e t f).toll = s.toll := rfl

/-! `State.modRx` writes `fab` alone. -/
@[simp] theorem State.modRx_pending (s : State) (e t : Nat) (f : RxStream → RxStream) : (s.modRx e t f).pending = s.pending := rfl
@[simp] theorem State.modRx_freeIdx (s : State) (e t : Nat) (f : RxStream → RxStream) : (s.modRx e t f).freeIdx = s.freeIdx := rfl
@[simp] theorem State.modRx_out (s : State) (e t : Nat) (f : RxStream → RxStream) : (s.modRx e t f).out = s.out := rfl
@[simp] theorem State.modRx_regs (s : State) (e t : Nat) (f : RxStream → RxStream) : (s.modRx e t f).regs = s.regs := rfl
@[simp] theorem State.modRx_gen (s : State) (e t : Nat) (f : RxStream → RxStream) : (s.modRx e t f).gen = s.gen := rfl
@[simp] theorem State.modRx_tq (s : State) (e t : Nat) (f : RxStream → RxStream) : (s.modRx e t f).tq = s.tq := rfl
@[simp] theorem State.modRx_ldg (s : State) (e t : Nat) (f : RxStream → RxStream) : (s.modRx e t f).ldg = s.ldg := rfl
@[simp] theorem State.modRx_rgn (s : State) (e t : Nat) (f : RxStream → RxStream) : (s.modRx e t f).rgn = s.rgn := rfl
@[simp] theorem State.modRx_tier (s : State) (e t : Nat) (f : RxStream → RxStream) : (s.modRx e t f).tier = s.tier := rfl
@[simp] theorem State.modRx_codec (s : State) (e t : Nat) (f : RxStream → RxStream) : (s.modRx e t f).codec = s.codec := rfl
@[simp] theorem State.modRx_time (s : State) (e t : Nat) (f : RxStream → RxStream) : (s.modRx e t f).time = s.time := rfl
@[simp] theorem State.modRx_slc (s : State) (e t : Nat) (f : RxStream → RxStream) : (s.modRx e t f).slc = s.slc := rfl
@[simp] theorem State.modRx_sw (s : State) (e t : Nat) (f : RxStream → RxStream) : (s.modRx e t f).sw = s.sw := rfl
@[simp] theorem State.modRx_sec (s : State) (e t : Nat) (f : RxStream → RxStream) : (s.modRx e t f).sec = s.sec := rfl
@[simp] theorem State.modRx_rst (s : State) (e t : Nat) (f : RxStream → RxStream) : (s.modRx e t f).rst = s.rst := rfl
@[simp] theorem State.modRx_pwr (s : State) (e t : Nat) (f : RxStream → RxStream) : (s.modRx e t f).pwr = s.pwr := rfl
@[simp] theorem State.modRx_stk (s : State) (e t : Nat) (f : RxStream → RxStream) : (s.modRx e t f).stk = s.stk := rfl
@[simp] theorem State.modRx_hlt (s : State) (e t : Nat) (f : RxStream → RxStream) : (s.modRx e t f).hlt = s.hlt := rfl
@[simp] theorem State.modRx_bbx (s : State) (e t : Nat) (f : RxStream → RxStream) : (s.modRx e t f).bbx = s.bbx := rfl
@[simp] theorem State.modRx_toll (s : State) (e t : Nat) (f : RxStream → RxStream) : (s.modRx e t f).toll = s.toll := rfl

/-! `State.notePath` writes `fab` alone. -/
@[simp] theorem State.notePath_pending (s : State) (a m t n : Nat) (q : W32) : (s.notePath a m t n q).pending = s.pending := rfl
@[simp] theorem State.notePath_freeIdx (s : State) (a m t n : Nat) (q : W32) : (s.notePath a m t n q).freeIdx = s.freeIdx := rfl
@[simp] theorem State.notePath_out (s : State) (a m t n : Nat) (q : W32) : (s.notePath a m t n q).out = s.out := rfl
@[simp] theorem State.notePath_regs (s : State) (a m t n : Nat) (q : W32) : (s.notePath a m t n q).regs = s.regs := rfl
@[simp] theorem State.notePath_gen (s : State) (a m t n : Nat) (q : W32) : (s.notePath a m t n q).gen = s.gen := rfl
@[simp] theorem State.notePath_tq (s : State) (a m t n : Nat) (q : W32) : (s.notePath a m t n q).tq = s.tq := rfl
@[simp] theorem State.notePath_ldg (s : State) (a m t n : Nat) (q : W32) : (s.notePath a m t n q).ldg = s.ldg := rfl
@[simp] theorem State.notePath_rgn (s : State) (a m t n : Nat) (q : W32) : (s.notePath a m t n q).rgn = s.rgn := rfl
@[simp] theorem State.notePath_tier (s : State) (a m t n : Nat) (q : W32) : (s.notePath a m t n q).tier = s.tier := rfl
@[simp] theorem State.notePath_codec (s : State) (a m t n : Nat) (q : W32) : (s.notePath a m t n q).codec = s.codec := rfl
@[simp] theorem State.notePath_time (s : State) (a m t n : Nat) (q : W32) : (s.notePath a m t n q).time = s.time := rfl
@[simp] theorem State.notePath_slc (s : State) (a m t n : Nat) (q : W32) : (s.notePath a m t n q).slc = s.slc := rfl
@[simp] theorem State.notePath_sw (s : State) (a m t n : Nat) (q : W32) : (s.notePath a m t n q).sw = s.sw := rfl
@[simp] theorem State.notePath_sec (s : State) (a m t n : Nat) (q : W32) : (s.notePath a m t n q).sec = s.sec := rfl
@[simp] theorem State.notePath_rst (s : State) (a m t n : Nat) (q : W32) : (s.notePath a m t n q).rst = s.rst := rfl
@[simp] theorem State.notePath_pwr (s : State) (a m t n : Nat) (q : W32) : (s.notePath a m t n q).pwr = s.pwr := rfl
@[simp] theorem State.notePath_stk (s : State) (a m t n : Nat) (q : W32) : (s.notePath a m t n q).stk = s.stk := rfl
@[simp] theorem State.notePath_hlt (s : State) (a m t n : Nat) (q : W32) : (s.notePath a m t n q).hlt = s.hlt := rfl
@[simp] theorem State.notePath_bbx (s : State) (a m t n : Nat) (q : W32) : (s.notePath a m t n q).bbx = s.bbx := rfl
@[simp] theorem State.notePath_toll (s : State) (a m t n : Nat) (q : W32) : (s.notePath a m t n q).toll = s.toll := rfl

/-! `State.addWait` writes `fab` alone. -/
@[simp] theorem State.addWait_pending (s : State) (w : Wait) : (s.addWait w).pending = s.pending := rfl
@[simp] theorem State.addWait_freeIdx (s : State) (w : Wait) : (s.addWait w).freeIdx = s.freeIdx := rfl
@[simp] theorem State.addWait_out (s : State) (w : Wait) : (s.addWait w).out = s.out := rfl
@[simp] theorem State.addWait_regs (s : State) (w : Wait) : (s.addWait w).regs = s.regs := rfl
@[simp] theorem State.addWait_gen (s : State) (w : Wait) : (s.addWait w).gen = s.gen := rfl
@[simp] theorem State.addWait_tq (s : State) (w : Wait) : (s.addWait w).tq = s.tq := rfl
@[simp] theorem State.addWait_ldg (s : State) (w : Wait) : (s.addWait w).ldg = s.ldg := rfl
@[simp] theorem State.addWait_rgn (s : State) (w : Wait) : (s.addWait w).rgn = s.rgn := rfl
@[simp] theorem State.addWait_tier (s : State) (w : Wait) : (s.addWait w).tier = s.tier := rfl
@[simp] theorem State.addWait_codec (s : State) (w : Wait) : (s.addWait w).codec = s.codec := rfl
@[simp] theorem State.addWait_time (s : State) (w : Wait) : (s.addWait w).time = s.time := rfl
@[simp] theorem State.addWait_slc (s : State) (w : Wait) : (s.addWait w).slc = s.slc := rfl
@[simp] theorem State.addWait_sw (s : State) (w : Wait) : (s.addWait w).sw = s.sw := rfl
@[simp] theorem State.addWait_sec (s : State) (w : Wait) : (s.addWait w).sec = s.sec := rfl
@[simp] theorem State.addWait_rst (s : State) (w : Wait) : (s.addWait w).rst = s.rst := rfl
@[simp] theorem State.addWait_pwr (s : State) (w : Wait) : (s.addWait w).pwr = s.pwr := rfl
@[simp] theorem State.addWait_stk (s : State) (w : Wait) : (s.addWait w).stk = s.stk := rfl
@[simp] theorem State.addWait_hlt (s : State) (w : Wait) : (s.addWait w).hlt = s.hlt := rfl
@[simp] theorem State.addWait_bbx (s : State) (w : Wait) : (s.addWait w).bbx = s.bbx := rfl
@[simp] theorem State.addWait_toll (s : State) (w : Wait) : (s.addWait w).toll = s.toll := rfl

/-! `State.dropWait` writes `fab` alone. -/
@[simp] theorem State.dropWait_pending (s : State) (w : Wait) : (s.dropWait w).pending = s.pending := rfl
@[simp] theorem State.dropWait_freeIdx (s : State) (w : Wait) : (s.dropWait w).freeIdx = s.freeIdx := rfl
@[simp] theorem State.dropWait_out (s : State) (w : Wait) : (s.dropWait w).out = s.out := rfl
@[simp] theorem State.dropWait_regs (s : State) (w : Wait) : (s.dropWait w).regs = s.regs := rfl
@[simp] theorem State.dropWait_gen (s : State) (w : Wait) : (s.dropWait w).gen = s.gen := rfl
@[simp] theorem State.dropWait_tq (s : State) (w : Wait) : (s.dropWait w).tq = s.tq := rfl
@[simp] theorem State.dropWait_ldg (s : State) (w : Wait) : (s.dropWait w).ldg = s.ldg := rfl
@[simp] theorem State.dropWait_rgn (s : State) (w : Wait) : (s.dropWait w).rgn = s.rgn := rfl
@[simp] theorem State.dropWait_tier (s : State) (w : Wait) : (s.dropWait w).tier = s.tier := rfl
@[simp] theorem State.dropWait_codec (s : State) (w : Wait) : (s.dropWait w).codec = s.codec := rfl
@[simp] theorem State.dropWait_time (s : State) (w : Wait) : (s.dropWait w).time = s.time := rfl
@[simp] theorem State.dropWait_slc (s : State) (w : Wait) : (s.dropWait w).slc = s.slc := rfl
@[simp] theorem State.dropWait_sw (s : State) (w : Wait) : (s.dropWait w).sw = s.sw := rfl
@[simp] theorem State.dropWait_sec (s : State) (w : Wait) : (s.dropWait w).sec = s.sec := rfl
@[simp] theorem State.dropWait_rst (s : State) (w : Wait) : (s.dropWait w).rst = s.rst := rfl
@[simp] theorem State.dropWait_pwr (s : State) (w : Wait) : (s.dropWait w).pwr = s.pwr := rfl
@[simp] theorem State.dropWait_stk (s : State) (w : Wait) : (s.dropWait w).stk = s.stk := rfl
@[simp] theorem State.dropWait_hlt (s : State) (w : Wait) : (s.dropWait w).hlt = s.hlt := rfl
@[simp] theorem State.dropWait_bbx (s : State) (w : Wait) : (s.dropWait w).bbx = s.bbx := rfl
@[simp] theorem State.dropWait_toll (s : State) (w : Wait) : (s.dropWait w).toll = s.toll := rfl

/-! `State.modQueue` writes `sw` alone. -/
@[simp] theorem State.modQueue_pending (s : State) (k : Nat) (f : SQueue → SQueue) : (s.modQueue k f).pending = s.pending := rfl
@[simp] theorem State.modQueue_freeIdx (s : State) (k : Nat) (f : SQueue → SQueue) : (s.modQueue k f).freeIdx = s.freeIdx := rfl
@[simp] theorem State.modQueue_out (s : State) (k : Nat) (f : SQueue → SQueue) : (s.modQueue k f).out = s.out := rfl
@[simp] theorem State.modQueue_regs (s : State) (k : Nat) (f : SQueue → SQueue) : (s.modQueue k f).regs = s.regs := rfl
@[simp] theorem State.modQueue_gen (s : State) (k : Nat) (f : SQueue → SQueue) : (s.modQueue k f).gen = s.gen := rfl
@[simp] theorem State.modQueue_tq (s : State) (k : Nat) (f : SQueue → SQueue) : (s.modQueue k f).tq = s.tq := rfl
@[simp] theorem State.modQueue_ldg (s : State) (k : Nat) (f : SQueue → SQueue) : (s.modQueue k f).ldg = s.ldg := rfl
@[simp] theorem State.modQueue_rgn (s : State) (k : Nat) (f : SQueue → SQueue) : (s.modQueue k f).rgn = s.rgn := rfl
@[simp] theorem State.modQueue_tier (s : State) (k : Nat) (f : SQueue → SQueue) : (s.modQueue k f).tier = s.tier := rfl
@[simp] theorem State.modQueue_codec (s : State) (k : Nat) (f : SQueue → SQueue) : (s.modQueue k f).codec = s.codec := rfl
@[simp] theorem State.modQueue_time (s : State) (k : Nat) (f : SQueue → SQueue) : (s.modQueue k f).time = s.time := rfl
@[simp] theorem State.modQueue_slc (s : State) (k : Nat) (f : SQueue → SQueue) : (s.modQueue k f).slc = s.slc := rfl
@[simp] theorem State.modQueue_fab (s : State) (k : Nat) (f : SQueue → SQueue) : (s.modQueue k f).fab = s.fab := rfl
@[simp] theorem State.modQueue_sec (s : State) (k : Nat) (f : SQueue → SQueue) : (s.modQueue k f).sec = s.sec := rfl
@[simp] theorem State.modQueue_rst (s : State) (k : Nat) (f : SQueue → SQueue) : (s.modQueue k f).rst = s.rst := rfl
@[simp] theorem State.modQueue_pwr (s : State) (k : Nat) (f : SQueue → SQueue) : (s.modQueue k f).pwr = s.pwr := rfl
@[simp] theorem State.modQueue_stk (s : State) (k : Nat) (f : SQueue → SQueue) : (s.modQueue k f).stk = s.stk := rfl
@[simp] theorem State.modQueue_hlt (s : State) (k : Nat) (f : SQueue → SQueue) : (s.modQueue k f).hlt = s.hlt := rfl
@[simp] theorem State.modQueue_bbx (s : State) (k : Nat) (f : SQueue → SQueue) : (s.modQueue k f).bbx = s.bbx := rfl
@[simp] theorem State.modQueue_toll (s : State) (k : Nat) (f : SQueue → SQueue) : (s.modQueue k f).toll = s.toll := rfl

/-! `State.modReseq` writes `sw` alone. -/
@[simp] theorem State.modReseq_pending (s : State) (k : Nat) (f : Reseq → Reseq) : (s.modReseq k f).pending = s.pending := rfl
@[simp] theorem State.modReseq_freeIdx (s : State) (k : Nat) (f : Reseq → Reseq) : (s.modReseq k f).freeIdx = s.freeIdx := rfl
@[simp] theorem State.modReseq_out (s : State) (k : Nat) (f : Reseq → Reseq) : (s.modReseq k f).out = s.out := rfl
@[simp] theorem State.modReseq_regs (s : State) (k : Nat) (f : Reseq → Reseq) : (s.modReseq k f).regs = s.regs := rfl
@[simp] theorem State.modReseq_gen (s : State) (k : Nat) (f : Reseq → Reseq) : (s.modReseq k f).gen = s.gen := rfl
@[simp] theorem State.modReseq_tq (s : State) (k : Nat) (f : Reseq → Reseq) : (s.modReseq k f).tq = s.tq := rfl
@[simp] theorem State.modReseq_ldg (s : State) (k : Nat) (f : Reseq → Reseq) : (s.modReseq k f).ldg = s.ldg := rfl
@[simp] theorem State.modReseq_rgn (s : State) (k : Nat) (f : Reseq → Reseq) : (s.modReseq k f).rgn = s.rgn := rfl
@[simp] theorem State.modReseq_tier (s : State) (k : Nat) (f : Reseq → Reseq) : (s.modReseq k f).tier = s.tier := rfl
@[simp] theorem State.modReseq_codec (s : State) (k : Nat) (f : Reseq → Reseq) : (s.modReseq k f).codec = s.codec := rfl
@[simp] theorem State.modReseq_time (s : State) (k : Nat) (f : Reseq → Reseq) : (s.modReseq k f).time = s.time := rfl
@[simp] theorem State.modReseq_slc (s : State) (k : Nat) (f : Reseq → Reseq) : (s.modReseq k f).slc = s.slc := rfl
@[simp] theorem State.modReseq_fab (s : State) (k : Nat) (f : Reseq → Reseq) : (s.modReseq k f).fab = s.fab := rfl
@[simp] theorem State.modReseq_sec (s : State) (k : Nat) (f : Reseq → Reseq) : (s.modReseq k f).sec = s.sec := rfl
@[simp] theorem State.modReseq_rst (s : State) (k : Nat) (f : Reseq → Reseq) : (s.modReseq k f).rst = s.rst := rfl
@[simp] theorem State.modReseq_pwr (s : State) (k : Nat) (f : Reseq → Reseq) : (s.modReseq k f).pwr = s.pwr := rfl
@[simp] theorem State.modReseq_stk (s : State) (k : Nat) (f : Reseq → Reseq) : (s.modReseq k f).stk = s.stk := rfl
@[simp] theorem State.modReseq_hlt (s : State) (k : Nat) (f : Reseq → Reseq) : (s.modReseq k f).hlt = s.hlt := rfl
@[simp] theorem State.modReseq_bbx (s : State) (k : Nat) (f : Reseq → Reseq) : (s.modReseq k f).bbx = s.bbx := rfl
@[simp] theorem State.modReseq_toll (s : State) (k : Nat) (f : Reseq → Reseq) : (s.modReseq k f).toll = s.toll := rfl

/-! `State.modSpdm` writes `sec` alone. -/
@[simp] theorem State.modSpdm_pending (s : State) (v : SpdmPath) (f : SpdmSt → SpdmSt) : (s.modSpdm v f).pending = s.pending := rfl
@[simp] theorem State.modSpdm_freeIdx (s : State) (v : SpdmPath) (f : SpdmSt → SpdmSt) : (s.modSpdm v f).freeIdx = s.freeIdx := rfl
@[simp] theorem State.modSpdm_out (s : State) (v : SpdmPath) (f : SpdmSt → SpdmSt) : (s.modSpdm v f).out = s.out := rfl
@[simp] theorem State.modSpdm_regs (s : State) (v : SpdmPath) (f : SpdmSt → SpdmSt) : (s.modSpdm v f).regs = s.regs := rfl
@[simp] theorem State.modSpdm_gen (s : State) (v : SpdmPath) (f : SpdmSt → SpdmSt) : (s.modSpdm v f).gen = s.gen := rfl
@[simp] theorem State.modSpdm_tq (s : State) (v : SpdmPath) (f : SpdmSt → SpdmSt) : (s.modSpdm v f).tq = s.tq := rfl
@[simp] theorem State.modSpdm_ldg (s : State) (v : SpdmPath) (f : SpdmSt → SpdmSt) : (s.modSpdm v f).ldg = s.ldg := rfl
@[simp] theorem State.modSpdm_rgn (s : State) (v : SpdmPath) (f : SpdmSt → SpdmSt) : (s.modSpdm v f).rgn = s.rgn := rfl
@[simp] theorem State.modSpdm_tier (s : State) (v : SpdmPath) (f : SpdmSt → SpdmSt) : (s.modSpdm v f).tier = s.tier := rfl
@[simp] theorem State.modSpdm_codec (s : State) (v : SpdmPath) (f : SpdmSt → SpdmSt) : (s.modSpdm v f).codec = s.codec := rfl
@[simp] theorem State.modSpdm_time (s : State) (v : SpdmPath) (f : SpdmSt → SpdmSt) : (s.modSpdm v f).time = s.time := rfl
@[simp] theorem State.modSpdm_slc (s : State) (v : SpdmPath) (f : SpdmSt → SpdmSt) : (s.modSpdm v f).slc = s.slc := rfl
@[simp] theorem State.modSpdm_fab (s : State) (v : SpdmPath) (f : SpdmSt → SpdmSt) : (s.modSpdm v f).fab = s.fab := rfl
@[simp] theorem State.modSpdm_sw (s : State) (v : SpdmPath) (f : SpdmSt → SpdmSt) : (s.modSpdm v f).sw = s.sw := rfl
@[simp] theorem State.modSpdm_rst (s : State) (v : SpdmPath) (f : SpdmSt → SpdmSt) : (s.modSpdm v f).rst = s.rst := rfl
@[simp] theorem State.modSpdm_pwr (s : State) (v : SpdmPath) (f : SpdmSt → SpdmSt) : (s.modSpdm v f).pwr = s.pwr := rfl
@[simp] theorem State.modSpdm_stk (s : State) (v : SpdmPath) (f : SpdmSt → SpdmSt) : (s.modSpdm v f).stk = s.stk := rfl
@[simp] theorem State.modSpdm_hlt (s : State) (v : SpdmPath) (f : SpdmSt → SpdmSt) : (s.modSpdm v f).hlt = s.hlt := rfl
@[simp] theorem State.modSpdm_bbx (s : State) (v : SpdmPath) (f : SpdmSt → SpdmSt) : (s.modSpdm v f).bbx = s.bbx := rfl
@[simp] theorem State.modSpdm_toll (s : State) (v : SpdmPath) (f : SpdmSt → SpdmSt) : (s.modSpdm v f).toll = s.toll := rfl

/-! `State.dropLinkKeys` writes `sec` alone. -/
@[simp] theorem State.dropLinkKeys_pending (s : State) (n : Nat) : (s.dropLinkKeys n).pending = s.pending := rfl
@[simp] theorem State.dropLinkKeys_freeIdx (s : State) (n : Nat) : (s.dropLinkKeys n).freeIdx = s.freeIdx := rfl
@[simp] theorem State.dropLinkKeys_out (s : State) (n : Nat) : (s.dropLinkKeys n).out = s.out := rfl
@[simp] theorem State.dropLinkKeys_regs (s : State) (n : Nat) : (s.dropLinkKeys n).regs = s.regs := rfl
@[simp] theorem State.dropLinkKeys_gen (s : State) (n : Nat) : (s.dropLinkKeys n).gen = s.gen := rfl
@[simp] theorem State.dropLinkKeys_tq (s : State) (n : Nat) : (s.dropLinkKeys n).tq = s.tq := rfl
@[simp] theorem State.dropLinkKeys_ldg (s : State) (n : Nat) : (s.dropLinkKeys n).ldg = s.ldg := rfl
@[simp] theorem State.dropLinkKeys_rgn (s : State) (n : Nat) : (s.dropLinkKeys n).rgn = s.rgn := rfl
@[simp] theorem State.dropLinkKeys_tier (s : State) (n : Nat) : (s.dropLinkKeys n).tier = s.tier := rfl
@[simp] theorem State.dropLinkKeys_codec (s : State) (n : Nat) : (s.dropLinkKeys n).codec = s.codec := rfl
@[simp] theorem State.dropLinkKeys_time (s : State) (n : Nat) : (s.dropLinkKeys n).time = s.time := rfl
@[simp] theorem State.dropLinkKeys_slc (s : State) (n : Nat) : (s.dropLinkKeys n).slc = s.slc := rfl
@[simp] theorem State.dropLinkKeys_fab (s : State) (n : Nat) : (s.dropLinkKeys n).fab = s.fab := rfl
@[simp] theorem State.dropLinkKeys_sw (s : State) (n : Nat) : (s.dropLinkKeys n).sw = s.sw := rfl
@[simp] theorem State.dropLinkKeys_rst (s : State) (n : Nat) : (s.dropLinkKeys n).rst = s.rst := rfl
@[simp] theorem State.dropLinkKeys_pwr (s : State) (n : Nat) : (s.dropLinkKeys n).pwr = s.pwr := rfl
@[simp] theorem State.dropLinkKeys_stk (s : State) (n : Nat) : (s.dropLinkKeys n).stk = s.stk := rfl
@[simp] theorem State.dropLinkKeys_hlt (s : State) (n : Nat) : (s.dropLinkKeys n).hlt = s.hlt := rfl
@[simp] theorem State.dropLinkKeys_bbx (s : State) (n : Nat) : (s.dropLinkKeys n).bbx = s.bbx := rfl
@[simp] theorem State.dropLinkKeys_toll (s : State) (n : Nat) : (s.dropLinkKeys n).toll = s.toll := rfl

/-! `State.unblockStack` writes `rst` alone. -/
@[simp] theorem State.unblockStack_pending (s : State) (n : Nat) : (s.unblockStack n).pending = s.pending := rfl
@[simp] theorem State.unblockStack_freeIdx (s : State) (n : Nat) : (s.unblockStack n).freeIdx = s.freeIdx := rfl
@[simp] theorem State.unblockStack_out (s : State) (n : Nat) : (s.unblockStack n).out = s.out := rfl
@[simp] theorem State.unblockStack_regs (s : State) (n : Nat) : (s.unblockStack n).regs = s.regs := rfl
@[simp] theorem State.unblockStack_gen (s : State) (n : Nat) : (s.unblockStack n).gen = s.gen := rfl
@[simp] theorem State.unblockStack_tq (s : State) (n : Nat) : (s.unblockStack n).tq = s.tq := rfl
@[simp] theorem State.unblockStack_ldg (s : State) (n : Nat) : (s.unblockStack n).ldg = s.ldg := rfl
@[simp] theorem State.unblockStack_rgn (s : State) (n : Nat) : (s.unblockStack n).rgn = s.rgn := rfl
@[simp] theorem State.unblockStack_tier (s : State) (n : Nat) : (s.unblockStack n).tier = s.tier := rfl
@[simp] theorem State.unblockStack_codec (s : State) (n : Nat) : (s.unblockStack n).codec = s.codec := rfl
@[simp] theorem State.unblockStack_time (s : State) (n : Nat) : (s.unblockStack n).time = s.time := rfl
@[simp] theorem State.unblockStack_slc (s : State) (n : Nat) : (s.unblockStack n).slc = s.slc := rfl
@[simp] theorem State.unblockStack_fab (s : State) (n : Nat) : (s.unblockStack n).fab = s.fab := rfl
@[simp] theorem State.unblockStack_sw (s : State) (n : Nat) : (s.unblockStack n).sw = s.sw := rfl
@[simp] theorem State.unblockStack_sec (s : State) (n : Nat) : (s.unblockStack n).sec = s.sec := rfl
@[simp] theorem State.unblockStack_pwr (s : State) (n : Nat) : (s.unblockStack n).pwr = s.pwr := rfl
@[simp] theorem State.unblockStack_stk (s : State) (n : Nat) : (s.unblockStack n).stk = s.stk := rfl
@[simp] theorem State.unblockStack_hlt (s : State) (n : Nat) : (s.unblockStack n).hlt = s.hlt := rfl
@[simp] theorem State.unblockStack_bbx (s : State) (n : Nat) : (s.unblockStack n).bbx = s.bbx := rfl
@[simp] theorem State.unblockStack_toll (s : State) (n : Nat) : (s.unblockStack n).toll = s.toll := rfl

/-! `State.setScore` writes `hlt` alone. -/
@[simp] theorem State.setScore_pending (s : State) (c i : Nat) (x : Score) : (s.setScore c i x).pending = s.pending := rfl
@[simp] theorem State.setScore_freeIdx (s : State) (c i : Nat) (x : Score) : (s.setScore c i x).freeIdx = s.freeIdx := rfl
@[simp] theorem State.setScore_out (s : State) (c i : Nat) (x : Score) : (s.setScore c i x).out = s.out := rfl
@[simp] theorem State.setScore_regs (s : State) (c i : Nat) (x : Score) : (s.setScore c i x).regs = s.regs := rfl
@[simp] theorem State.setScore_gen (s : State) (c i : Nat) (x : Score) : (s.setScore c i x).gen = s.gen := rfl
@[simp] theorem State.setScore_tq (s : State) (c i : Nat) (x : Score) : (s.setScore c i x).tq = s.tq := rfl
@[simp] theorem State.setScore_ldg (s : State) (c i : Nat) (x : Score) : (s.setScore c i x).ldg = s.ldg := rfl
@[simp] theorem State.setScore_rgn (s : State) (c i : Nat) (x : Score) : (s.setScore c i x).rgn = s.rgn := rfl
@[simp] theorem State.setScore_tier (s : State) (c i : Nat) (x : Score) : (s.setScore c i x).tier = s.tier := rfl
@[simp] theorem State.setScore_codec (s : State) (c i : Nat) (x : Score) : (s.setScore c i x).codec = s.codec := rfl
@[simp] theorem State.setScore_time (s : State) (c i : Nat) (x : Score) : (s.setScore c i x).time = s.time := rfl
@[simp] theorem State.setScore_slc (s : State) (c i : Nat) (x : Score) : (s.setScore c i x).slc = s.slc := rfl
@[simp] theorem State.setScore_fab (s : State) (c i : Nat) (x : Score) : (s.setScore c i x).fab = s.fab := rfl
@[simp] theorem State.setScore_sw (s : State) (c i : Nat) (x : Score) : (s.setScore c i x).sw = s.sw := rfl
@[simp] theorem State.setScore_sec (s : State) (c i : Nat) (x : Score) : (s.setScore c i x).sec = s.sec := rfl
@[simp] theorem State.setScore_rst (s : State) (c i : Nat) (x : Score) : (s.setScore c i x).rst = s.rst := rfl
@[simp] theorem State.setScore_pwr (s : State) (c i : Nat) (x : Score) : (s.setScore c i x).pwr = s.pwr := rfl
@[simp] theorem State.setScore_stk (s : State) (c i : Nat) (x : Score) : (s.setScore c i x).stk = s.stk := rfl
@[simp] theorem State.setScore_bbx (s : State) (c i : Nat) (x : Score) : (s.setScore c i x).bbx = s.bbx := rfl
@[simp] theorem State.setScore_toll (s : State) (c i : Nat) (x : Score) : (s.setScore c i x).toll = s.toll := rfl

/-! `State.tollBytes` writes `toll` alone. -/
@[simp] theorem State.tollBytes_pending (s : State) (t n : Nat) : (s.tollBytes t n).pending = s.pending := rfl
@[simp] theorem State.tollBytes_freeIdx (s : State) (t n : Nat) : (s.tollBytes t n).freeIdx = s.freeIdx := rfl
@[simp] theorem State.tollBytes_out (s : State) (t n : Nat) : (s.tollBytes t n).out = s.out := rfl
@[simp] theorem State.tollBytes_regs (s : State) (t n : Nat) : (s.tollBytes t n).regs = s.regs := rfl
@[simp] theorem State.tollBytes_gen (s : State) (t n : Nat) : (s.tollBytes t n).gen = s.gen := rfl
@[simp] theorem State.tollBytes_tq (s : State) (t n : Nat) : (s.tollBytes t n).tq = s.tq := rfl
@[simp] theorem State.tollBytes_ldg (s : State) (t n : Nat) : (s.tollBytes t n).ldg = s.ldg := rfl
@[simp] theorem State.tollBytes_rgn (s : State) (t n : Nat) : (s.tollBytes t n).rgn = s.rgn := rfl
@[simp] theorem State.tollBytes_tier (s : State) (t n : Nat) : (s.tollBytes t n).tier = s.tier := rfl
@[simp] theorem State.tollBytes_codec (s : State) (t n : Nat) : (s.tollBytes t n).codec = s.codec := rfl
@[simp] theorem State.tollBytes_time (s : State) (t n : Nat) : (s.tollBytes t n).time = s.time := rfl
@[simp] theorem State.tollBytes_slc (s : State) (t n : Nat) : (s.tollBytes t n).slc = s.slc := rfl
@[simp] theorem State.tollBytes_fab (s : State) (t n : Nat) : (s.tollBytes t n).fab = s.fab := rfl
@[simp] theorem State.tollBytes_sw (s : State) (t n : Nat) : (s.tollBytes t n).sw = s.sw := rfl
@[simp] theorem State.tollBytes_sec (s : State) (t n : Nat) : (s.tollBytes t n).sec = s.sec := rfl
@[simp] theorem State.tollBytes_rst (s : State) (t n : Nat) : (s.tollBytes t n).rst = s.rst := rfl
@[simp] theorem State.tollBytes_pwr (s : State) (t n : Nat) : (s.tollBytes t n).pwr = s.pwr := rfl
@[simp] theorem State.tollBytes_stk (s : State) (t n : Nat) : (s.tollBytes t n).stk = s.stk := rfl
@[simp] theorem State.tollBytes_hlt (s : State) (t n : Nat) : (s.tollBytes t n).hlt = s.hlt := rfl
@[simp] theorem State.tollBytes_bbx (s : State) (t n : Nat) : (s.tollBytes t n).bbx = s.bbx := rfl

/-! `State.tollCycles` writes `toll` alone. -/
@[simp] theorem State.tollCycles_pending (s : State) (t n : Nat) : (s.tollCycles t n).pending = s.pending := rfl
@[simp] theorem State.tollCycles_freeIdx (s : State) (t n : Nat) : (s.tollCycles t n).freeIdx = s.freeIdx := rfl
@[simp] theorem State.tollCycles_out (s : State) (t n : Nat) : (s.tollCycles t n).out = s.out := rfl
@[simp] theorem State.tollCycles_regs (s : State) (t n : Nat) : (s.tollCycles t n).regs = s.regs := rfl
@[simp] theorem State.tollCycles_gen (s : State) (t n : Nat) : (s.tollCycles t n).gen = s.gen := rfl
@[simp] theorem State.tollCycles_tq (s : State) (t n : Nat) : (s.tollCycles t n).tq = s.tq := rfl
@[simp] theorem State.tollCycles_ldg (s : State) (t n : Nat) : (s.tollCycles t n).ldg = s.ldg := rfl
@[simp] theorem State.tollCycles_rgn (s : State) (t n : Nat) : (s.tollCycles t n).rgn = s.rgn := rfl
@[simp] theorem State.tollCycles_tier (s : State) (t n : Nat) : (s.tollCycles t n).tier = s.tier := rfl
@[simp] theorem State.tollCycles_codec (s : State) (t n : Nat) : (s.tollCycles t n).codec = s.codec := rfl
@[simp] theorem State.tollCycles_time (s : State) (t n : Nat) : (s.tollCycles t n).time = s.time := rfl
@[simp] theorem State.tollCycles_slc (s : State) (t n : Nat) : (s.tollCycles t n).slc = s.slc := rfl
@[simp] theorem State.tollCycles_fab (s : State) (t n : Nat) : (s.tollCycles t n).fab = s.fab := rfl
@[simp] theorem State.tollCycles_sw (s : State) (t n : Nat) : (s.tollCycles t n).sw = s.sw := rfl
@[simp] theorem State.tollCycles_sec (s : State) (t n : Nat) : (s.tollCycles t n).sec = s.sec := rfl
@[simp] theorem State.tollCycles_rst (s : State) (t n : Nat) : (s.tollCycles t n).rst = s.rst := rfl
@[simp] theorem State.tollCycles_pwr (s : State) (t n : Nat) : (s.tollCycles t n).pwr = s.pwr := rfl
@[simp] theorem State.tollCycles_stk (s : State) (t n : Nat) : (s.tollCycles t n).stk = s.stk := rfl
@[simp] theorem State.tollCycles_hlt (s : State) (t n : Nat) : (s.tollCycles t n).hlt = s.hlt := rfl
@[simp] theorem State.tollCycles_bbx (s : State) (t n : Nat) : (s.tollCycles t n).bbx = s.bbx := rfl

@[simp] theorem State.emit_out (s : State) (o : Out) : (s.emit o).out = s.out ++ [o] := rfl
@[simp] theorem State.emits_out (s : State) (l : List Out) : (s.emits l).out = s.out ++ l := rfl
@[simp] theorem State.tickFree_freeIdx (s : State) : s.tickFree.freeIdx = s.freeIdx + 1 := rfl
@[simp] theorem State.when_true (s : State) (f : State → State) : s.when true f = f s := rfl
@[simp] theorem State.when_false (s : State) (f : State → State) : s.when false f = s := rfl

/-! `State.bar2Note` writes `fab` alone. -/
@[simp] theorem State.bar2Note_pending (s : State) (port w st d : Nat) : (s.bar2Note port w st d).pending = s.pending := rfl
@[simp] theorem State.bar2Note_freeIdx (s : State) (port w st d : Nat) : (s.bar2Note port w st d).freeIdx = s.freeIdx := rfl
@[simp] theorem State.bar2Note_regs (s : State) (port w st d : Nat) : (s.bar2Note port w st d).regs = s.regs := rfl
@[simp] theorem State.bar2Note_gen (s : State) (port w st d : Nat) : (s.bar2Note port w st d).gen = s.gen := rfl
@[simp] theorem State.bar2Note_tq (s : State) (port w st d : Nat) : (s.bar2Note port w st d).tq = s.tq := rfl
@[simp] theorem State.bar2Note_ldg (s : State) (port w st d : Nat) : (s.bar2Note port w st d).ldg = s.ldg := rfl
@[simp] theorem State.bar2Note_rgn (s : State) (port w st d : Nat) : (s.bar2Note port w st d).rgn = s.rgn := rfl
@[simp] theorem State.bar2Note_tier (s : State) (port w st d : Nat) : (s.bar2Note port w st d).tier = s.tier := rfl
@[simp] theorem State.bar2Note_codec (s : State) (port w st d : Nat) : (s.bar2Note port w st d).codec = s.codec := rfl
@[simp] theorem State.bar2Note_time (s : State) (port w st d : Nat) : (s.bar2Note port w st d).time = s.time := rfl
@[simp] theorem State.bar2Note_slc (s : State) (port w st d : Nat) : (s.bar2Note port w st d).slc = s.slc := rfl
@[simp] theorem State.bar2Note_sw (s : State) (port w st d : Nat) : (s.bar2Note port w st d).sw = s.sw := rfl
@[simp] theorem State.bar2Note_sec (s : State) (port w st d : Nat) : (s.bar2Note port w st d).sec = s.sec := rfl
@[simp] theorem State.bar2Note_rst (s : State) (port w st d : Nat) : (s.bar2Note port w st d).rst = s.rst := rfl
@[simp] theorem State.bar2Note_pwr (s : State) (port w st d : Nat) : (s.bar2Note port w st d).pwr = s.pwr := rfl
@[simp] theorem State.bar2Note_stk (s : State) (port w st d : Nat) : (s.bar2Note port w st d).stk = s.stk := rfl
@[simp] theorem State.bar2Note_hlt (s : State) (port w st d : Nat) : (s.bar2Note port w st d).hlt = s.hlt := rfl
@[simp] theorem State.bar2Note_bbx (s : State) (port w st d : Nat) : (s.bar2Note port w st d).bbx = s.bbx := rfl
@[simp] theorem State.bar2Note_toll (s : State) (port w st d : Nat) : (s.bar2Note port w st d).toll = s.toll := rfl
@[simp] theorem State.bar2Note_out (s : State) (port w st d : Nat) : (s.bar2Note port w st d).out = s.out := rfl

/-! `State.bar2Attach` writes `fab` alone. -/
@[simp] theorem State.bar2Attach_pending (s : State) (n w v st d : Nat) : (s.bar2Attach n w v st d).pending = s.pending := rfl
@[simp] theorem State.bar2Attach_freeIdx (s : State) (n w v st d : Nat) : (s.bar2Attach n w v st d).freeIdx = s.freeIdx := rfl
@[simp] theorem State.bar2Attach_regs (s : State) (n w v st d : Nat) : (s.bar2Attach n w v st d).regs = s.regs := rfl
@[simp] theorem State.bar2Attach_gen (s : State) (n w v st d : Nat) : (s.bar2Attach n w v st d).gen = s.gen := rfl
@[simp] theorem State.bar2Attach_tq (s : State) (n w v st d : Nat) : (s.bar2Attach n w v st d).tq = s.tq := rfl
@[simp] theorem State.bar2Attach_ldg (s : State) (n w v st d : Nat) : (s.bar2Attach n w v st d).ldg = s.ldg := rfl
@[simp] theorem State.bar2Attach_rgn (s : State) (n w v st d : Nat) : (s.bar2Attach n w v st d).rgn = s.rgn := rfl
@[simp] theorem State.bar2Attach_tier (s : State) (n w v st d : Nat) : (s.bar2Attach n w v st d).tier = s.tier := rfl
@[simp] theorem State.bar2Attach_codec (s : State) (n w v st d : Nat) : (s.bar2Attach n w v st d).codec = s.codec := rfl
@[simp] theorem State.bar2Attach_time (s : State) (n w v st d : Nat) : (s.bar2Attach n w v st d).time = s.time := rfl
@[simp] theorem State.bar2Attach_slc (s : State) (n w v st d : Nat) : (s.bar2Attach n w v st d).slc = s.slc := rfl
@[simp] theorem State.bar2Attach_sw (s : State) (n w v st d : Nat) : (s.bar2Attach n w v st d).sw = s.sw := rfl
@[simp] theorem State.bar2Attach_sec (s : State) (n w v st d : Nat) : (s.bar2Attach n w v st d).sec = s.sec := rfl
@[simp] theorem State.bar2Attach_rst (s : State) (n w v st d : Nat) : (s.bar2Attach n w v st d).rst = s.rst := rfl
@[simp] theorem State.bar2Attach_pwr (s : State) (n w v st d : Nat) : (s.bar2Attach n w v st d).pwr = s.pwr := rfl
@[simp] theorem State.bar2Attach_stk (s : State) (n w v st d : Nat) : (s.bar2Attach n w v st d).stk = s.stk := rfl
@[simp] theorem State.bar2Attach_hlt (s : State) (n w v st d : Nat) : (s.bar2Attach n w v st d).hlt = s.hlt := rfl
@[simp] theorem State.bar2Attach_bbx (s : State) (n w v st d : Nat) : (s.bar2Attach n w v st d).bbx = s.bbx := rfl
@[simp] theorem State.bar2Attach_toll (s : State) (n w v st d : Nat) : (s.bar2Attach n w v st d).toll = s.toll := rfl
@[simp] theorem State.bar2Attach_out (s : State) (n w v st d : Nat) : (s.bar2Attach n w v st d).out = s.out := rfl

/-! `State.dropWindow` writes `fab` alone. -/
@[simp] theorem State.dropWindow_pending (s : State) (ep w : Nat) : (s.dropWindow ep w).pending = s.pending := rfl
@[simp] theorem State.dropWindow_freeIdx (s : State) (ep w : Nat) : (s.dropWindow ep w).freeIdx = s.freeIdx := rfl
@[simp] theorem State.dropWindow_regs (s : State) (ep w : Nat) : (s.dropWindow ep w).regs = s.regs := rfl
@[simp] theorem State.dropWindow_gen (s : State) (ep w : Nat) : (s.dropWindow ep w).gen = s.gen := rfl
@[simp] theorem State.dropWindow_tq (s : State) (ep w : Nat) : (s.dropWindow ep w).tq = s.tq := rfl
@[simp] theorem State.dropWindow_ldg (s : State) (ep w : Nat) : (s.dropWindow ep w).ldg = s.ldg := rfl
@[simp] theorem State.dropWindow_rgn (s : State) (ep w : Nat) : (s.dropWindow ep w).rgn = s.rgn := rfl
@[simp] theorem State.dropWindow_tier (s : State) (ep w : Nat) : (s.dropWindow ep w).tier = s.tier := rfl
@[simp] theorem State.dropWindow_codec (s : State) (ep w : Nat) : (s.dropWindow ep w).codec = s.codec := rfl
@[simp] theorem State.dropWindow_time (s : State) (ep w : Nat) : (s.dropWindow ep w).time = s.time := rfl
@[simp] theorem State.dropWindow_slc (s : State) (ep w : Nat) : (s.dropWindow ep w).slc = s.slc := rfl
@[simp] theorem State.dropWindow_sw (s : State) (ep w : Nat) : (s.dropWindow ep w).sw = s.sw := rfl
@[simp] theorem State.dropWindow_sec (s : State) (ep w : Nat) : (s.dropWindow ep w).sec = s.sec := rfl
@[simp] theorem State.dropWindow_rst (s : State) (ep w : Nat) : (s.dropWindow ep w).rst = s.rst := rfl
@[simp] theorem State.dropWindow_pwr (s : State) (ep w : Nat) : (s.dropWindow ep w).pwr = s.pwr := rfl
@[simp] theorem State.dropWindow_stk (s : State) (ep w : Nat) : (s.dropWindow ep w).stk = s.stk := rfl
@[simp] theorem State.dropWindow_hlt (s : State) (ep w : Nat) : (s.dropWindow ep w).hlt = s.hlt := rfl
@[simp] theorem State.dropWindow_bbx (s : State) (ep w : Nat) : (s.dropWindow ep w).bbx = s.bbx := rfl
@[simp] theorem State.dropWindow_toll (s : State) (ep w : Nat) : (s.dropWindow ep w).toll = s.toll := rfl
@[simp] theorem State.dropWindow_out (s : State) (ep w : Nat) : (s.dropWindow ep w).out = s.out := rfl

/-! `State.holdLater` writes `fab` alone. -/
@[simp] theorem State.holdLater_pending (s : State) (q : RxReq) : (s.holdLater q).pending = s.pending := rfl
@[simp] theorem State.holdLater_freeIdx (s : State) (q : RxReq) : (s.holdLater q).freeIdx = s.freeIdx := rfl
@[simp] theorem State.holdLater_regs (s : State) (q : RxReq) : (s.holdLater q).regs = s.regs := rfl
@[simp] theorem State.holdLater_gen (s : State) (q : RxReq) : (s.holdLater q).gen = s.gen := rfl
@[simp] theorem State.holdLater_tq (s : State) (q : RxReq) : (s.holdLater q).tq = s.tq := rfl
@[simp] theorem State.holdLater_ldg (s : State) (q : RxReq) : (s.holdLater q).ldg = s.ldg := rfl
@[simp] theorem State.holdLater_rgn (s : State) (q : RxReq) : (s.holdLater q).rgn = s.rgn := rfl
@[simp] theorem State.holdLater_tier (s : State) (q : RxReq) : (s.holdLater q).tier = s.tier := rfl
@[simp] theorem State.holdLater_codec (s : State) (q : RxReq) : (s.holdLater q).codec = s.codec := rfl
@[simp] theorem State.holdLater_time (s : State) (q : RxReq) : (s.holdLater q).time = s.time := rfl
@[simp] theorem State.holdLater_slc (s : State) (q : RxReq) : (s.holdLater q).slc = s.slc := rfl
@[simp] theorem State.holdLater_sw (s : State) (q : RxReq) : (s.holdLater q).sw = s.sw := rfl
@[simp] theorem State.holdLater_sec (s : State) (q : RxReq) : (s.holdLater q).sec = s.sec := rfl
@[simp] theorem State.holdLater_rst (s : State) (q : RxReq) : (s.holdLater q).rst = s.rst := rfl
@[simp] theorem State.holdLater_pwr (s : State) (q : RxReq) : (s.holdLater q).pwr = s.pwr := rfl
@[simp] theorem State.holdLater_stk (s : State) (q : RxReq) : (s.holdLater q).stk = s.stk := rfl
@[simp] theorem State.holdLater_hlt (s : State) (q : RxReq) : (s.holdLater q).hlt = s.hlt := rfl
@[simp] theorem State.holdLater_bbx (s : State) (q : RxReq) : (s.holdLater q).bbx = s.bbx := rfl
@[simp] theorem State.holdLater_toll (s : State) (q : RxReq) : (s.holdLater q).toll = s.toll := rfl
@[simp] theorem State.holdLater_out (s : State) (q : RxReq) : (s.holdLater q).out = s.out := rfl

/-! `State.restoreHalf` writes `ldg` alone. -/
@[simp] theorem State.restoreHalf_pending (s : State) : (s.restoreHalf).pending = s.pending := rfl
@[simp] theorem State.restoreHalf_freeIdx (s : State) : (s.restoreHalf).freeIdx = s.freeIdx := rfl
@[simp] theorem State.restoreHalf_regs (s : State) : (s.restoreHalf).regs = s.regs := rfl
@[simp] theorem State.restoreHalf_gen (s : State) : (s.restoreHalf).gen = s.gen := rfl
@[simp] theorem State.restoreHalf_tq (s : State) : (s.restoreHalf).tq = s.tq := rfl
@[simp] theorem State.restoreHalf_rgn (s : State) : (s.restoreHalf).rgn = s.rgn := rfl
@[simp] theorem State.restoreHalf_tier (s : State) : (s.restoreHalf).tier = s.tier := rfl
@[simp] theorem State.restoreHalf_codec (s : State) : (s.restoreHalf).codec = s.codec := rfl
@[simp] theorem State.restoreHalf_time (s : State) : (s.restoreHalf).time = s.time := rfl
@[simp] theorem State.restoreHalf_slc (s : State) : (s.restoreHalf).slc = s.slc := rfl
@[simp] theorem State.restoreHalf_fab (s : State) : (s.restoreHalf).fab = s.fab := rfl
@[simp] theorem State.restoreHalf_sw (s : State) : (s.restoreHalf).sw = s.sw := rfl
@[simp] theorem State.restoreHalf_sec (s : State) : (s.restoreHalf).sec = s.sec := rfl
@[simp] theorem State.restoreHalf_rst (s : State) : (s.restoreHalf).rst = s.rst := rfl
@[simp] theorem State.restoreHalf_pwr (s : State) : (s.restoreHalf).pwr = s.pwr := rfl
@[simp] theorem State.restoreHalf_stk (s : State) : (s.restoreHalf).stk = s.stk := rfl
@[simp] theorem State.restoreHalf_hlt (s : State) : (s.restoreHalf).hlt = s.hlt := rfl
@[simp] theorem State.restoreHalf_bbx (s : State) : (s.restoreHalf).bbx = s.bbx := rfl
@[simp] theorem State.restoreHalf_toll (s : State) : (s.restoreHalf).toll = s.toll := rfl
@[simp] theorem State.restoreHalf_out (s : State) : (s.restoreHalf).out = s.out := rfl

/-! `State.passBin` writes `slc` alone. -/
@[simp] theorem State.passBin_pending (s : State) (n : Nat) : (s.passBin n).pending = s.pending := rfl
@[simp] theorem State.passBin_freeIdx (s : State) (n : Nat) : (s.passBin n).freeIdx = s.freeIdx := rfl
@[simp] theorem State.passBin_regs (s : State) (n : Nat) : (s.passBin n).regs = s.regs := rfl
@[simp] theorem State.passBin_gen (s : State) (n : Nat) : (s.passBin n).gen = s.gen := rfl
@[simp] theorem State.passBin_tq (s : State) (n : Nat) : (s.passBin n).tq = s.tq := rfl
@[simp] theorem State.passBin_ldg (s : State) (n : Nat) : (s.passBin n).ldg = s.ldg := rfl
@[simp] theorem State.passBin_rgn (s : State) (n : Nat) : (s.passBin n).rgn = s.rgn := rfl
@[simp] theorem State.passBin_tier (s : State) (n : Nat) : (s.passBin n).tier = s.tier := rfl
@[simp] theorem State.passBin_codec (s : State) (n : Nat) : (s.passBin n).codec = s.codec := rfl
@[simp] theorem State.passBin_time (s : State) (n : Nat) : (s.passBin n).time = s.time := rfl
@[simp] theorem State.passBin_fab (s : State) (n : Nat) : (s.passBin n).fab = s.fab := rfl
@[simp] theorem State.passBin_sw (s : State) (n : Nat) : (s.passBin n).sw = s.sw := rfl
@[simp] theorem State.passBin_sec (s : State) (n : Nat) : (s.passBin n).sec = s.sec := rfl
@[simp] theorem State.passBin_rst (s : State) (n : Nat) : (s.passBin n).rst = s.rst := rfl
@[simp] theorem State.passBin_pwr (s : State) (n : Nat) : (s.passBin n).pwr = s.pwr := rfl
@[simp] theorem State.passBin_stk (s : State) (n : Nat) : (s.passBin n).stk = s.stk := rfl
@[simp] theorem State.passBin_hlt (s : State) (n : Nat) : (s.passBin n).hlt = s.hlt := rfl
@[simp] theorem State.passBin_bbx (s : State) (n : Nat) : (s.passBin n).bbx = s.bbx := rfl
@[simp] theorem State.passBin_toll (s : State) (n : Nat) : (s.passBin n).toll = s.toll := rfl
@[simp] theorem State.passBin_out (s : State) (n : Nat) : (s.passBin n).out = s.out := rfl

end Sys2Proof.Machine
end

