-- ==== Sys2Proof/Laws/Tables.lean ====
section
/-! SUPPORT. Tables and byte memories: what a key reads as after each operation, and that each keeps the canonical form. -/

namespace Sys2Proof

@[simp] theorem Tbl.look_nil {α : Type} (k : Nat) : Tbl.look ([] : Tbl α) k = none := rfl

@[simp] theorem Tbl.rd_nil {α : Type} (d : α) (k : Nat) : Tbl.rd d ([] : Tbl α) k = d := rfl

theorem Tbl.look_ins {α : Type} (k : Nat) (a : α) (t : Tbl α) (j : Nat) :
    (Tbl.ins k a t).look j = if j = k then some a else t.look j := by
  induction t with
  | nil => simp [Tbl.ins, Tbl.look, eq_comm]
  | cons p rest ih =>
    obtain ⟨i, b⟩ := p
    simp only [Tbl.ins]
    split
    · simp only [Tbl.look]
      by_cases hj : j = k
      · simp [hj]
      · simp [hj, Ne.symm hj]
    · split
      · next hk =>
        subst hk
        simp only [Tbl.look]
        by_cases hj : j = k
        · simp [hj]
        · simp [hj, Ne.symm hj]
      · simp only [Tbl.look, ih]
        split <;> split <;> simp_all

@[simp] theorem Tbl.look_ins_self {α : Type} (k : Nat) (a : α) (t : Tbl α) : (Tbl.ins k a t).look k = some a := by
  simp [Tbl.look_ins]

theorem Tbl.look_del {α : Type} (k : Nat) (t : Tbl α) (j : Nat) :
    (Tbl.del k t).look j = if j = k then none else t.look j := by
  induction t with
  | nil => simp [Tbl.del, Tbl.look]
  | cons p rest ih =>
    obtain ⟨i, b⟩ := p
    simp only [Tbl.del]
    split
    · next hk => subst hk; simp only [Tbl.look, ih]; split <;> simp_all [eq_comm]
    · simp only [Tbl.look, ih]; split <;> split <;> simp_all

theorem Tbl.rd_put {α : Type} [DecidableEq α] (d : α) (k : Nat) (a : α) (t : Tbl α) (j : Nat) :
    (Tbl.put d k a t).rd d j = if j = k then a else t.rd d j := by
  unfold Tbl.put Tbl.rd
  split
  · rw [Tbl.look_del]; split <;> simp_all
  · rw [Tbl.look_ins]; split <;> simp_all

@[simp] theorem Tbl.rd_put_self {α : Type} [DecidableEq α] (d : α) (k : Nat) (a : α) (t : Tbl α) :
    (Tbl.put d k a t).rd d k = a := by simp [Tbl.rd_put]

theorem Tbl.rd_upd {α : Type} [DecidableEq α] (d : α) (k : Nat) (f : α → α) (t : Tbl α) (j : Nat) :
    (Tbl.upd d k f t).rd d j = if j = k then f (t.rd d k) else t.rd d j := by
  simp [Tbl.upd, Tbl.rd_put]

@[simp] theorem Tbl.rd_upd_self {α : Type} [DecidableEq α] (d : α) (k : Nat) (f : α → α) (t : Tbl α) :
    (Tbl.upd d k f t).rd d k = f (t.rd d k) := by simp [Tbl.rd_upd]

theorem Tbl.look_alter {α : Type} (k : Nat) (f : α → α) (t : Tbl α) (j : Nat) :
    (Tbl.alter k f t).look j = if j = k then (t.look k).map f else t.look j := by
  unfold Tbl.alter
  split
  · next h => rw [Tbl.look_ins, h]; rfl
  · next h => by_cases hj : j = k <;> simp [h, hj]

@[simp] theorem Tbl.look_alter_self {α : Type} (k : Nat) (f : α → α) (t : Tbl α) :
    (Tbl.alter k f t).look k = (t.look k).map f := by simp [Tbl.look_alter]

/-! ### The canonical form -/

theorem Tbl.keys_ins {α : Type} (p : Nat → Prop) (k : Nat) (a : α) (t : Tbl α) (hk : p k) (h : ∀ e ∈ t, p e.1) :
    ∀ e ∈ Tbl.ins k a t, p e.1 := by
  induction t with
  | nil => simp [Tbl.ins, hk]
  | cons q rest ih =>
    obtain ⟨i, b⟩ := q
    have hi := h (i, b) (by simp)
    have hr := fun e he => h e (List.mem_cons_of_mem _ he)
    simp only [Tbl.ins]
    split
    · intro e he
      rcases List.mem_cons.mp he with rfl | he
      · exact hk
      · exact h e he
    · split
      · intro e he
        rcases List.mem_cons.mp he with rfl | he
        · exact hk
        · exact hr e he
      · intro e he
        rcases List.mem_cons.mp he with rfl | he
        · exact hi
        · exact ih hr e he

theorem Tbl.mem_del {α : Type} (k : Nat) (t : Tbl α) (e : Nat × α) (h : e ∈ Tbl.del k t) : e ∈ t := by
  induction t with
  | nil => exact h
  | cons q rest ih =>
    obtain ⟨i, b⟩ := q
    simp only [Tbl.del] at h
    split at h
    · exact List.mem_cons_of_mem _ (ih h)
    · rcases List.mem_cons.mp h with rfl | h
      · simp
      · exact List.mem_cons_of_mem _ (ih h)

theorem Tbl.sorted_ins {α : Type} (k : Nat) (a : α) (t : Tbl α) (h : t.sorted = true) : (Tbl.ins k a t).sorted = true := by
  induction t with
  | nil => simp [Tbl.ins, Tbl.sorted]
  | cons q rest ih =>
    obtain ⟨i, b⟩ := q
    simp only [Tbl.sorted, Bool.and_eq_true, List.all_eq_true, decide_eq_true_eq] at h
    simp only [Tbl.ins]
    split
    · simp only [Tbl.sorted, Bool.and_eq_true, List.all_eq_true, decide_eq_true_eq]
      refine ⟨fun e he => ?_, h⟩
      rcases List.mem_cons.mp he with rfl | he
      · assumption
      · have := h.1 e he; omega
    · split
      · subst_vars
        simp only [Tbl.sorted, Bool.and_eq_true, List.all_eq_true, decide_eq_true_eq]
        exact h
      · simp only [Tbl.sorted, Bool.and_eq_true, List.all_eq_true, decide_eq_true_eq]
        exact ⟨Tbl.keys_ins (fun n => i < n) k a rest (by omega) h.1, ih h.2⟩

theorem Tbl.sorted_del {α : Type} (k : Nat) (t : Tbl α) (h : t.sorted = true) : (Tbl.del k t).sorted = true := by
  induction t with
  | nil => rfl
  | cons q rest ih =>
    obtain ⟨i, b⟩ := q
    simp only [Tbl.sorted, Bool.and_eq_true, List.all_eq_true, decide_eq_true_eq] at h
    simp only [Tbl.del]
    split
    · exact ih h.2
    · simp only [Tbl.sorted, Bool.and_eq_true, List.all_eq_true, decide_eq_true_eq]
      exact ⟨fun e he => h.1 e (Tbl.mem_del k rest e he), ih h.2⟩

theorem Tbl.mem_ins {α : Type} (k : Nat) (a : α) (t : Tbl α) (e : Nat × α) (h : e ∈ Tbl.ins k a t) : e = (k, a) ∨ e ∈ t := by
  induction t with
  | nil => simpa [Tbl.ins] using h
  | cons q rest ih =>
    obtain ⟨i, b⟩ := q
    simp only [Tbl.ins] at h
    split at h
    · simpa using h
    · split at h
      · rcases List.mem_cons.mp h with rfl | h
        · exact .inl rfl
        · exact .inr (List.mem_cons_of_mem _ h)
      · rcases List.mem_cons.mp h with rfl | h
        · exact .inr (by simp)
        · rcases ih h with h | h
          · exact .inl h
          · exact .inr (List.mem_cons_of_mem _ h)

/-- Writing a key keeps the canonical form. -/
theorem Tbl.canon_put {α : Type} [DecidableEq α] (d : α) (k : Nat) (a : α) (t : Tbl α) (h : Tbl.canon d t = true) :
    Tbl.canon d (Tbl.put d k a t) = true := by
  simp only [Tbl.canon, Bool.and_eq_true, List.all_eq_true, decide_eq_true_eq] at h ⊢
  unfold Tbl.put
  split
  · exact ⟨Tbl.sorted_del k t h.1, fun e he => h.2 e (Tbl.mem_del k t e he)⟩
  · refine ⟨Tbl.sorted_ins k a t h.1, fun e he => ?_⟩
    rcases Tbl.mem_ins k a t e he with rfl | he
    · assumption
    · exact h.2 e he

theorem Tbl.canon_upd {α : Type} [DecidableEq α] (d : α) (k : Nat) (f : α → α) (t : Tbl α) (h : Tbl.canon d t = true) :
    Tbl.canon d (Tbl.upd d k f t) = true := Tbl.canon_put d k _ t h

/-! ### Byte memories -/

namespace Machine

theorem Bytes.get_set (m : Bytes) (a : Nat) (b : Byte) (k : Nat) :
    (Bytes.set m a b).get k = if k = a then b else m.get k := Tbl.rd_put 0 a b m k

@[simp] theorem Bytes.get_set_self (m : Bytes) (a : Nat) (b : Byte) : (Bytes.set m a b).get a = b := by
  simp [Bytes.get_set]

/-- A byte write keeps the canonical form. -/
theorem Memory.wf_set (m : Bytes) (a : Nat) (b : Byte) (h : Memory.wf m = true) : Memory.wf (Bytes.set m a b) = true :=
  Tbl.canon_put 0 a b m h

@[simp] theorem Memory.wf_nil : Memory.wf [] = true := rfl

/-- The memory of the machine after reset is in canonical form: the mirror half it holds is empty. -/
theorem Memory.wf_reset : Memory.wf State.reset.ldg.mirrorHalf = true := rfl

/-! ### Lists and folds -/

@[simp] theorem foldS_nil {α : Type} (f : State → α → State) (s : State) : foldS f s [] = s := rfl

@[simp] theorem foldS_cons {α : Type} (f : State → α → State) (s : State) (a : α) (l : List α) :
    foldS f s (a :: l) = foldS f (f s a) l := rfl

/-- What every step of a fold keeps, the fold keeps. -/
theorem foldS_keeps {α β : Type} (g : State → β) (f : State → α → State) (h : ∀ s a, g (f s a) = g s) (s : State) (l : List α) :
    g (foldS f s l) = g s := by
  induction l generalizing s with
  | nil => rfl
  | cons a l ih => rw [foldS_cons, ih, h]

/-- An invariant of every step of a fold is one of the fold. -/
theorem foldS_inv {α : Type} (p : State → Prop) (f : State → α → State) (h : ∀ s a, p s → p (f s a)) (s : State) (l : List α)
    (hs : p s) : p (foldS f s l) := by
  induction l generalizing s with
  | nil => exact hs
  | cons a l ih => exact ih _ (h s a hs)

/-- A property kept by `f` is kept where `f` happens on a condition. -/
theorem State.when_keeps {β : Type} (g : State → β) (f : State → State) (h : ∀ s, g (f s) = g s) (s : State) (c : Bool) :
    g (s.when c f) = g s := by
  cases c
  · rfl
  · exact h s

theorem listMod_set {α : Type} (l : List α) (i : Nat) (v : α) : listMod l i (fun _ => v) = l.set i v := by
  induction l generalizing i with
  | nil => cases i <;> rfl
  | cons a l ih => cases i <;> simp [listMod, ih]

@[simp] theorem listMod_length {α : Type} (l : List α) (i : Nat) (f : α → α) : (listMod l i f).length = l.length := by
  induction l generalizing i with
  | nil => cases i <;> rfl
  | cons a l ih => cases i <;> simp [listMod, ih]

@[simp] theorem leBytes_length (n v : Nat) : (leBytes n v).length = n := by
  induction n generalizing v with
  | zero => rfl
  | succ n ih => simp [leBytes, ih]

/-- Little-endian bytes read back as the number they came from. -/
theorem leNat_leBytes (n v : Nat) : leNat (leBytes n v) = v % 256 ^ n := by
  induction n generalizing v with
  | zero => simp [leBytes, leNat, Nat.mod_one]
  | succ n ih =>
    simp only [leBytes, leNat, ih, BitVec.toNat_ofNat]
    rw [show (256 : Nat) ^ (n + 1) = 256 * 256 ^ n by ring, Nat.mod_mul]

/-! ### Outcomes -/

/-- A well-formed command leaves its effect, one no wire can carry nothing. -/
@[simp] theorem checked_of_wf {i : Instr} (h : i.wf = true) (s t : State) : checked s i t = .next t := by simp [checked, h]

@[simp] theorem checked_of_not_wf {i : Instr} (h : i.wf = false) (s t : State) : checked s i t = .next s := by simp [checked, h]

/-- A command never stops the module. -/
theorem checked_goes (s : State) (i : Instr) (t : State) : ∃ u, checked s i t = .next u ∧ (u = t ∨ u = s) := by
  unfold checked
  split
  · exact ⟨t, rfl, .inl rfl⟩
  · exact ⟨s, rfl, .inr rfl⟩

/-! ### Registers -/

@[simp] theorem State.setWord_regs (s : State) (l : Loc) (w : Nat) :
    (s.setWord l w).regs = Tbl.put (BitVec.ofNat 64 l.resetWord) l.addr (BitVec.ofNat 64 w) s.regs := rfl

/-- A register that is not written keeps its word. -/
theorem State.word_setWord_ne (s : State) (l k : Loc) (w : Nat) (h : k.addr ≠ l.addr) : (s.setWord l w).word k = s.word k := by
  have hk : (Tbl.put (BitVec.ofNat 64 l.resetWord) l.addr (BitVec.ofNat 64 w) s.regs).look k.addr = s.regs.look k.addr := by
    unfold Tbl.put
    split
    · rw [Tbl.look_del, if_neg h]
    · rw [Tbl.look_ins, if_neg h]
  simp only [State.word, State.setWord_regs, hk]

end Machine

end Sys2Proof
end

