-- ==== Sys2Proof/Laws/Steps.lean ====
section
/-! SUPPORT. What the shared operations of the commands can do, said once: recipe steps, running descriptors, the passing of
time, messages that come in, register accesses. -/

namespace Sys2Proof.Machine

/-! ### Recipe steps (R206, R211) -/

/-- A context that stands at a step has that step as its run. -/
theorem runOf_of_stands {s : State} {cx op : Nat} {r : Run} (h : Stands s cx op r) : s.runOf cx = some r := by
  obtain ⟨h1, h2, h3, h4, h5, _, _, h8, h9, h10, h11, h12, h13, h14⟩ := h
  obtain ⟨c0, c, v, e, st⟩ := r
  subst h1
  simp only at *
  simp [State.runOf, h2, h3, h4, h5, h8, h9, h10, h11, h12, h13, h14]

/-- A run is of a context whose descriptor and image are there; it may run now. -/
theorem runOf_eq_some {s : State} {cx : Nat} {r : Run} (h : s.runOf cx = some r) :
    r.cx = cx ∧ s.ctx cx = some r.c ∧ s.inv r.c.lsn = some r.v ∧ s.entry r.c.lsn = some r.e ∧
      r.v.img.steps[r.c.pc]? = some r.st ∧ r.e.running = true ∧ s.ldg.fenced = false ∧ r.c.lib = none := by
  unfold State.runOf at h
  split at h
  · cases h
  · rename_i c hc
    split at h
    · rename_i v e hv he
      split at h
      · rename_i st hst
        split at h
        · rename_i hg
          cases h
          simp at hg
          exact ⟨rfl, hc, hv, he, hst, hg.1.1.1.1.1.1, hg.1.1.1.1.1.2, hg.2⟩
        · cases h
      · cases h
    · cases h

/-- A step of its own primitive runs as its meaning says. -/
theorem onStep_of_stands {s : State} {cx op : Nat} {r : Run} (h : Stands s cx op r) (p : Step → Bool) (f : Run → StepOut)
    (w : CtxStatus → Bool) (hp : p r.st = true) : s.onStep cx p f w = r.finish (f r) := by
  simp [State.onStep, runOf_of_stands h, hp, h.ready]

/-- A step command changes nothing, or finishes the step its context stands at. -/
theorem onStep_cases (s : State) (cx : Nat) (p : Step → Bool) (f : Run → StepOut) (w : CtxStatus → Bool) :
    s.onStep cx p f w = s ∨ ∃ r, s.runOf cx = some r ∧ p r.st = true ∧ s.onStep cx p f w = r.finish (f r) := by
  unfold State.onStep
  split
  · rename_i r hr
    split
    · rename_i hg
      simp at hg
      exact .inr ⟨r, hr, hg.1, rfl⟩
    · exact .inl rfl
  · exact .inl rfl

/-- A step that retires changes its context alone. -/
theorem retire_eq {s : State} {cx op : Nat} {r : Run} (h : Stands s cx op r) (c : Ctx) (pc : Nat) :
    s.retire r c pc = s.withCtx cx (r.retired c pc) := by
  have h1 := h.isCx
  have h2 : Tbl.look s.slc.ctxs cx = some r.c := h.context
  subst h1
  simp [State.retire, State.modCtx, Tbl.alter, h2, State.withCtx, Run.retired]

@[simp] theorem Run.finish_next (r : Run) (s : State) (c : Ctx) : r.finish (.next s c) = s.retire r c (c.pc + 1) := rfl
@[simp] theorem Run.finish_goto (r : Run) (s : State) (c : Ctx) (pc : Nat) : r.finish (.goto s c pc) = s.retire r c pc := rfl
@[simp] theorem Run.finish_hold (r : Run) (s : State) : r.finish (.hold s) = s := rfl
theorem Run.finish_fault (r : Run) (s : State) (st d : Nat) (h : d ≠ 0x080D) : r.finish (.fault s st d) = s.faultSub r.cx st d := by
  simp [Run.finish, h]

/-- Writing register x of a context. -/
theorem Ctx.setG_eq (c : Ctx) (x v : Nat) : c.setG x v = { c with regs := c.regs.set (x % 32) (BitVec.ofNat 64 v) } := by
  simp [Ctx.setG, listMod_set]

/-- A VEC_ALU form whose operands are good retires with its new context. -/
theorem vec_ok {s : State} {cx : Nat} {r : Run} (h : Stands s cx 6 r) (code : Nat) (f : Run → Except (Nat × Nat) Ctx) (c : Ctx)
    (hc : r.st.m 7 0 = code) (hf : f r = .ok c) : s.vec cx code f = s.withCtx cx (r.retired c (c.pc + 1)) := by
  rw [State.vec, onStep_of_stands h]
  · simp [require, hc, hf, StepOut.ofExcept, retire_eq h]
  · simp [isVec, h.prim, hc]

/-- One whose operands are not fails its sub-part with MALFORMED 0x0801. -/
theorem vec_err {s : State} {cx : Nat} {r : Run} (h : Stands s cx 6 r) (code : Nat) (f : Run → Except (Nat × Nat) Ctx)
    (hc : r.st.m 7 0 = code) (hf : f r = .error badOp) : s.vec cx code f = s.faultSub cx St.malformed 0x0801 := by
  rw [State.vec, onStep_of_stands h]
  · simp [require, hc, hf, StepOut.ofExcept, Run.finish, badOp, h.isCx]
  · simp [isVec, h.prim, hc]

/-! ### Running descriptors (R39, R363) -/

/-- A running descriptor of its opcode acts as its meaning says. -/
theorem onOp_of_working {s : State} {lsn op : Nat} {e : Entry} (h : Working s lsn op e) (f : Entry → State → State) :
    s.onOp lsn op f = f e s := by
  simp [State.onOp, h.entry, h.running, h.opcode, h.unfenced, h.going]

/-- A command for a descriptor changes nothing, or acts on the running descriptor of that opcode. -/
theorem onOp_cases (s : State) (lsn op : Nat) (f : Entry → State → State) :
    s.onOp lsn op f = s ∨ ∃ e, Working s lsn op e ∧ s.onOp lsn op f = f e s := by
  unfold State.onOp
  split
  · rename_i e he
    split
    · rename_i hg
      simp at hg
      exact .inr ⟨e, ⟨he, hg.1.1.1, hg.1.1.2, hg.1.2, hg.2⟩, rfl⟩
    · exact .inl rfl
  · exact .inl rfl

/-! ### Time (R125) -/

/-- What the passing of time leaves alone. -/
theorem advance_keeps {β : Type} (g : State → β) (s : State) (dt : Nat)
    (h : ∀ (s : State) a b c d e f h, g { s with sw := a, pwr := b, regs := c, tier := d, rgn := e, fab := f, toll := h } = g s)
    (h' : ∀ (s : State) a, g { s with time := a } = g s) : g (s.advance dt) = g s := by
  have hs : ∀ s : State, ∀ a, g { s with sw := a } = g s := fun s a => h s a s.pwr s.regs s.tier s.rgn s.fab s.toll
  have hp : ∀ s : State, ∀ a, g { s with pwr := a } = g s := fun s a => h s s.sw a s.regs s.tier s.rgn s.fab s.toll
  have hr : ∀ s : State, ∀ a, g { s with regs := a } = g s := fun s a => h s s.sw s.pwr a s.tier s.rgn s.fab s.toll
  have hf : ∀ s : State, ∀ a, g { s with fab := a } = g s := fun s a => h s s.sw s.pwr s.regs s.tier s.rgn a s.toll
  have hto : ∀ s : State, ∀ a, g { s with toll := a } = g s := fun s a => h s s.sw s.pwr s.regs s.tier s.rgn s.fab a
  have hb : ∀ (s : State) f i j d, g (s.bump f i j d) = g s := fun s f i j d => hr s _
  have ht : ∀ s : State, g (s.throttleTime dt) = g s := by
    intro s
    simp only [State.throttleTime]
    rw [State.when_keeps g _ (fun s => hb s _ _ _ _), State.when_keeps g _ (fun s => hb s _ _ _ _), hp]
  have hv : ∀ s : State, g (s.secondTime dt) = g s := by
    intro s
    unfold State.secondTime
    split
    · rfl
    · exact hf s _
  unfold State.advance
  rw [h', foldS_keeps g (fun s t => s.tollTime dt t) (fun s t => hto s _)]
  split
  · rfl
  · rw [hv, ht]
    exact hs s _

@[simp] theorem advance_pending (s : State) (dt : Nat) : (s.advance dt).pending = s.pending :=
  advance_keeps State.pending s dt (fun _ _ _ _ _ _ _ _ => rfl) (fun _ _ => rfl)
@[simp] theorem advance_out (s : State) (dt : Nat) : (s.advance dt).out = s.out :=
  advance_keeps State.out s dt (fun _ _ _ _ _ _ _ _ => rfl) (fun _ _ => rfl)
@[simp] theorem advance_gen (s : State) (dt : Nat) : (s.advance dt).gen = s.gen :=
  advance_keeps State.gen s dt (fun _ _ _ _ _ _ _ _ => rfl) (fun _ _ => rfl)
@[simp] theorem advance_tq (s : State) (dt : Nat) : (s.advance dt).tq = s.tq :=
  advance_keeps State.tq s dt (fun _ _ _ _ _ _ _ _ => rfl) (fun _ _ => rfl)
@[simp] theorem advance_ldg (s : State) (dt : Nat) : (s.advance dt).ldg = s.ldg :=
  advance_keeps State.ldg s dt (fun _ _ _ _ _ _ _ _ => rfl) (fun _ _ => rfl)
@[simp] theorem advance_codec (s : State) (dt : Nat) : (s.advance dt).codec = s.codec :=
  advance_keeps State.codec s dt (fun _ _ _ _ _ _ _ _ => rfl) (fun _ _ => rfl)
@[simp] theorem advance_slc (s : State) (dt : Nat) : (s.advance dt).slc = s.slc :=
  advance_keeps State.slc s dt (fun _ _ _ _ _ _ _ _ => rfl) (fun _ _ => rfl)
@[simp] theorem advance_sec (s : State) (dt : Nat) : (s.advance dt).sec = s.sec :=
  advance_keeps State.sec s dt (fun _ _ _ _ _ _ _ _ => rfl) (fun _ _ => rfl)
@[simp] theorem advance_rst (s : State) (dt : Nat) : (s.advance dt).rst = s.rst :=
  advance_keeps State.rst s dt (fun _ _ _ _ _ _ _ _ => rfl) (fun _ _ => rfl)
@[simp] theorem advance_stk (s : State) (dt : Nat) : (s.advance dt).stk = s.stk :=
  advance_keeps State.stk s dt (fun _ _ _ _ _ _ _ _ => rfl) (fun _ _ => rfl)
@[simp] theorem advance_hlt (s : State) (dt : Nat) : (s.advance dt).hlt = s.hlt :=
  advance_keeps State.hlt s dt (fun _ _ _ _ _ _ _ _ => rfl) (fun _ _ => rfl)
@[simp] theorem advance_bbx (s : State) (dt : Nat) : (s.advance dt).bbx = s.bbx :=
  advance_keeps State.bbx s dt (fun _ _ _ _ _ _ _ _ => rfl) (fun _ _ => rfl)

/-- Nothing but the two clocks changes in the time base. -/
theorem advance_time (s : State) (dt : Nat) :
    (s.advance dt).time = { s.time with mono := s.time.mono + dt, wall := s.time.wall + dt } := by
  have hb : ∀ (s : State) f i j d, (s.bump f i j d).time = s.time := fun _ _ _ _ _ => rfl
  have ht : ∀ s : State, (s.throttleTime dt).time = s.time := by
    intro s
    simp only [State.throttleTime]
    rw [State.when_keeps State.time _ (fun s => hb s _ _ _ _), State.when_keeps State.time _ (fun s => hb s _ _ _ _)]
  have hv : ∀ s : State, (s.secondTime dt).time = s.time := by
    intro s
    unfold State.secondTime
    split <;> rfl
  have hk : ∀ (s : State) l, (foldS (fun s t => s.tollTime dt t) s l).time = s.time :=
    fun s l => foldS_keeps State.time (fun s t => s.tollTime dt t) (fun _ _ => rfl) s l
  have ha : (((s.shaperTime dt).throttleTime dt).secondTime dt).time = s.time := by
    rw [hv]
    exact ht (s.shaperTime dt)
  unfold State.advance
  split <;> simp only [hk, ha]

/-- Time goes on by `dt`. -/
@[simp] theorem advance_now (s : State) (dt : Nat) : (s.advance dt).now = s.now + dt := by
  simp [State.now, advance_time]

/-- After waiting the moment waited for has come. -/
theorem le_waitTill_now (s : State) (t : Nat) : t ≤ (s.waitTill t).now := by
  have : t ≤ 8 * ceilDiv t 8 := by unfold ceilDiv; omega
  have h : (s.waitTill t).now = s.now + (8 * ceilDiv t 8 - s.now) := by rw [State.waitTill, advance_now]; rfl
  omega

/-- Waiting never goes back in time. -/
theorem now_le_waitTill_now (s : State) (t : Nat) : s.now ≤ (s.waitTill t).now := by
  simp [State.waitTill]

/-! ### Messages that come in (R285, R302, R359) -/

/-- A message in good form at a port that is up is taken with its source heard. -/
theorem takeMsg_of_comes {s : State} {n ty : Nat} {h : Hdr} {payload : List Byte} (c : Comes s n ty h payload)
    (f : State → State) : s.takeMsg n ty h payload f = f (s.hear h.src.toNat) := by
  simp [State.takeMsg, c.port, c.form]

/-- A request of a module enters as it is, with the failure its edge found. -/
theorem enter_of_module {s : State} {n ty : Nat} {h : Hdr} {payload : List Byte} (c : Comes s n ty h payload) (hx : h.ext = true)
    (f : Hdr → Option (Nat × Nat) → State → State) :
    s.enter n ty h payload f =
      f h (if h.status = 0 then none else some (h.status.toNat, h.detail.toNat)) (s.hear h.src.toNat) := by
  simp [State.enter, c.port, c.notShut, takeMsg_of_comes c, hx]

/-- A request of an endpoint goes through the edge check of an unfenced module. -/
theorem enter_of_endpoint {s : State} {n ty : Nat} {h : Hdr} {payload : List Byte} (c : Comes s n ty h payload) (hx : h.ext = false)
    (hf : (s.hear h.src.toNat).ldg.fenced = false) (f : Hdr → Option (Nat × Nat) → State → State) :
    s.enter n ty h payload f = (s.hear h.src.toNat).enterEdge n ty h f := by
  simp [State.enter, c.port, c.notShut, takeMsg_of_comes c, hx, hf]

/-- However a request comes in, it goes to the stream as `Passes` says. -/
theorem enter_of_passes {s u : State} {n ty : Nat} {h g : Hdr} {deny : Option (Nat × Nat)} {payload : List Byte}
    (c : Comes s n ty h payload) (hp : Passes (s.hear h.src.toNat) n ty h g deny u) (f : Hdr → Option (Nat × Nat) → State → State) :
    s.enter n ty h payload f = f g deny u := by
  rcases hp with ⟨hx, hf, he, rfl, rfl⟩ | ⟨hx, hf, ⟨e, he, rfl⟩, rfl, rfl⟩ | ⟨hx, hf, rfl, rfl, rfl⟩ | ⟨hx, rfl, rfl, rfl⟩
  · rw [enter_of_endpoint c hx hf, State.enterEdge, he]
  · rw [enter_of_endpoint c hx hf, State.enterEdge, he]
  · simp [State.enter, c.port, c.notShut, takeMsg_of_comes c, hx, hf]
  · rw [enter_of_module c hx]

/-! ### Register accesses (R450) -/

/-- A write by a closed path changes nothing. -/
theorem writeBy_closed {s : State} {path : Path} (h : s.pathOpen path = false) (a : Nat) (v : W64) : s.writeBy path a v = s := by
  simp [State.writeBy, h]

/-- A write that reaches no register is a management error and nothing else. -/
theorem regWrite_of_no_reach {s : State} {a c : Nat} (h : s.reach a = .error c) (path : Nat) (secure : Bool) (v : W64) :
    s.regWrite path secure a v = (s.mgmtError path a c, some c) := by
  simp [State.regWrite, h]

/-- A write that reaches a register does what the register does, and is an error besides when it raises a cause. -/
theorem regWrite_of_reach {s : State} {a : Nat} {l : Loc} (h : s.reach a = .ok l) (path : Nat) (secure : Bool) (v : W64) :
    s.regWrite path secure a v = match s.writeLoc l secure v with
      | (t, none) => (t, none)
      | (t, some c) => (t.mgmtError path a c, some c) := by
  unfold State.regWrite
  generalize s.reach a = x at h
  subst h
  rfl

/-- A read that reaches a register changes nothing. -/
theorem regRead_of_reach {s : State} {a : Nat} {l : Loc} (h : s.reach a = .ok l) (path : Nat) :
    s.regRead path a = (s, s.regView l, none) := by
  simp [State.regRead, h]

end Sys2Proof.Machine
end

