-- ==== Sys2Proof/Tests/Slice0.lean ====
section
/-! SUPPORT. Tests: ill-formed operands are turned away; for each statement with hypotheses, a state and operands that meet
them, clause by clause; and small effects read from the spec's own rules. -/

namespace Sys2Proof.Machine.Tests

set_option Elab.async false

/-! ### Small states -/

/-- The module at stage RUN, and nothing else. -/
def up : State := { gen := { stage := 9 }, pwr := { auxGood := true, good48 := true, rails := 8 } }

/-- A region of one open version 2 over the published version 1, whose page 0 is in the near tier, held here. -/
def tPage : Page := { region := 5 }
def tV1 : Version := { pages := [(0, .page 1)] }
def tV2 : Version := { state := .opened, base := 1, pages := [(0, .page 2)], own := [0] }
def tRegion : Region := { owner := 0, size := 65536, tier := 0, highest := 2, vers := [(1, tV1), (2, tV2)] }
def withRegion (s : State) : State :=
  { s with rgn := { s.rgn with
      regions := [(5, tRegion)], pages := [(1, tPage), (2, tPage)], nextPage := 3, shelves := [(0, { st := .assigned, common := true })] } }

/-- A descriptor of an opcode that runs, with its words. -/
def tEntry (op : Nat) (ws : List W64 := []) : Entry :=
  { lsn := 0, state := .started, opcode := op, words := BitVec.ofNat 64 op :: ws ++ List.replicate (7 - ws.length) 0 }

def opState (e : Entry) : State :=
  withRegion { up with ldg := { entries := [e], nextLsn := 1 } }

/-- A context at one step, run from a slice in service. -/
def tRegs : List W64 := [0, 64, 8, 1, 16384] ++ List.replicate 27 0
def tCtx : Ctx := { lsn := 0, sub := 0, slice := 0, regs := tRegs, quern := [List.replicate 64 {}] }
def tImg (st : Step) : Image :=
  { ident := 7, scratch := 8, stage := 2, heap := 4, banks := 1, budget := 100, steps := [st, st] }
def tInv (st : Step) : Inv :=
  { pair := 0, img := tImg st,
    binds := [some { region := 5, version := 1, write := false }, some { region := 5, version := 2, write := true }] }
def atStep (st : Step) : State :=
  let s := opState (tEntry 0x0C)
  { s with slc := { s.slc with inService := 1, bins := [(0, 0xFFFF)], ctxs := [(0, tCtx)], nextCtx := 1, invs := [(0, tInv st)] } }
def runAt (st : Step) : Run := { cx := 0, c := tCtx, v := tInv st, e := tEntry 0x0C, st := st }

theorem sliceUp_of {s : State} (h1 : s.slc.inService = 1) (h2 : s.slc.quarantined = 0) (h3 : s.pwr.fault = 0)
    (h4 : s.rst.quads = 0) (h5 : s.rst.away = 0) : s.sliceUp 0 = true := by
  rw [State.sliceUp, State.quadOut, h1, h2, h3, h4, h5]; decide +kernel
theorem sliceTested_of {s : State} (h1 : s.slc.bins = [(0, 0xFFFF)]) (h2 : s.pwr.tj = [0, 0, 0, 0]) : s.sliceTested 0 = true := by
  rw [State.sliceTested, State.binOf, h1, h2]; decide +kernel

theorem stands (st : Step) : Stands (atStep st) 0 st.op (runAt st) :=
  ⟨rfl, rfl, rfl, rfl, rfl, rfl, rfl, rfl, rfl, rfl, sliceUp_of rfl rfl rfl rfl rfl, sliceTested_of rfl rfl,
    Nat.succ_pos 99, rfl⟩

/-- A run in another state, its parts found one by one. -/
theorem runOf_parts {s : State} {r : Run} (h : s.ctx r.cx = some r.c ∧ s.inv r.c.lsn = some r.v ∧ s.entry r.c.lsn = some r.e ∧
    r.v.img.steps[r.c.pc]? = some r.st ∧ (r.e.running && !s.ldg.fenced && !(s.halting r.e) && s.sliceUp r.c.slice &&
      s.sliceTested r.c.slice && decide (r.c.used < r.v.img.budget) && r.c.lib.isNone) = true) : s.runOf r.cx = some r := by
  obtain ⟨h2, h3, h4, h5, h6⟩ := h
  obtain ⟨c0, c, v, e, st⟩ := r
  simp only at *
  simp only [State.runOf, h2, h3, h4, h5]
  simp_all

theorem working (op : Nat) (ws : List W64) : Working (opState (tEntry op ws)) 0 op (tEntry op ws) :=
  ⟨rfl, rfl, rfl, rfl, rfl⟩

/-- A field of the state after a command; none where the command answers no next state. -/
def after {α : Type} (o : Host.Outcome State Fault Refusal) (f : State → α) : Option α :=
  match o with
  | .next t => some (f t)
  | _ => none

/-- A command is ill formed: no wire carries it, and it changes nothing (log entry 137). -/
def refused (i : Instr) : Bool := !i.wf && (match exec i up with | .next t => decide (t = up) | _ => false)

/-! ### WellFormed: each check turns a term away -/

def hdr : Hdr := { tc := 0, src := 0x1000#16, dst := 0 }
def rmsg : RMsg := { tenant := 0, lsn := 0, key := 0, srcMod := 0, srcSub := 0, dstSub := 0, chan := 0, tc := 0, data := [] }
def cell : Cell := { out := 0, tc := 0, first := true, last := true, inp := 1, seq := 0, len := 2, tenant := 0, msg := 0, data := [1, 2], check := 0 }
def swMsg : SwMsg := { inp := 0, out := 1, tc := 0, tenant := 0, data := List.replicate 32 0, edge := false, stream := 0 }
def moveReq : MoveReq := { promote := true, tenant := 0, region := 5, version := 2, off := 0, len := 65536, tier := 0 }
def mapUpd (e : MapEntry) : Instr :=
  .mapUpdate 0 hdr { base := 0, new := 1, full := false, entries := [e], bytes := [], sigR := 0, sigS := 0 }

/-- Headers (R275). -/
theorem test_wf_headers :
    (([{ hdr with hops := 16 }, { hdr with len := 2 ^ 13 }, { hdr with xRegion := 2 ^ 24 }, { hdr with xTenant := 256 },
      { hdr with xVersion := 2 ^ 32 }] : List Hdr).all (fun h => ([.ulpLoad 0 h, .ulpStore 0 h [], .ulpWriteFlag 0 h [],
        .ulpAtomic 0 h [], .ulpFence 0 h, .ulpAttach 0 h [], .ulpDetach 0 h, .ulpMark 0 h 0, .mapGet 0 h, .loadRsp 0 h [],
        .atomicRsp 0 h [], .ack 0 h [], .fenceAck 0 h [], .attachRsp 0 h [], .nak 0 h, .resend 0 h, .drain 0 h, .mapAck 0 h,
        .mirrorStore 0 h [], .linkFrame 0 { seq := 0, len := 64, tc := 0, msg := some (0, h, 0) },
        .mapUpdate 0 h { base := 0, new := 1, full := false, entries := [], bytes := [], sigR := 0, sigS := 0 }] :
          List Instr).all refused)) = true := by decide +kernel

/-- Map entries (R291, R299, R317). -/
theorem test_wf_maps :
    (([mapUpd (.region 5 (some { home := 0, holders := [], stripe := 4096 })),
      mapUpd (.region 5 (some { home := 0, holders := List.replicate 65 0, stripe := 0 })), mapUpd (.route 0 1 (List.replicate 9 0)),
      mapUpd (.group 0 none), mapUpd (.group 4096 none), mapUpd (.group 1 (some { owner := 0, mark := true, members := [] })),
      mapUpd (.group 1 (some { owner := 256, mark := true, members := [{ ep := 0, base := 0, slots := 0 }] })),
      mapUpd (.group 1 (some { owner := 0, mark := false, members := [{ ep := 0, base := 0, slots := 0 }] })),
      mapUpd (.group 1 (some { owner := 0, mark := false, members := List.replicate 65 { ep := 0, base := 0, slots := 1 } })),
      .stageAdvance { decoders := List.replicate 9 (0, 0, 1, 1) }] : List Instr).all refused) = true := by decide +kernel

/-- Frames, cells and messages (R215, R274, R312, R317). -/
theorem test_wf_messages :
    (([.cellArrive { cell with len := 0, data := [] }, .cellArrive { cell with len := 3 }, .cellArrive { cell with mid := 64 }, .cellArrive { cell with seq := 2 ^ 32 },
      .cellArrive { cell with len := 241, data := List.replicate 241 0 }, .cellArrive { cell with tenant := 256 }, .cellArrive { cell with cls := 16 },
      .cellArrive { cell with msg := 2 ^ 16 }, .messageAdmit { swMsg with tenant := 256 }, .messageAdmit { swMsg with data := List.replicate 31 0 },
      .messageAdmit { swMsg with group := some 0 }, .messageAdmit { swMsg with mcopy := true }, .messageArrive { rmsg with tenant := 256 },
      .moveSubpartRequest 0 0 { moveReq with tenant := 256 }, .moveSubpartRequest 0 0 { moveReq with region := 2 ^ 24 },
      .moveSubpartRequest 0 0 { moveReq with version := 2 ^ 32 }, .moveSubpartRequest 0 0 { moveReq with tier := 4 },
      .moveSubpartRequest 0 0 { moveReq with tslot := 16 }, .moveSubpartRequest 0 0 { moveReq with job := 2 ^ 16 },
      .moveSubpartRequest 0 0 { moveReq with layers := 4097 }, .moveSubpartRequest 0 0 { moveReq with first := 1 },
      .publishHolderSeal 0 (2 ^ 24) 1 0, .publishHolderSeal 0 1 (2 ^ 32) 0] : List Instr).all refused) = true := by decide +kernel

/-- The operands of the other commands. -/
theorem test_wf_operands :
    (([.submissionDoorbell { port := 0, ep := 0 } (2 ^ 20) 8 0, .completionDoorbell { port := 0, ep := 0 } (2 ^ 20) 8 0,
      .shelfAssign .eth 0 (2 ^ 18) 0 false, .shelfRevokeEvacuate .eth 0 (2 ^ 18), .shelfRevokeForce .eth 0 (2 ^ 18),
      .shelfOnline .eth 0 (2 ^ 18), .shelfWorldSet .secure 0 (2 ^ 20) true, .guardBandStart 0 1024, .guardBandExpire 0 1024,
      .windowReferenceWrite 0 (2 ^ 15) 0 0, .windowReferenceWrite 0 0 4 0, .windowStatusRead 0 ⟨2 ^ 15, 0⟩, .windowStatusRead 0 ⟨0, 4⟩,
      .cxlMemRequest 0 false 0 0 [], .cxlMemRequest 0 true 0 2 [0], .spdmGetCertificate .i3c 16 0 0,
      .spdmGetCertificate .i3c 0 (2 ^ 16) 0, .spdmGetCertificate .i3c 0 0 (2 ^ 16), .powerLimiterSample (2 ^ 12) 0,
      .thermalSample [0, 0, 0] (List.replicate 12 0), .thermalSample [0, 0, 0, 0] (List.replicate 11 0),
      .thermalSample [128, 0, 0, 0] (List.replicate 12 0), .thermalSample [0, 0, 0, 0] (List.replicate 12 (-129)),
      .thermalTrip false 4 120, .thermalTrip true 12 120, .thermalTrip false 0 128, .neighbourCompare [0] [0, 0, 0, 0] [0, 0, 0, 0],
      .neighbourCompare [4096, 0, 0, 0] [0, 0, 0, 0] [0, 0, 0, 0], .neighbourCompare [0, 0, 0, 0] [4096, 0, 0, 0] [0, 0, 0, 0],
      .neighbourCompare [0, 0, 0, 0] [0, 0, 0, 0] [200, 0, 0, 0], .cxlCompletion 0 (2 ^ 16) .error, .resetPulseEnd 8,
      .railRegulationTimeout 0, .railRegulationTimeout 9] : List Instr).all refused) = true := by decide +kernel

/-! ### The module as a whole -/

theorem wit_stepRunsTheFrontCommand : Instr.switchSlot.wf = true ∧ (Instr.railRegulationTimeout 8).wf = true := by decide
theorem wit_idleStepLetsATickPass : State.reset.pending = [] := rfl
theorem wit_sound : Sound State.reset ∧ stageLegal 15 :=
  ⟨⟨.inl (Nat.zero_le 9), .inl (Nat.zero_le 9), rfl⟩, .inr rfl⟩
theorem wit_stepKeepsSound : ∃ t, step State.reset = .next t := ⟨_, rfl⟩
theorem wit_stagesGoInOrder : up.rst.active = false ∧ ∃ t, step up = .next t ∧ t.rst.active = false := ⟨rfl, _, rfl, rfl⟩
theorem wit_bytesReadBack : Memory.wf [] = true := rfl

/-! ### Recipe steps -/

/-- A VEC_ALU step of a form, on tile `t` for every operand. -/
def vStep (form t : Nat) (imm : W64) : Step := { op := 6, a := t, b := t, c := t, d := t, mod := form, imm := imm }

theorem wit_scalarForms (k : Nat) (h : k ∈ List.range' 0x80 12) :
    Stands (atStep (vStep k 1 0)) 0 6 (runAt (vStep k 1 0)) ∧ (runAt (vStep k 1 0)).st.m 7 0 = k :=
  ⟨stands _, by revert h; revert k; decide⟩
/-- Scratch addresses: the last 8 bytes of 8 tiles, an odd address and one past the end. -/
theorem wit_scalarScratch : (([131064, 4, 131072] : List Nat).map (fun a =>
    let r := runAt (vStep 0x8A 0 (BitVec.ofNat 64 a))
    let x := (r.c.regs.getD (r.st.b % 32) 0 + r.st.imm).toNat
    decide (x % 8 = 0 ∧ x + 8 ≤ 16384 * r.v.img.scratch))) = [true, false, false] := by decide
/-- A whole tile of 4,096 elements, the last tile for every operand. -/
theorem wit_vectorForms (k : Nat) (h : k ∈ List.range 16) :
    let r := runAt (vStep k 7 4096)
    Stands (atStep (vStep k 7 4096)) 0 6 r ∧ r.st.m 7 0 = k ∧ r.tileOk r.st.a (4 * r.st.n) = true ∧
      r.tileOk r.st.b (4 * r.st.n) = true ∧ r.tileOk r.st.c (4 * r.st.n) = true ∧ r.tileOk r.st.d (4 * r.st.n) = true :=
  ⟨stands _, by revert h; revert k; decide⟩
/-- Rows of 4,096 elements, and a width of 0 and one that does not divide. -/
theorem wit_vectorRows (k : Nat) (h : k ∈ [0x0C, 0x0D, 0x0E]) :
    let r := runAt (vStep k 7 0x10001000#64)
    Stands (atStep (vStep k 7 0x10001000#64)) 0 6 r ∧ r.st.m 7 0 = k ∧ r.st.i 31 16 = 4096 ∧ r.st.n % 4096 = 0 ∧
      r.tileOk r.st.b (4 * r.st.n) = true ∧ r.tileOk r.st.a (4 * r.st.n) = true ∧
      (runAt (vStep k 7 0x1000#64)).st.i 31 16 = 0 ∧ (runAt (vStep k 7 0x30001000#64)).st.n % 3 = 1 :=
  ⟨stands _, by revert h; revert k; decide⟩

/-- UZ-8 blocks of 32 to FP16 at a full tile, one block back; no elements at all; a broken unit; UZ-KC with no binding. -/
theorem wit_decodeEncode :
    let d : Step := { op := 3, a := 7, b := 6, mod := 0x220, imm := 8192 }
    let z : Step := { op := 3, a := 7, b := 6, mod := 0x220, imm := 33 }
    let e : Step := { op := 4, a := 7, b := 6, mod := 0x2001, imm := 32 }
    let k : Step := { op := 4, a := 7, b := 6, d := 3, mod := 0x2201, imm := 32 }
    (Stands (atStep d) 0 3 (runAt d) ∧ Stands (atStep z) 0 3 (runAt z) ∧ Stands (atStep e) 0 4 (runAt e) ∧
      Stands (atStep k) 0 4 (runAt k)) ∧
    ((atStep d).kcFor (runAt d) 0x20 0 = .ok {} ∧ (atStep e).encodeSlot (runAt e) = (atStep e, none) ∧
      (atStep k).encodeSlot (runAt k) = (atStep k, some (St.denied, 0x0803))) ∧
    (let r := runAt d
     fmtBlock 0x20 = true ∧ fmtElem 2 = true ∧ r.st.m 7 0 = 0x20 ∧ r.st.m 15 8 = 2 ∧ r.st.i 15 0 % (unitOf 0x20).1 = 0 ∧
      r.st.i 15 0 * (unitOf 2).2 = 16384 ∧ r.tileOk r.st.b (8192 / (unitOf 0x20).1 * (unitOf 0x20).2) = true ∧
      r.tileOk r.st.a 16384 = true ∧ 0 % (unitOf 0x20).1 = 0 ∧ (runAt z).st.i 15 0 % (unitOf 0x20).1 ≠ 0 ∧
      (runAt e).st.m 15 8 = 0x20 ∧ (runAt e).tileOk 6 128 = true ∧ (runAt e).tileOk 7 (unitOf 0x20).2 = true ∧
      33 % (unitOf 0x20).1 ≠ 0) :=
  ⟨⟨stands _, stands _, stands _, stands _⟩, ⟨rfl, rfl, rfl⟩, by decide +kernel⟩
theorem wit_macTile :
    let st : Step := { op := 5, a := 0, b := 1, c := 2, mod := 0, imm := 0x20000080202#64 }
    let r := runAt st
    Stands (atStep st) 0 5 r ∧ (atStep st).kcFor r (r.st.i 15 8) r.st.d = .ok {} ∧
      ((∃ am, r.matrix {} r.st.a 0 2 8 8 = .ok am) ∧ ∃ bm, r.matrix {} r.st.b (r.st.m 13 0) 2 8 8 = .ok bm) ∧
      macGroupOf (r.st.i 7 0) (r.st.i 15 8) = some 8 ∧ r.st.i 28 16 = 8 ∧ r.st.i 40 40 = 0 ∧
      r.tileOk r.st.c (4 * (8 * 8)) = true :=
  ⟨stands _, rfl, ⟨⟨_, rfl⟩, _, rfl⟩, by decide +kernel⟩
theorem wit_softmaxStep (f : Nat) (h : f ∈ [1, 2, 4]) :
    let st : Step := { op := 7, a := 0, b := 1, c := 2, mod := f, imm := 0x4001#64 }
    let r := runAt st
    Stands (atStep st) 0 7 r ∧ r.st.m 7 0 = f ∧ r.st.i 7 0 = 1 ∧ r.st.i 23 8 = 64 ∧ r.tileOk r.st.b (4 * 64) = true ∧
      r.tileOk r.st.c 12 = true ∧ r.tileOk r.st.a 256 = true :=
  ⟨stands _, by revert h; revert f; decide +kernel⟩
/-- A row of 64 FP32 lanes; a lane that holds 2^31 addends, and one that holds one fewer (R187). -/
theorem wit_quernSteps :
    let acc : Step := { op := 8, a := 0, mod := 0x400 + 0x01, imm := 0x400001#64 }
    let rnd : Step := { op := 9, a := 0, mod := 0x01, imm := 0x400000#64 }
    let one : List (List Addend) := [[.num (.ofInt 1)]]
    Stands (atStep acc) 0 8 (runAt acc) ∧ Stands (atStep rnd) 0 9 (runAt rnd) ∧
      (runAt acc).c.quern[(runAt acc).st.m 9 8]? = some (List.replicate 64 {}) ∧ accFormat ((runAt acc).st.m 7 0) = true ∧
      (runAt acc).st.i 22 16 = 64 ∧ (runAt acc).st.i 15 0 * 64 % (unitOf 1).1 = 0 ∧ (runAt acc).tileOk 0 256 = true ∧
      (atStep acc).kcFor (runAt acc) 1 0 = .ok {} ∧
      (addRows [({ n := 2 ^ 31 - 1 } : Lane)] one).isSome = true ∧ addRows [({ n := 2 ^ 31 } : Lane)] one = none ∧
      roundLanes 1 (List.replicate 64 {}) = some (List.replicate 256 0, 0) ∧ (runAt rnd).tileOk 0 256 = true :=
  ⟨stands _, stands _, rfl, by decide +kernel⟩
theorem wit_quernOrder : ([.ofInt 1, .ofInt 2] : List Machine.Num).Perm [.ofInt 2, .ofInt 1] := List.Perm.swap _ _ _
theorem wit_sieveSteps :
    let x : Step := { op := 0x0C, a := 2, b := 0, c := 1, imm := 0x10040#64 }
    let h : Step := { op := 0x0D, a := 0, b := 1, d := 3, imm := 2 }
    let d : Step := { op := 0x0E, a := 0, b := 3 }
    (Stands (atStep x) 0 0x0C (runAt x) ∧ Stands (atStep h) 0 0x0D (runAt h) ∧ Stands (atStep d) 0 0x0E (runAt d)) ∧
      (runAt x).st.i 15 0 = 64 ∧ (runAt x).tileOk 0 8 = true ∧ (runAt x).tileOk 1 8 = true ∧ (runAt x).tileOk 2 2 = true ∧
      (runAt h).tileOk 0 8 = true ∧ (runAt h).tileOk 1 16 = true ∧ (runAt d).tileOk 0 0 = true :=
  ⟨⟨stands _, stands _, stands _⟩, by decide +kernel⟩
theorem wit_selectionSteps :
    let x : Step := { op := 0x0F, a := 1, b := 0, c := 2, d := 5, mod := 0x600 + 1 }
    let k : Step := { op := 0x10, a := 1, b := 0, c := 2, d := 5, imm := 0x10008#64 }
    (Stands (atStep x) 0 0x0F (runAt x) ∧ Stands (atStep k) 0 0x10 (runAt k)) ∧ (runAt x).st.m 7 0 = 1 ∧
      (runAt x).st.m 11 8 = 6 ∧ (runAt x).tileOk 0 32 = true ∧ (runAt x).tileOk 1 1 = true ∧ (runAt k).st.i 15 0 = 8 ∧
      (runAt k).tileOk 0 8 = true ∧ (runAt k).tileOk 2 1 = true ∧ (runAt k).tileOk 1 8 = true :=
  ⟨⟨stands _, stands _⟩, by decide +kernel⟩
/-- LOOP with counts 0 and 1, BRANCH_IF with each condition, and codes above 5. -/
theorem wit_controlSteps :
    (∀ st : Step, Stands (atStep st) 0 st.op (runAt st)) ∧
      ((fun (st : Step) => (st.m 0 0, st.i 47 16)) { op := 0x16, mod := 1, imm := 0x10001#64 }) = (1, 1) ∧
      ((runAt { op := 0x16, a := 0 }).c.regs.getD 0 0).toNat = 0 ∧
      (∀ k ∈ List.range 7, (runAt { op := 0x17, mod := k }).st.m 3 0 = k) :=
  ⟨stands, by decide +kernel⟩
/-- A line of 64 bytes, a tile that ends with the region, an address off the line; a gather of one row. -/
theorem wit_loads :
    let l : Step := { op := 1, a := 0, b := 1, imm := 64 }
    let g : Step := { op := 0x0A, a := 0, b := 1, c := 0, d := 3, imm := 8 }
    let s := atStep l
    let u := atStep g
    let b : Bind := { region := 5, version := 1, write := false }
    (Stands s 0 1 (runAt l) ∧ Stands u 0 0x0A (runAt g)) ∧ (s.checkLoads (runAt l) 0 64 [64] = .ok () ∧
      u.tryStall (.ctx 0) 0 5 1 [0] = (u, .go)) ∧
      ((∃ d, s.runRead (runAt l).v 0 b 64 64 = .ok d ∧ d.length = 64) ∧
        ∃ d, u.runReads (runAt g) 0 8 b [0] = .ok d ∧ (runAt g).tileOk 0 d.length = true) ∧
      (runAt l).c.shadowOf = none ∧ (runAt l).v.binds.getD 0 none = some b ∧ s.libIdent (runAt l).e ≠ 0x4B500401 ∧
      s.tryStall (.ctx 0) 0 5 1 [0] = (s, .go) ∧ u.checkLoads (runAt g) 0 8 [0] = .ok () ∧
      tileLen 63 = false ∧ tileLen 16384 = true ∧ tileLen 16448 = false :=
  ⟨⟨stands _, stands _⟩, ⟨rfl, rfl⟩, ⟨⟨List.replicate 64 0, by decide +kernel⟩, List.replicate 8 0, by decide +kernel⟩,
    by decide +kernel⟩
/-- The one page of version 1 lies in the near tier. -/
theorem wit_loads_near (st : Step) : let s := atStep st
    ∀ v, s.version 5 1 = some v → ∀ k ∈ [0], ∀ p g, v.pages.look k = some (.page p) → s.page p = some g →
      s.trayPort g.tier g.shelf = none := by
  intro s v hv k hk p g h1 h2
  cases (show some tV1 = some v from hv)
  cases List.mem_singleton.mp hk
  cases (show some (PageRef.page 1) = some (.page p) from h1)
  cases (show some tPage = some g from h2)
  rfl
theorem wit_stores :
    let t : Step := { op := 2, a := 0, b := 1, mod := 1, imm := 16384 }
    let x : Step := { op := 0x0B, a := 0, b := 1, c := 0, d := 3, mod := 0x21, imm := 40 }
    let y : Step := { op := 0x0B, a := 0, b := 1, c := 0, d := 3, mod := 0x31, imm := 40 }
    (Stands (atStep t) 0 2 (runAt t) ∧ Stands (atStep x) 0 0x0B (runAt x) ∧ Stands (atStep y) 0 0x0B (runAt y)) ∧
      ((∃ b, (atStep t).bindFor (runAt t) 1 64 16384 true = .ok b) ∧ ∃ b, (atStep x).bindFor (runAt x) 1 0 40 true = .ok b) ∧
      tileLen 16384 = true ∧ 16384 ≤ (runAt t).v.img.stage * 16384 ∧ (runAt x).st.m 5 4 = 2 ∧ (runAt x).elems 1 1 = [0] ∧
      (runAt y).st.m 5 4 = 3 :=
  ⟨⟨stands _, stands _, stands _⟩, ⟨⟨_, rfl⟩, _, rfl⟩, by decide +kernel⟩
theorem wit_atomic :
    let st : Step := { op := 0x15, a := 5, b := 0, c := 3, d := 2, mod := 0x100 }
    let s := atStep st
    let r := runAt st
    Stands s 0 0x15 r ∧ s.recipeAtom r.c = none ∧ (∃ b, s.bindFor r 1 0 8 true = .ok b ∧ r.hazard b 0 8 true = false) ∧
      s.tryStall (.ctx 0) 0 5 2 [0] = (s, .go) ∧ s.ldg.atoms.length < 1048576 ∧
      (∃ w, s.runWrite r.e r.v 1 0 (leBytes 8 (atomOp 0 0 1 8)) = (w, none) ∧ w.ldg.atoms = s.ldg.atoms ∧ w.ldg.mode ≠ .mirrored ∧
        w.ldg.bound = none) ∧
      (let a : AtomRec := { recipe := true, k0 := 0, k1 := 0, k2 := 0, old := 3, stamp := 0 }
       ({ s with ldg := { s.ldg with atoms := [a] } } : State).recipeAtom r.c = some a ∧ s.durable a.till = true ∧ a.status = 0) := by
  refine ⟨stands _, rfl, ⟨_, rfl, rfl⟩, by decide +kernel, by decide +kernel, ⟨_, rfl, rfl, ?_⟩, rfl, rfl, rfl⟩
  decide
/-- SEND of one byte; RECV of a held message of its full length, with none, and past its deadline; the arrivals. -/
theorem wit_messages :
    let x : Step := { op := 0x12, a := 0, b := 0, c := 0, d := 0, mod := 0x20, imm := 16384 }
    let y : Step := { op := 0x13, a := 0, b := 0, c := 0, d := 0, mod := 0x500, imm := 8 }
    let m : RMsg := { rmsg with data := List.replicate 8 7 }
    let s := atStep y
    let t := { s with slc := { s.slc with held := [(m, 0)] } }
    let c : Ctx := { tCtx with status := .recv 1000 }
    let u := { s with slc := { s.slc with ctxs := [(0, c)] } }
    let late : LateRecv := { tenant := 0, lsn := 0, key := 0, srcMod := 0, srcSub := 0, dstSub := 0, chan := 0 }
    let v := { s with slc := { s.slc with late := [late] } }
    Stands (atStep x) 0 0x12 (runAt x) ∧ (runAt x).st.i 15 0 = 16384 ∧ (runAt x).st.m 5 4 = 2 ∧ Stands s 0 0x13 (runAt y) ∧
      t.slc.held.find? (fun h => (runAt y).wants h.1) = some (m, 0) ∧ s.slc.held.find? (fun h => (runAt y).wants h.1) = none ∧
      u.ctx 0 = some c ∧ (u.waitTill 1000).runOf 0 = some { runAt y with c := c } ∧
      (u.waitTill 1000).slc.held.find? (fun h => { runAt y with c := c }.wants h.1) = none ∧
      m.wf = true ∧ (s.inv 0).isSome = true ∧ s.slc.late.any (fun x => x.is m) = false ∧ v.slc.late.any (fun x => x.is m) = true ∧
      up.hasTaker m = false := by
  refine ⟨stands _, by decide +kernel, by decide +kernel, stands _, by decide +kernel, by decide +kernel, rfl,
    runOf_parts (r := { runAt { op := 0x13, a := 0, b := 0, c := 0, d := 0, mod := 0x500, imm := 8 } with
      c := { tCtx with status := .recv 1000 } }) (by decide +kernel),
    by decide +kernel, by decide +kernel⟩
theorem wit_waitMark :
    let st : Step := { op := 0x14, a := 1 }
    let j : Job := { live := true }
    let e : Entry := { tEntry 0x0C with job := 3, jobLive := true }
    let s := atStep st
    let t : State := { s with
      ldg := { s.ldg with entries := [e] }, time := { s.time with jobs := [(0, j)] },
      regs := Tbl.ins (addrOf .timeJobCtl 0) (BitVec.ofNat 64 (insBits 0 F.timeJobCtlJob.hi F.timeJobCtlJob.lo 3)) [] }
    let c : Ctx := { tCtx with status := .markWait 64 1000 }
    let u : State := { t with slc := { t.slc with ctxs := [(0, c)] } }
    (runAt st).e.jobLive = false ∧ t.jobSlot 3 = some 0 ∧ posLater 0 (t.jobPos 0) = false ∧ posLater 64 (t.jobPos 0) = true ∧
      u.ctx 0 = some c ∧ c.shadowOf = none ∧ (u.waitTill 1000).runOf 0 = some { runAt st with c := c, e := e } ∧
      (u.waitTill 1000).jobSlot 3 = some 0 ∧
      posLater ((c.regs.getD 1 0).toNat % 2 ^ 48) ((u.waitTill 1000).jobPos 0) = true := by
  refine ⟨rfl, by decide +kernel, by decide +kernel, by decide +kernel, rfl, rfl,
    runOf_parts (r := { runAt { op := 0x14, a := 1 } with
      c := { tCtx with status := .markWait 64 1000 }, e := { tEntry 0x0C with job := 3, jobLive := true } }) (by decide +kernel),
    by decide +kernel, by decide +kernel⟩
theorem wit_emitAndBudget :
    let a : Step := { op := 0x18, a := 0, b := 1, mod := 4, imm := 16384 }
    let b : Step := { op := 0x18, a := 0, b := 1, mod := 1 }
    let s := atStep a
    let v : Inv := { tInv a with img := { (tInv a).img with budget := 0 } }
    let t : State := { s with slc := { s.slc with invs := [(0, v)] } }
    (Stands s 0 0x18 (runAt a) ∧ Stands (atStep b) 0 0x18 (runAt b)) ∧ (runAt a).st.m 0 0 = 0 ∧ (runAt a).st.m 2 1 = 2 ∧ (runAt a).st.i 15 0 = 16384 ∧
      (runAt a).tileOk 0 16384 = true ∧ (runAt b).st.m 0 0 = 1 ∧
      (runAt b).v.img.stride = false ∧ t.ctx 0 = some tCtx ∧ t.inv 0 = some v ∧ t.entry 0 = some (tEntry 0x0C) ∧
      (tEntry 0x0C).running = true ∧ t.ldg.fenced = false ∧ tCtx.status = .ready ∧ v.img.budget ≤ tCtx.used :=
  ⟨⟨stands _, stands _⟩, by decide +kernel⟩
/-- Sub-part 0 of one waits and fits slice 0; the final section once it has ended; a phase with nothing held commits. -/
theorem wit_subparts :
    let st : Step := { op := 0x11 }
    let a := atStep st
    let s : State := { a with slc := { a.slc with ctxs := [] } }
    let v := tInv st
    let w : Inv := { v with img := { v.img with final := 1 }, ended := [(0, 0, 0)] }
    let t : State := { s with slc := { s.slc with invs := [(0, w)] } }
    let c : Ctx := { tCtx with status := .commit 0, pc := 1 }
    let u : State := { a with slc := { a.slc with ctxs := [(0, c)] } }
    s.entry 0 = some (tEntry 0x0C) ∧ s.halting (tEntry 0x0C) = false ∧ s.inv 0 = some v ∧ (tEntry 0x0C).opcode = opInvoke ∧
      0 < v.count ∧ s.subWaits 0 0 v = true ∧ s.leastOf (s.slicesFor (s.subQuad v 0)) 0 = true ∧ s.slicesUp ≠ [] ∧
      s.sliceRoom 0 v.img = true ∧ v.shadow ≠ some 0 ∧
      t.inv 0 = some w ∧ w.img.final ≠ 0 ∧ w.allEnded = true ∧ w.finalDone = none ∧
      (t.endsOf 0 w).all (fun x => statusGood x.2.1) = true ∧ t.subWaits 0 finalSub w = true ∧
      t.leastOf (t.slicesFor (t.subQuad w finalSub)) 0 = true ∧ t.sliceRoom 0 w.img = true ∧
      u.ctx 0 = some c ∧ u.sliceUp c.slice = true ∧ u.sliceTested c.slice = true ∧ u.shadowCx 0 = none ∧
      c.pc ≤ v.img.lastStep c.sub ∧ u.ldg.mode = .loc ∧ u.ldg.bound = none ∧ s.ldg.fenced = false ∧
      s.libIdent (tEntry 0x0C) ≠ libAppend := by
  refine ⟨rfl, rfl, rfl, rfl, by decide +kernel⟩

/-! Effects, from the spec's words. -/

/-- Register x of context 0. -/
def reg0 (x : Nat) (t : State) : W64 := match t.ctx 0 with | some c => c.regs.getD x 0 | none => 0
def tile0 (n : Nat) (t : State) : List Byte := match t.ctx 0 with | some c => Bytes.rd c.scratch 0 n | none => []
/-- Context 0 with bytes at the start of its tiles 0 and 1. -/
def withTile (st : Step) (b : List Byte) (c : List Byte := []) : State :=
  let s := atStep st
  { s with slc := { s.slc with ctxs := [(0, { tCtx with scratch := Bytes.wr (Bytes.wr [] 0 b) 16384 c })] } }

/-- SUB wraps at 64 bits (R212). -/
theorem test_scalarSub_wraps : after (exec (.scalarSub 0) (atStep { op := 6, a := 9, b := 0, c := 3, mod := 0x83 })) (reg0 9) =
    some 0xFFFFFFFFFFFFFFFF#64 := by decide +kernel
/-- SHL takes its count mod 64 (R212): a count of 64 shifts by 0. -/
theorem test_scalarShl_modulo : after (exec (.scalarShl 0) (atStep { op := 6, a := 9, b := 2, c := 1, mod := 0x85 })) (reg0 9) =
    some 8#64 := by decide +kernel
/-- LD of 8 bytes, least significant byte first (R212). -/
theorem test_scalarLd_bytes : after (exec (.scalarLd 0) (withTile { op := 6, a := 9, b := 0, mod := 0x8A } [1, 2, 0, 0, 0, 0, 0, 128]))
    (reg0 9) = some 0x8000000000000201#64 := by decide +kernel
/-- 1.0 + 2.0 = 3.0 in FP32 (R184). -/
theorem test_vecAdd_sum : after (exec (.vecAdd 0) (withTile { op := 6, a := 0, b := 0, c := 1, mod := 0, imm := 1 }
    (leBytes 4 0x3F800000) (leBytes 4 0x40000000))) (tile0 4) = some (leBytes 4 0x40400000) := by
  decide +kernel
/-- 1.0 ÷ 3.0 rounds to nearest even (R178, R184). -/
theorem test_vecDiv_rounds : div32 0x3F800000 0x40400000 = 0x3EAAAAAB := by decide +kernel
/-- √2 rounded (R184). -/
theorem test_vecSqrt_rounds : sqrt32 0x40000000 = 0x3FB504F3 := by decide +kernel
/-- MIN of −0 and +0 is −0, and MAX is +0, or a NaN's partner is not chosen (R184): a NaN operand gives NaN. -/
theorem test_vecMin_zeros : min32 0x80000000 0 = 0x80000000 := by decide +kernel
/-- BRANCH_IF with condition 0 on equal registers goes to its target; LOOP with count 0 skips its body (R211). -/
theorem test_branchIf_taken : after (exec (.branchIf 0) (atStep { op := 0x17, a := 0, b := 0, imm := 1 }))
    (fun t => (t.ctx 0).map (fun c => c.pc)) = some (some 1) := by decide +kernel
/-- XOR_POPCOUNT of 64 bits: 0x0F against 0xFF differ in 4 (R211). -/
theorem test_xorPopcount_distance : after (exec (.xorPopcount 0) (withTile { op := 0x0C, a := 0, b := 0, c := 1, imm := 0x10040#64 }
    [0x0F] [0xFF])) (tile0 2) = some [4, 0] := by decide +kernel
/-- HEAP_DRAIN writes entries best first, 16 bytes each (R211). -/
theorem test_heapInsert_order : after (exec (.heapInsert 0) (withTile { op := 0x0D, a := 0, b := 1, d := 9, imm := 2 }
    [5, 0, 3, 0])) (fun t => (t.ctx 0).map (fun c => c.heap.map Prod.fst)) = some (some [3, 5]) := by decide +kernel
/-- A store of a tile is held until the phase commits (R206). -/
theorem test_storeTile_held : after (exec (.storeTile 0) (atStep { op := 2, a := 0, b := 1, mod := 1, imm := 64 }))
    (fun t => ((t.ctx 0).map (fun c => c.stage.length), decide (t.rgn = (atStep { op := 2 }).rgn))) = some (some 1, true) := by
  decide +kernel

/-! ### Rings and descriptors -/

/-- Port 0 is CXL-up and its host acts for tenant 0; pair 0 of tenant 0 is on. -/
def upPort : State :=
  { up with fab := { up.fab with ports := [(0, { st := .up, role := roleUp })] } }
def ringState : State :=
  ((((upPort.setFld F.portEpValid 1 0 0).setFld F.portEpEp 0x1000 0 0).setFld F.tqTenCtlEnable 1 0).setFld
    F.tqRingCtlEnable 1 0).setFld F.tqRingCtlSqLog2 4 0
def host : DbSrc := { port := 0, ep := 0x1000 }
def withRing (s : State) (r : Ring) : State := { s with tq := { s.tq with rings := [(0, r)] } }

/-- A head at the write index, and one past it. -/
theorem wit_completionDoorbell :
    let s := withRing ringState { widx := 3, head := 1 }
    s.ldg.fenced = false ∧ s.entitled host 0 = true ∧ s.liveP (8 * 0 + 0) = true ∧
      ((3 : W32) - (s.ring 0).head).toNat ≤ ((s.ring 0).widx - (s.ring 0).head).toNat ∧
      ((s.ring 0).widx - (s.ring 0).head).toNat < ((4 : W32) - (s.ring 0).head).toNat := by decide +kernel
/-- The last offset of a page, a live pair and one that is not, the full ring and one more. -/
theorem wit_submissionDoorbell :
    let s := ringState
    s.ldg.fenced = false ∧ s.entitled host 0 = true ∧ s.entitled { host with ep := 0x1001 } 0 = false ∧ 2 ^ 20 - 1 < 2 ^ 20 ∧
      (2 ^ 20 - 1) % 8 ≠ 0 ∧ s.liveP 0 = true ∧ s.liveP 7 = false ∧ ((16 : W32) - (s.ring 0).tail).toNat ≤ 2 ^ 4 ∧
      ¬(((17 : W32) - (s.ring 0).tail).toNat ≤ 2 ^ 4) ∧ s.fld F.tqRingCtlSqLog2 0 = 4 := by decide +kernel
theorem wit_descriptorAccept :
    let s := withRing ringState { tail := 1 }
    let t := s.setFetch (.sqFetch 0 0) (.got (List.replicate 64 0))
    ringState.mayAccept 0 = false ∧ s.mayAccept 0 = true ∧ t.mayAccept 0 = true ∧
      t.fetchOf (.sqFetch 0 0) = some (.got (List.replicate 64 0)) ∧ s.fetchOf (.sqFetch 0 0) = none ∧
      (∀ st d, (s.readEp 0 (s.fld F.tqRingSqBasePtr 0 + 64 * (0 % s.sqSize 0)) 64 (.sqFetch 0 0)).fetchOf (.sqFetch 0 0) ≠
        some (.failed st d)) ∧ t.ldg.mode ≠ .mirrored ∧ t.ldg.bound = none ∧ t.entry t.ldg.nextLsn = none := by
  intro s t
  have parts : (ringState.mayAccept 0 = false ∧ s.mayAccept 0 = true ∧ t.mayAccept 0 = true ∧
      t.fetchOf (.sqFetch 0 0) = some (.got (List.replicate 64 0)) ∧ s.fetchOf (.sqFetch 0 0) = none) ∧
      t.ldg.mode ≠ .mirrored ∧ t.ldg.bound = none ∧ t.entry t.ldg.nextLsn = none := by decide +kernel
  obtain ⟨⟨a, b, c, d, e⟩, f⟩ := parts
  refine ⟨a, b, c, d, e, ?_, f⟩
  intro st d h
  have e : (((withRing ringState { tail := 1 }).readEp 0 ((withRing ringState { tail := 1 }).fld F.tqRingSqBasePtr 0 +
    64 * (0 % (withRing ringState { tail := 1 }).sqSize 0)) 64 (.sqFetch 0 0)).fetchOf (.sqFetch 0 0)).map
      (fun f => match f with | .failed _ _ => true | _ => false) = some false := by decide +kernel
  rw [h] at e
  cases e
def accepted (ws : List W64) : State :=
  { up with ldg := { entries := [{ lsn := 0, words := ws ++ List.replicate (8 - ws.length) 0 }], nextLsn := 1 } }
theorem wit_descriptorStart :
    let e : Entry := { lsn := 0, words := List.replicate 8 0 }
    let f : Entry := { lsn := 0, words := 0x12#64 :: List.replicate 7 0 }
    (accepted []).entry 0 = some e ∧ (accepted []).mayStart e = true ∧ descBad e.words = none ∧ (accepted [0x12#64]).entry 0 = some f ∧
      (accepted [0x12#64]).mayStart f = true ∧ descBad f.words = some 0x0001 ∧ State.reset.mayStart e = false := by decide +kernel
theorem wit_descriptorComplete :
    let c : Cpl := { tag := 0, index := 0, status := 0, opcode := 0, pair := 0, detail := 0 }
    let e : Entry := { lsn := 0, state := .committed, cpl := some c, words := List.replicate 8 0 }
    let s : State := { ringState with ldg := { entries := [e], nextLsn := 1 } }
    s.entry 0 = some e ∧ e.acceptedDesc = true ∧ s.durable e.till = true ∧ e.opcode ≠ opInvoke ∧ s.ldg.fenced = false ∧
      s.epRefusal (ptrPort (s.fld F.tqRingCqBasePtr e.pair)) = none ∧ s.cqBad e.pair = false := by decide +kernel
/-- A FENCE alone, behind an older descriptor of its pair, and over a stream with stores. -/
theorem wit_nopAndFence :
    let e := tEntry 0x0D
    let s := opState e
    let f : Entry := { e with lsn := 1 }
    let t : State := { s with ldg := { entries := [tEntry 0, f], nextLsn := 2 } }
    let u : State := { s with fab := { s.fab with tx := [(4, { stored := [0] })] } }
    let blocks := fun (x : Entry) => x.live &&
      ((x.pair = f.pair && x.lsn < f.lsn) || (bit (f.w 2) 0 && x.tenant = f.tenant && x.accepted < f.accepted))
    Working (opState (tEntry 0)) 0 0 (tEntry 0) ∧ Working s 0 0x0D e ∧ s.fenceStreams e = [] ∧ t.ldg.entries.any blocks = true ∧
      t.entry 1 = some f ∧ u.fenceStreams e = [4] ∧ e.note = [] :=
  ⟨working _ _, working _ _, by decide +kernel⟩

/-- Words of a MOVE from the published version 1 to the open version 2 of region 5, 64 bytes, no conversion; and its forms with
an endpoint's buffer at either end. -/
def refPub : W64 := BitVec.ofNat 64 (5 + 2 ^ 24)
def refOpen : W64 := BitVec.ofNat 64 (5 + 2 * 2 ^ 24)
def moveWords (flags : W64) : List W64 := [0, refPub, 0, refOpen, 0, 64, flags]
def outOf (o : Except (Nat × Nat) (Region × Nat × Version)) : Option (Nat × VState) :=
  match o with | .ok (_, n, v) => some (n, v.state) | .error _ => none
/-- A region whose page another module holds: region 5 at home on module 1. -/
def farMap (s : State) : State := { s with fab := { s.fab with map := { s.fab.map with regions := [(5, { home := 1, holders := [1], stripe := 65536 })] } } }
theorem wit_move :
    let e := tEntry 0x01 (moveWords 0)
    let s := opState e
    let take := fun (s : State) => (s.addRef 5 1).putEntry { e with ref := some (5, 1) }
    let f := tEntry 0x01 (moveWords 1)
    let t : State := ({ ringState with rgn := s.rgn, ldg := { s.ldg with entries := [{ f with note := [2, 2] }] } } : State).setFetch
      (.moveRead 0) (.got (List.replicate 64 9))
    let u : State := { s with ldg := { s.ldg with entries := [{ e with note := [1] }] } }
    let zeros := fun (s : State) => match (take s).readVersion 5 1 0 64 e.acceptAt with | .ok (b, []) => b | _ => []
    let dst := fun (s : State) => match s.moveDst e with | .ok n => n | .error _ => 99
    (Working s 0 1 e ∧ e.note = [] ∧ outOf (s.resolveRead (s.callerOf e) (refOf (e.w 2))) = some (1, .published) ∧
      bits (e.w 7) 15 8 ≠ fmtKc ∧ dst s = 2 ∧ zeros s = List.replicate 64 0 ∧ (take s).farSpans 5 tRegion 0 64 = []) ∧
      (dst (farMap s) = 2 ∧ zeros (farMap s) = List.replicate 64 0 ∧ (take (farMap s)).farSpans 5 tRegion 0 64 ≠ []) ∧
      ((match (opState f).moveDst f with | .ok n => n | .error _ => 99) = 2 ∧ bit (f.w 7) 0 = true) ∧
      (t.entry 0 = some { f with note := [2, 2] } ∧ t.fetchOf (.moveRead 0) = some (.got (List.replicate 64 9))) ∧
      (u.entry 0 = some { e with note := [1] } ∧ u.hasFabric 0 = false ∧ u.fetchOf (.moveWrite 0) = none) ∧
      (s.writeVersion 5 2 0 (List.replicate 64 0) false e.acceptAt e.job (.moveWrite e.lsn)).2 = none ∧
      (s.writeVersion 5 2 0 (List.replicate 64 0) false e.acceptAt e.job (.moveWrite e.lsn)).1.hasFabric e.lsn = false ∧
      ((farMap s).writeVersion 5 2 0 (List.replicate 64 0) false e.acceptAt e.job (.moveWrite e.lsn)).2 = none ∧
      ((farMap s).writeVersion 5 2 0 (List.replicate 64 0) false e.acceptAt e.job (.moveWrite e.lsn)).1.hasFabric e.lsn = true ∧
      (ringState.writeEp 0 0 2 (List.replicate 64 0) false (.moveWrite 0)).2 = none := by
  intro e s take f t u zeros dst
  exact ⟨⟨working _ _, by decide +kernel⟩, by decide +kernel⟩
theorem wit_loadTable :
    let e := tEntry 0x11 [0, 0xF, 0, 64]
    let s := opState e
    let img := leBytes 4 7 ++ List.replicate 60 0
    let g : Entry := { e with note := [15, 0, 0] }
    let t : State := ({ s with ldg := { s.ldg with entries := [g] } } : State).setFetch (.image 0) (.got img)
    Working s 0 0x11 e ∧ (match s.loadTarget e.tenant (bits (e.w 2) 4 0) with | .ok n => n | .error _ => 99) = 15 ∧
      bits (e.w 4) 31 0 = 64 ∧ t.entry 0 = some g ∧ t.fetchOf (.image 0) = some (.got img) ∧ (tabImg img).good 64 0 = true :=
  ⟨working _ _, by decide +kernel⟩

/-! Effects. -/

/-- A completion doorbell past the write index faults the pair with code 0x02 (R32). -/
theorem test_completionDoorbell_faults : after (exec (.completionDoorbell host 0x40 8 4) (withRing ringState { widx := 3, head := 1 }))
    (fun t => ((t.ring 0).faulted, (t.ring 0).code, (t.ring 0).head)) = some (true, 2, 1) := by decide +kernel
/-- A submission doorbell of 4 bytes is an error and moves nothing (R31). -/
theorem test_submissionDoorbell_size : after (exec (.submissionDoorbell host 0 4 1) ringState)
    (fun t => ((t.ring 0).tail, t.fld F.tqDbErrCount)) = some (0, 1) := by decide +kernel
/-- A descriptor of opcode 0x12 ends with MALFORMED 0x0001 as it starts (R44, R50). -/
theorem test_descriptorStart_malformed : after (exec (.descriptorStart 0) (accepted [0x12#64]))
    (fun t => (t.entry 0).map (fun e => (e.state, e.cpl.map (fun c => (c.status, c.detail))))) =
      some (some (.committed, some (0x0C, 0x0001))) := by decide +kernel
/-- NOP fixes OK (R44). -/
theorem test_nop_ok : after (exec (.nop 0) (opState (tEntry 0)))
    (fun t => (t.entry 0).map (fun e => (e.state, e.cpl.map (fun c => c.status)))) = some (some (.committed, some 0)) := by
  decide +kernel

/-! ### Regions, versions, tiers -/

theorem wit_fixedResult :
    let s := opState (tEntry 0)
    s.entry 0 = some (tEntry 0) ∧ (tEntry 0).acceptedDesc = true ∧ (tEntry 0).state = .started := by decide +kernel
def regionOf (o : Except (Nat × Nat) Region) : Option Region := match o with | .ok r => some r | .error _ => none
/-- The version 2 of region 5 before it is sealed, and after. -/
def withV2 (s : State) (v : Version) : State :=
  { s with rgn := { s.rgn with regions := [(5, { tRegion with vers := [(1, tV1), (2, v)] })] } }
theorem wit_regionsAndVersions :
    let a := tEntry 0x02 [0, 5, 65536, 0]
    let b := tEntry 0x02 [0, 6, 65536, 0]
    let f := tEntry 0x03 [0, 5]
    let o := tEntry 0x04 [0, refPub]
    let c := tEntry 0x05 [0, refOpen]
    let t := withV2 (opState o) { tV2 with state := .sealed }
    (opState a).allocFail a = some (St.denied, 0x0308) ∧
      (opState b).allocFail b = none ∧
      regionOf ((opState f).rights ((opState f).callerOf f) (refOf (f.w 2)).region false false) = some tRegion ∧
      outOf (t.named (t.callerOf o) (refOf (o.w 2)) false false) = some (1, .published) ∧
      openFail { tRegion with vers := [(1, tV1), (2, { tV2 with state := .sealed })] } tV1 o.pair = none ∧
      outOf ((opState c).named ((opState c).callerOf c) (refOf (c.w 2)) false false) = some (2, .opened) ∧
      tV2.writer = c.pair ∧ tV2.parted = false ∧
      ((opState c).ldg.entries.any (fun x => x.pair = c.pair && x.live && x.lsn < c.lsn)) = false ∧
      (opState c).version 5 2 = some tV2 := by decide +kernel
theorem wit_publishAndRetire :
    let p := tEntry 0x06 [0, BitVec.ofNat 64 (5 + 2 ^ 33), 1]
    let s := withV2 (opState p) { tV2 with state := .sealed }
    let r := tEntry 0x07 [0, BitVec.ofNat 64 (5 + 2 ^ 33)]
    let t := withV2 (opState r) { tV2 with state := .orphan, orphanUntil := 5 }
    let q := tEntry 0x07 [0, refPub]
    let h : Entry := { tEntry 0x06 [0, BitVec.ofNat 64 (5 + 2 ^ 33), 1] with note := [2, 7] }
    let u : State := { s with ldg := { s.ldg with entries := [h] } }
    p.note = [] ∧ outOf (s.named (s.callerOf p) (refOf (p.w 2)) false false) = some (2, .sealed) ∧
      s.publishFail p { tV2 with state := .sealed } = none ∧ (s.holderList 5 2).filter (· ≠ s.self) = [] ∧
      bits (p.w 3) 31 0 = 1 ∧ s.publishFail (tEntry 0x06 [0, BitVec.ofNat 64 (5 + 2 ^ 33), 7]) { tV2 with state := .sealed } = none ∧
      up.ldg.fenced = false ∧ (opState p).version 5 2 = some tV2 ∧
      u.entry 0 = some h ∧ h.failedParts = [] ∧ u.tier.moves = [] ∧
      outOf (t.named (t.callerOf r) (refOf (r.w 2)) false false) = some (2, .orphan) ∧
      outOf ((opState q).named ((opState q).callerOf q) (refOf (q.w 2)) false false) = some (1, .published) ∧
      t.version 5 2 = some { tV2 with state := .orphan, orphanUntil := 5 } := by decide +kernel
/-- Each kind of QUERY, before and after its bytes are written, and a result of one entry that fits its buffer exactly. -/
theorem wit_queries :
    let e (k : Nat) := tEntry 0x0F [0, BitVec.ofNat 64 k, refPub, 0, 64]
    let g (k : Nat) : Entry := { e k with note := [1, 64] }
    (∀ k ∈ [1, 2, 3, 4, 5, 6], bits ((e k).w 2) 7 0 = k ∧ (e k).note = [] ∧ (opState (e k)).hasFabric 0 = false ∧
      (opState (g k)).entry 0 = some (g k) ∧ (opState (g k)).fetchOf (.query 0) = none) ∧
      regionOf ((opState (e 1)).rights ((opState (e 1)).callerOf (e 1)) 5 true false) = some tRegion ∧
      outOf ((opState (e 3)).named ((opState (e 3)).callerOf (e 3)) (refOf ((e 3).w 3)) true false) = some (1, .published) ∧
      (({ ringState with ldg := (opState (e 1)).ldg } : State).writeEp 0 0 2 (List.replicate 64 0) false (.query 0)).2 = none ∧
      bits ((e 1).w 5) 31 0 = 64 := by decide +kernel
theorem wit_holdsAndMoves :
    let h := tEntry 0x08 [0, refPub]
    let r := tEntry 0x09 [0, refPub]
    let v : Version := { tV1 with holds := [0] }
    let t : State := { opState r with rgn := { (opState r).rgn with regions := [(5, { tRegion with vers := [(1, v), (2, tV2)] })] } }
    let p := tEntry 0x0A [0, refPub, 0, 65536]
    let d := tEntry 0x0B [0, refPub, 0, 65536, 1]
    let held := fun (l : List Nat) => { opState d with rgn := { (opState d).rgn with
      regions := [(5, { tRegion with vers := [(1, { tV1 with holds := l }), (2, tV2)] })] } }
    let left := fun (l : List Nat) => (((held l).dropHold 5 1 0).version 5 1).map (fun v => v.holds)
    (left [0] = some [] ∧ left [0, 255] = some [255] ∧ left [255] = some [255]) ∧
    outOf ((opState h).heldRef h false false false) = some (1, .published) ∧ (opState h).version 5 1 = some tV1 ∧
      outOf (t.heldRef r false true true) = some (1, .published) ∧ 0 ∈ v.holds ∧ 0 ∉ tV1.holds ∧
      outOf ((opState p).heldRef p true false false) = some (1, .published) ∧ (opState p).pacedFail p = none ∧
      moveRange p tRegion = some (0, 1) ∧ moveRange (tEntry 0x0A [0, refPub, 65536, 65536]) tRegion = none ∧
      outOf ((opState d).heldRef d false false false) = some (1, .published) ∧ moveRange d tRegion = some (0, 1) ∧
      (opState d).demoteFail d tRegion = none ∧ d.tenant = tRegion.owner ∧ tV1.state ≠ .retiring ∧ tV1.pend = none ∧
      ((opState d).tier.moves.any (fun m => m.2.mover = .demote 0)) = false := by decide +kernel

/-- A page going down: copied, open on a tray, unreadable, pinned, held, not the next of a paced move; one going up; no move's; a
sub-part while fenced, for an unknown and a known version; a stall with and without gates, closed and open. -/
theorem wit_pagesAndStalls :
    let m : MoveJob := { mover := .demote 0, tenant := 0, region := 5, version := 1, target := 1, todo := [1] }
    let mv : PageMv := { tier := 1, shelf := 0, job := 0 }
    let g : Page := { tPage with mv := some mv }
    let s : State := { opState (tEntry 0x0B) with tier := { moves := [(0, m)], nextMove := 1 } }
    let t : State := { s with rgn := { s.rgn with pages := [(1, g), (2, tPage)] } }
    let n : MoveJob := { m with up := true, target := 0, paced := some (0, 1, 3, 0) }
    let u : State := { t with tier := { t.tier with moves := [(0, n)] } }
    let vers := fun (v : Version) => ({ t with rgn := { t.rgn with regions := [(5, { tRegion with vers := [(1, v)] })] } } : State)
    let open1 : State := { t with fab := { t.fab with waits := [{ tag := 0, dst := 0, port := 0, purpose := .tray 1 }] } }
    let out1 : State := { t with pwr := { t.pwr with fault := 0xF } }
    (t.page 1 = some g ∧ g.mv = some mv ∧ t.move? 0 = some m ∧ t.autoOff m = false ∧ m.next 1 = true ∧
      t.trayOpen 1 = false ∧ t.unreadable g = false ∧ m.down = true ∧ t.pagePinned 1 = false ∧ t.downOk 1 = true) ∧
      (open1.trayOpen 1 = true ∧ open1.page 1 = some g) ∧ (out1.unreadable g = true ∧ out1.trayOpen 1 = false) ∧
      (vers { tV1 with pins := [{ pair := 0, lsn := 0, lo := 0, hi := 1 }] }).pagePinned 1 = true ∧
      ((vers { tV1 with holds := [0] }).pagePinned 1 = false ∧ (vers { tV1 with holds := [0] }).downOk 1 = false) ∧
      (n.next 1 = true ∧ n.down = false ∧ n.up = true ∧ m.up = false ∧ u.move? 0 = some n ∧
        { n with todo := [2, 1] }.next 1 = false) ∧
      (s.page 1 = some tPage ∧ s.trayOpen 1 = false) := by decide +kernel
/-- Region 5, homed on module 1, this module among its holders. -/
def partMap (s : State) : State :=
  { s with fab := { s.fab with map := { s.fab.map with regions := [(5, { home := 1, holders := [1, 0], stripe := 65536 })] } } }
theorem wit_subpartsAndStalls :
    let w : State := { up with
      tier := { stalls := [(0, { who := .ctx 0, tenant := 0, region := 5, version := 1, page := 0, since := 0 })] } }
    let x : State := { up with
      tier := { stalls := [(0, { who := .ctx 0, tenant := 0, region := 5, version := 1, page := 0, since := 0, gates := [(0, 1)] })] } }
    let inst := fun (s : State) => (s.tier.stalls.look 0).map (fun t => t.gates.any s.instOpen)
    let o : State := { x with time := { x.time with jobs := [(0, { live := true, gates := [(0, { inst := some 1 })] })] } }
    (moveReq.wf = true ∧ { moveReq with promote := false, paced := true, layers := 2 }.wf = true ∧ up.ldg.fenced = false ∧
      up.self = 0 ∧ (up.meet 5 2 0).version 5 2 = none) ∧
      (((partMap up).meet 5 2 0).version 5 2).isSome = true ∧ (((partMap up).meet 5 2 0).region 5).isSome = true ∧
      ((opState (tEntry 0)).meet 5 2 0).version 5 2 = some tV2 ∧
      inst w = some false ∧ inst x = some false ∧ inst o = some true := by decide +kernel
/-- Window 0 of job 3 stages its first layer; then it lands, at once or once its copies have; a page of advice expires. -/
theorem wit_windows :
    let j : Job := { live := true }
    let s := opState (tEntry 0)
    let a : State := { s with
      time := { s.time with jobs := [(0, j)] },
      regs := Tbl.ins (addrOf .timeJobCtl 0) (BitVec.ofNat 64 (insBits 0 F.timeJobCtlJob.hi F.timeJobCtlJob.lo 3)) [],
      tier := { s.tier with wins := [(0, { on := true })] } }
    let b := (a.setFld F.tierWinCtlJob 3 0).setFld F.tierWinCtlRegion 5 0
    let c : State := { up with tier := { wins := [(0, { on := true, staging := some (0, 0, [7]), copies := [(0, 0, 7, 4)] })] } }
    let o : State := { c with fab := { c.fab with waits := [{ tag := 0, dst := 0, port := 0, purpose := .tray 4 }] } }
    let waits := fun (s : State) => (s.win 0).copies.any (fun x => x.1 = 0 && x.2.1 = 0 && s.trayOpen x.2.2.2)
    let d : State := up.modTen 0 (fun x => { x with advice := [(1, 0, 0)] })
    (b.winSlot 0 = some 0 ∧ (b.win 0).on = true ∧ (b.win 0).staging = none ∧ gatesAllow (b.winGates 0) = true ∧
      (b.winDue 0 0).find? (fun k => !((b.win 0).landed.any (· = k))) = some (0, 0) ∧
      ((b.winTake 0 0).winVersion 0 0).isSome = true) ∧
      ((c.win 0).staging = some (0, 0, [7]) ∧ waits c = false) ∧ ((o.win 0).staging = some (0, 0, [7]) ∧ waits o = true) ∧
      (∀ t ∈ [0, 255], (up.waitTill (1000000 * up.fld F.tierCtlScanMs)).fld F.tierTenCtlPlace t = 0) ∧
      (d.ten 0).advice = [(1, 0, 0)] := by decide +kernel
/-- The last near shelf but the system one. -/
theorem wit_shelves :
    let s : State := { up with rgn := { up.rgn with shelves := [(126, { st := .draining })] } }
    let t : State := { up with rgn := { up.rgn with shelves := [(126, { st := .scrubbing })] } }
    let m : MoveJob := { mover := .evacuate (shelfKey 0 126), tenant := 0, region := 0, version := 0, target := 0, todo := [] }
    let u : State := { up with tier := { up.tier with moves := [(0, m)], nextMove := 1 } }
    let v : State := { s with ldg := { entries := [{ tEntry 0 with drains := [126] }], nextLsn := 1 } }
    s.shelf 0 126 = some { st := .draining } ∧ s.drainCount 0 126 = 0 ∧ t.shelf 0 126 = some { st := .scrubbing } ∧
      t.pwr.step = 0 ∧ u.running = true ∧ u.evacMove 0 126 = some (0, m) ∧ u.idsOn 0 126 = [] ∧ v.drainCount 0 126 = 1 := by
  decide +kernel
/-- An image that is none, an INVOKE of a recipe slot with no parameters, the end of one, and a work key. -/
theorem wit_recipes :
    let l : Entry := { tEntry 0x10 with note := [3, 0, 0] }
    let t : State := ({ opState l with ldg := { entries := [l], nextLsn := 1 } } : State).setFetch (.image 0) (.got [1])
    let e := { tEntry 0x0C [0, 3] with slotRef := true }
    let img : Image := { ident := 7, steps := [{ op := 0x11 }] }
    let s : State := { opState e with slc := { (opState e).slc with slots := [(3, { st := .loaded, img := some img })] } }
    let v : Inv := { pair := 0, img := img, ended := [(0, 0, 0)] }
    let u : State := { s with slc := { s.slc with invs := [(0, v)] } }
    let w : State := { u with ldg := { u.ldg with
      entries := [{ e with workId := 9 }], works := [{ tenant := 0, work := 9, runs := [0] }] } }
    let x : State := { u with ldg := { u.ldg with
      entries := [{ e with workId := 9 }], works := [{ tenant := 0, work := 9, winner := some (1, 0) }] } }
    let p : Entry := { tEntry 0x0C [0, 0x103] with slotRef := true }
    let asked := (opState p).readEp 0 0 0 (.params 0)
    let key := x.ldg.works.find? (fun k => k.tenant = 0 && k.work = 9 && k.winner.isSome && !k.writes)
    (t.entry 0 = some l ∧ t.fetchOf (.image 0) = some (.got [1]) ∧ goodImage [1] = none) ∧
      ((opState (tEntry 0x10 [0, 3, 0, 80])).recipeFail 0 3 = none ∧ bits ((tEntry 0x10 [0, 3, 0, 80]).w 4) 31 0 = 80 ∧
        ({ u with slc := { u.slc with slots := [(3, { st := .loaded, owner := 1 })] } } : State).recipeFail 0 3 = some (St.denied, 0x0832)) ∧
      (s.inv 0 = none ∧ bit (e.w 2) 8 = false ∧ bit (p.w 2) 8 = true) ∧
      (match s.invokeCheck e [] with | .ok _ => true | .error _ => false) = true ∧
      (match (opState (tEntry 0x0C)).invokeCheck (tEntry 0x0C) [] with | .ok _ => (0, 0) | .error f => f) = (St.denied, 0x0821) ∧
      ((opState p).fetchOf (.params 0) = none ∧ (asked.setFetch (.params 0) (.got [])).fetchOf (.params 0) = some (.got [])) ∧
      (u.inv 0 = some v ∧ u.invokeOver 0 v = true ∧ (u.endsOf 0 v).all (fun x => statusGood x.2.1) = true ∧ e.workId = 0) ∧
      (w.rivals 0 = [] ∧ w.workKey { e with workId := 9 } = some { tenant := 0, work := 9, runs := [0] }) ∧
      x.workKey { e with workId := 9 } = some { tenant := 0, work := 9, winner := some (1, 0) } ∧ key.isSome = true := by
  decide +kernel
/-- A lone failed part; two not ready; two that fail otherwise; and a failed row gather with a line to poison, before and after. -/
theorem wit_invokeFails :
    let e := { tEntry 0x0C [0, 3] with slotRef := true, ident := libGatherRows }
    let img : Image := { ident := 7, steps := [{ op := 0x11 }] }
    let st := fun (v : Inv) => ({ ringState with
      ldg := (opState e).ldg,
      slc := { slots := [(3, { st := .loaded, img := some v.img })], invs := [(0, v)] } } : State)
    let f : Inv := { pair := 0, img := img, ended := [(0, St.timeout, 0x0806)] }
    let n : Inv := { f with count := 2, ended := [(0, 0x06, 0x0411), (1, 0x06, 0x0411)] }
    let q : Inv := { n with ended := [(0, 0x06, 0x0411), (1, St.timeout, 0x0806)] }
    let row : List Byte := Bytes.rd (Bytes.wr (Bytes.wr [] 44 [64]) 48 [1]) 0 88
    let r : Inv := { f with img := { img with ident := libGatherRows }, params := row }
    let fails := fun (v : Inv) => ((st v).endsOf 0 v).filter (fun x => !(statusGood x.2.1))
    let ended := fun (v : Inv) => (st v).inv 0 = some v ∧ (st v).invokeOver 0 v = true
    (ended f ∧ fails f = [(0, St.timeout, 0x0806)] ∧ ((st f).poisonGather e f).hasFabric 0 = false) ∧
      (ended n ∧ fails n = [(0, 0x06, 0x0411), (1, 0x06, 0x0411)]) ∧
      (ended q ∧ fails q = [(0, 0x06, 0x0411), (1, St.timeout, 0x0806)]) ∧
      (ended r ∧ ((st r).poisonGather e r).hasFabric 0 = true) ∧ ended { r with poisoned := true } := by decide +kernel
/-- The 80 bytes of an image of one PREFETCH step: header, and the CRC of its step. -/
def tImage : List Byte :=
  let step : List Byte := [0x11] ++ List.replicate 15 0
  leBytes 4 7 ++ [1, 0, 1, 0] ++ List.replicate 24 0 ++ leBytes 4 1 ++ List.replicate 4 0 ++ leBytes 4 (crc32c step) ++
    List.replicate 20 0 ++ step
theorem wit_goodImage : tImage.length = 80 ∧ (goodImage tImage).map (fun i => (i.ident, i.scratch, i.budget, i.steps)) =
    some (7, 1, 1, [{ op := 0x11 }]) := by decide +kernel
/-- Two runs of one work identity, the lower l.lsn first. -/
theorem wit_workRivals :
    let a : Entry := { tEntry 0x0C [0, 3] with workId := 9 }
    let b : Entry := { a with lsn := 1 }
    let v : Inv := { pair := 0, img := { ident := 7, steps := [{ op := 0x11 }] }, ended := [(0, 0, 0)] }
    let s : State := { up with
      ldg := { entries := [a, b], nextLsn := 2, works := [{ tenant := 0, work := 9, runs := [0, 1] }] },
      slc := { invs := [(0, v), (1, v)] } }
    s.rivals 1 = [0] ∧ s.entry 0 = some a ∧ a.running = true ∧ s.inv 0 = some v ∧ s.invokeOver 0 v = true ∧
      (s.workKey a).map (fun k => k.winner) = some none := by decide +kernel

/-! Effects. -/

/-- OPEN of a published version answers the next number, in result0 (R76). -/
theorem test_openVersion_numbers :
    after (exec (.openVersion 0) (withV2 (opState (tEntry 0x04 [0, refPub])) { tV2 with state := .sealed }))
      (fun t => ((t.entry 0).map (fun e => e.cpl.map (fun c => (c.status, c.r0))), (t.version 5 3).map (fun v => v.state))) =
      some (some (some (0, 3)), some .opened) := by decide +kernel
/-- SEAL of the pair's open version (R77); the same of a sealed one is refused 0x0302 (log entry 150). -/
theorem test_seal_once :
    after (exec (.seal 0) (opState (tEntry 0x05 [0, refOpen]))) (fun t => (t.version 5 2).map (fun v => v.state)) =
      some (some .sealed) := by decide +kernel
/-- RETIRE of the latest version is refused 0x0305 (R76). -/
theorem test_retire_latest :
    after (exec (.retire 0) (opState (tEntry 0x07 [0, refPub])))
      (fun t => (t.entry 0).map (fun e => e.cpl.map (fun c => (c.status, c.detail)))) = some (some (some (8, 0x0305))) := by
  decide +kernel
/-- HOLD lists the tenant once (R101). -/
theorem test_hold_lists :
    after (exec (.hold 0) (opState (tEntry 0x08 [0, refPub]))) (fun t => (t.version 5 1).map (fun v => v.holds)) =
      some (some [0]) := by decide +kernel

/-! ### Registers and the commands that write one -/

/-- Firmware may write these registers: their blocks are served. -/
theorem accepts (l : List (Reg × Nat)) (h : ∀ x ∈ l, up.blockServed (blockAt (addrOf x.1 x.2)).1 = true) :
    ∀ x ∈ l, Accepts up .firmware x.1 x.2 := fun x m => ⟨rfl, h x m, .inl rfl⟩
/-- The first register of the space, and the last of its own array. -/
theorem wit_registerAddresses : (0 < Reg.genCtl.place.n1 ∧ 0 < Reg.genCtl.place.n2) ∧ Reg.tqRingCtl.place.n1 = 2048 ∧
    locate (⟨.tqRingCtl, 2047, 0⟩ : Loc).addr = some ⟨.tqRingCtl, 2047, 0⟩ ∧ locate 0x0FFFFFF8 = none := by decide +kernel
theorem wit_registerWrite : Reaches up .i3c ⟨.tqCtl, 0, 0⟩ ∧ plainReg .tqCtl = true ∧
    up.writeCause ⟨.tqCtl, 0, 0⟩ false 0 = none :=
  ⟨⟨rfl, by decide +kernel, by decide +kernel, by decide +kernel⟩, rfl, by decide +kernel⟩
/-- An odd address, a hole, a block that is not served, a locked register, one of the secure world. -/
theorem wit_accessErrors :
    let a := addrOf .tqCtl
    let s := up.setFld F.genCtlLock 1
    up.pathOpen .i3c = true ∧ (4 : BitVec 32).toNat % 8 ≠ 0 ∧ locate 0x0FFFFFF8 = none ∧ a % 8 = 0 ∧
      locate a = some ⟨.tqCtl, 0, 0⟩ ∧ State.reset.blockServed (blockAt a).1 = false ∧ up.blockServed (blockAt a).1 = true ∧
      s.writeCause ⟨.genEthCtl, 0, 0⟩ false 1 = some 4 ∧ (∀ f ∈ Reg.genEthCtl.flds, s.takes ⟨.genEthCtl, 0, 0⟩ false f ≠ .yes) ∧
      up.writeCause ⟨.secKeyCmd, 0, 0⟩ false 1 = some 5 ∧
      (∀ f ∈ Reg.secKeyCmd.flds, up.takes ⟨.secKeyCmd, 0, 0⟩ false f ≠ .yes) := by decide +kernel
theorem wit_ringsOnAndReset :
    let l : Loc := ⟨.tqRingCtl, 0, 0⟩
    let u := upPort.setWord l (insBits (upPort.newWord .firmware l 1) 0 0 0)
    (∀ x ∈ [(Reg.tqRingCtl, 0), (.tqRingCtl, 2047), (.tqTenReset, 255)], Accepts up .firmware x.1 x.2) ∧
      bit 1 0 = true ∧ bit 1 16 = false ∧ up.flag F.tqRingCtlEnable 0 = false ∧ (up.ring 0).resetting = none ∧ u.enableCode 0 = 0 ∧
      up.enableCode 0 = 6 ∧ ringState.flag F.tqRingCtlEnable 0 = true ∧ (ringState.ring 0).resetting = none ∧
      (up.ten 255).resetBusy = false ∧ up.running = true ∧ State.reset.running = false :=
  ⟨accepts _ (by decide +kernel), by decide +kernel⟩
/-- The last shelf of a tier, and the first index past it. -/
theorem wit_shelfCommands :
    (∀ x ∈ [(Reg.rgnShelfCmd, 0), (.secShelfCmd, 0)], Accepts up .firmware x.1 x.2) ∧ up.rgn.cmdBusy = false ∧
      up.shelf 0 1534 = some {} ∧ ({} : Shelf).st ≠ .system ∧ up.shelf 0 1536 = none ∧ 1536 < 2 ^ 18 :=
  ⟨accepts _ (by decide +kernel), by decide +kernel⟩
/-- A job with a number and a job without one; a window with a region to stage and without; a gate entry that is valid, and one
whose layer is past the job's. -/
theorem wit_jobsWindowsGates :
    let l : Loc := ⟨.timeJobCtl, 63, 0⟩
    let v : W64 := BitVec.ofNat 64 ((insBits 1 F.timeJobCtlJob.hi F.timeJobCtlJob.lo 3))
    let u := up.setWord l (insBits (up.newWord .firmware l v) 0 0 0)
    let w : W64 := BitVec.ofNat 64 (insBits 1 F.timeJobCtlJob.hi F.timeJobCtlJob.lo 0xFFFF)
    let x := up.setWord l (insBits (up.newWord .firmware l w) 0 0 0)
    (∀ x ∈ [(Reg.timeJobCtl, 63), (.timeJobEst, 63), (.tierWinCtl, 15), (.timeGateW0, 0), (.timeGateW1, 0)],
      Accepts up .firmware x.1 x.2) ∧ (up.job 63).live = false ∧ bit v.toNat 0 = true ∧
      u.jobCheck 63 = 0 ∧ x.jobCheck 63 = 1 ∧ (up.win 15).on = false ∧ up.winCheck 15 = 1 ∧
      gateCheck 4 4 0 0 = 0 ∧ gateCheck 4 4 (2 ^ 32 + 4) 0 = 1 ∧ gateCheck 4 4 (2 ^ 32 + 3 + 2 ^ 16) 0 = 0 ∧
      (Tbl.rd {} (up.job 0).gates 0).inst = none :=
  ⟨accepts _ (by decide +kernel), by decide +kernel⟩
theorem wit_keysAndLocks :
    let k : KeySt := { a := 1, b := 0 }
    let s : State := { (up.setFld F.secKeySelKind 1) with sec := { keys := [((up.setFld F.secKeySelKind 1).selKey, k)] } }
    (∀ x ∈ [(Reg.secKeyData, 0), (.secKeyCmd, 0), (.genCtl, 0), (.hbmCtl, 11)], Accepts up .firmware x.1 x.2) ∧ (ctlOf (blkCode (.hbm 11)).1 (blkCode (.hbm 11)).2).reg = .hbmCtl ∧
      up.commitErr 0 0 = 1 ∧ s.selKind = 1 ∧ (s.sec.keys.look s.selKey).isSome = true ∧
      ({ up with sec := { staged := [1, 2, 3, 4, 5, 6, 7, 8] } } : State).commitErr (keyWords [1, 2, 3, 4]) (keyWords [5, 6, 7, 8])
        = 0 :=
  ⟨accepts _ (by decide +kernel), by decide +kernel⟩
/-- Every register these commands write is reached; a frequency at each bound of 1,530 to 2,070 MHz and past it, next to and far
from the other quadrants'. -/
theorem wit_controlWrites (x : Reg × Nat) (h : x ∈ [(Reg.portHold, 63), (.schShpCfg, 0), (.schMtr0Ctl, 255), (.schMtr1Ctl, 255),
    (.ldgJobAbort, 0), (.rstBlkPort, 0), (.rstBlkHbm, 0), (.rstCmd, 0), (.rstWdtKick, 0), (.clkQCtl, 3), (.hltRts, 0), (.bbxCtl, 0)]) :
    Accepts up .firmware x.1 x.2 :=
  accepts _ (by decide +kernel) x h
theorem wit_quadrantFrequency :
    let far := fun (f : Nat) => (List.range 4).any (fun k => decide (k ≠ 0) && decide (((up.fld F.clkQCtlFreqMhz k : Int) - f).natAbs > 270))
    bits (0x8000_0000 : Nat) 31 31 = 1 ∧ bits 1 1 0 ≠ 3 ∧ up.blockLocked 2 0 = false ∧ bits 1530 11 0 = 1530 ∧ bits 2070 11 0 = 2070 ∧
      bits 2071 11 0 = 2071 ∧ far 1530 = false ∧ far 2070 = false ∧
      (List.range 4).any (fun k => decide (((((up.setFld F.clkQCtlFreqMhz 1530 1).fld F.clkQCtlFreqMhz k : Int) - 2070).natAbs > 270)))
        = true := by decide +kernel

/-! Effects. -/

/-- A write of an odd address is recorded with cause 1 (R450). -/
theorem test_registerWrite_alignment : after (exec (.registerWrite .i3c 4 0) up) (fun t => (t.gen.mgmtErr, t.gen.errCause, t.gen.errAddr)) =
    some (true, 1, 4) := by decide +kernel
/-- SEC registers take writes from the secure world only (R369, R450): cause 5. -/
theorem test_registerWrite_world : after (exec (.registerWrite .i3c (BitVec.ofNat 32 (addrOf .secKeyCmd)) 1) up)
    (fun t => (t.gen.mgmtErr, t.gen.errCause)) = some (true, 5) := by decide +kernel
/-- A free shelf is assigned to a tenant (R65). -/
theorem test_shelfAssign_tenant : after (exec (.shelfAssign .i3c 0 5 7 false) up)
    (fun t => (t.shelf 0 5).map (fun h => (h.st, h.tenant))) = some (some (.assigned, 7)) := by decide +kernel
/-- A watchdog kick needs 0x4B48 (R392). -/
theorem test_watchdogKick_code : after (exec (.watchdogKick .i3c 0x4B49) { up with time := { mono := 80, wall := 80 } })
    (fun t => t.rst.kickAt) = some 0 := by decide +kernel
/-- SEC_KEY_CMD.COMMIT without eight staged words is refused with error 1 (R375). -/
theorem test_keyCommit_short : after (exec (.keyCommit .firmware) up) (fun t => t.sec.keyErr) = some 1 := by decide +kernel
/-- A quadrant's clock more than 270 MHz from another's is refused (R399). -/
theorem test_quadrantFreq_refused : after (exec (.quadrantFreqWrite .i3c 0 2070) (up.setFld F.clkQCtlFreqMhz 1530 1))
    (fun t => (decide (t.fld F.clkQCtlFreqMhz 0 = 2070), t.flag F.clkStsSetRefused)) = some (false, true) := by decide +kernel

/-! ### The time base, timers and the ledger's own commands -/

theorem wit_timeBase :
    let j : Job := { live := true }
    let g : Gate := { inst := some 0 }
    let s : State := { up with time := { up.time with mono := 200, wall := 200, lastEdge := some 101, jobs := [(0, j)] } }
    let t : State := s.setFld F.timeStepCtlEnable 1
    let u : State := { s with time := { s.time with jobs := [(63, { j with gates := [(1023, g)] })] } }
    let v : State := { s with time := { s.time with jobs := [(63, { j with gates := [(1023, { g with guard := true })] })] } }
    let c : State := { s with time := { s.time with jobs := [(0, { j with cands := [BitVec.ofNat 64 (posWord 1 0 0)] })] } }
    let b : State := { s with time := { s.time with jobs := [(0, { j with cands := [0] })] } }
    let p : State := ({ s with time := { s.time with wall := 1000010000, ptp := 1 } } : State).setFld F.timePtpStsPpsEn 1
    let e := tEntry 0x0E
    let m : State := { s with
      ldg := { entries := [{ e with job := 3 }], nextLsn := 1 },
      regs := Tbl.ins (addrOf .timeJobCtl 0) (BitVec.ofNat 64 (insBits 0 F.timeJobCtlJob.hi F.timeJobCtlJob.lo 3)) [] }
    opMark = 0x0E ∧ e.note = [] ∧ m.markFail 3 0 0 = none ∧ m.jobSlot 3 = some 0 ∧ m.markFail 4 0 0 ≠ none ∧
      t.flag F.timeStepCtlEnable = true ∧ t.now < 101 + 100 ∧ (∀ x ∈ t.time.lastEdge, ¬(x + 100 ≤ t.now - 1)) ∧
      (t.job 0).live = true ∧ t.fld F.timeStepCtlSlot = 0 ∧ ((s.takeEst 0).job 0).cands = [] ∧
      (((c.takeEst 0).job 0).cands = [BitVec.ofNat 64 (posWord 1 0 0)] ∧
        posLater (highest (BitVec.ofNat 64 (posWord 1 0 0)) []) (((c.takeEst 0).modJob 0 (fun x => { x with cands := [] })).jobPos 0) = true) ∧
      (((b.takeEst 0).job 0).cands = [0] ∧
        posLater (highest 0 []) (((b.takeEst 0).modJob 0 (fun x => { x with cands := [] })).jobPos 0) = false) ∧ (u.job 63).gates.look 1023 = some g ∧ u.gateHeld g = false ∧
      g.guard = false ∧ g.spent = false ∧ (v.job 63).gates.look 1023 = some { g with guard := true } ∧
      v.gateHeld { g with guard := true } = false ∧ p.flag F.timePtpStsPpsEn = true ∧ p.time.ptp ≠ 0 ∧
      p.time.wall ≤ 1000000000 * 1 + 10000 ∧ 1000000000 * 1 ≤ p.time.wall + 10000 := by decide +kernel
/-- A mismatch of the sampled phase with its shadow; an atomic record; a peer heard; a stream that owes an ACK, one with a gap,
one with a request unanswered; a request of a later epoch, of each kind. -/
theorem wit_timers :
    let st : Step := { op := 0x11 }
    let a := atStep st
    let c : Ctx := { tCtx with status := .mismatch }
    let d : Ctx := { tCtx with slice := 1, shadowOf := some 0, status := .commit 0, pc := 1, taken := 0, phases := 0 }
    let s : State := { a with slc := { a.slc with
      inService := 7, bins := [(0, 0xFFFF), (1, 0xFFFF), (2, 0xFFFF)], ctxs := [(0, c), (1, d)] } }
    let r : AtomRec := { recipe := false, k0 := 4096, k1 := 2, k2 := 9, old := 0, stamp := 0 }
    let t : State := { up with ldg := { up.ldg with atoms := [r] } }
    let q : RxReq := { kind := .load, port := 1, h := { hdr with epoch := 1 }, data := [] }
    let u : State := { up with fab := { up.fab with
      rx := [(streamKey 4096 0, { known := true, ackDue := true, gapAt := some 5 })],
      tx := [(streamKey 4096 0, { next := 1, una := [{ seq := 0, kind := .store, purpose := .probe }], progAt := 0 })],
      later := [(0, (q, 0)), (1, ({ q with kind := .store }, 0))] } }
    s.ctx 0 = some c ∧ s.shadowCx 0 = some (1, d) ∧ (s.mayCommit c).isSome = true ∧ c.compares = true ∧ d.compares = true ∧ { d with status := .ended 0 0 }.compares = false ∧
      s.thirdOk 0 1 2 = true ∧
      t.ldg.atoms.find? (fun a => !a.recipe && decide (a.k0 = 4096) && decide (a.k1 = 2) && decide (a.k2 = 9)) = some r ∧
      (up.ldg.peers.rd {} 7).suspect = false ∧ (u.rx 4096 0).ackDue = true ∧ (u.rx 4096 0).gapAt = some 5 ∧
      (u.retxAt 4096 0).isSome = true ∧ u.fab.later.look 0 = some (q, 0) ∧ q.kind = .load ∧
      u.fab.later.look 1 = some ({ q with kind := .store }, 0) := by decide +kernel
theorem wit_peersAndResync :
    let up2 (m : LMode) : State := (({ up with
      ldg := { up.ldg with mode := m },
      fab := { up.fab with map := { up.fab.map with epoch := 1, members := [0, 7], buddies := [(0, 7)] } } } : State).setFld
        F.ldgMirrorCtlEnable 1).setFld F.mapCtlIdValid 1
    (up2 .resync).ldg.mode = .resync ∧ (up2 .resync).buddy = some 7 ∧ (up2 .resync).ldg.fenced = false ∧ (up2 .resync).resynced = true ∧
      (up2 .mirrored).watches 7 = true := by
  decide +kernel

/-! ### The fabric -/

/-- Port 1 is a ULP port whose endpoint acts for tenant 0, and port 0 the CXL-up port of a host. -/
def fabState : State :=
  let s := withRegion { up with
    fab := { up.fab with ports := [(0, { st := .up, role := roleUp }), (1, { st := .up, role := roleUlp, credTx := [0, 0, 0, 0] })] } }
  ((((s.setFld F.portEpValid 1 1 0).setFld F.portEpEp 0x1000 1 0).setFld F.portEpValid 1 0 0).setFld F.portEpEp 0x1001 0 0)
/-- The endpoint has attached window 1 to the open version 2 of region 5, for stores. -/
def winState : State :=
  { fabState with fab := { fabState.fab with
      wins := [{ ep := 0x1000, w := 1, tenant := 0, secure := false, region := 5, version := 2, store := true, pair := 0 }] } }
def win1 (off : Nat) : W64 := BitVec.ofNat 64 (2 ^ 56 + off)

theorem comes {s : State} {n ty : Nat} {h : Hdr} {d : List Byte}
    (c : (s.ulpIn n && !s.shut n && ((s.hear h.src.toNat).violation n ty h d).isNone) = true) : Comes s n ty h d := by
  simp only [Bool.and_eq_true, Bool.not_eq_true', Option.isNone_iff_eq_none] at c
  exact ⟨c.1.1, c.1.2, c.2⟩

def hLoad : Hdr := { hdr with addr := win1 65472, len := 64 }
def hFence : Hdr := { hdr with seq := 0 }
def hAttach : Hdr := { hdr with tc := 2, addr := BitVec.ofNat 64 (254 * 2 ^ 56), len := 16 }
def attachData : List Byte := leBytes 8 (5 + 2 ^ 24) ++ leBytes 8 0
def hDetach : Hdr := { hdr with tc := 2, addr := win1 0 }
def hMark : Hdr := { hdr with tc := 3, len := 8 }

/-- Messages of good form at port 1, each with its type and payload. -/
theorem comesAll {s : State} (l : List (Nat × Hdr × List Byte)) (c : l.all (fun x =>
    s.ulpIn 1 && !s.shut 1 && ((s.hear x.2.1.src.toNat).violation 1 x.1 x.2.1 x.2.2).isNone) = true) :
    ∀ x ∈ l, Comes s 1 x.1 x.2.1 x.2.2 := fun x m => comes (List.all_eq_true.mp c x m)
theorem wit_requests :
    (∀ x ∈ [(tyLoad, hLoad, []), (tyFence, hFence, []), (tyAttach, hAttach, attachData),
      (tyMark, hMark, leBytes 8 (3 * 2 ^ 48))], Comes fabState 1 x.1 x.2.1 x.2.2) ∧
      ∀ x ∈ [(tyLoad, hLoad, []), (tyDetach, hDetach, [])], Comes winState 1 x.1 x.2.1 x.2.2 :=
  ⟨comesAll _ (by decide +kernel), comesAll _ (by decide +kernel)⟩
def hdrOf (o : Except (Nat × Nat) Hdr) : Option Hdr := match o with | .ok g => some g | .error _ => none
/-- Another module is behind port 1, and may send what its own edge has checked. -/
def peerState (s : State) : State := (s.setFld F.portEpValid 1 1 1).setFld F.portEpEp 1 1 1
def hExt (h : Hdr) : Hdr := { h with src := 1, ext := true, xRegion := 5, xVersion := 2 }
theorem wit_extRequests : ∀ x ∈ [(tyLoad, hExt hLoad, []), (tyLoad, { hExt hLoad with status := 8 }, []),
    (tyAttach, hExt hAttach, attachData), (tyDetach, hExt hDetach, [])], Comes (peerState fabState) 1 x.1 x.2.1 x.2.2 :=
  comesAll _ (by decide +kernel)
/-- A load at the edge: refused, for this module or another, with and without DEP; the version known or not, its page here or at
another holder, its module fenced, of another epoch. -/
theorem wit_edgeLoads :
    let s := winState.hear 0x1000
    let f : State := { winState with ldg := { winState.ldg with fenced := true } }
    let g : Hdr := { hLoad with xRegion := 5, xVersion := 2 }
    let q : RxReq := { kind := .load, port := 1, h := g, data := [] }
    let far := farMap s
    (hLoad.ext = false ∧ (Instr.ulpLoad 1 hLoad).wf = true ∧ s.ldg.fenced = false ∧ (f.hear 0x1000).ldg.fenced = true) ∧
      hdrOf (fabState.edgeCheck 1 tyLoad hLoad) = none ∧ hdrOf (s.edgeCheck 1 tyLoad hLoad) = some g ∧
      ((hdrOf (s.edgeCheck 1 tyLoad { hLoad with dep := true })).map (fun g => g.dep) = some true) ∧
      (s.serves hLoad.dst = true ∧ s.serves 0x1001 = false ∧ hdrControl g = false) ∧
      (s.refuse q = none ∧ s.epochAt g = .now ∧ s.epochAt { g with epoch := 1 } = .later) ∧
      (s.refuse { q with h := { g with epoch := BitVec.ofNat 32 (2 ^ 32 - 2) } } = some (St.epoch, 0x0B10)) ∧
      (((s.meet 5 2 0).version 5 2).isSome = true ∧ ((s.meet 5 9 0).version 5 9).isSome = false) ∧
      ((s.meet 5 2 0).heldHere 5 0 = true ∧ (far.meet 5 2 0).heldHere 5 0 = false ∧ ((far.meet 5 2 0).version 5 2).isSome = true) := by
  decide +kernel
/-- A read that goes on, one of a page under way up, which stalls, and the same under NR_MODE. -/
theorem wit_stalls :
    let s := winState
    let n : MoveJob := { mover := .promote 0, up := true, tenant := 0, region := 5, version := 2, target := 0, todo := [2],
                         paced := some (0, 1, 3, 0) }
    let t : State := { s with
      tier := { moves := [(0, n)], nextMove := 1 },
      time := { s.time with jobs := [(0, { live := true })] },
      rgn := { s.rgn with pages := [(1, tPage), (2, { tPage with tier := 1, mv := some { tier := 0, shelf := 0, job := 0 } })] } }
    let t := t.setFld F.timeJobCtlJob 3 0
    let wait := fun (s : State) => (s.tryStall (.load 1 hLoad) 0 5 2 [0]).2
    wait s = .go ∧ wait t = .stalled ∧ wait (t.setFld F.tqTenCtlNrMode 1 0) = .notReady := by decide +kernel
theorem wit_attachAndMarks :
    let s := winState.hear 0x1000
    let ask : HomeAsk := { port := 1, bar2 := false, detach := false, h := hAttach, data := attachData }
    let kind := fun (s : State) (a : HomeAsk) => match (s.attach a).2 with
      | some (.ok (v, id)) => (0, v, id) | some (.error (st, d)) => (1, st, d) | none => (2, 0, 0)
    let away := fun (s : State) => farMap { s with rgn := {} }
    let m := ((fabState.setFld F.timeJobCtlJob 3 0).modJob 0 (fun x => { x with live := true })).hear 0x1000
    (hAttach.wf = true ∧ s.srcEntry 1 hAttach.src = some 0 ∧ (Instr.ulpAttach 1 hAttach attachData).wf = true) ∧
      kind fabState ask = (0, 1, 5) ∧ kind winState { ask with h := { hAttach with addr := win1 0 } } = (1, St.denied, 0x0B06) ∧
      kind (away fabState) ask = (2, 0, 0) ∧
      ((s.window 0x1000 (addrWin hDetach.addr.toNat)).map (fun x => s.homeOf x.region) = some s.self ∧
        (((away s).window 0x1000 (addrWin hDetach.addr.toNat)).map (fun x => (away s).homeOf x.region)) = some 1) ∧
      ((Instr.ulpMark 1 hMark (BitVec.ofNat 64 (3 * 2 ^ 48))).wf = true ∧ m.jobSlot 3 = some 0 ∧
        m.fld F.timeJobCtlTenant 0 = m.fld F.portEpTenant 1 0 ∧ 0 < m.jobC 0 ∧ 0 < m.jobP 0) := by decide +kernel
/-- The host of port 0: its window page, and CXL.mem accesses to a window and to none, at the end of the space and past it. -/
theorem wit_host :
    let s : State := { fabState with fab := { fabState.fab with
      wins := [{ ep := 0x1001, w := 1, tenant := 0, secure := false, region := 5, version := 2, store := true, pair := 0 }] } }
    let b : State := { s with fab := { s.fab with bar2 := [(0, { failed := some (8, 0x0301) })] } }
    ((s.port 0).role = roleUp ∧ s.linkUp 0 = true ∧ s.shut 0 = false ∧ s.ideWaits 0 = false ∧ s.flag F.portEpValid 0 0 = true) ∧
      ((b.fab.bar2.rd {} 0).failed = some (8, 0x0301) ∧ (b.fab.bar2.rd {} 1).failed = none) ∧
      ((2 ^ 46 - 64) + 64 ≤ 2 ^ 46 ∧ (Instr.cxlMemRequest 0 false (2 ^ 46) 64 []).wf = true) ∧
      hdrOf (s.edgeCheck 0 tyLoad (s.hostHdr 0 false 0 64)) = none ∧
      (hdrOf (s.edgeCheck 0 tyLoad (s.hostHdr 0 false (2 ^ 40) 64))).isSome = true ∧
      (hdrOf (s.edgeCheck 0 tyStore (s.hostHdr 0 true (2 ^ 40) 64))).isSome = true ∧
      (Instr.cxlMemRequest 0 true (2 ^ 40) 64 (List.replicate 64 0)).wf = true := by decide +kernel
/-- A store on a stream that is known: the next number, one ahead and one behind. -/
def hStore : Hdr := { hdr with addr := win1 0, len := 8, seq := 1 }
def strState : State :=
  { winState with fab := { winState.fab with rx := [(streamKey 0x1000 0, { known := true, contig := 0, port := 1 })] } }
theorem wit_streams :
    Comes strState 1 tyStore hStore (leBytes 8 7) ∧
      (let u := strState.hear hStore.src.toNat
       (hdrOf (u.edgeCheck 1 tyStore hStore)).map (fun g => decide (g.seq = 1) && !g.sync && u.serves g.dst && (u.rx (u.rxSrc g) g.tc.val).known &&
          (u.rx (u.rxSrc g) g.tc.val).held.isEmpty && decide (u.epochAt g ≠ .later) &&
          decide (0 < u.fld F.swRsqCtlHoldMsgs) && decide (serDiff 0 (u.rx (u.rxSrc g) g.tc.val).contig ≤ 0) &&
          decide (0 < serDiff 2 (u.rx (u.rxSrc g) g.tc.val).contig)) = some true) :=
  ⟨comes (by decide +kernel), by decide +kernel⟩
theorem wit_applied :
    let q : RxReq := { kind := .store, port := 1, h := { hStore with xRegion := 5, xVersion := 2 }, data := leBytes 8 7 }
    let ctl : RxReq := { q with h := { hStore with addr := BitVec.ofNat 64 (255 * 2 ^ 56) } }
    let high := strState.setFld F.tqDbBaseBase (255 * 2 ^ 36 + 1)
    let at_ : RxReq := { q with kind := .atomic, data := leBytes 8 1 ++ leBytes 8 0 }
    let bud : State := { strState with fab := { strState.fab with
      map := { strState.fab.map with members := [0, 7], buddies := [(0, 7), (7, 0)], regions := [(5, { home := 0, holders := [7], stripe := 65536 })] } } }
    let m : RxReq := { q with kind := .mirror, h := { hStore with src := 7 } }
    let cp : RxReq := { q with h := { q.h with src := 7, ext := true } }
    let y := fun (s : State) => s.meet 5 2 0
    let w := (y strState).writeVersion 5 2 0 (leBytes 8 7) false 0 0xFFFF (.fwd 1 q.h)
    let busy : State := { strState with ldg := { strState.ldg with fenced := true } }
    let ((a, b), c) := ((strState.atomRoom.isSome, (y strState).heldHere 5 0), (match (y strState).readVersion 5 2 0 8 0 with | .ok (b, []) => b | _ => []))
    (strState.fetchOf (.fwd 1 q.h) = none ∧ strState.refuse q = none ∧ busy.refuse q = some (St.fenced, 0x0D01) ∧
      strState.epochAt q.h ≠ .later ∧ hdrControl q.h = false ∧ (strState.port 1).role ≠ roleUp) ∧
      (((y strState).version 5 2).isSome = true ∧ (y strState).isCopy q.h = false ∧ w.2 = none ∧
        (w.1.dropOwners 5 2 0 8).outstanding (fun x => x = .fwd 1 q.h) = 0) ∧
      ((y bud).isCopy cp.h = true ∧ ((y bud).version 5 2).isSome = true ∧ ((y bud).writeCopy 5 2 0 (leBytes 8 7) false 0).2 = none) ∧
      (hdrControl ctl.h = true ∧ strState.dbBase ≤ ctl.h.addr.toNat ∧ ctl.h.addr.toNat < high.dbBase) ∧
      (bud.buddy = some m.h.src.toNat ∧ strState.buddy ≠ some m.h.src.toNat) ∧
      (strState.remoteAtom at_.h = none ∧ a = true ∧ b = true ∧ c = List.replicate 8 0 ∧ tV2.writable = true) := by
  decide +kernel
/-- A write of the presented space below the aperture (R28). -/
theorem wit_belowAperture :
    let s := strState.setFld F.tqDbBaseBase 1
    (win1 0).toNat + (254 * 2 ^ 56) = 255 * 2 ^ 56 ∧ s.dbBase = 2 ^ 20 := by decide +kernel
/-- Answers to accesses, to requests and to fences of the module, each by its own type. -/
def w0 : Wait := { tag := 5, dst := 0x1000, port := 1, purpose := .sqFetch 0 0, len := 64 }
def ansState : State :=
  { fabState with fab := { fabState.fab with
      waits := [w0, { w0 with tag := 6, port := 2 }],
      tx := [(streamKey 0x1000 1, { next := 1, una := [{ seq := 0, kind := .store, purpose := .probe }] }),
             (streamKey 0x1000 2, { next := 1, una := [{ seq := 0, kind := .atomic, purpose := .probe, tag := 5 }],
                                    fence := [{ seq := 0, purpose := .probe }] })],
      asks := [{ port := 1, bar2 := false, detach := false, h := { hAttach with src := 0 }, data := attachData }] } }
def hRsp (tc : Tc) (len tag : Nat) : Hdr := { hdr with tc := tc, len := len, tag := BitVec.ofNat 16 tag }
theorem wit_answers : ∀ x ∈ [(tyLoadRsp, hRsp 2 64 5, List.replicate 64 0), (tyLoadRsp, hRsp 2 64 9, List.replicate 64 0),
    (tyAtomicRsp, hRsp 2 8 5, List.replicate 8 0), (tyAck, hRsp 1 4 0, leBytes 4 1), (tyFenceAck, hRsp 2 16 0, List.replicate 16 0),
    (tyNak, hRsp 2 0 5, []), (tyResend, hRsp 1 0 0, []), (tyDrain, hRsp 1 0 0, []), (tyMapAck, hRsp 3 0 0, [])],
    Comes ansState 1 x.1 x.2.1 x.2.2 :=
  comesAll _ (by decide +kernel)
/-- The answer of a home to the ATTACH passed to it. -/
def hAttachRsp : Hdr := { hExt { hdr with tc := 2, len := 8 } with addr := hAttach.addr }
theorem wit_attachRsp : Comes (peerState ansState) 1 tyAttachRsp hAttachRsp (List.replicate 8 0) ∧
    (((peerState ansState).hear 1).askFor hAttachRsp).isSome = true ∧ (fabState.askFor hAttachRsp) = none :=
  ⟨comes (by decide +kernel), by decide +kernel⟩
theorem wit_answerClauses :
    let u := ansState.hear 0x1000
    let down : State := ansState.modPort 2 (fun p => { p with st := .up, role := roleDown })
    let upw : State := { fabState with fab := { fabState.fab with waits := [{ w0 with port := 0 }] } }
    let wait := fun (s : State) (tag port : Nat) => s.fab.waits.find? (fun (w : Wait) => decide (w.tag.toNat = tag) && decide (w.port = port))
    (u.serves 0 = true ∧ u.waitFor 1 0x1000 5 = some w0 ∧ u.waitFor 1 0x1000 9 = none) ∧
      ((u.tx 0x1000 1).sent 0 = true ∧ (u.tx 0x1000 1).covered 0 ≠ [] ∧ (u.tx 0x1000 1).fence = [] ∧ u.txEp 1 0x1000 1 = 0x1000) ∧
      (((u.tx 0x1000 2).una.find? (fun r => decide (r.kind = .atomic) && decide (r.seq = 0) && decide (r.tag = 5))).isSome = true ∧
        (u.tx 0x1000 2).fence = [{ seq := 0, purpose := .probe }] ∧ serDiff 0 0 ≤ 0) ∧
      (down.linkUp 2 = true ∧ (down.port 2).role = roleDown ∧ (wait down 6 2).isSome = true ∧ wait down 7 2 = none ∧
        (down.lateTag 2 0xFFFF 7).isNone = true) ∧
      (upw.linkUp 0 = true ∧ (wait upw 5 0).isSome = true) := by decide +kernel
theorem wit_mapsAndLinks :
    let s : State := fabState
    let f : Frame := { seq := 0, len := 64, tc := 0 }
    let kept : State := s.modPort 1 (fun p => { p with kept := [(5, .msg 1 tyNak hdr [])] })
    let enc : State := s.modPort 1 (fun p => { p with enc := true })
    let enc2 : State := s.modPort 1 (fun p => { p with enc := true, ctr := [2 ^ 47, 0, 0, 0] })
    let f2 : State := { s with ldg := { s.ldg with fenced := true } }
    (Comes s 1 tyMapGet { hdr with tc := 3 } [] ∧ (Instr.mapGet 1 { hdr with tc := 3 }).wf = true ∧
      (f2.hear 0x1000).ldg.fenced = true ∧ (s.hear 0x1000).ldg.fenced = false) ∧
      ((s.port 1).role = roleUlp ∧ s.linkUp 1 = true ∧ (Instr.linkFrame 1 f).wf = true ∧
        (Instr.linkFrame 1 { f with crcOk := false }).wf = true ∧ f.crcOk = true ∧ f.len ≤ 4160 ∧ s.tagOk 1 f = true ∧ f.msg = none ∧
        ((s.frameBack 1 f).port 1).rxNext = f.seq ∧ enc.tagOk 1 { f with tagOk := false } = false) ∧
      ((s.port 0).role ≠ roleUlp ∧ s.linkUp 0 = true) ∧
      ((∀ x ∈ (s.port 1).kept, x.1 ≠ 5) ∧ (∃ x ∈ (kept.port 1).kept, x.1 = 5) ∧ (kept.port 1).asked = none) ∧ (s.port 1).st = .up ∧
      ((enc.port 1).ctr.getD (2 * b2n false + 0) 0 < 2 ^ 47 ∧ 2 ^ 47 ≤ (enc2.port 1).ctr.getD (2 * b2n false + 0) 0) :=
  ⟨⟨comes (by decide +kernel), by decide +kernel⟩, by decide +kernel⟩
/-- Ports that train, one whose counter took it down, one that waits for IDE, one in its retraining delay, one settled. -/
theorem wit_training :
    let s : State := fabState
    let up0 : State := s.modPort 0 (fun p => { p with locked := 0xFF })
    let tr (n : Nat) (spent : Bool) : State := s.modPort n (fun p => { p with st := .training, spent := spent })
    let ide := (tr 0 false).setFld F.secPortIdeRequire 1
    let re : State := s.modPort 0 (fun p => { p with retrainAt := some 5 })
    ((tr 1 false).trains 1 = true ∧ ((tr 1 false).port 1).role = roleUlp ∧ (tr 1 true).trains 1 = true ∧ ((tr 1 true).port 1).spent = true) ∧
      ((tr 0 false).trains 0 = true ∧ ((tr 0 false).port 0).role ≠ roleUlp ∧ (tr 0 false).ideWaits 0 = false ∧
        ide.trains 0 = true ∧ ide.ideWaits 0 = true) ∧
      ((re.port 0).retrainAt = some 5 ∧ (up0.port 0).locked = 0xFF ∧ (up0.port 0).role = roleUp) := by decide +kernel
/-- A MAP_UPDATE comes in; one whose new epoch does not follow its base is refused whatever its signature (R291). -/
def upd : MapUpd := { base := 0, new := 2, full := false, entries := [], bytes := [], sigR := 0, sigS := 0 }
theorem wit_mapUpdate :
    Comes fabState 1 tyMapUpdate { hdr with tc := 3, len := (updWire upd).length } (updWire upd) ∧
      (∀ e ∈ upd.entries, ∀ c, e ≠ .cert c) ∧ ∃ st d, (fabState.hear 0x1000).updRefusal upd = some (st, d) := by
  refine ⟨comes (by decide +kernel), ?_, St.denied, (fabState.hear 0x1000).free % 65536, ?_⟩
  · intro e he
    cases he
  · have h : upd.new ≠ upd.base + 1 := by decide
    rw [State.updRefusal, if_pos]
    rw [decide_eq_true h]
    exact Bool.or_true _

/-! ### The switch core -/

theorem wit_switchCore :
    let c := cellChecked { cell with mid := 63, seq := 5 }
    let k := flowKey c.inp.val c.out.val c.tc.val
    let r : Reseq := { next := 3, held := [c], came := [(5, 9)], lost := [1] }
    let s : State := { up with sw := { up.sw with reseqs := [(k, r)] } }
    let full : State := { up with sw := { up.sw with reseqs := [(k, { r with held := List.replicate 16384 c })] } }
    let p : State := up.modPort 2 (fun p => { p with st := .up })
    (c.wf = true ∧ c.check.toNat = cellCrc c ∧ cell.check.toNat ≠ cellCrc cell) ∧
      ((cellChecked { c with seq := 0 }).seq = (up.reseq k).next ∧ seqAhead c.seq (up.reseq k).next = true ∧
        (∀ x ∈ (up.reseq k).held, x.seq ≠ c.seq) ∧ up.takesCell c = true ∧ full.takesCell { c with seq := 9 } = false) ∧
      (seqAhead 2 (s.reseq k).next = false ∧ 2 ∉ (s.reseq k).lost ∧ 1 ∈ (s.reseq k).lost) ∧
      ((s.gapTime k).isSome = true ∧ (s.reseq k).held = [c] ∧ c.seq < 2 ^ 32) ∧
      (p.sw.sending.look 2 = none ∧ p.linkUp 2 = true ∧ (p.pumpWaiting.tagHeads 2).readyQueues 2 = [] ∧
        (p.pumpWaiting.tagHeads 2).tc3First 2 = true) := by decide +kernel
/-- A message in each colour's fate, alone and to a group of two; queues whose head may start; a TC3 unit after much TC3; a copy's
unit. -/
theorem wit_switchQueues :
    let m := placeMsg swMsg
    let u : SUnit := { bytes := 64, len := 64, stream := 0 }
    let cp : SUnit := { u with copy := some { page := 1, at_ := 1, line := 0, lines := 1, write := false, data := [] } }
    let p := fun (k : Nat) (u : SUnit) => ((up.modPort 2 (fun p => { p with st := .up })).modQueue k (fun q => { q with units := [u] }) : State)
    let go := fun (s : State) => (s.pumpWaiting.tagHeads 2)
    let red : State := { up with sw := { up.sw with meters := [(meterKey 0 0, { mode := 1 })] } }
    let jam := up.modQueue (schedKey m.out.val 0 0) (fun q => { q with units := [{ u with len := 240 * 196608 }] })
    let k := schedKey 2 0 0
    let k3 := schedKey 2 0 3
    let much : State := { p k3 u with sw := { (p k3 u).sw with recent := [(2, [(up.now, true, 64)])] } }
    (swMsg.wf = true ∧ swMsg.group = none ∧ (up.colour m).1 = .green ∧ up.mustWait m [] = false ∧
      (red.colour (placeMsg { swMsg with edge := true })).1 = .red ∧ jam.congested m.out.val = true ∧ jam.mustWait m [] = true) ∧
      ((go (p k u)).readyQueues 2 = [k] ∧ (go (p k u)).earliest [k] = some k ∧ k % 4 ≠ 3) ∧
      ((go (p k3 u)).readyQueues 2 = [k3] ∧ (go (p k3 u)).earliest [k3] = some k3 ∧ (go (p k3 u)).tc3First 2 = true ∧
        (go much).readyQueues 2 = [k3] ∧ (go much).tc3First 2 = false) ∧
      (((p k u).queue k).units = [u] ∧ u.copy = none ∧ ((p k cp).queue k).units = [cp] ∧ cp.copy.isSome = true) := by decide +kernel

/-! ### Security, stages and resets -/

theorem wit_attestationAndStages :
    let s (n : Nat) : State := { up with gen := { up.gen with stage := n } }
    let c : SpdmSt := { version := true, caps := true, algs := true, exchanged := true, session := true }
    let x := fun (root : Option (BitVec 384)) => ({ up with sec := { ((up.modSpdm .i3c (fun _ => c)).sec) with root := root } } : State)
    ((x none).spdm .i3c = c ∧ (x (some 1)).sec.root = some 1 ∧ (x (some 1)).spdmOpen .i3c = true) ∧
    up.spdmOpen .i3c = true ∧ up.rst.active = false ∧ up.rst.asserted &&& 1#8 = 0 ∧ StageReport.wf {} = true ∧
      (∀ n ∈ [0, 1, 2, 3, 4, 6, 7, 8, 15], (s n).gen.stage = n ∧ (s n).rst.active = false) ∧ up.pwr.auxGood = true ∧
      up.pwr.good48 = true ∧ (∀ e ∈ (s 8).ldg.entries, e.live = false ∧ (e.kind = .desc → e.staged = none)) ∧
      (s 4).stageBound.isSome = true ∧ (s 2).gen.stage = 2 ∧ up.sec.root = none ∧ (s 5).halfRead = true := by decide +kernel
theorem wit_resets :
    let p : State := { up with bbx := { up.bbx with pulse := some false } }
    let a : State := { up with
      time := { up.time with mono := 10000000, wall := 10000000 }, rst := { up.rst with active := true, releasedAt := some 0 } }
    let q : State := { up with rst := { up.rst with asserted := 0x10, pulseAt := [(4, 7)] } }
    let w : State := up.setFld F.rstWdtEnable 1
    up.bbx.pulse = none ∧ up.rst.active = false ∧ p.bbx.pulse = some false ∧ a.rst.active = true ∧ a.rst.releasedAt = some 0 ∧
      a.stretchEnds = [0 + a.stretch] ∧ a.rst.hbmAt = [] ∧ a.rst.quadAt = [] ∧ (∀ x ∈ a.fab.ports, x.2.blockAt = none) ∧
      0 + a.stretch ≤ a.now ∧ q.rst.pulseAt.look 4 = some 7 ∧ up.pwr.auxGood = true ∧ up.rst.porLow = false ∧
      w.flag F.rstWdtEnable = true ∧ bit up.rst.asserted.toNat 6 = false ∧ (up.stk.rd {} 11).st = 0 ∧ up.rst.hbmAt.look 11 = none ∧
      bit (up.fld F.rstBlkHbmAssert) 11 = false ∧ 4 ≤ up.gen.stage := by decide +kernel
theorem wit_health :
    let rts (cls : Nat) : State := { up with hlt := { up.hlt with rtsBusy := true, rtsPart := 256 * cls } }
    let stk : State := { up with stk := [(11, { st := 1 })] }
    let prt : State := up.modPort 63 (fun p => { p with st := .up })
    let sl : State := { up with slc := { up.slc with inService := 1 } }
    2 ^ 12 - 1 < 2 ^ 12 ∧ (Instr.thermalSample [127, -128, 0, 0] (List.replicate 12 0)).wf = true ∧ up.pwr.tj.length = 4 ∧
      up.pwr.th.length = 12 ∧ bit up.rst.asserted.toNat 6 = false ∧
      (Instr.neighbourCompare [4095, 0, 0, 0] [4095, 0, 0, 0] [127, -128, 0, 0]).wf = true ∧ up.pwr.mhz.length = 4 ∧
      up.pwr.vcore.length = 4 ∧ prt.scansRun (prt.fld F.hltScanSerdesS) = true ∧ (prt.port 63).st = .up ∧
      stk.scansRun (stk.fld F.hltScanHbmS) = true ∧ (stk.stk.rd {} 11).st = 1 ∧
      (up.setFld F.portCmisEnable 1 63).flag F.portCmisEnable 63 = true ∧
      (up.setFld F.portCmisEnable 1 63).scansRun (up.fld F.hltScanOptS) = true ∧ sl.sliceUp 0 = true ∧ sl.sliceTested 0 = false ∧
      (∀ c ∈ [clsSlice, clsStack, clsPort, clsQuad], (rts c).hlt.rtsBusy = true ∧ (rts c).hlt.rtsPart / 256 = c) ∧
      (rts clsSlice).rtsReady clsSlice 0 = true ∧
      (let hot : State := { up with rst := { up.rst with asserted := 0x40 } }
       bit hot.rst.asserted.toNat 6 = true ∧ (Instr.thermalSample [95, 95, -128, 0] (List.replicate 12 80)).wf = true) ∧ up.flag F.tollCtlEnable = false ∧ stk.fld F.hbmCtlPatrolH 11 ≠ 0 := by
  decide +kernel

/-! ### Management paths -/

/-- The 32 bytes of a register access record that reads an address where there is no register. -/
def recBytes : List Byte := leBytes 2 0x4B52 ++ [2, 0] ++ leBytes 4 7 ++ leBytes 4 0x0FFFFFF8 ++ List.replicate 20 0
theorem wit_management :
    let up0 : State := { fabState with pwr := up.pwr }
    let eth : State := (up.setFld F.genEthCtlEnable 1).setFld F.genEthCtlIp 5
    let src : EthSrc := { mac := 1, ip := 2, port := 3 }
    let r : RegRec := { op := 2, seq := 7, addr := 0x0FFFFFF8, data := 0, ok := true }
    let kept : State := { eth with gen := { eth.gen with ethKept := [(src, 7, [])] } }
    let ses : State := { up with sec := { up.sec with spdm := ((up.modSpdm .i3c (fun c => { c with session := true })).sec.spdm) } }
    up0.pathOpen (.bar0 0) = true ∧ eth.ethOn = true ∧ eth.fld F.genEthCtlIp = (5 : BitVec 32).toNat ∧ RegRec.of recBytes = some r ∧
      (∀ k ∈ eth.gen.ethKept, sameSrc k.1 src = true → k.2.1 ≠ r.seq) ∧
      kept.gen.ethKept.find? (fun k => sameSrc k.1 src) = some (src, 7, []) ∧ ses.secureSession = true ∧ r.ok = true ∧
      (match up.reach r.addr with | .error c => c | .ok _ => 0) = 2 ∧
      (match up.reach (addrOf .tqCtl) with | .ok l => decide (l = ⟨.tqCtl, 0, 0⟩) | .error _ => false) = true ∧
      (match up.reach up.gen.i3cRead.toNat with | .ok _ => true | .error _ => false) = true := by
  decide +kernel

/-! Effects. -/

/-- An endpoint's load from no window is denied with 0x0B01 and counted (R285). -/
theorem test_edgeCheck_noWindow : (match fabState.edgeCheck 1 tyLoad hLoad with | .error f => f | .ok _ => (0, 0)) =
    (St.denied, 0x0B01) := by decide +kernel
/-- A store past the region's end is denied with 0x0B02 (R285). -/
theorem test_edgeCheck_bounds : (match winState.edgeCheck 1 tyStore { hStore with addr := win1 65536 } with
    | .error f => f | .ok _ => (0, 0)) = (St.denied, 0x0B02) := by decide +kernel
/-- A MAP_UPDATE with a length past 4,096 is violation 0x03 (R303). -/
theorem test_violation_length : fabState.violation 1 tyMapUpdate { hdr with tc := 3, len := 4097 } (List.replicate 4097 0) =
    some 0x03 := by decide +kernel
/-- An ATOMIC off its word is violation 0x06 (R303). -/
theorem test_violation_alignment : fabState.violation 1 tyAtomic { hdr with tc := 2, addr := win1 4, len := 16 } (List.replicate 16 0) =
    some 0x06 := by decide +kernel
/-- A message of 480 bytes goes into two cells of 240 (R312, R313). -/
theorem test_messageAdmit_cells : after (exec (.messageAdmit { swMsg with data := List.replicate 480 0 }) up)
    (fun t => (t.sw.inputs.rd [] 0).map (fun c => (c.first, c.last, c.seq))) =
    some [(true, false, 0), (false, true, 1)] := by decide +kernel
/-- A critical error of one quadrant leaves the module running on the other copy (R15). -/
theorem test_criticalEcc_copies : after (exec (.criticalEccError (some 0)) up) (fun t => (t.rst.copies, t.gen.stage)) =
    some (0b1000#4, 9) := by decide +kernel
/-- A warm reset goes in at the stage of code 4 (R386). -/
theorem test_wrstN_stage : after (exec .wrstNAssert up) (fun t => (t.rst.active, t.gen.stage)) = some (true, 4) := by decide +kernel
/-- A read of a hole is recorded with cause 2 (R450). -/
theorem test_ethRead_hole : after (exec (.ethRegisterRead { mac := 1, ip := 2, port := 3 } recBytes)
    ((up.setFld F.genEthCtlEnable 1).setFld F.genEthCtlIp 5)) (fun t => (t.gen.errCause, t.gen.errAddr)) =
    some (2, 0x0FFFFFF8) := by decide +kernel
/-- The limiter tightens by one step at 96% of its limit (R396). -/
theorem test_powerLimiter_tightens : after (exec (.powerLimiterSample 4095 48000) (up.setFld F.pwrCtlLimitW 100))
    (fun t => t.pwr.step) = some 1 := by decide +kernel
/-- 2^30 + 1 − 2^30 in exact mode is 1.0 (the worked example after R194). -/
theorem test_quern_workedExample :
    (addRows [{}] [[.num (f32.dec 0x4E800000)], [.num (f32.dec 0x3F800000)], [.num (f32.dec 0xCE800000)]]).bind
      (fun l => (roundLanes 1 l).map (fun x => leAt x.1 0 4)) = some 0x3F800000 := by decide +kernel

end Sys2Proof.Machine.Tests
end

section
/-! SUPPORT. Register writes: what a write that raises no cause does, and the write of SW_CTL (R322), which acts on the switch
core. -/

namespace Sys2Proof.Machine

/-! ### A write that raises no cause (R7, R450) -/

/-- A write that reaches a register does what the register does with the fields that take it. -/
theorem exec_registerWrite_of_reaches {s : State} {path : Path} {l : Loc} {a : BitVec 32} {v : W64} (hr : Reaches s path l)
    (ha : a.toNat = l.addr) (hc : s.writeCause l (pathSecure path) v.toNat = none) :
    exec (.registerWrite path a v) s = .next (
      let x := lockStays l (s.heldWord l) (s.sortWrite l (pathSecure path) v.toNat)
      if x.any then s.effect l (pathSecure path) x else s) := by
  obtain ⟨hopen, hserved, hloc, halign⟩ := hr
  have hreach : s.reach l.addr = .ok l := by simp [State.reach, halign, hloc, hserved]
  have hexec : exec (.registerWrite path a v) s = .next (s.writeBy path a.toNat v) := rfl
  simp [hexec, State.writeBy, hopen, ha, regWrite_of_reach hreach, State.writeLoc, hc, State.when]

/-! ### Messages that wait at their inputs (R322) -/

/-- Admitting a message leaves the messages that wait as they are. -/
@[simp] theorem State.takeIn_waiting (s : State) (m : SwMsg) : (s.takeIn m).sw.waiting = s.sw.waiting :=
  State.when_keeps (fun s => s.sw.waiting) (fun s => s.emit (.linkCredit m.inp.val m.tc.val (ceilDiv m.bytes 256)))
    (fun _ => rfl) _ _

/-- A lone waiting message that need not wait any longer leaves nothing waiting. -/
theorem State.pumpWaiting_waiting_of_alone {s : State} {m : SwMsg} (hw : s.sw.waiting = [m])
    (hgo : s.mustWait m [] = false) : s.pumpWaiting.sw.waiting = [] := by
  have hcleared : ({ s with sw := { s.sw with waiting := [] } } : State).mustWait m [] = false := hgo
  simp [State.pumpWaiting, hw, hcleared]

/-! ### A congested output that a write of SW_CTL.ALPHA frees -/

/-- A message of TC0 for output 1. -/
def waitingMsg : SwMsg :=
  { inp := 0, out := 1, tc := 0, tenant := 0, data := List.replicate 32 0, edge := false, stream := 0 }

/-- A unit of 100,000 cells in the queue of output 1 congests it at α = 1, SW_CTL's reset value, and `waitingMsg` waits. -/
def congestedState : State :=
  { gen := { stage := 9 }, pwr := { auxGood := true, good48 := true, rails := 8 },
    sw := {
      queues := [(schedKey 1 0 0, { units := [{ bytes := 24000000, len := 24000000, stream := 0 }] })],
      waiting := [waitingMsg] } }

/-- SW_CTL. -/
def swCtlLoc : Loc := ⟨.swCtl, 0, 0⟩

/-- SW_CTL with ALPHA 7, α = 8, and its reset values elsewhere. -/
def alphaMost : W64 := 0x100007D00070

/-- At α = 1 the message must wait; at α = 8 it need not. -/
theorem mustWait_before_and_after_alphaMost :
    congestedState.mustWait waitingMsg [] = true ∧
      (congestedState.setWord swCtlLoc alphaMost.toNat).mustWait waitingMsg [] = false := by decide +kernel

/-- I3C, always open, reaches SW_CTL. -/
theorem reaches_swCtl : Reaches congestedState .i3c swCtlLoc :=
  ⟨rfl, by decide +kernel, by decide +kernel, by decide +kernel⟩

/-- The write raises no cause. -/
theorem writeCause_alphaMost : congestedState.writeCause swCtlLoc (pathSecure .i3c) alphaMost.toNat = none := by decide +kernel

/-- Every field of SW_CTL takes the write. -/
theorem sortWrite_alphaMost :
    lockStays swCtlLoc (congestedState.heldWord swCtlLoc) (congestedState.sortWrite swCtlLoc (pathSecure .i3c) alphaMost.toNat) =
      { w := alphaMost.toNat, act := 0, any := true } := by decide +kernel

/-- The write admits the message that waits, beside setting SW_CTL. -/
theorem exec_alphaMost : ∃ t : State,
    exec (.registerWrite .i3c (BitVec.ofNat 32 swCtlLoc.addr) alphaMost) congestedState = .next t ∧ t.sw.waiting = [] := by
  have hwrite := exec_registerWrite_of_reaches (a := BitVec.ofNat 32 swCtlLoc.addr) reaches_swCtl rfl writeCause_alphaMost
  simp only [sortWrite_alphaMost, if_true] at hwrite
  exact ⟨_, hwrite, State.pumpWaiting_waiting_of_alone (m := waitingMsg) rfl mustWait_before_and_after_alphaMost.2⟩

/-- Refutes O43: `plainReg` lets SW_CTL pass, whose write also admits the messages that the new α lets go (R322). Output 1 is
congested and a message waits for it; a write of SW_CTL that raises ALPHA to 7 admits it, so the switch core's state changes. -/
theorem not_registerWriteSetsByAccessType : ¬ Obligations.RegisterWriteSetsByAccessType := by
  unfold Obligations.RegisterWriteSetsByAccessType
  intro h
  obtain ⟨t, ht, hframe, -⟩ := h congestedState .i3c swCtlLoc alphaMost reaches_swCtl rfl writeCause_alphaMost
  obtain ⟨u, hu, hnone⟩ := exec_alphaMost
  obtain rfl : t = u := Host.Outcome.next.inj (ht.symm.trans hu)
  have hkept : t.sw.waiting = [waitingMsg] := by rw [hframe]; rfl
  simp [hnone] at hkept

end Sys2Proof.Machine
end

section
/-! SUPPORT. What no command but a reset and the passing of a stage does to the boot stage, the reset in effect and the
quadrants. -/

namespace Sys2Proof.Machine

/-- The words of the state that the stages, the resets and the losses of quadrants and supplies turn on: the boot stage, whether a
reset is in effect and the stage it enters, the copies of the shared structures, the quadrants in reset, 48 V, the faulted quadrants. -/
structure Spine where
  stage : Nat
  active : Bool
  entryMin : Nat
  copies : BitVec 4
  quads : BitVec 4
  good48 : Bool
  fault : BitVec 4

/-- The spine as three blocks of the state give it. -/
abbrev Spine.of (gen : GenSt) (rst : RstSt) (pwr : PwrSt) : Spine :=
  ⟨gen.stage, rst.active, rst.entryMin, rst.copies, rst.quads, pwr.good48, pwr.fault⟩

/-- The spine of a state. -/
abbrev State.spine (s : State) : Spine := .of s.gen s.rst s.pwr

/-- The reset in effect and its entry stage are the same in both, and the stage too unless bring-up has stopped. -/
def Spine.StaysPut (x y : Spine) : Prop :=
  y.active = x.active ∧ y.entryMin = x.entryMin ∧ (y.stage = x.stage ∨ y.stage = stFault)

/-- A module-level reset is in effect, whose entry stage a source gave (R21), and the stage is its own or FAULT. -/
def Spine.IsReset (y : Spine) : Prop :=
  y.active = true ∧ y.entryMin ≤ 4 ∧ (y.stage ≤ 4 ∨ y.stage = stFault)

/-- Whether an operation may bring a reset, a stop at FAULT or the loss of a quadrant or supply. -/
inductive Scope
  | quiet
  | loud

/-- The way from `s` to `t` neither ends a reset nor passes a stage. A quiet one leaves the spine as it is; on a loud one the stage
stays or stops at FAULT, or a reset takes effect. On both the mirror half stays a memory in canonical form. -/
structure Calm (κ : Scope) (s t : State) : Prop where
  mirrorWf : Memory.wf s.ldg.mirrorHalf = true → Memory.wf t.ldg.mirrorHalf = true
  course : t.spine = s.spine ∨ κ = .loud ∧ (s.spine.StaysPut t.spine ∨ t.spine.IsReset)

namespace Calm
variable {κ : Scope} {s₀ s t : State}

theorem refl (κ : Scope) (s : State) : Calm κ s s := ⟨id, .inl rfl⟩

theorem spine_eq (h : Calm .quiet s t) : t.spine = s.spine :=
  h.course.elim id fun h => nomatch h.1

/-- On any way the stage stays or stops at FAULT, or a reset takes effect. -/
theorem staysPut_or_isReset (h : Calm κ s t) : s.spine.StaysPut t.spine ∨ t.spine.IsReset := by
  obtain h | ⟨-, h⟩ := h.course
  · exact .inl (h ▸ ⟨rfl, rfl, .inl rfl⟩)
  · exact h

theorem loud (h : Calm κ s t) : Calm .loud s t := ⟨h.mirrorWf, .inr ⟨rfl, h.staysPut_or_isReset⟩⟩

/-- An update of the state that leaves the spine and the mirror half alone. -/
theorem upd {freeIdx out regs gen tq ldg rgn tier codec time slc fab sw sec rst pwr stk hlt bbx toll} (h : Calm κ s₀ s)
    (hspine : Spine.of gen rst pwr = .of s.gen s.rst s.pwr := by with_reducible rfl)
    (hmirror : LdgSt.mirrorHalf ldg = s.ldg.mirrorHalf := by with_reducible rfl) :
    Calm κ s₀ ⟨s.pending, freeIdx, out, regs, gen, tq, ldg, rgn, tier, codec, time, slc, fab, sw, sec, rst, pwr, stk, hlt, bbx,
      toll⟩ := by
  obtain ⟨hm, hc⟩ := h
  refine ⟨hmirror ▸ hm, ?_⟩
  rw [State.spine, hspine]
  exact hc

/-- A loud update: it leaves the stage, the reset and the mirror half alone. -/
theorem updLoud {freeIdx out regs gen tq ldg rgn tier codec time slc fab sw sec rst pwr stk hlt bbx toll}
    (h : Calm .loud s₀ s) (hstage : GenSt.stage gen = s.gen.stage := by with_reducible rfl)
    (hactive : RstSt.active rst = s.rst.active := by with_reducible rfl)
    (hentry : RstSt.entryMin rst = s.rst.entryMin := by with_reducible rfl)
    (hmirror : LdgSt.mirrorHalf ldg = s.ldg.mirrorHalf := by with_reducible rfl) :
    Calm .loud s₀ ⟨s.pending, freeIdx, out, regs, gen, tq, ldg, rgn, tier, codec, time, slc, fab, sw, sec, rst, pwr, stk, hlt,
      bbx, toll⟩ := by
  refine ⟨hmirror ▸ h.mirrorWf, .inr ⟨rfl, ?_⟩⟩
  have hc := h.staysPut_or_isReset
  simp only [Spine.StaysPut, Spine.IsReset] at hc ⊢
  rwa [hstage, hactive, hentry]

theorem ite {c : Prop} {_ : Decidable c} (hs : Calm κ s₀ s) (ht : Calm κ s₀ t) : Calm κ s₀ (if c then s else t) := by
  split <;> assumption

theorem foldS {α : Type} {f : State → α → State} {l : List α} (h : Calm κ s₀ s)
    (hf : ∀ {s : State} {a : α}, Calm κ s₀ s → Calm κ s₀ (f s a)) : Calm κ s₀ (Machine.foldS f s l) :=
  foldS_inv (Calm κ s₀) f (fun _ _ hs => hf hs) s l h

theorem when {c : Bool} {f : State → State} (h : Calm κ s₀ s) (hf : ∀ {s : State}, Calm κ s₀ s → Calm κ s₀ (f s)) :
    Calm κ s₀ (s.when c f) := ite (hf h) h

theorem ofFst {β : Type} {b : β} {p : State × β} (h : Calm κ s₀ p.1) (e : p = (t, b)) : Calm κ s₀ t := by
  subst e; exact h

theorem iteFst {β : Type} {c : Prop} {_ : Decidable c} {p q : State × β} (hp : Calm κ s₀ p.1) (hq : Calm κ s₀ q.1) :
    Calm κ s₀ (if c then p else q).1 := by
  split <;> assumption

theorem foldl {α : Type} {f : State → α → State} {l : List α} (h : Calm κ s₀ s)
    (hf : ∀ {s : State} {a : α}, Calm κ s₀ s → Calm κ s₀ (f s a)) : Calm κ s₀ (l.foldl f s) := h.foldS hf

theorem foldlFst {α β : Type} {f : State × β → α → State × β} {l : List α} {p : State × β} (h : Calm κ s₀ p.1)
    (hf : ∀ {p : State × β} {a : α}, Calm κ s₀ p.1 → Calm κ s₀ (f p a).1) : Calm κ s₀ (l.foldl f p).1 := by
  induction l generalizing p with
  | nil => exact h
  | cons a l ih => exact ih (hf h)

theorem getD {o : Option State} (h : Calm κ s₀ s) (ho : ∀ {t : State}, o = some t → Calm κ s₀ t) : Calm κ s₀ (o.getD s) := by
  cases o with
  | none => exact h
  | some t => exact ho rfl

theorem next (e : (Host.Outcome.next s : Host.Outcome State Fault Refusal) = .next t) (h : Calm κ s₀ s) : Calm κ s₀ t :=
  Host.Outcome.next.inj e ▸ h

theorem checked {i : Instr} {u : State} (h : Calm κ s₀ s) (e : Machine.checked s i u = .next t) (hu : Calm κ s₀ u) : Calm κ s₀ t :=
  next e (ite hu h)

end Calm

/-- Every state that the outcome of a recipe step carries is calm from `s₀`. -/
def CalmOut (κ : Scope) (s₀ : State) : StepOut → Prop
  | .next s _ | .goto s _ _ | .fault s _ _ | .hold s => Calm κ s₀ s

theorem CalmOut.ite {κ : Scope} {s₀ : State} {c : Prop} {_ : Decidable c} {p q : StepOut} (hp : CalmOut κ s₀ p) (hq : CalmOut κ s₀ q) :
    CalmOut κ s₀ (if c then p else q) := by
  split <;> assumption

/-- A write keeps a byte memory in canonical form. -/
theorem Memory.wf_wr (m : Bytes) (a : Nat) (d : List Byte) (h : Memory.wf m = true) : Memory.wf (Bytes.wr m a d) = true := by
  induction d generalizing m a with
  | nil => exact h
  | cons b d ih => exact ih _ _ (Memory.wf_set m a b h)

end Sys2Proof.Machine
end

section
/-! SUPPORT. Every operation of the module that neither ends a reset nor passes a stage is calm: one lemma for each, in the order
of the model's files. A proof follows the operation's body: `h.f.g` says that `f` and then `g` keep what `h` says. -/

namespace Sys2Proof.Machine.Calm
variable {κ : Scope} {s₀ s t : State}

set_option Elab.async false

/-! ### Machine/Ops -/

theorem emit {o : Out} (h : Calm κ s₀ s) : Calm κ s₀ (s.emit o) := h.upd

theorem emits {l : List Out} (h : Calm κ s₀ s) : Calm κ s₀ (s.emits l) := h.upd

theorem tickFree (h : Calm κ s₀ s) : Calm κ s₀ s.tickFree := h.upd

/-! ### Machine/Regs -/

theorem setWord {l : Loc} {w : Nat} (h : Calm κ s₀ s) : Calm κ s₀ (s.setWord l w) := h.upd

theorem setFld {f : FRef} {v i j : Nat} (h : Calm κ s₀ s) : Calm κ s₀ (s.setFld f v i j) := h.setWord

theorem bump {f : FRef} {i j d : Nat} (h : Calm κ s₀ s) : Calm κ s₀ (s.bump f i j d) := h.setFld

/-! ### Machine/Send -/

theorem modPort {n : Nat} {f : PortSt → PortSt} (h : Calm κ s₀ s) : Calm κ s₀ (s.modPort n f) := h.upd

theorem modTx {ep tc : Nat} {f : TxStream → TxStream} (h : Calm κ s₀ s) : Calm κ s₀ (s.modTx ep tc f) := h.upd

theorem modRx {ep tc : Nat} {f : RxStream → RxStream} (h : Calm κ s₀ s) : Calm κ s₀ (s.modRx ep tc f) := h.upd

theorem notePath {src m tc n : Nat} {seq : W32} (h : Calm κ s₀ s) : Calm κ s₀ (s.notePath src m tc n seq) := h.upd

theorem countFrame {n k : Nat} (h : Calm κ s₀ s) : Calm κ s₀ (s.countFrame n k) :=
  (h.modPort.when fun h => h.setFld).when fun h => h.modPort

theorem sealFrame {n : Nat} (h : Calm κ s₀ s) : Calm κ s₀ (s.sealFrame n) := by
  unfold State.sealFrame
  split
  · exact h.emit.countFrame
  · exact h

theorem putFrame {n : Nat} {o : Out} (h : Calm κ s₀ s) : Calm κ s₀ (s.putFrame n o) := h.emit.modPort.when fun h => h.sealFrame

theorem sendBy {n : Nat} {o : Out} (h : Calm κ s₀ s) : Calm κ s₀ (s.sendBy n o) :=
  .ite h (Calm.ite h.emit (Calm.ite h.modPort h.putFrame))

theorem flushPort {n : Nat} (h : Calm κ s₀ s) : Calm κ s₀ (s.flushPort n) := h.modPort.foldS fun h => h.sendBy

theorem flushGated (h : Calm κ s₀ s) : Calm κ s₀ s.flushGated := h.foldS fun h => h.when fun h => h.flushPort

theorem tollBytes {t n : Nat} (h : Calm κ s₀ s) : Calm κ s₀ (s.tollBytes t n) := h.upd

theorem stampOn {ep tc : Nat} (h : Calm κ s₀ s) : Calm κ s₀ (s.stampOn ep tc).2 := h.modTx

theorem resendReqs {ep tc : Nat} {p : TxReq → Bool} (h : Calm κ s₀ s) : Calm κ s₀ (s.resendReqs ep tc p) :=
  h.bump.modTx.foldS fun h => h.sendBy

theorem sendReq {n ep tc addr : Nat} {k : ReqKind} {p : Purpose} {data : List Byte} {poison : Bool}
    {xr : Nat × Nat × Nat × Bool} {op : Byte} {tag : W16} (h : Calm κ s₀ s) :
    Calm κ s₀ (s.sendReq n ep tc k p addr data poison xr op tag) :=
  ((h.when fun h => h.resendReqs).modTx.when fun h => h.notePath).sendBy

theorem newTag (h : Calm κ s₀ s) : Calm κ s₀ s.newTag.2 := h.upd

theorem addWait {w : Wait} (h : Calm κ s₀ s) : Calm κ s₀ (s.addWait w) := h.upd

theorem sendLoad {n : Nat} {w : Wait} (h : Calm κ s₀ s) : Calm κ s₀ (s.sendLoad n w) := h.modTx.addWait.sendBy

theorem writeEp {tenant ptr tc : Nat} {data : List Byte} {poison : Bool} {p : Purpose} (h : Calm κ s₀ s) :
    Calm κ s₀ (s.writeEp tenant ptr tc data poison p).1 := by
  unfold State.writeEp
  dsimp only
  split
  · exact h
  · split
    · exact h.tollBytes.foldS fun h => h.sendReq
    · exact h.tollBytes.foldS fun h => h.upd.addWait.emit

theorem setFetch {p : Purpose} {f : Fetch} (h : Calm κ s₀ s) : Calm κ s₀ (s.setFetch p f) := h.upd

theorem dropFetch {p : Purpose} (h : Calm κ s₀ s) : Calm κ s₀ (s.dropFetch p) := h.upd

theorem dropFetches {p : Purpose → Bool} (h : Calm κ s₀ s) : Calm κ s₀ (s.dropFetches p) := h.upd

theorem readEp {tenant ptr len : Nat} {p : Purpose} (h : Calm κ s₀ s) : Calm κ s₀ (s.readEp tenant ptr len p) := by
  unfold State.readEp
  dsimp only
  split
  · exact h.setFetch
  · exact h.setFetch.foldS fun h => Calm.ite h.upd.sendLoad h.upd.addWait.emit

theorem fetchPiece {p : Purpose} {off : Nat} {bytes : List Byte} (h : Calm κ s₀ s) : Calm κ s₀ (s.fetchPiece p off bytes) := by
  unfold State.fetchPiece
  split
  · exact .ite h.setFetch h.setFetch
  · exact h

theorem fetchFail {p : Purpose} {st d : Nat} (h : Calm κ s₀ s) : Calm κ s₀ (s.fetchFail p st d) := by
  unfold State.fetchFail
  split
  · exact h.setFetch
  · exact h

theorem answer {port ty : Nat} {hd : Hdr} {status detail : Nat} {poison : Bool} {len : Nat} {data : List Byte}
    (h : Calm κ s₀ s) : Calm κ s₀ (s.answer port ty hd status detail poison len data) :=
  h.sendBy

/-! ### Machine/Ledger -/

theorem sendMirror {b off : Nat} {bytes : List Byte} (h : Calm κ s₀ s) : Calm κ s₀ (s.sendMirror b off bytes) := h.upd.sendReq

theorem ownWrite {off : Nat} {bytes : List Byte} (h : Calm κ s₀ s) : Calm κ s₀ (s.ownWrite off bytes) := by
  unfold State.ownWrite
  split
  · exact .ite (h.foldS fun h => h.sendMirror) h
  · exact h

theorem dropAtoms {p : AtomRec → Bool} (h : Calm κ s₀ s) : Calm κ s₀ (s.dropAtoms p) := h.upd.foldS fun h => h.ownWrite

theorem mirrorEntry {old : Option Entry} {e : Entry} (h : Calm κ s₀ s) : Calm κ s₀ (s.mirrorEntry old e) :=
  (h.when fun h => h.ownWrite).when fun h => h.ownWrite

theorem putEntry {e : Entry} (h : Calm κ s₀ s) : Calm κ s₀ (s.putEntry e) := h.upd

theorem modEntry {lsn : Nat} {f : Entry → Entry} (h : Calm κ s₀ s) : Calm κ s₀ (s.modEntry lsn f) := by
  unfold State.modEntry
  split
  · exact h.putEntry.mirrorEntry
  · exact h

theorem addEntry {e : Entry} (h : Calm κ s₀ s) : Calm κ s₀ (s.addEntry e) := h.upd.mirrorEntry

theorem freeEntry {lsn : Nat} (h : Calm κ s₀ s) : Calm κ s₀ (s.freeEntry lsn) := h.upd

theorem modRing {pair : Nat} {f : Ring → Ring} (h : Calm κ s₀ s) : Calm κ s₀ (s.modRing pair f) := h.upd

theorem modTen {t : Nat} {f : Ten → Ten} (h : Calm κ s₀ s) : Calm κ s₀ (s.modTen t f) := h.upd

theorem noteRing {pair : Nat} (h : Calm κ s₀ s) : Calm κ s₀ (s.noteRing pair) := .ite h.ownWrite h

theorem writeRecord {pair : Nat} {c : Cpl} {p : Purpose} (h : Calm κ s₀ s) : Calm κ s₀ (s.writeRecord pair c p).1 :=
  h.modRing.noteRing.writeEp

theorem postEvent {pair : Nat} {c : Cpl} (h : Calm κ s₀ s) : Calm κ s₀ (s.postEvent pair c) := .ite h.writeRecord h.bump.modRing

theorem faultPair {pair code : Nat} (h : Calm κ s₀ s) : Calm κ s₀ (s.faultPair pair code) := .ite h h.modRing.noteRing.postEvent

theorem writeAidx {pair : Nat} (h : Calm κ s₀ s) : Calm κ s₀ (s.writeAidx pair) := by
  unfold State.writeAidx
  dsimp only
  split
  next e => exact h.writeEp.ofFst e
  next e => exact (h.writeEp.ofFst e).faultPair

/-! ### Machine/Regions -/

theorem modShelf {tier idx : Nat} {f : Shelf → Shelf} (h : Calm κ s₀ s) : Calm κ s₀ (s.modShelf tier idx f) := h.upd

theorem modRegion {id : Nat} {f : Region → Region} (h : Calm κ s₀ s) : Calm κ s₀ (s.modRegion id f) := h.upd

theorem modVersion {id v : Nat} {f : Version → Version} (h : Calm κ s₀ s) : Calm κ s₀ (s.modVersion id v f) := h.modRegion

theorem modPage {p : Nat} {f : Page → Page} (h : Calm κ s₀ s) : Calm κ s₀ (s.modPage p f) := h.upd

theorem sweepPages {ps : List Nat} (h : Calm κ s₀ s) : Calm κ s₀ (s.sweepPages ps) := h.upd

theorem meet {id n tenant : Nat} (h : Calm κ s₀ s) : Calm κ s₀ (s.meet id n tenant) := .ite h h.upd

theorem addRef {id v : Nat} (h : Calm κ s₀ s) : Calm κ s₀ (s.addRef id v) := h.modVersion

theorem dropVersion {id n : Nat} (h : Calm κ s₀ s) : Calm κ s₀ (s.dropVersion id n) := by
  unfold State.dropVersion
  split
  · exact h
  · dsimp only
    split
    · exact .ite h.modRegion.sweepPages.upd h.modRegion.sweepPages
    · exact h.modRegion.sweepPages

theorem logVersion {lsn id n : Nat} (h : Calm κ s₀ s) : Calm κ s₀ (s.logVersion lsn id n) :=
  .ite h.addEntry.freeEntry h.addEntry.upd

theorem logSelf {id n : Nat} (h : Calm κ s₀ s) : Calm κ s₀ (s.logSelf id n) := h.logVersion

theorem reap {id n : Nat} (h : Calm κ s₀ s) : Calm κ s₀ (s.reap id n) := by
  unfold State.reap
  split
  · exact .ite h.dropVersion.logSelf h
  · exact h

theorem dropRef {id n : Nat} (h : Calm κ s₀ s) : Calm κ s₀ (s.dropRef id n) := h.modVersion.reap

theorem retireVersion {id n : Nat} (h : Calm κ s₀ s) : Calm κ s₀ (s.retireVersion id n) := h.modVersion.reap

theorem discardVersion {id n : Nat} (h : Calm κ s₀ s) : Calm κ s₀ (s.discardVersion id n) := by
  unfold State.discardVersion
  split
  · exact h.dropVersion.upd.logSelf
  · exact h

theorem countLp {d : Nat} (h : Calm κ s₀ s) : Calm κ s₀ (s.countLp d) := by
  unfold State.countLp
  split
  · exact h.bump
  · exact h.bump
  · exact h.bump
  · exact h.bump
  · exact h.bump
  · exact h

theorem losePages {id n off len : Nat} (h : Calm κ s₀ s) : Calm κ s₀ (s.losePages id n off len) := by
  unfold State.losePages
  split
  · split
    · exact h
    · exact h.foldS fun h => by
        split
        · exact h.modPage
        · exact h
  · exact h

theorem trayRead {id n off len : Nat} (h : Calm κ s₀ s) : Calm κ s₀ (s.trayRead id n off len) := by
  unfold State.trayRead
  split
  · exact h
  · exact h.foldS fun h => by
      split
      · split
        · exact h
        · split
          · exact h
          · exact h.foldS fun h => h.upd.addWait.emit
      · exact h

theorem countRead {r : Except (Nat × Nat) (List Byte × List Nat)} {id n off len : Nat} (h : Calm κ s₀ s) :
    Calm κ s₀ (s.countRead r id n off len) := by
  unfold State.countRead
  split
  · exact h.countLp.when fun h => h.losePages
  · exact h.trayRead

theorem newPage {id n k : Nat} {r : Region} {base : Bytes × List Nat} (h : Calm κ s₀ s)
    (e : s.newPage id n r base = some (k, t)) : Calm κ s₀ t := by
  unfold State.newPage at e
  dsimp only at e
  split at e
  · cases e
  · split at e
    · cases e
    · cases e
      exact h.tickFree.upd

theorem ownPage {id n k at_ : Nat} {r : Region} {pages : Tbl PageRef} {own : List Nat} (h : Calm κ s₀ s)
    (e : s.ownPage id n r pages own at_ = .ok (k, t)) : Calm κ s₀ t := by
  unfold State.ownPage at e
  split at e
  · split at e
    · split at e
      · cases e
      · split at e
        · split at e
          · cases e
          · split at e
            next hp => cases e; exact h.newPage hp
            · cases e
        · split at e
          · cases e
          · cases e; exact h
    · cases e
  · split at e
    · cases e
    · dsimp only at e
      split at e
      · cases e
      · split at e
        next hp => cases e; exact h.newPage hp
        · cases e

theorem writeSpans {id at_ : Nat} {r : Region} {poison : Bool} {pages pages' : Tbl PageRef} {own own' : List Nat}
    {data : List Byte} {spans : List (Nat × Nat × Nat)} (h : Calm κ s₀ s)
    (e : s.writeSpans id r poison at_ pages own data spans = .ok (pages', own', t)) : Calm κ s₀ t := by
  induction spans generalizing s pages own data with
  | nil => cases e; exact h
  | cons x rest ih =>
    unfold State.writeSpans at e
    split at e
    · cases e
    next hp => exact ih (h.ownPage hp).modPage e

theorem sendSpan {m id n owner off : Nat} {data : List Byte} {poison secure : Bool} {p : Purpose} {q : Nat × Nat × Nat}
    (h : Calm κ s₀ s) : Calm κ s₀ (s.sendSpan m id n owner off data poison secure p q) :=
  h.foldS fun h => h.sendReq

theorem sendRemote {id n owner off : Nat} {data : List Byte} {poison secure : Bool} {p : Purpose} (h : Calm κ s₀ s) :
    Calm κ s₀ (s.sendRemote id n owner off data poison secure p) :=
  h.foldS fun h => Calm.ite h h.sendSpan

theorem sendCopies {id n owner off : Nat} {data : List Byte} {poison secure : Bool} {p : Purpose} (h : Calm κ s₀ s) :
    Calm κ s₀ (s.sendCopies id n owner off data poison secure p) := by
  unfold State.sendCopies
  split
  · exact h
  · exact h.foldS fun h => Calm.ite h.sendSpan h

theorem writePages {id n at_ job : Nat} {r : Region} {v : Version} {poison : Bool} {bytes : List Byte}
    {qs : List (Nat × Nat × Nat)} (h : Calm κ s₀ s) :
    Calm κ s₀ (s.writePages id n r v poison at_ job bytes qs).1 := by
  unfold State.writePages
  split
  · exact h.countLp
  next e => exact (h.writeSpans e).modVersion.sweepPages

theorem writeHere {id n at_ job : Nat} {r : Region} {v : Version} {poison : Bool} {bytes : List Byte}
    {qs : List (Nat × Nat × Nat)} (h : Calm κ s₀ s) :
    Calm κ s₀ (s.writeHere id n r v poison at_ job bytes qs).1 :=
  .iteFst h h.writePages

theorem writeVersion {id n off at_ job : Nat} {data : List Byte} {poison : Bool} {p : Purpose} (h : Calm κ s₀ s) :
    Calm κ s₀ (s.writeVersion id n off data poison at_ job p).1 := by
  unfold State.writeVersion
  split
  · refine iteFst h ?_
    dsimp only
    split
    next e => exact h.writeHere.ofFst e
    next e => exact (h.writeHere.ofFst e).sendRemote.when fun h => h.sendCopies
  · exact h

theorem writeCopy {id n off : Nat} {data : List Byte} {poison : Bool} {at_ : Nat} (h : Calm κ s₀ s) :
    Calm κ s₀ (s.writeCopy id n off data poison at_).1 := by
  unfold State.writeCopy
  split
  · exact h.upd.writePages
  · exact h

theorem sendPage {m id n : Nat} {r : Region} {pg : Nat} {g : Page} (h : Calm κ s₀ s) : Calm κ s₀ (s.sendPage m id n r pg g) :=
  h.foldS fun h => h.sendReq

theorem sendMirroredPages {m : Nat} (h : Calm κ s₀ s) : Calm κ s₀ (s.sendMirroredPages m) := by
  unfold State.sendMirroredPages
  exact h.foldS fun h => Calm.ite h (h.foldS fun h => h.foldS fun h => by
    split
    · exact h.when fun h => h.sendPage
    · exact h)

/-! ### Machine/Sched -/

theorem modQueue {k : Nat} {f : SQueue → SQueue} (h : Calm κ s₀ s) : Calm κ s₀ (s.modQueue k f) := h.upd

theorem turnHead {k : Nat} (h : Calm κ s₀ s) : Calm κ s₀ (s.turnHead k) := .ite h.modQueue h

theorem tagHead {k : Nat} (h : Calm κ s₀ s) : Calm κ s₀ (s.tagHead k) := by
  unfold State.tagHead
  extract_lets s₁ s₂
  have h₂ : Calm κ s₀ s₂ := (ite h h.modQueue).turnHead
  split
  · exact .ite h₂.modQueue h₂
  · exact h₂

theorem tagHeads {n : Nat} (h : Calm κ s₀ s) : Calm κ s₀ (s.tagHeads n) := h.foldS fun h => h.tagHead

theorem addUnit {k : Nat} {u : SUnit} (h : Calm κ s₀ s) : Calm κ s₀ (s.addUnit k u) := h.modQueue.tagHead

theorem queueLines {port tenant src p at_ : Nat} {write : Bool} {n : Nat} {image : List Byte} (h : Calm κ s₀ s) :
    Calm κ s₀ (s.queueLines port tenant src p at_ write n image) :=
  h.foldS fun h => h.addUnit

theorem sendCopy {port : Nat} {c : CopyUnit} (h : Calm κ s₀ s) : Calm κ s₀ (s.sendCopy port c) :=
  h.foldS fun h => h.upd.addWait.emit

theorem dropTray {p : Nat} (h : Calm κ s₀ s) : Calm κ s₀ (s.dropTray p) := h.upd

/-! ### Machine/Clock -/

theorem tollTime {dt t : Nat} (h : Calm κ s₀ s) : Calm κ s₀ (s.tollTime dt t) := h.upd

theorem shaperTime {dt : Nat} (h : Calm κ s₀ s) : Calm κ s₀ (s.shaperTime dt) := h.upd

theorem throttleTime {dt : Nat} (h : Calm κ s₀ s) : Calm κ s₀ (s.throttleTime dt) :=
  (h.upd.when fun h => h.bump).when fun h => h.bump

theorem secondTime {dt : Nat} (h : Calm κ s₀ s) : Calm κ s₀ (s.secondTime dt) := .ite h h.upd

theorem advance {dt : Nat} (h : Calm κ s₀ s) : Calm κ s₀ (s.advance dt) :=
  ((Calm.ite h h.shaperTime.throttleTime.secondTime).foldS fun h => h.tollTime).upd

theorem idle (h : Calm κ s₀ s) : Calm κ s₀ (idle s) := h.advance

theorem waitTill {t : Nat} (h : Calm κ s₀ s) : Calm κ s₀ (s.waitTill t) := h.advance

theorem tollCycles {t n : Nat} (h : Calm κ s₀ s) : Calm κ s₀ (s.tollCycles t n) := h.upd

/-! ### Machine/Alerts -/

theorem alertFrom {old : State} (h : Calm κ s₀ s) : Calm κ s₀ (s.alertFrom old) :=
  (h.when fun h => h.emit).when fun h => h.emit

theorem latchAlert {n : Nat} (h : Calm κ s₀ s) : Calm κ s₀ (s.latchAlert n) := h.upd.alertFrom

theorem worldViol (h : Calm κ s₀ s) : Calm κ s₀ s.worldViol := h.setFld.latchAlert

/-! ### Machine/Bbx -/

theorem bbxPulse (h : Calm κ s₀ s) : Calm κ s₀ s.bbxPulse := by
  unfold State.bbxPulse
  split
  · exact h.upd
  · exact h

theorem bbxDrop (h : Calm κ s₀ s) : Calm κ s₀ s.bbxDrop := h.bump

theorem bbxQueue {r : BbxRec} (h : Calm κ s₀ s) : Calm κ s₀ (s.bbxQueue r) := .ite h.upd (Calm.ite h.bbxDrop h.upd.bbxDrop)

theorem bbxLog {kind cls index : Nat} {data : List Byte} {ident tenant job position : Nat} (h : Calm κ s₀ s) :
    Calm κ s₀ (s.bbxLog kind cls index data ident tenant job position) :=
  h.bbxQueue.bbxPulse

theorem bbxPulseEnd (h : Calm κ s₀ s) : Calm κ s₀ s.bbxPulseEnd := by
  unfold State.bbxPulseEnd
  split
  · exact h
  · dsimp only
    split
    · exact (h.upd.upd.when fun h => h.latchAlert).bbxPulse
    · split
      · exact .ite h.upd.upd.upd h.upd.upd.bbxDrop
      · exact h.upd.upd

/-! ### Machine/Half -/

theorem writePhase {c : Ctx} {p : PhaseRec} (h : Calm κ s₀ s) : Calm κ s₀ (s.writePhase c p) := h.ownWrite

theorem noteStream {src tc : Nat} (h : Calm κ s₀ s) : Calm κ s₀ (s.noteStream src tc) := .ite h.ownWrite h

theorem setWorks {l : List WorkKey} (h : Calm κ s₀ s) : Calm κ s₀ (s.setWorks l) :=
  (h.upd.foldS fun h => h.ownWrite).foldS fun h => h.ownWrite

/-! ### Machine/Life -/

theorem markIncomplete {id n : Nat} (h : Calm κ s₀ s) : Calm κ s₀ (s.markIncomplete id n) := h.modVersion

theorem dropMessages {v : Inv} {lsn : Nat} (h : Calm κ s₀ s) : Calm κ s₀ (s.dropMessages v lsn) := .ite h.upd h.upd.bump

theorem sweepKeys (h : Calm κ s₀ s) : Calm κ s₀ s.sweepKeys := h.setWorks

theorem ctxToll {c : Ctx} (h : Calm κ s₀ s) : Calm κ s₀ (s.ctxToll c) := by
  unfold State.ctxToll
  split
  · exact h.tollCycles
  · exact h

theorem freeSieves {lsn : Nat} (h : Calm κ s₀ s) : Calm κ s₀ (s.freeSieves lsn) := h.upd

theorem endInv {e : Entry} {status : Nat} (h : Calm κ s₀ s) : Calm κ s₀ (s.endInv e status) := by
  unfold State.endInv
  split
  · exact h
  · dsimp only
    split
    · exact (h.foldS fun h => h.ctxToll).upd.sweepPages.dropMessages.freeSieves.upd.sweepKeys
    · exact (h.foldS fun h => h.ctxToll).upd.sweepPages.dropMessages.freeSieves.upd.sweepKeys.foldS fun h => by
        split
        · exact h.markIncomplete
        · exact h

theorem endMoves {lsn : Nat} (h : Calm κ s₀ s) : Calm κ s₀ (s.endMoves lsn) := h.upd

theorem endLoad {e : Entry} (h : Calm κ s₀ s) : Calm κ s₀ (s.endLoad e) := by
  unfold State.endLoad
  split
  · exact .ite h.upd (Calm.ite h.upd h)
  · exact h

theorem endWork {e : Entry} {status : Nat} (h : Calm κ s₀ s) : Calm κ s₀ (s.endWork e status) :=
  h.dropFetches.endInv.endMoves.endLoad

theorem fixResult {lsn : Nat} {r : Res} (h : Calm κ s₀ s) : Calm κ s₀ (s.fixResult lsn r) := by
  unfold State.fixResult
  split
  · exact h
  · exact .ite h.endWork.modEntry h

theorem onOp {lsn op : Nat} {f : Entry → State → State} (h : Calm κ s₀ s)
    (hf : ∀ {a : Entry} {s : State}, Calm κ s₀ s → Calm κ s₀ (f a s)) : Calm κ s₀ (s.onOp lsn op f) := by
  unfold State.onOp
  split
  · exact .ite (hf h) h
  · exact h

theorem setNote {lsn : Nat} {note : List Nat} (h : Calm κ s₀ s) : Calm κ s₀ (s.setNote lsn note) := by
  unfold State.setNote
  split
  · exact h.putEntry
  · exact h

theorem sweepSlot {slot : Nat} (h : Calm κ s₀ s) : Calm κ s₀ (s.sweepSlot slot) := .ite h.upd h

theorem release {e : Entry} (h : Calm κ s₀ s) : Calm κ s₀ (s.release e) := by
  unfold State.release
  dsimp only
  split
  · exact ((h.foldS fun h => h.dropRef).foldS fun h => h.modVersion.reap).putEntry.sweepSlot
  · exact ((h.foldS fun h => h.dropRef).foldS fun h => h.modVersion.reap).putEntry

theorem sendRecord {lsn : Nat} {prior : Bool} (h : Calm κ s₀ s) : Calm κ s₀ (s.sendRecord lsn prior) := by
  unfold State.sendRecord
  split
  · exact h
  · split
    · exact h
    · exact .ite (h.modEntry.when fun h => h.faultPair) h.modEntry.writeRecord

theorem completeRec {lsn : Nat} (h : Calm κ s₀ s) : Calm κ s₀ (s.completeRec lsn) := by
  unfold State.completeRec
  split
  · exact h
  · exact .ite h.release.sendRecord h

theorem freeDone {pair : Nat} (h : Calm κ s₀ s) : Calm κ s₀ (s.freeDone pair) := h.upd

theorem recordSeen {pair lsn : Nat} (h : Calm κ s₀ s) : Calm κ s₀ (s.recordSeen pair lsn) := by
  unfold State.recordSeen
  split
  · exact h
  · split
    · exact .ite h.dropAtoms.modEntry.freeDone.writeEp h.dropAtoms.modEntry.freeDone
    · exact h

theorem recordFailed {pair lsn : Nat} (h : Calm κ s₀ s) : Calm κ s₀ (s.recordFailed pair lsn) := h.modEntry.faultPair

theorem sendPrior {pair : Nat} (h : Calm κ s₀ s) : Calm κ s₀ (s.sendPrior pair) := h.foldS fun h => h.when fun h => h.sendRecord

/-! ### Machine/Jobs -/

theorem modJob {j : Nat} {f : Job → Job} (h : Calm κ s₀ s) : Calm κ s₀ (s.modJob j f) := h.upd

/-! ### Machine/Moves -/

theorem modMove {k : Nat} {f : MoveJob → MoveJob} (h : Calm κ s₀ s) : Calm κ s₀ (s.modMove k f) := h.upd

theorem trayLines {src tenant p at_ tier shelf : Nat} {write : Bool} {n : Nat} {image : List Byte} (h : Calm κ s₀ s) :
    Calm κ s₀ (s.trayLines src tenant p at_ tier shelf write n image) := by
  unfold State.trayLines
  split
  · exact h
  · exact h.queueLines

theorem pumpPage {k p : Nat} (h : Calm κ s₀ s) : Calm κ s₀ (s.pumpPage k p) := by
  unfold State.pumpPage
  split
  · split
    · exact h
    · split
      · exact h
      · exact h.modMove
      · exact h.modMove
      · exact h.modMove
      · exact h.tickFree.modPage.trayLines.trayLines
  · exact h.modMove
  · exact h

theorem endMove {k lsn : Nat} {m : MoveJob} {slack : Nat} (h : Calm κ s₀ s) : Calm κ s₀ (s.endMove k lsn m slack) := by
  unfold State.endMove
  split
  · exact h.putEntry.fixResult.tickFree
  · exact h.upd

theorem finishMove {k : Nat} (h : Calm κ s₀ s) : Calm κ s₀ (s.finishMove k) := by
  unfold State.finishMove
  split
  · exact h
  · split
    · exact h
    · dsimp only
      split
      · exact h.endMove
      · exact h.endMove
      · exact h
      · exact h.upd.modVersion.reap.emit
      · exact h.upd

theorem pumpMove {k : Nat} (h : Calm κ s₀ s) : Calm κ s₀ (s.pumpMove k) := by
  unfold State.pumpMove
  split
  · exact .ite h ((h.foldS fun h => h.pumpPage).finishMove)
  · exact h

theorem pumpMoves (h : Calm κ s₀ s) : Calm κ s₀ s.pumpMoves := h.foldS fun h => h.pumpMove

theorem addMove {m : MoveJob} (h : Calm κ s₀ s) : Calm κ s₀ (s.addMove m) := h.upd.pumpMove

theorem runPending {id n : Nat} (h : Calm κ s₀ s) : Calm κ s₀ (s.runPending id n) := by
  unfold State.runPending
  split
  · split
    · exact .ite h.modVersion.emits.addMove h
    · exact h
  · exact h

/-! ### Machine/Halt -/

theorem abortDesc {lsn detail : Nat} (h : Calm κ s₀ s) : Calm κ s₀ (s.abortDesc lsn detail) := h.fixResult.completeRec

theorem stopWork {p : Entry → Bool} {detail : Nat} (h : Calm κ s₀ s) : Calm κ s₀ (s.stopWork p detail) :=
  h.foldS fun h => Calm.ite h.completeRec (Calm.ite h h.abortDesc)

theorem discardOpen {p : Nat → Nat → Version → Bool} (h : Calm κ s₀ s) : Calm κ s₀ (s.discardOpen p) :=
  h.foldS fun h => h.discardVersion

theorem closeRing {pair : Nat} (h : Calm κ s₀ s) : Calm κ s₀ (s.closeRing pair) :=
  h.discardOpen.upd.modRing.when fun h => h.writeAidx

theorem endRingReset {pair : Nat} (h : Calm κ s₀ s) : Calm κ s₀ (s.endRingReset pair) :=
  (h.setFld.dropFetches.upd.foldS fun h => h.modEntry).modRing.noteRing

theorem pumpClosing {pair : Nat} (h : Calm κ s₀ s) : Calm κ s₀ (s.pumpClosing pair) := .ite h h.endRingReset

theorem pumpRing {pair : Nat} (h : Calm κ s₀ s) : Calm κ s₀ (s.pumpRing pair) := by
  unfold State.pumpRing
  split
  · exact h
  · split
    · exact h.pumpClosing
    · dsimp only
      split
      · exact (h.foldS fun h => Calm.ite h.modEntry.freeEntry h.modEntry.putEntry).stopWork.when fun h => h.modTen
      · exact ((h.foldS fun h => Calm.ite h.modEntry.freeEntry h.modEntry.putEntry).stopWork.when
          fun h => h.modTen).closeRing.pumpClosing

theorem pumpTenant {t : Nat} (h : Calm κ s₀ s) : Calm κ s₀ (s.pumpTenant t) := by
  unfold State.pumpTenant
  split
  · exact .ite ((h.when fun h => h.modTen).modTen) (h.when fun h => h.modTen)
  · exact h

theorem dropKeys {vs : List (Nat × Nat)} (h : Calm κ s₀ s) : Calm κ s₀ (s.dropKeys vs) := h.setWorks

theorem endAbort {a : AbortJob} (h : Calm κ s₀ s) : Calm κ s₀ (s.endAbort a) := h.freeEntry.ownWrite.upd

theorem pumpAbort {a : AbortJob} (h : Calm κ s₀ s) : Calm κ s₀ (s.pumpAbort a) := by
  unfold State.pumpAbort
  split
  · exact h
  · dsimp only
    split
    · exact h.stopWork.dropKeys.discardOpen
    · exact h.stopWork.dropKeys.discardOpen.endAbort

theorem pumpTakeover (h : Calm κ s₀ s) : Calm κ s₀ s.pumpTakeover := .ite h (h.upd.foldS fun h => h.writeAidx)

theorem settle (h : Calm κ s₀ s) : Calm κ s₀ s.settle :=
  (((h.pumpMoves.sweepKeys.foldS fun h => h.pumpRing).foldS fun h => h.pumpAbort).foldS fun h => h.pumpTenant).pumpTakeover

theorem requestAbort {t j : Nat} (h : Calm κ s₀ s) : Calm κ s₀ (s.requestAbort t j) := .ite h h.addEntry.bump.upd.settle

theorem autoAbort {e : Entry} {status : Nat} (h : Calm κ s₀ s) : Calm κ s₀ (s.autoAbort e status) :=
  h.when fun h => h.requestAbort

theorem startRingReset {pair detail : Nat} (h : Calm κ s₀ s) : Calm κ s₀ (s.startRingReset pair detail) :=
  .ite h h.modRing.dropFetches

theorem unloadRecipes {t : Nat} (h : Calm κ s₀ s) : Calm κ s₀ (s.unloadRecipes t) := h.upd

theorem dropOrphans {t : Nat} (h : Calm κ s₀ s) : Calm κ s₀ (s.dropOrphans t) := h.foldS fun h => h.retireVersion.logSelf

theorem startTenantReset {t : Nat} (h : Calm κ s₀ s) : Calm κ s₀ (s.startTenantReset t) := by
  unfold State.startTenantReset
  exact (h.modTen.foldS fun h => h.startRingReset).unloadRecipes.dropOrphans.settle

/-! ### Machine/Rings -/

theorem submitTail {pair : Nat} {t : W32} (h : Calm κ s₀ s) : Calm κ s₀ (s.submitTail pair t) :=
  .ite h (Calm.ite h.modRing h.faultPair)

theorem yieldLoad {op slot : Nat} (h : Calm κ s₀ s) : Calm κ s₀ (s.yieldLoad op slot) := by
  unfold State.yieldLoad
  split
  · exact h.endLoad.dropFetches.setNote
  · exact h

theorem yieldLoads {e : Entry} (h : Calm κ s₀ s) : Calm κ s₀ (s.yieldLoads e) := by
  unfold State.yieldLoads
  exact Calm.when (by
    split
    · exact h.yieldLoad
    · exact h) fun h => h.yieldLoad

theorem markReplayed {lsn : Nat} (h : Calm κ s₀ s) : Calm κ s₀ (s.markReplayed lsn) := h.modEntry.bump

theorem acceptEntry {lsn : Nat} (h : Calm κ s₀ s) : Calm κ s₀ (s.acceptEntry lsn) := by
  unfold State.acceptEntry
  split
  · exact h
  · exact (h.yieldLoads.putEntry.upd.when fun h => h.markReplayed).modRing.noteRing.writeAidx

theorem coverEntry {e : Entry} (h : Calm κ s₀ s) : Calm κ s₀ (s.coverEntry e) := by
  unfold State.coverEntry
  split
  · exact .ite h.freeEntry h
  · exact .ite (Calm.ite h.acceptEntry h) (Calm.ite h.freeEntry h)
  · exact h

theorem pumpMirror (h : Calm κ s₀ s) : Calm κ s₀ s.pumpMirror := .ite h (h.foldS fun h => h.coverEntry)

theorem completionHead {pair : Nat} {hd : W32} (h : Calm κ s₀ s) : Calm κ s₀ (s.completionHead pair hd) :=
  .ite h.modRing.noteRing.freeDone.sendPrior.pumpMirror h.faultPair

theorem ringBell {off size : Nat} {value : W64} (h : Calm κ s₀ s) : Calm κ s₀ (s.ringBell off size value) :=
  .ite h.bump (Calm.ite h.bump (Calm.ite h.submitTail h.completionHead))

theorem doorbell {src : DbSrc} {off size : Nat} {value : W64} (h : Calm κ s₀ s) : Calm κ s₀ (s.doorbell src off size value) :=
  .ite h (Calm.ite h.bump h.ringBell)

theorem execSubmissionDoorbell {src : DbSrc} {off size : Nat} {value : W64}
    (h : Calm κ s₀ s) (e : execSubmissionDoorbell src off size value s = .next t) : Calm κ s₀ t :=
  h.checked e h.doorbell

theorem execCompletionDoorbell {src : DbSrc} {off size : Nat} {value : W64}
    (h : Calm κ s₀ s) (e : execCompletionDoorbell src off size value s = .next t) : Calm κ s₀ t :=
  h.checked e h.doorbell

theorem takeDescriptor {pair : Nat} {words : List W64} (h : Calm κ s₀ s) : Calm κ s₀ (s.takeDescriptor pair words) := by
  unfold State.takeDescriptor
  dsimp only
  split
  · split
    · exact h.addEntry.putEntry
    · exact h.addEntry
  · exact h.addEntry.acceptEntry

theorem accept {pair : Nat} (h : Calm κ s₀ s) : Calm κ s₀ (s.accept pair) := by
  unfold State.accept
  dsimp only
  split
  · split
    · exact h.dropFetch
    · exact h
  · split
    · exact h.dropFetch.takeDescriptor
    · exact h
    · split
      · exact h.readEp.dropFetch.faultPair
      · exact h.readEp

theorem execDescriptorAccept {pair : Pair} (h : Calm κ s₀ s) (e : execDescriptorAccept pair s = .next t) : Calm κ s₀ t :=
  .next e h.accept

theorem start {lsn : Nat} (h : Calm κ s₀ s) : Calm κ s₀ (s.start lsn) := by
  unfold State.start
  split
  · exact h
  · split
    · dsimp only
      split
      · exact h.modEntry.fixResult
      · exact h.modEntry
    · exact h

theorem execDescriptorStart {lsn : Nat} (h : Calm κ s₀ s) (e : execDescriptorStart lsn s = .next t) : Calm κ s₀ t :=
  .next e h.start

theorem complete {lsn : Nat} (h : Calm κ s₀ s) : Calm κ s₀ (s.complete lsn) := by
  unfold State.complete
  split
  · exact h
  · exact .ite h.completeRec.autoAbort.settle h

theorem execDescriptorComplete {lsn : Nat} (h : Calm κ s₀ s) (e : execDescriptorComplete lsn s = .next t) : Calm κ s₀ t :=
  .next e h.complete

theorem execNop {lsn : Nat} (h : Calm κ s₀ s) (e : execNop lsn s = .next t) : Calm κ s₀ t :=
  .next e (h.onOp fun h => h.fixResult)

theorem sendFence {n ep tc : Nat} {p : Purpose} (h : Calm κ s₀ s) : Calm κ s₀ (s.sendFence n ep tc p) := h.modTx.modTx.sendBy

theorem contactBuddy (h : Calm κ s₀ s) : Calm κ s₀ s.contactBuddy := by
  unfold State.contactBuddy
  split
  · exact h.sendFence
  · exact h

theorem fenceDone {lsn : Nat} (h : Calm κ s₀ s) : Calm κ s₀ (s.fenceDone lsn) := h.onOp fun h => h.upd.fixResult

theorem fence {lsn : Nat} (h : Calm κ s₀ s) : Calm κ s₀ (s.fence lsn) := by
  unfold State.fence
  exact h.onOp fun h => Calm.ite h (by
    split
    · exact h.fixResult
    · exact h.setNote.foldS fun h => h.sendFence)

theorem execFence {lsn : Nat} (h : Calm κ s₀ s) (e : execFence lsn s = .next t) : Calm κ s₀ t := .next e h.fence

theorem execFenceTimeout {lsn : Nat} (h : Calm κ s₀ s) (e : execFenceTimeout lsn s = .next t) : Calm κ s₀ t :=
  .next e (h.onOp fun h => Calm.ite h.waitTill.fixResult h.waitTill.fixResult.tickFree)

/-! ### Machine/Tables -/

theorem takeTable {e : Entry} {slot : Nat} {img : List Byte} (h : Calm κ s₀ s) : Calm κ s₀ (s.takeTable e slot img) :=
  .ite h.upd.modEntry.fixResult h.fixResult

theorem loadTable {lsn : Nat} (h : Calm κ s₀ s) : Calm κ s₀ (s.loadTable lsn) := by
  unfold State.loadTable
  exact h.onOp fun h => by
    split
    · split
      · exact h.takeTable
      · exact h.fixResult
      · exact h
    · split
      · exact h.fixResult
      · dsimp only
        split
        · exact h.fixResult
        · split
          · exact h.setNote.upd.readEp.fixResult
          · exact h.setNote.upd.readEp

theorem execLoadTable {lsn : Nat} (h : Calm κ s₀ s) (e : execLoadTable lsn s = .next t) : Calm κ s₀ t := .next e h.loadTable

theorem recordSlot {id n slot : Nat} (h : Calm κ s₀ s) : Calm κ s₀ (s.recordSlot id n slot).1 := by
  unfold State.recordSlot
  split
  · exact h
  · split
    · exact h.modVersion
    · exact .iteFst h h

theorem loadRest {e : Entry} {id n : Nat} {r : Region} {off len : Nat} {b : List Byte} (h : Calm κ s₀ s) :
    Calm κ s₀ (s.loadRest e id n r off len b) :=
  h.setFetch.foldS fun h => h.upd.sendLoad

theorem moveOut {e : Entry} {dst : Nat} {data : List Byte} (h : Calm κ s₀ s) : Calm κ s₀ (s.moveOut e dst data) := by
  unfold State.moveOut
  extract_lets x _
  refine .ite ?_ ?_
  · split
    next e => exact (h.writeEp.ofFst e).fixResult
    next e => exact (h.writeEp.ofFst e).bump.setNote
  · have hslot : Calm κ s₀
        (if bits x 23 16 = fmtKc then s.recordSlot (refOf (e.w 4)).region dst (bits x 27 24) else (s, none)).1 := iteFst h.recordSlot h
    dsimp only
    split
    · exact hslot.fixResult
    · split
      next e => exact (hslot.writeVersion.ofFst e).fixResult
      next e => exact .ite (hslot.writeVersion.ofFst e).bump.setNote (hslot.writeVersion.ofFst e).bump.fixResult

theorem moveBegin {e : Entry} (h : Calm κ s₀ s) : Calm κ s₀ (s.moveBegin e) := by
  unfold State.moveBegin
  dsimp only
  split
  · split
    · exact h.fixResult
    · split
      · exact h.setNote.readEp.fixResult
      · exact h.setNote.readEp
  · split
    · exact h.fixResult
    · split
      · exact h.fixResult
      · split
        · exact h.fixResult
        · split
          · exact h.bump.fixResult
          · split
            · exact h.addRef.putEntry.countRead.fixResult.tickFree
            · split
              · split
                · exact h.addRef.putEntry.countRead.moveOut
                · exact h.addRef.putEntry.countRead.setNote.loadRest
              · exact h.addRef.putEntry.countRead.fixResult

theorem move {lsn : Nat} (h : Calm κ s₀ s) : Calm κ s₀ (s.move lsn) := by
  unfold State.move
  exact h.onOp fun h => by
    split
    · split
      · exact h.dropFetch.moveOut
      · exact h.fixResult
      · exact h
    · split
      · exact h
      · split <;> exact h.fixResult
    · exact h.moveBegin

theorem execMove {lsn : Nat} (h : Calm κ s₀ s) (e : execMove lsn s = .next t) : Calm κ s₀ t := .next e h.move

/-! ### Machine/RegionOps -/

theorem failDesc {lsn : Nat} {f : Nat × Nat} (h : Calm κ s₀ s) : Calm κ s₀ (s.failDesc lsn f) := h.fixResult

theorem alloc {lsn : Nat} (h : Calm κ s₀ s) : Calm κ s₀ (s.alloc lsn) := by
  unfold State.alloc
  exact h.onOp fun h => by
    split
    · exact h.failDesc
    · exact (Calm.ite h.tickFree h).upd.logVersion.fixResult

theorem execAlloc {lsn : Nat} (h : Calm κ s₀ s) (e : execAlloc lsn s = .next t) : Calm κ s₀ t := .next e h.alloc

theorem freeRegion {id : Nat} (h : Calm κ s₀ s) : Calm κ s₀ (s.freeRegion id) := by
  unfold State.freeRegion
  split
  · exact h
  · exact h.modRegion.foldS fun h => Calm.ite h.discardVersion h.retireVersion

theorem freeOp {lsn : Nat} (h : Calm κ s₀ s) : Calm κ s₀ (s.freeOp lsn) := by
  unfold State.freeOp
  exact h.onOp fun h => by
    dsimp only
    split
    · exact h.failDesc
    · exact h.freeRegion.logVersion.fixResult

theorem execFree {lsn : Nat} (h : Calm κ s₀ s) (e : execFree lsn s = .next t) : Calm κ s₀ t := .next e h.freeOp

theorem openOp {lsn : Nat} (h : Calm κ s₀ s) : Calm κ s₀ (s.openOp lsn) := by
  unfold State.openOp
  exact h.onOp fun h => by
    split
    · exact h.failDesc
    · split
      · exact h.failDesc
      · exact h.modRegion.logVersion.fixResult

theorem execOpenVersion {lsn : Nat} (h : Calm κ s₀ s) (e : execOpenVersion lsn s = .next t) : Calm κ s₀ t := .next e h.openOp

theorem sealOp {lsn : Nat} (h : Calm κ s₀ s) : Calm κ s₀ (s.sealOp lsn) := by
  unfold State.sealOp
  exact h.onOp fun h => Calm.ite h ((by
    split
    · exact h.failDesc
    · split
      · exact h.failDesc
      · exact .ite h.failDesc (Calm.ite h.failDesc h.modVersion.logVersion.fixResult)))

theorem execSeal {lsn : Nat} (h : Calm κ s₀ s) (e : execSeal lsn s = .next t) : Calm κ s₀ t := .next e h.sealOp

theorem sealFailed {id n : Nat} (h : Calm κ s₀ s) : Calm κ s₀ (s.sealFailed id n) := h.modVersion

theorem publishCompare {e : Entry} {id n : Nat} (h : Calm κ s₀ s) : Calm κ s₀ (s.publishCompare e id n) := by
  unfold State.publishCompare
  split
  · split
    · exact h.modVersion.failDesc
    · split
      · exact h.modVersion.modRegion.emits.logVersion.fixResult
      · exact h.modVersion.logVersion.fixResult
  · exact h.failDesc

theorem publishAnswered {e : Entry} {id n : Nat} (h : Calm κ s₀ s) : Calm κ s₀ (s.publishAnswered e id n) :=
  .ite h.publishCompare h.putEntry.sealFailed.logVersion.fixResult.tickFree

theorem publishOp {lsn : Nat} (h : Calm κ s₀ s) : Calm κ s₀ (s.publishOp lsn) := by
  unfold State.publishOp
  exact h.onOp fun h => Calm.ite h (by
    split
    · exact h.failDesc
    · split
      · exact h.failDesc
      · split
        · exact h.putEntry.sealFailed.logVersion.fixResult
        · exact .ite h.publishCompare h.modVersion.setNote.emits)

theorem execPublish {lsn : Nat} (h : Calm κ s₀ s) (e : execPublish lsn s = .next t) : Calm κ s₀ t := .next e h.publishOp

theorem publishAnswer {lsn m : Nat} {ok : Bool} (h : Calm κ s₀ s) : Calm κ s₀ (s.publishAnswer lsn m ok) := by
  unfold State.publishAnswer
  exact h.onOp fun h => by
    split
    · exact .ite (Calm.ite h.putEntry.publishAnswered h.putEntry) h
    · exact h

theorem execPublishHolderSeal {home : ModId} {region version tag : Nat}
    (h : Calm κ s₀ s) (e : execPublishHolderSeal home region version tag s = .next t) : Calm κ s₀ t :=
  h.checked e ((h.when fun h => h.meet.sealFailed).emit)

theorem retireOp {lsn : Nat} (h : Calm κ s₀ s) : Calm κ s₀ (s.retireOp lsn) := by
  unfold State.retireOp
  exact h.onOp fun h => by
    split
    · exact h.failDesc
    · split
      · exact h.failDesc
      · exact .ite h.failDesc (Calm.ite h.failDesc h.retireVersion.logVersion.fixResult)

theorem execRetire {lsn : Nat} (h : Calm κ s₀ s) (e : execRetire lsn s = .next t) : Calm κ s₀ t := .next e h.retireOp

theorem execOrphanHoldExpiry {region version : Nat}
    (h : Calm κ s₀ s) (e : execOrphanHoldExpiry region version s = .next t) : Calm κ s₀ t := by
  refine .next e ?_
  split
  · exact .ite h.waitTill.modVersion.retireVersion.logSelf h
  · exact h

theorem queryWrite {e : Entry} {entries : List (List Byte)} (h : Calm κ s₀ s) : Calm κ s₀ (s.queryWrite e entries) := by
  unfold State.queryWrite
  dsimp only
  split
  · exact h.fixResult
  · split
    next e => exact (h.writeEp.ofFst e).failDesc
    next e => exact (h.writeEp.ofFst e).setNote

theorem queryOp {lsn kind : Nat} {f : Entry → State → State} (h : Calm κ s₀ s)
    (hf : ∀ {a : Entry} {s : State}, Calm κ s₀ s → Calm κ s₀ (f a s)) : Calm κ s₀ (s.queryOp lsn kind f) :=
  h.onOp fun h => .ite h (by
    split
    · refine .ite h ?_
      split
      · exact h.failDesc
      · exact h.fixResult
    · exact hf h)

theorem queryRegion {lsn : Nat} (h : Calm κ s₀ s) : Calm κ s₀ (s.queryRegion lsn) := by
  unfold State.queryRegion
  exact h.queryOp fun h => by
    dsimp only
    split
    · exact h.failDesc
    · exact h.queryWrite

theorem execQueryRegion {lsn : Nat} (h : Calm κ s₀ s) (e : execQueryRegion lsn s = .next t) : Calm κ s₀ t :=
  .next e h.queryRegion

theorem queryVersions {lsn : Nat} (h : Calm κ s₀ s) : Calm κ s₀ (s.queryVersions lsn) := by
  unfold State.queryVersions
  exact h.queryOp fun h => by
    split
    · exact h.failDesc
    · exact h.queryWrite

theorem execQueryVersions {lsn : Nat} (h : Calm κ s₀ s) (e : execQueryVersions lsn s = .next t) : Calm κ s₀ t :=
  .next e h.queryVersions

theorem querySubparts {lsn : Nat} (h : Calm κ s₀ s) : Calm κ s₀ (s.querySubparts lsn) := h.queryOp fun h => h.queryWrite

theorem queryOpen {lsn kind : Nat} (h : Calm κ s₀ s) : Calm κ s₀ (s.queryOpen lsn kind) :=
  h.queryOp fun h => h.tickFree.queryWrite

theorem execQuerySubparts {lsn : Nat} (h : Calm κ s₀ s) (e : execQuerySubparts lsn s = .next t) : Calm κ s₀ t :=
  .next e h.querySubparts

theorem execQueryUsage {lsn : Nat} (h : Calm κ s₀ s) (e : execQueryUsage lsn s = .next t) : Calm κ s₀ t := .next e h.queryOpen

/-! ### Machine/Serve -/

theorem bar2Note {port w st d : Nat} (h : Calm κ s₀ s) : Calm κ s₀ (s.bar2Note port w st d) := h.upd

theorem loadReply {port : Nat} {hd : Hdr} {off why : Nat} {got : Except (Nat × Nat) (List Byte × List Nat)} (h : Calm κ s₀ s) :
    Calm κ s₀ (s.loadReply port hd off why got) :=
  .ite ((h.tickFree.when fun h => h.bar2Note).tickFree.emit) h.tickFree.answer

theorem serveLoad {port : Nat} {hd : Hdr} {id n at_ : Nat} (h : Calm κ s₀ s) : Calm κ s₀ (s.serveLoad port hd id n at_) :=
  h.countRead.loadReply

theorem postAdvice {t r0 r1 : Nat} (h : Calm κ s₀ s) : Calm κ s₀ (s.postAdvice t r0 r1) := h.modTen.postEvent

theorem modWin {w : Nat} {f : WinSt → WinSt} (h : Calm κ s₀ s) : Calm κ s₀ (s.modWin w f) := h.upd

theorem leadTo {w n : Nat} (h : Calm κ s₀ s) : Calm κ s₀ (s.leadTo w n) := by
  unfold State.leadTo
  dsimp only
  split
  · exact h.modWin
  · exact h.postAdvice
  · exact h

theorem raise {src tenant slot : Nat} {gates : List (Nat × Nat)} (h : Calm κ s₀ s) : Calm κ s₀ (s.raise src tenant slot gates) :=
  h.upd

theorem lateWin {w : Nat} {key : Nat × Nat} {gates : List (Nat × Nat)} (h : Calm κ s₀ s) :
    Calm κ s₀ (s.lateWin w key gates) := by
  unfold State.lateWin
  split
  · exact h
  · exact Calm.when (Calm.bump (Calm.bump (by
      split
      · exact h.modWin.raise
      · exact h.modWin))) fun h => h.leadTo

theorem lateMove {k layer : Nat} {gates : List (Nat × Nat)} (h : Calm κ s₀ s) : Calm κ s₀ (s.lateMove k layer gates) := by
  unfold State.lateMove
  split
  · exact h
  · split
    · exact h
    · exact Calm.bump (by
        split
        · split
          · exact h.modMove.raise
          · exact h.modMove
        · exact h.modMove)

theorem addStall {t : Stall} (h : Calm κ s₀ s) : Calm κ s₀ (s.addStall t) := by
  unfold State.addStall
  dsimp only
  split
  · exact h.upd.bump
  · exact h.upd

theorem stallOn {who : Staller} {tenant id n pg : Nat} {nr : Bool} (h : Calm κ s₀ s)
    (e : s.stallOn who tenant id n pg nr = some t) : Calm κ s₀ t := by
  unfold State.stallOn at e
  split at e
  · dsimp only at e
    split at e
    · cases e; exact h.lateWin
    · cases e; exact h.lateWin.modWin.addStall
  · split at e
    · cases e
    · dsimp only at e
      split at e
      · cases e; exact h.lateMove
      · cases e; exact h.lateMove.modMove.addStall

theorem tryStall {who : Staller} {tenant id n : Nat} {pages : List Nat} (h : Calm κ s₀ s) :
    Calm κ s₀ (s.tryStall who tenant id n pages).1 := by
  induction pages with
  | nil => exact h
  | cons pg rest ih =>
    unfold State.tryStall
    dsimp only
    split
    next e =>
      split
      · exact (h.stallOn e).bump
      · exact h.stallOn e
    · exact ih

theorem lateRecord {t : Stall} (h : Calm κ s₀ s) : Calm κ s₀ (s.lateRecord t) := by
  unfold State.lateRecord
  dsimp only
  split
  · split
    · split
      · exact h.postEvent
      · exact h
    · exact h
  · exact h.postEvent
  · split
    · exact h.postEvent
    · exact h
  · exact h

theorem boundTaken {w : Nat} {t : Stall} (h : Calm κ s₀ s) : Calm κ s₀ (s.boundTaken w t) := h.bump.upd

theorem inTime {w pg : Nat} (h : Calm κ s₀ s) : Calm κ s₀ (s.inTime w pg) := .ite h h.setFld.upd

theorem endStall {k : Nat} {pass : Bool} (h : Calm κ s₀ s) : Calm κ s₀ (s.endStall k pass) := by
  unfold State.endStall
  split
  · exact h
  · dsimp only
    split
    · exact Calm.upd (Calm.when (by
        split
        · exact h.upd.setFld.when fun h => h.boundTaken
        · exact h.upd) fun h => h.lateRecord)
    · exact Calm.serveLoad (Calm.when (by
        split
        · exact h.upd.setFld.when fun h => h.boundTaken
        · exact h.upd) fun h => h.lateRecord)

theorem endStalls {p : Stall → Bool} {pass : Bool} (h : Calm κ s₀ s) : Calm κ s₀ (s.endStalls p pass) :=
  h.foldS fun h => h.endStall

/-! ### Machine/Tiers -/

theorem dropHold {id n t : Nat} (h : Calm κ s₀ s) : Calm κ s₀ (s.dropHold id n t) := h.modVersion.reap.runPending

theorem holdOp {lsn : Nat} (h : Calm κ s₀ s) : Calm κ s₀ (s.holdOp lsn) := by
  unfold State.holdOp
  exact h.onOp fun h => by
    split
    · exact h.failDesc
    · exact h.modVersion.fixResult

theorem execHold {lsn : Nat} (h : Calm κ s₀ s) (e : execHold lsn s = .next t) : Calm κ s₀ t := .next e h.holdOp

theorem releaseOp {lsn : Nat} (h : Calm κ s₀ s) : Calm κ s₀ (s.releaseOp lsn) := by
  unfold State.releaseOp
  exact h.onOp fun h => by
    split
    · exact h.failDesc
    · exact .ite h.dropHold.fixResult h.failDesc

theorem execRelease {lsn : Nat} (h : Calm κ s₀ s) (e : execRelease lsn s = .next t) : Calm κ s₀ t := .next e h.releaseOp

theorem takeBack {p : Nat} {g : Page} (h : Calm κ s₀ s) : Calm κ s₀ (s.takeBack p g) := by
  unfold State.takeBack
  split
  · split
    · exact Calm.upd (Calm.modPage (by
        split
        · exact h.modEntry
        · exact h))
    · exact h
  · exact h

theorem takeUp {id n lo hi : Nat} (h : Calm κ s₀ s) : Calm κ s₀ (s.takeUp id n lo hi) := by
  unfold State.takeUp
  split
  · exact h
  · exact Calm.foldS (by
      split
      · exact .ite h.modVersion h
      · exact h) fun h => by
      split
      · split
        · exact .ite h.modPage.dropTray.modMove h
        · exact h.takeBack
      · exact h

theorem askHolders {others : List Nat} {tag : Nat} {r : MoveReq} (h : Calm κ s₀ s) : Calm κ s₀ (s.askHolders others tag r) :=
  h.emits

theorem promoteBegin {e : Entry} {r : Region} {n : Nat} {v : Version} {lo hi : Nat} (h : Calm κ s₀ s) :
    Calm κ s₀ (s.promoteBegin e r n v lo hi) :=
  h.takeUp.modVersion.setNote.askHolders.addMove

theorem promoteOp {lsn : Nat} (h : Calm κ s₀ s) : Calm κ s₀ (s.promoteOp lsn) := by
  unfold State.promoteOp
  exact h.onOp fun h => Calm.ite h.pumpMoves (by
    split
    · exact h.failDesc
    · split
      · exact h.failDesc
      · split
        · exact h.failDesc
        · exact h.promoteBegin)

theorem execPromote {lsn : Nat} (h : Calm κ s₀ s) (e : execPromote lsn s = .next t) : Calm κ s₀ t := .next e h.promoteOp

theorem demoteMove {e : Entry} {r : Region} {n : Nat} {v : Version} {lo hi : Nat} (h : Calm κ s₀ s) :
    Calm κ s₀ (s.demoteMove e r n v lo hi) :=
  h.setNote.askHolders.addMove

theorem demoteAct {e : Entry} {r : Region} {n lo hi : Nat} (h : Calm κ s₀ s) : Calm κ s₀ (s.demoteAct e r n lo hi) := by
  unfold State.demoteAct
  dsimp only
  split
  · exact h.dropHold.fixResult
  · split
    · exact h.dropHold.fixResult
    · exact .ite h.dropHold.demoteMove h.dropHold.modVersion.fixResult

theorem demoteOp {lsn : Nat} (h : Calm κ s₀ s) : Calm κ s₀ (s.demoteOp lsn) := by
  unfold State.demoteOp
  exact h.onOp fun h => Calm.ite h.pumpMoves (by
    split
    · exact h.failDesc
    · split
      · exact h.failDesc
      · split
        · exact h.failDesc
        · exact h.demoteAct)

theorem execDemote {lsn : Nat} (h : Calm κ s₀ s) (e : execDemote lsn s = .next t) : Calm κ s₀ t := .next e h.demoteOp

theorem moveSubpart {home tag : Nat} {q : MoveReq} (h : Calm κ s₀ s) : Calm κ s₀ (s.moveSubpart home tag q) := by
  unfold State.moveSubpart
  split
  · exact h.emit
  · split
    · exact h
    · dsimp only
      split
      · exact (Calm.ite h.meet.takeUp.modVersion h.meet).addMove
      · exact h.meet.emit

theorem execMoveSubpartRequest {home : ModId} {tag : Nat} {q : MoveReq}
    (h : Calm κ s₀ s) (e : execMoveSubpartRequest home tag q s = .next t) : Calm κ s₀ t :=
  h.checked e h.moveSubpart

theorem moveAnswer {lsn m : Nat} {ok full : Bool} {slack : Nat} (h : Calm κ s₀ s) :
    Calm κ s₀ (s.moveAnswer lsn m ok full slack) := by
  unfold State.moveAnswer
  split
  · exact h.modMove.finishMove
  · exact h

theorem execHolderAnswer {home : ModId} {tag : Nat} {res : HolderEnd} {slack : Nat}
    (h : Calm κ s₀ s) (e : execHolderAnswer home tag res slack s = .next t) : Calm κ s₀ t :=
  .next e h.publishAnswer.moveAnswer

theorem switchPage {m : MoveJob} {p : Nat} {g : Page} {v : PageMv} (h : Calm κ s₀ s) : Calm κ s₀ (s.switchPage m p g v) := by
  unfold State.switchPage
  exact Calm.when (Calm.when (by
    split
    · exact h.modPage.tickFree.countLp
    · exact h.modPage) fun h => h.bump) fun h => by
    split
    · exact h.tollBytes
    · exact h

theorem landCopy {p : Nat} (h : Calm κ s₀ s) : Calm κ s₀ (s.landCopy p) := by
  unfold State.landCopy
  exact h.foldS fun h => by
    split
    · split
      · exact h.modWin.inTime.endStalls
      · exact h
    · exact h

theorem failCopy {p : Nat} (h : Calm κ s₀ s) : Calm κ s₀ (s.failCopy p) := by
  unfold State.failCopy
  exact h.foldS fun h => by
    split
    · exact h.modWin.sweepPages
    · exact h

theorem boundsMet {p : Nat} (h : Calm κ s₀ s) : Calm κ s₀ (s.boundsMet p) := .ite (h.foldS fun h => h.when fun h => h.inTime) h

theorem moveSwitch {p : Nat} {verified : Bool} (h : Calm κ s₀ s) : Calm κ s₀ (s.moveSwitch p verified) := by
  unfold State.moveSwitch
  split
  · exact h
  · split
    · exact h.dropTray
    · split
      · exact .ite h.landCopy h.dropTray.failCopy
      · split
        · exact h
        · split
          · exact h
          · dsimp only
            split
            · exact h.dropTray.modPage.modMove.pumpMoves
            · split
              · exact h.dropTray.modPage.modMove.pumpMoves
              · split
                · exact h.modPage.pumpMoves
                · split
                  · exact h.modPage.modMove.pumpMoves
                  · exact (Calm.ite h.switchPage.modMove.boundsMet.endStalls h.switchPage.modMove).pumpMoves

theorem execPageMoveSwitch {page : Nat} {verified : Bool}
    (h : Calm κ s₀ s) (e : execPageMoveSwitch page verified s = .next t) : Calm κ s₀ t :=
  .next e h.moveSwitch

theorem execStallBoundExpiry {stall : Nat} (h : Calm κ s₀ s) (e : execStallBoundExpiry stall s = .next t) : Calm κ s₀ t := by
  refine .next e ?_
  split
  · exact h
  · exact .ite h.waitTill.endStall (Calm.ite h h.endStall)

theorem endGateStalls (h : Calm κ s₀ s) : Calm κ s₀ s.endGateStalls := h.endStalls

theorem endRaises {slot : Nat} {layer : Bool} (h : Calm κ s₀ s) : Calm κ s₀ (s.endRaises slot layer) := h.upd

/-! ### Machine/Windows -/

theorem winOn {w : Nat} (h : Calm κ s₀ s) : Calm κ s₀ (s.winOn w) := by
  unfold State.winOn
  split <;> exact h.modWin

theorem freeCopies {w : Nat} {p : Nat × Nat → Bool} (h : Calm κ s₀ s) : Calm κ s₀ (s.freeCopies w p) :=
  (h.foldS fun h => h.dropTray).modWin.sweepPages

theorem dropSteps {w : Nat} {p : Nat → Bool} (h : Calm κ s₀ s) : Calm κ s₀ (s.dropSteps w p) := h.modWin.foldS fun h => h.dropRef

theorem winOff {w err : Nat} (h : Calm κ s₀ s) : Calm κ s₀ (s.winOff w err) := .ite h.freeCopies.dropSteps.modWin.upd.endStalls h

theorem winTake {w step : Nat} (h : Calm κ s₀ s) : Calm κ s₀ (s.winTake w step) := by
  unfold State.winTake
  split
  · exact h
  · split
    · exact h.modWin.addRef
    · exact h

theorem nearCopy {g : Page} (h : Calm κ s₀ s) : Calm κ s₀ (s.nearCopy g).1 := by
  unfold State.nearCopy
  split
  · refine iteFst h ?_
    split
    · exact h
    · exact h.countLp
  · exact h

theorem stageOne {w step l n : Nat} (h : Calm κ s₀ s) : Calm κ s₀ (s.stageOne w step l n) := by
  unfold State.stageOne
  dsimp only
  split
  · split
    · exact h
    · split
      · exact h.tickFree.nearCopy.upd.modWin.trayLines
      · exact h
  · exact h

theorem winStage {w : Nat} (h : Calm κ s₀ s) : Calm κ s₀ (s.winStage w) := by
  unfold State.winStage
  dsimp only
  split
  · exact h
  · split
    · exact h
    · split
      · exact h
      · exact .ite h.winTake (h.winTake.modWin.foldS fun h => h.stageOne)

theorem execWindowLayerStage {win : Win} (h : Calm κ s₀ s) (e : execWindowLayerStage win s = .next t) : Calm κ s₀ t :=
  .next e h.winStage

theorem pushLayer {w step l : Nat} (h : Calm κ s₀ s) : Calm κ s₀ (s.pushLayer w step l) := by
  unfold State.pushLayer
  dsimp only
  split
  · exact h
  · split
    · split
      · exact h.bump
      · exact h.foldS fun h => h.foldS fun h => by
          split
          · exact h
          · exact h.foldS fun h => h.tollBytes.sendReq
    · exact h.bump

theorem winLanded {w : Nat} (h : Calm κ s₀ s) : Calm κ s₀ (s.winLanded w) := by
  unfold State.winLanded
  split
  · exact h
  · exact .ite h ((h.modWin.foldS fun h => h.inTime).endStalls.pushLayer)

theorem execWindowLayerLanded {win : Win} (h : Calm κ s₀ s) (e : execWindowLayerLanded win s = .next t) : Calm κ s₀ t :=
  .next e h.winLanded

theorem winAdvance {w j old : Nat} (h : Calm κ s₀ s) : Calm κ s₀ (s.winAdvance w j old) :=
  .ite h ((h.modWin.when fun h => h.leadTo).freeCopies.dropSteps.modWin)

theorem scanAct {t id n from_ tgt kind : Nat} {pages : List Nat} (h : Calm κ s₀ s) :
    Calm κ s₀ (s.scanAct t id n from_ tgt kind pages) :=
  .ite h (Calm.ite h.addMove h.postAdvice)

theorem scanTier {t tier idle : Nat} {common : Bool} {dstOf : Region → Option Nat} (h : Calm κ s₀ s) :
    Calm κ s₀ (s.scanTier t tier idle common dstOf) := by
  refine .ite h (foldlFst h fun h => ?_)
  split
  · exact h
  · split
    · exact h
    · exact h.scanAct

theorem scanUp {t : Nat} {common : Bool} (h : Calm κ s₀ s) : Calm κ s₀ (s.scanUp t common) :=
  .ite h (foldlFst h fun h => h.scanAct)

theorem scanTenant {t : Nat} (h : Calm κ s₀ s) : Calm κ s₀ (s.scanTenant t) := h.foldS fun h => h.scanTier.scanTier.scanUp

theorem stopAuto {t : Nat} (h : Calm κ s₀ s) : Calm κ s₀ (s.stopAuto t) :=
  h.foldS fun h => (h.foldS fun h => h.dropTray.modPage).upd

theorem execPlacementScan (h : Calm κ s₀ s) (e : execPlacementScan s = .next t) : Calm κ s₀ t :=
  .next e (h.waitTill.upd.foldS fun h => h.when fun h => h.scanTenant)

theorem execAdviceExpiry {tenant : Tenant} (h : Calm κ s₀ s) (e : execAdviceExpiry tenant s = .next t) : Calm κ s₀ t := by
  refine .next e ?_
  split
  · exact h
  · exact h.waitTill.modTen

theorem execQueryHolds {lsn : Nat} (h : Calm κ s₀ s) (e : execQueryHolds lsn s = .next t) : Calm κ s₀ t := by
  refine .next e ?_
  exact h.queryOp fun h => by
    split
    · exact h.failDesc
    · exact h.queryWrite

theorem execQueryAdvice {lsn : Nat} (h : Calm κ s₀ s) (e : execQueryAdvice lsn s = .next t) : Calm κ s₀ t :=
  .next e (h.queryOp fun h => h.queryWrite)

/-! ### Machine/Shelves -/

theorem shelfResult {n : Nat} (h : Calm κ s₀ s) : Calm κ s₀ (s.shelfResult n) := h.upd

theorem stopCopies {tier idx : Nat} {away : Bool} (h : Calm κ s₀ s) : Calm κ s₀ (s.stopCopies tier idx away) := h.upd

theorem drainShelf {tier idx : Nat} (h : Calm κ s₀ s) : Calm κ s₀ (s.drainShelf tier idx) := h.modShelf

theorem assignShelf {tier idx tenant : Nat} {common : Bool} (h : Calm κ s₀ s) :
    Calm κ s₀ (s.assignShelf tier idx tenant common) :=
  h.modShelf.shelfResult

theorem evacuate {tier idx : Nat} {hd : Shelf} (h : Calm κ s₀ s) : Calm κ s₀ (s.evacuate tier idx hd) :=
  .ite h.shelfResult h.stopCopies.modShelf.upd.addMove.pumpMoves

theorem dropCopiesOn {ps : List Nat} (h : Calm κ s₀ s) : Calm κ s₀ (s.dropCopiesOn ps) := h.foldS fun h => h.modWin

theorem forceRevoke {tier idx : Nat} (h : Calm κ s₀ s) : Calm κ s₀ (s.forceRevoke tier idx) :=
  (h.stopCopies.dropCopiesOn.foldS fun h => h.modPage).drainShelf.shelfResult.pumpMoves

theorem startScrub {tier idx : Nat} (h : Calm κ s₀ s) : Calm κ s₀ (s.startScrub tier idx) := h.modShelf

theorem shelfCmd {secure force common : Bool} {op tier idx tenant : Nat} (h : Calm κ s₀ s) :
    Calm κ s₀ (s.shelfCmd secure op tier idx force common tenant) := by
  unfold State.shelfCmd
  refine .ite h.worldViol (.ite h ?_)
  split
  · exact h.shelfResult
  · refine .ite h.shelfResult (.ite h.shelfResult (.ite (.ite h.assignShelf h.shelfResult) (.ite ?_ ?_)))
    · exact .ite h.shelfResult (.ite h.forceRevoke h.evacuate)
    · exact .ite h.startScrub.shelfResult h.shelfResult

theorem shelfCmdWord {secure : Bool} {v : Nat} (h : Calm κ s₀ s) : Calm κ s₀ (s.shelfCmdWord secure v) := h.shelfCmd

theorem evacDone {tier idx : Nat} (h : Calm κ s₀ s) : Calm κ s₀ (s.evacDone tier idx) := by
  unfold State.evacDone
  split
  · exact h
  · split
    · exact h
    · exact .ite h.upd.drainShelf.shelfResult (Calm.ite h.upd.upd.modShelf.shelfResult h)

theorem execEvacuationDone {tier : Tier} {idx : Nat}
    (h : Calm κ s₀ s) (e : execEvacuationDone tier idx s = .next t) : Calm κ s₀ t :=
  .next e h.evacDone

theorem drained {tier idx : Nat} (h : Calm κ s₀ s) : Calm κ s₀ (s.drained tier idx) := by
  unfold State.drained
  split
  · exact .ite h.startScrub h
  · exact h

theorem execDrainComplete {tier : Tier} {idx : Nat}
    (h : Calm κ s₀ s) (e : execDrainComplete tier idx s = .next t) : Calm κ s₀ t :=
  .next e h.drained

theorem wipeShelf {tier idx : Nat} (h : Calm κ s₀ s) : Calm κ s₀ (s.wipeShelf tier idx) := h.upd.upd

theorem scrubbed {tier idx : Nat} (h : Calm κ s₀ s) : Calm κ s₀ (s.scrubbed tier idx) := by
  unfold State.scrubbed
  split
  · exact .ite h.wipeShelf.modShelf h
  · exact h

theorem execScrubComplete {tier : Tier} {idx : Nat}
    (h : Calm κ s₀ s) (e : execScrubComplete tier idx s = .next t) : Calm κ s₀ t :=
  .next e (.ite h h.scrubbed)

theorem scrubLate {tier idx : Nat} (h : Calm κ s₀ s) : Calm κ s₀ (s.scrubLate tier idx) := by
  unfold State.scrubLate
  split
  · exact .ite h.waitTill.modShelf.setFld.bbxLog h
  · exact h

theorem execScrubTimeout {tier : Tier} {idx : Nat} (h : Calm κ s₀ s) (e : execScrubTimeout tier idx s = .next t) : Calm κ s₀ t :=
  .next e h.scrubLate

theorem shelfWorld {v : Nat} (h : Calm κ s₀ s) : Calm κ s₀ (s.shelfWorld v) := by
  unfold State.shelfWorld
  split
  · exact .ite h.modShelf h
  · exact h

/-! ### Machine/Ctxs -/

theorem modCtx {cx : Nat} {f : Ctx → Ctx} (h : Calm κ s₀ s) : Calm κ s₀ (s.modCtx cx f) := h.upd

theorem modInv {lsn : Nat} {f : Inv → Inv} (h : Calm κ s₀ s) : Calm κ s₀ (s.modInv lsn f) := h.upd

theorem unreceive {c : Ctx} (h : Calm κ s₀ s) : Calm κ s₀ (s.unreceive c) := h.upd

theorem dropCtx {cx : Nat} (h : Calm κ s₀ s) : Calm κ s₀ (s.dropCtx cx) := h.upd

theorem writeEnds {lsn sub : Nat} (h : Calm κ s₀ s) : Calm κ s₀ (s.writeEnds lsn sub) := by
  unfold State.writeEnds
  split
  · exact .ite h.ownWrite h
  · exact h

theorem noteEnd {lsn sub st d : Nat} (h : Calm κ s₀ s) : Calm κ s₀ (s.noteEnd lsn sub st d) :=
  h.modInv.writeEnds.when fun h => h.freeSieves

theorem endSub {cx st d : Nat} (h : Calm κ s₀ s) : Calm κ s₀ (s.endSub cx st d) := by
  unfold State.endSub
  split
  · exact h
  · exact .ite h.modCtx h.ctxToll.unreceive.dropCtx.noteEnd

theorem faultSub {cx st d : Nat} (h : Calm κ s₀ s) : Calm κ s₀ (s.faultSub cx st d) := h.bump.endSub

theorem restartSub {cx : Nat} (h : Calm κ s₀ s) : Calm κ s₀ (s.restartSub cx) := by
  unfold State.restartSub
  split
  · exact h
  · exact h.unreceive.dropCtx.modInv.bump

theorem hwFault {cx : Nat} (h : Calm κ s₀ s) : Calm κ s₀ (s.hwFault cx) := by
  unfold State.hwFault
  split
  · exact h
  · split
    · exact h.dropCtx
    · split
      · exact .ite h.bump.restartSub h.bump.endSub
      · exact h.dropCtx

theorem loseSlices {p : Nat → Bool} (h : Calm κ s₀ s) : Calm κ s₀ (s.loseSlices p) := h.foldS fun h => h.hwFault

theorem retire {r : Run} {c : Ctx} {pc : Nat} (h : Calm κ s₀ s) : Calm κ s₀ (s.retire r c pc) := h.modCtx

theorem finish {r : Run} {o : StepOut} (h : CalmOut κ s₀ o) : Calm κ s₀ (r.finish o) := by
  cases o with
  | next s c => exact retire h
  | goto s c pc => exact retire h
  | fault s st d => exact .ite (hwFault h) (faultSub h)
  | hold s => exact h

theorem onStep {cx : Nat} {p : Step → Bool} {f : Run → StepOut} {w : CtxStatus → Bool} (h : Calm κ s₀ s)
    (hf : ∀ r, CalmOut κ s₀ (f r)) : Calm κ s₀ (s.onStep cx p f w) := by
  obtain he | ⟨r, -, -, he⟩ := onStep_cases s cx p f w
  · rw [he]; exact h
  · rw [he]; exact finish (hf r)

theorem ofExcept {x : Except (Nat × Nat) Ctx} (h : Calm κ s₀ s) : CalmOut κ s₀ (StepOut.ofExcept s x) := by
  unfold StepOut.ofExcept
  split <;> exact h

theorem ofDecode {x : Except (Nat × Nat) Ctx} (h : Calm κ s₀ s) : CalmOut κ s₀ (StepOut.ofDecode s x) := by
  unfold StepOut.ofDecode
  split
  · exact h
  · exact h.when fun h => h.bump

/-! ### Machine/Prims -/

theorem execDecode {cx : Nat} (h : Calm κ s₀ s) (e : execDecode cx s = .next t) : Calm κ s₀ t :=
  .next e (h.onStep fun _ => h.ofDecode)

theorem encodeSlot {r : Run} (h : Calm κ s₀ s) : Calm κ s₀ (s.encodeSlot r).1 := by
  unfold State.encodeSlot
  split
  · exact h
  · split
    · exact h
    · split
      · exact h
      · split
        · exact h
        · exact h.recordSlot

theorem execEncode {cx : Nat} (h : Calm κ s₀ s) (e : execEncode cx s = .next t) : Calm κ s₀ t := by
  refine .next e ?_
  exact h.onStep fun _ => by
    split
    next e =>
      have h1 := h.encodeSlot.ofFst e
      exact h
    next e =>
      have h1 := h.encodeSlot.ofFst e
      split
      · exact h
      · exact h1.bump

theorem execMacTile {cx : Nat} (h : Calm κ s₀ s) (e : execMacTile cx s = .next t) : Calm κ s₀ t :=
  .next e (h.onStep fun _ => h.ofDecode)

theorem vec {cx code : Nat} {f : Run → Except (Nat × Nat) Ctx} (h : Calm κ s₀ s) : Calm κ s₀ (s.vec cx code f) :=
  h.onStep fun _ => h.ofExcept

theorem execVecAdd {cx : Nat} (h : Calm κ s₀ s) (e : execVecAdd cx s = .next t) : Calm κ s₀ t := .next e h.vec

theorem execVecSub {cx : Nat} (h : Calm κ s₀ s) (e : execVecSub cx s = .next t) : Calm κ s₀ t := .next e h.vec

theorem execVecMul {cx : Nat} (h : Calm κ s₀ s) (e : execVecMul cx s = .next t) : Calm κ s₀ t := .next e h.vec

theorem execVecFma {cx : Nat} (h : Calm κ s₀ s) (e : execVecFma cx s = .next t) : Calm κ s₀ t := .next e h.vec

theorem execVecDiv {cx : Nat} (h : Calm κ s₀ s) (e : execVecDiv cx s = .next t) : Calm κ s₀ t := .next e h.vec

theorem execVecSqrt {cx : Nat} (h : Calm κ s₀ s) (e : execVecSqrt cx s = .next t) : Calm κ s₀ t := .next e h.vec

theorem execVecExp2 {cx : Nat} (h : Calm κ s₀ s) (e : execVecExp2 cx s = .next t) : Calm κ s₀ t := .next e h.vec

theorem execVecLog2 {cx : Nat} (h : Calm κ s₀ s) (e : execVecLog2 cx s = .next t) : Calm κ s₀ t := .next e h.vec

theorem execVecRcp {cx : Nat} (h : Calm κ s₀ s) (e : execVecRcp cx s = .next t) : Calm κ s₀ t := .next e h.vec

theorem execVecRsqrt {cx : Nat} (h : Calm κ s₀ s) (e : execVecRsqrt cx s = .next t) : Calm κ s₀ t := .next e h.vec

theorem execVecMin {cx : Nat} (h : Calm κ s₀ s) (e : execVecMin cx s = .next t) : Calm κ s₀ t := .next e h.vec

theorem execVecMax {cx : Nat} (h : Calm κ s₀ s) (e : execVecMax cx s = .next t) : Calm κ s₀ t := .next e h.vec

theorem execVecMulRow {cx : Nat} (h : Calm κ s₀ s) (e : execVecMulRow cx s = .next t) : Calm κ s₀ t := .next e h.vec

theorem execVecSumRow {cx : Nat} (h : Calm κ s₀ s) (e : execVecSumRow cx s = .next t) : Calm κ s₀ t := .next e h.vec

theorem execVecMaxRow {cx : Nat} (h : Calm κ s₀ s) (e : execVecMaxRow cx s = .next t) : Calm κ s₀ t := .next e h.vec

theorem execVecScale {cx : Nat} (h : Calm κ s₀ s) (e : execVecScale cx s = .next t) : Calm κ s₀ t := .next e h.vec

theorem execScalarMovi {cx : Nat} (h : Calm κ s₀ s) (e : execScalarMovi cx s = .next t) : Calm κ s₀ t := .next e h.vec

theorem execScalarAdd {cx : Nat} (h : Calm κ s₀ s) (e : execScalarAdd cx s = .next t) : Calm κ s₀ t := .next e h.vec

theorem execScalarAddi {cx : Nat} (h : Calm κ s₀ s) (e : execScalarAddi cx s = .next t) : Calm κ s₀ t := .next e h.vec

theorem execScalarSub {cx : Nat} (h : Calm κ s₀ s) (e : execScalarSub cx s = .next t) : Calm κ s₀ t := .next e h.vec

theorem execScalarMul {cx : Nat} (h : Calm κ s₀ s) (e : execScalarMul cx s = .next t) : Calm κ s₀ t := .next e h.vec

theorem execScalarShl {cx : Nat} (h : Calm κ s₀ s) (e : execScalarShl cx s = .next t) : Calm κ s₀ t := .next e h.vec

theorem execScalarShr {cx : Nat} (h : Calm κ s₀ s) (e : execScalarShr cx s = .next t) : Calm κ s₀ t := .next e h.vec

theorem execScalarAnd {cx : Nat} (h : Calm κ s₀ s) (e : execScalarAnd cx s = .next t) : Calm κ s₀ t := .next e h.vec

theorem execScalarOr {cx : Nat} (h : Calm κ s₀ s) (e : execScalarOr cx s = .next t) : Calm κ s₀ t := .next e h.vec

theorem execScalarXor {cx : Nat} (h : Calm κ s₀ s) (e : execScalarXor cx s = .next t) : Calm κ s₀ t := .next e h.vec

theorem execScalarLd {cx : Nat} (h : Calm κ s₀ s) (e : execScalarLd cx s = .next t) : Calm κ s₀ t := .next e h.vec

theorem execScalarSt {cx : Nat} (h : Calm κ s₀ s) (e : execScalarSt cx s = .next t) : Calm κ s₀ t := .next e h.vec

theorem execSoftmaxStep {cx : Nat} (h : Calm κ s₀ s) (e : execSoftmaxStep cx s = .next t) : Calm κ s₀ t :=
  .next e (h.onStep fun _ => h.ofExcept)

theorem execExactAcc {cx : Nat} (h : Calm κ s₀ s) (e : execExactAcc cx s = .next t) : Calm κ s₀ t :=
  .next e (h.onStep fun _ => h.ofDecode)

theorem execExactRound {cx : Nat} (h : Calm κ s₀ s) (e : execExactRound cx s = .next t) : Calm κ s₀ t := by
  refine .next e ?_
  exact h.onStep fun _ => by
    split
    · exact h
    · exact h.bump

theorem execXorPopcount {cx : Nat} (h : Calm κ s₀ s) (e : execXorPopcount cx s = .next t) : Calm κ s₀ t :=
  .next e (h.onStep fun _ => h.ofExcept)

theorem execHeapInsert {cx : Nat} (h : Calm κ s₀ s) (e : execHeapInsert cx s = .next t) : Calm κ s₀ t :=
  .next e (h.onStep fun _ => h.ofExcept)

theorem execHeapDrain {cx : Nat} (h : Calm κ s₀ s) (e : execHeapDrain cx s = .next t) : Calm κ s₀ t :=
  .next e (h.onStep fun _ => h.ofExcept)

theorem execCompareSelect {cx : Nat} (h : Calm κ s₀ s) (e : execCompareSelect cx s = .next t) : Calm κ s₀ t :=
  .next e (h.onStep fun _ => h.ofExcept)

theorem execCompact {cx : Nat} (h : Calm κ s₀ s) (e : execCompact cx s = .next t) : Calm κ s₀ t :=
  .next e (h.onStep fun _ => h.ofExcept)

theorem execLoop {cx : Nat} (h : Calm κ s₀ s) (e : execLoop cx s = .next t) : Calm κ s₀ t :=
  .next e (h.onStep fun _ => CalmOut.ite h h)

theorem execBranchIf {cx : Nat} (h : Calm κ s₀ s) (e : execBranchIf cx s = .next t) : Calm κ s₀ t :=
  .next e <| h.onStep fun r => by
    dsimp only
    split <;> exact h

/-! ### Machine/MemSteps -/

theorem countRun {v : Inv} {k len : Nat} {b : Bind} {offs : List Nat} (h : Calm κ s₀ s) :
    Calm κ s₀ (s.countRun v k b len offs) := by
  induction offs with
  | nil => exact h
  | cons off rest ih =>
    unfold State.countRun
    split
    · exact ih
    · exact h.countLp

theorem sieveSpan {r : Run} {b : Bind} {pg : Nat} {sketches : List Nat} (h : Calm κ s₀ s) :
    Calm κ s₀ (s.sieveSpan r b pg sketches) := by
  unfold State.sieveSpan
  dsimp only
  split
  · split
    · exact h
    · split
      · split
        · exact h.bump
        · exact h
      · exact .ite h.bump h.modPort.bump.bump
  · exact h

theorem sieveRead {r : Run} {b : Bind} {off : Nat} {data : List Byte} (h : Calm κ s₀ s) : Calm κ s₀ (s.sieveRead r b off data) :=
  .ite h (h.foldl fun h => h.sieveSpan)

theorem stallCtx {cx : Nat} (h : Calm κ s₀ s) : Calm κ s₀ (s.stallCtx cx) := h.modCtx

theorem loadRanges {r : Run} {k len : Nat} {offs : List Nat} (h : Calm κ s₀ s) : CalmOut κ s₀ (s.loadRanges r k len offs) := by
  unfold State.loadRanges
  dsimp only
  split
  · split
    · split <;> exact h
    · exact h
  · split
    · exact h
    · split <;> exact h
    · split
      next e => exact ((Calm.iteFst h h.tryStall).ofFst e).stallCtx
      next e => exact (Calm.iteFst h h.tryStall).ofFst e
      next e =>
        have h1 := (Calm.iteFst h h.tryStall).ofFst e
        split
        · exact h1.countRun
        · split <;> exact h1.foldl fun h => h.sieveRead.trayRead

theorem execLoadTile {cx : Nat} (h : Calm κ s₀ s) (e : execLoadTile cx s = .next t) : Calm κ s₀ t :=
  .next e (h.onStep fun _ => CalmOut.ite h (CalmOut.ite h h.loadRanges))

theorem execGather {cx : Nat} (h : Calm κ s₀ s) (e : execGather cx s = .next t) : Calm κ s₀ t := by
  refine .next e ?_
  exact h.onStep fun _ => CalmOut.ite h (CalmOut.ite h (by
    split
    · exact h
    · exact h.loadRanges))

theorem execPrefetch {cx : Nat} (h : Calm κ s₀ s) (e : execPrefetch cx s = .next t) : Calm κ s₀ t :=
  .next e (h.onStep fun _ => h)

theorem execStoreTile {cx : Nat} (h : Calm κ s₀ s) (e : execStoreTile cx s = .next t) : Calm κ s₀ t :=
  .next e (h.onStep fun _ => h.ofExcept)

theorem execScatter {cx : Nat} (h : Calm κ s₀ s) (e : execScatter cx s = .next t) : Calm κ s₀ t :=
  .next e (h.onStep fun _ => h.ofExcept)

theorem runWrite {e : Entry} {v : Inv} {k off : Nat} {data : List Byte} (h : Calm κ s₀ s) :
    Calm κ s₀ (s.runWrite e v k off data).1 := by
  unfold State.runWrite
  split
  · exact h
  · split
    · exact h.writeVersion
    · split
      · dsimp only
        split
        · exact h.countLp
        next e => exact (h.writeSpans e).modInv
      · exact h

theorem dropOwners {region version off len : Nat} (h : Calm κ s₀ s) : Calm κ s₀ (s.dropOwners region version off len) := h.upd

theorem evict {slice : Nat} (h : Calm κ s₀ s) : Calm κ s₀ (s.evict slice) := by
  unfold State.evict
  dsimp only
  split
  · exact h
  · split
    · exact h.upd.tickFree
    · exact h

theorem gainLine {region version off slice : Nat} (h : Calm κ s₀ s) : Calm κ s₀ (s.gainLine region version off slice) :=
  h.dropOwners.evict.upd

theorem atomRoom (h : Calm κ s₀ s) (e : s.atomRoom = some t) : Calm κ s₀ t := by
  unfold State.atomRoom at e
  split at e
  · cases e; exact h
  · split at e
    · cases e
    · cases e; exact h.dropAtoms.bump

theorem addAtom {a : AtomRec} (h : Calm κ s₀ s) : Calm κ s₀ (s.addAtom a) := h.ownWrite.upd

theorem atomDone {r : Run} {a : AtomRec} (h : Calm κ s₀ s) : CalmOut κ s₀ (s.atomDone r a) := CalmOut.ite h (CalmOut.ite h h)

theorem atomApply {r : Run} {b : Bind} (h : Calm κ s₀ s) : CalmOut κ s₀ (s.atomApply r b) := by
  unfold State.atomApply
  dsimp only
  split
  · exact h
  next e =>
    have h1 := h.atomRoom e
    split
    · exact h1.countRun
    · split
      next e => exact h1.runWrite.ofFst e
      next e =>
        have h2 := h1.runWrite.ofFst e
        split
        · exact h2.gainLine.addAtom.atomDone
        · exact h2.gainLine.addAtom

theorem execAtomic {cx : Nat} (h : Calm κ s₀ s) (e : execAtomic cx s = .next t) : Calm κ s₀ t := by
  refine .next e ?_
  exact h.onStep fun _ => by
    split
    · exact h.atomDone
    · split
      · exact h
      · split
        · exact h
        · split
          · exact h
          · split
            · exact h
            · split
              next e => exact ((Calm.iteFst h h.tryStall).ofFst e).stallCtx
              next e => exact (Calm.iteFst h h.tryStall).ofFst e
              next e => exact ((Calm.iteFst h h.tryStall).ofFst e).atomApply

theorem execSend {cx : Nat} (h : Calm κ s₀ s) (e : execSend cx s = .next t) : Calm κ s₀ t :=
  .next e (h.onStep fun _ => h.ofExcept)

theorem takeMessage {r : Run} {o : StepOut} (h : Calm κ s₀ s) (e : s.takeMessage r = some o) : CalmOut κ s₀ o := by
  unfold State.takeMessage at e
  split at e
  · cases e
  · cases e
    refine .ite h ?_
    split
    · exact h
    · exact h.upd

theorem execRecv {cx : Nat} (h : Calm κ s₀ s) (e : execRecv cx s = .next t) : Calm κ s₀ t := by
  refine .next e ?_
  exact h.onStep fun _ => CalmOut.ite h (CalmOut.ite (by
    split
    · exact h
    · split <;> exact h) (by
    split
    next e => exact h.takeMessage e
    · exact h.modCtx))

theorem noteLate {tenant lsn : Nat} {key : W64} {srcMod srcSub dstSub chan : Nat} (h : Calm κ s₀ s) :
    Calm κ s₀ (s.noteLate tenant lsn key srcMod srcSub dstSub chan) :=
  h.upd

theorem arrive {m : RMsg} (h : Calm κ s₀ s) : Calm κ s₀ (s.arrive m) := .ite h.upd.bump (Calm.ite h.bump h.upd)

theorem execMessageArrive {m : RMsg} (h : Calm κ s₀ s) (e : execMessageArrive m s = .next t) : Calm κ s₀ t :=
  h.checked e h.arrive

theorem execMessageHoldExpiry {n : Nat} (h : Calm κ s₀ s) (e : execMessageHoldExpiry n s = .next t) : Calm κ s₀ t := by
  refine .next e ?_
  split
  · exact h
  · exact .ite h h.waitTill.upd.bump

theorem lookMark {r : Run} {o : StepOut} (h : Calm κ s₀ s) (e : s.lookMark r = some o) : CalmOut κ s₀ o := by
  unfold State.lookMark at e
  split at e
  · split at e <;> (cases e; exact h)
  · split at e
    · cases e; exact h
    · split at e
      · cases e
      · cases e; exact h

theorem execWaitMark {cx : Nat} (h : Calm κ s₀ s) (e : execWaitMark cx s = .next t) : Calm κ s₀ t := by
  refine .next e ?_
  exact h.onStep fun _ => by
    split
    next e => exact h.lookMark e
    · exact h.modCtx

theorem lookMark_getD {r : Run} {o : StepOut} (h : Calm κ s₀ s) (ho : CalmOut κ s₀ o) : CalmOut κ s₀ ((s.lookMark r).getD o) := by
  cases e : s.lookMark r with
  | none => exact ho
  | some o' => exact h.lookMark e

theorem wakeMarks (h : Calm κ s₀ s) : Calm κ s₀ s.wakeMarks :=
  h.foldS fun h => h.onStep fun _ => h.lookMark_getD h

theorem execWaitMarkTimeout {cx : Nat} (h : Calm κ s₀ s) (e : execWaitMarkTimeout cx s = .next t) : Calm κ s₀ t := by
  refine .next e ?_
  split
  · split
    · exact h.waitTill.onStep fun _ => h.waitTill.lookMark_getD h.waitTill
    · exact h
  · exact h

theorem execEmitStore {cx : Nat} (h : Calm κ s₀ s) (e : execEmitStore cx s = .next t) : Calm κ s₀ t :=
  .next e (h.onStep fun _ => h.ofExcept)

theorem execEmitResult {cx : Nat} (h : Calm κ s₀ s) (e : execEmitResult cx s = .next t) : Calm κ s₀ t :=
  .next e (h.onStep fun _ => CalmOut.ite h h)

theorem execBudgetExhausted {cx : Nat} (h : Calm κ s₀ s) (e : execBudgetExhausted cx s = .next t) : Calm κ s₀ t := by
  refine .next e ?_
  split
  · split
    · exact .ite h.faultSub h
    · exact h
  · exact h

/-! ### Machine/LibRun -/

theorem libTake {r : Run} {key : Nat} {c : Ctx} {l : List (Nat × Nat × Nat)} (h : Calm κ s₀ s) :
    Calm κ s₀ (s.libTake r key c l).1 := by
  induction l generalizing s c with
  | nil => exact h
  | cons x rest ih =>
    unfold State.libTake
    dsimp only
    split
    · exact h
    · exact ih h.upd

theorem libEnd {r : Run} {c : Ctx} {key n : Nat} {o : LibOut} (h : Calm κ s₀ s) : Calm κ s₀ (s.libEnd r c key n o) := by
  unfold State.libEnd
  dsimp only
  split
  next e =>
    have h1 := Calm.ofFst (by
      split
      · split
        · exact h
        · exact h.recordSlot
      · exact h) e
    exact h.faultSub
  next e =>
    have h1 := Calm.ofFst (by
      split
      · split
        · exact h
        · exact h.recordSlot
      · exact h) e
    split
    · exact h1.faultSub
    · exact Calm.modCtx (Calm.when (Calm.bump (by
        split
        · exact h1.foldl fun h => h.sieveRead
        · exact h1)) fun h => h.tickFree)

theorem libShadow {cx prime : Nat} (h : Calm κ s₀ s) : Calm κ s₀ (s.libShadow cx prime) := by
  unfold State.libShadow
  split
  · split
    · exact h.modCtx
    · exact h
  · exact h

theorem libStop {r : Run} {ident : Nat} {x : LibSt} {e : LibStop} (h : Calm κ s₀ s) : Calm κ s₀ (s.libStop r ident x e) := by
  unfold State.libStop
  dsimp only
  split
  · exact Calm.faultSub (Calm.when (Calm.countLp (Calm.ite (by
      split
      · exact h.foldl fun h => h.sieveRead
      · exact h) h)) fun h => h.bump)
  · split
    · exact h
    · split
      next e => exact (h.tryStall.ofFst e).modCtx.stallCtx
      next e =>
        have h1 := h.tryStall.ofFst e
        exact Calm.faultSub (Calm.ite (by
          split
          · exact h1.foldl fun h => h.sieveRead
          · exact h1) h1)
      next e => exact h.tryStall.ofFst e

theorem libRun {cx : Nat} (h : Calm κ s₀ s) : Calm κ s₀ (s.libRun cx) := by
  unfold State.libRun
  split
  · exact h
  · split
    · exact h.libShadow
    · dsimp only
      split
      · exact h.libStop
      · split
        next e => exact (h.libTake.ofFst e).modCtx
        next e =>
          have h1 := h.libTake.ofFst e
          split
          · exact h1.modCtx.libEnd
          · exact h1.modCtx.libStop

theorem libStart {cx : Nat} (h : Calm κ s₀ s) : Calm κ s₀ (s.libStart cx) := by
  unfold State.libStart
  split
  · exact h.when fun h => h.libRun
  · exact h

theorem execRecvTimeout {cx : Nat} (h : Calm κ s₀ s) (e : execRecvTimeout cx s = .next t) : Calm κ s₀ t := by
  refine .next e ?_
  split
  · split
    · dsimp only
      split
      · split
        · split
          · split
            · exact h.waitTill.libRun.noteLate.faultSub
            · exact h.waitTill.libRun
          · exact h.waitTill.libRun
        · exact h.waitTill.libRun
      · exact h.waitTill.onStep fun _ => by
          split
          next e => exact h.waitTill.takeMessage e
          · exact h.waitTill.noteLate
    · exact h
  · exact h

/-! ### Machine/Invoke -/

theorem applyStage {d : Entry} {l : List StageEnt} (h : Calm κ s₀ s) (e : s.applyStage d l = .ok t) : Calm κ s₀ t := by
  induction l generalizing s with
  | nil => cases e; exact h
  | cons x rest ih =>
    unfold State.applyStage at e
    split at e
    · cases e; exact h
    · split at e
      · cases e
      · dsimp only at e
        split at e
        · cases e
        · split at e
          · cases e
          next hw => exact ih (h.runWrite.ofFst hw).dropOwners e

theorem loadRecipe {lsn : Nat} (h : Calm κ s₀ s) : Calm κ s₀ (s.loadRecipe lsn) := by
  unfold State.loadRecipe
  exact h.onOp fun h => by
    split
    · split
      · exact h.fixResult
      · split
        · exact h.fixResult
        · exact h.upd.fixResult
      · exact h
    · dsimp only
      split
      · exact h.fixResult
      · split
        · exact h.fixResult
        · split
          · exact h.setNote.upd.readEp.fixResult
          · exact h.setNote.upd.readEp

theorem execLoadRecipe {lsn : Nat} (h : Calm κ s₀ s) (e : execLoadRecipe lsn s = .next t) : Calm κ s₀ t := .next e h.loadRecipe

theorem takeKey {e : Entry} (h : Calm κ s₀ s) : Calm κ s₀ (s.takeKey e) := .ite h h.setWorks

theorem sample {v : Inv} (h : Calm κ s₀ s) : Calm κ s₀ (s.sample v).1 := h.upd

theorem supersede {lsn version : Nat} (h : Calm κ s₀ s) : Calm κ s₀ (s.supersede lsn version) := h.bump.fixResult

theorem resume {e : Entry} (h : Calm κ s₀ s) : Calm κ s₀ (s.resume e) := by
  unfold State.resume
  split
  · exact h
  · dsimp only
    split
    · exact h.upd
    · exact h.upd.modInv.foldS fun h => by
        split
        next e => exact h.applyStage e
        · exact h

theorem invokeBegin {e : Entry} {v : Inv} (h : Calm κ s₀ s) : Calm κ s₀ (s.invokeBegin e v) := by
  unfold State.invokeBegin
  split
  · exact h.supersede
  · refine .ite h ?_
    dsimp only
    exact ((h.foldS fun h => h.addRef).putEntry.modEntry.takeKey.sample.upd.ownWrite.foldS fun h => h.writeEnds).resume

theorem invoke {lsn : Nat} (h : Calm κ s₀ s) : Calm κ s₀ (s.invoke lsn) := by
  unfold State.invoke
  refine h.onOp fun {e u} h => .ite h ?_
  have hgo (p : List Byte) : Calm κ s₀ (match u.invokeCheck e p with
      | .error (st, d) => u.fixResult lsn (Res.fail st d)
      | .ok v => u.invokeBegin e v) := by
    split
    · exact h.fixResult
    · exact h.invokeBegin
  dsimp only
  refine .ite ?_ (hgo _)
  split
  · exact hgo _
  · exact h.fixResult
  · exact h
  · split
    · exact h.readEp.fixResult
    · exact h.readEp

theorem execInvoke {lsn : Nat} (h : Calm κ s₀ s) (e : execInvoke lsn s = .next t) : Calm κ s₀ t := .next e h.invoke

theorem placeCtx {c : Ctx} (h : Calm κ s₀ s) : Calm κ s₀ (s.placeCtx c) := h.upd

theorem addCtx {c : Ctx} (h : Calm κ s₀ s) : Calm κ s₀ (s.addCtx c) := by
  unfold State.addCtx
  dsimp only
  split
  · exact .ite h.placeCtx.writePhase h.placeCtx
  · exact h.placeCtx

theorem launch {lsn sub slice : Nat} {v : Inv} (h : Calm κ s₀ s) : Calm κ s₀ (s.launch lsn sub slice v) := by
  unfold State.launch
  dsimp only
  split
  · exact h
  · split
    · split
      · exact h.modInv.addCtx.libStart
      · exact .ite h.modInv.addCtx.libStart.addCtx.tickFree.bump h
    · exact h.modInv.addCtx.libStart

theorem placeSub {lsn sub slice : Nat} {v : Inv} (h : Calm κ s₀ s) : Calm κ s₀ (s.placeSub lsn sub slice v) :=
  .ite h.modInv.noteEnd (Calm.ite h.launch h)

theorem execSubpartStart {lsn k : Nat} {slice : Slice}
    (h : Calm κ s₀ s) (e : execSubpartStart lsn k slice s = .next t) : Calm κ s₀ t := by
  refine .next e ?_
  exact h.onOp fun h => by
    split
    · exact .ite h.placeSub h
    · exact h

theorem execFinalSectionStart {lsn : Nat} {slice : Slice}
    (h : Calm κ s₀ s) (e : execFinalSectionStart lsn slice s = .next t) : Calm κ s₀ t := by
  refine .next e ?_
  exact h.onOp fun h => by
    split
    · exact .ite h.placeSub h
    · exact h

theorem poisonGather {e : Entry} {v : Inv} (h : Calm κ s₀ s) : Calm κ s₀ (s.poisonGather e v) := by
  unfold State.poisonGather
  dsimp only
  split
  · exact h.modInv
  · exact h.modInv.foldS fun h => h.foldS fun h => Calm.ite h h.writeEp.tickFree

theorem finishInvoke {e : Entry} {v : Inv} {r : Res} (h : Calm κ s₀ s) : Calm κ s₀ (s.finishInvoke e v r) := h.modEntry.fixResult

theorem execInvokeComplete {lsn : Nat} (h : Calm κ s₀ s) (e : execInvokeComplete lsn s = .next t) : Calm κ s₀ t := by
  refine .next e ?_
  exact h.onOp fun h => by
    split
    · dsimp only
      split
      · exact h
      · exact .ite (Calm.ite h.poisonGather h.poisonGather.finishInvoke) h.finishInvoke
    · exact h

theorem releaseEmit {e : Entry} {sub : Nat} {m : EmitEnt} (h : Calm κ s₀ s) : Calm κ s₀ (s.releaseEmit e sub m) := by
  unfold State.releaseEmit
  dsimp only
  split
  next e => exact (h.writeEp.ofFst e).modInv
  next e =>
    have h1 := h.writeEp.ofFst e
    split
    · exact h1
    · exact h1.setFetch

theorem unstage {e : Entry} {v : Inv} {t : Nat × Tbl PageRef} (h : Calm κ s₀ s) : Calm κ s₀ (s.unstage e v t) := by
  unfold State.unstage
  split
  · exact h
  · split
    · exact h
    · exact h.modVersion.sweepPages

theorem winWork {e : Entry} {v : Inv} (h : Calm κ s₀ s) : Calm κ s₀ (s.winWork e v) :=
  ((h.foldS fun h => h.unstage).foldS fun h => h.releaseEmit).setWorks.finishInvoke

theorem commitWork {lsn : Nat} (h : Calm κ s₀ s) : Calm κ s₀ (s.commitWork lsn) := by
  unfold State.commitWork
  exact h.onOp fun h => by
    split
    · split
      · split
        · exact h.supersede
        · exact h.winWork
      · exact h
    · exact h

theorem execWorkCommit {lsn : Nat} (h : Calm κ s₀ s) (e : execWorkCommit lsn s = .next t) : Calm κ s₀ t :=
  .next e ((h.foldS fun h => h.commitWork).commitWork)

theorem execWorkKeyExpiry {tenant : Tenant} {work : W64}
    (h : Calm κ s₀ s) (e : execWorkKeyExpiry tenant work s = .next t) : Calm κ s₀ t := by
  refine .next e ?_
  split
  · exact h.waitTill.setWorks
  · exact h

/-! ### Machine/Commit -/

theorem deliver {m : Nat × RMsg} (h : Calm κ s₀ s) : Calm κ s₀ (s.deliver m) := .ite h.arrive h.emit

theorem sendEmits {e : Entry} {c : Ctx} (h : Calm κ s₀ s) : Calm κ s₀ (s.sendEmits e c) :=
  .ite h.modInv.modInv (h.modInv.foldS fun h => h.releaseEmit)

theorem phaseDone {cx : Nat} {c : Ctx} {e : Entry} {v : Inv} (h : Calm κ s₀ s) : Calm κ s₀ (s.phaseDone cx c e v) := by
  unfold State.phaseDone
  dsimp only
  split
  · exact ((h.bump.modInv.modCtx.upd.when fun h => h.ownWrite).foldS fun h => h.deliver).sendEmits.endSub
  · exact ((h.bump.modInv.modCtx.upd.when fun h => h.ownWrite).foldS fun h => h.deliver).sendEmits

theorem phaseWrite {c : Ctx} {i : Image} (h : Calm κ s₀ s) : Calm κ s₀ (s.phaseWrite c i) :=
  (h.when fun h => h.ownWrite).writePhase

theorem commitPhase {cx : Nat} {c : Ctx} {e : Entry} {v : Inv} {till : Nat} (h : Calm κ s₀ s) :
    Calm κ s₀ (s.commitPhase cx c e v till) := by
  unfold State.commitPhase
  split
  · exact h.countLp.faultSub
  next e =>
    have h1 := h.applyStage e
    split
    · exact .ite h1.phaseWrite.phaseDone h.phaseWrite.modCtx
    · exact .ite h1.phaseDone h

theorem mismatch {cx sh : Nat} (h : Calm κ s₀ s) : Calm κ s₀ (s.mismatch cx sh) := h.bump.modCtx.modCtx

theorem phaseCommit {cx : Nat} (h : Calm κ s₀ s) : Calm κ s₀ (s.phaseCommit cx) := by
  unfold State.phaseCommit
  split
  · exact h
  · split
    · split
      · exact h.commitPhase
      · split
        · exact .ite h.commitPhase h.mismatch
        · exact h.mismatch
        · exact h
    · exact h

theorem execPhaseCommit {cx : Nat} (h : Calm κ s₀ s) (e : execPhaseCommit cx s = .next t) : Calm κ s₀ t :=
  .next e h.libRun.phaseCommit

theorem healthAdvice {cls index act : Nat} (h : Calm κ s₀ s) : Calm κ s₀ (s.healthAdvice cls index act) := h.postAdvice

theorem quarantine {n cause step ident tenant job : Nat} (h : Calm κ s₀ s) :
    Calm κ s₀ (s.quarantine n cause step ident tenant job) :=
  h.bbxLog.tickFree.tickFree.upd.loseSlices.healthAdvice.latchAlert

theorem thirdRun {cx third : Nat} {agree : ThirdRun} (h : Calm κ s₀ s) : Calm κ s₀ (s.thirdRun cx third agree) := by
  unfold State.thirdRun
  split
  · split
    · exact h
    · refine .ite h ?_
      dsimp only
      split
      · exact (h.when fun h => h.bump).upd.modCtx.quarantine.phaseCommit
      · exact (h.when fun h => h.bump).upd.modCtx.quarantine.phaseCommit
      · exact (h.when fun h => h.bump).hwFault.quarantine.quarantine.quarantine
  · exact h

theorem execShadowThirdRun {cx : Nat} {third : Slice} {agree : ThirdRun}
    (h : Calm κ s₀ s) (e : execShadowThirdRun cx third agree s = .next t) : Calm κ s₀ t :=
  .next e h.thirdRun

/-! ### Machine/Time -/

theorem candidate {j pos : Nat} (h : Calm κ s₀ s) : Calm κ s₀ (s.candidate j pos) := h.modJob

theorem markJob {job pos : Nat} (h : Calm κ s₀ s) : Calm κ s₀ (s.markJob job pos) := by
  unfold State.markJob
  split
  · exact h.candidate
  · exact h

theorem execMark {lsn : Nat} (h : Calm κ s₀ s) (e : execMark lsn s = .next t) : Calm κ s₀ t := by
  refine .next e ?_
  exact h.onOp fun h => Calm.ite h (by
    split
    · exact h.fixResult
    · exact h.candidate.setNote
    · exact h)

theorem takeMark {tenant payload : Nat} (h : Calm κ s₀ s) : Calm κ s₀ (s.takeMark tenant payload) := .ite h.bump h.markJob

theorem execStepInEdge (h : Calm κ s₀ s) (e : execStepInEdge s = .next t) : Calm κ s₀ t :=
  .next e (.ite h (Calm.ite h.setFld (Calm.ite h.upd.bump.candidate h.upd.bump)))

theorem evalGate {j k : Nat} (h : Calm κ s₀ s) : Calm κ s₀ (s.evalGate j k) := by
  unfold State.evalGate
  split
  · exact h
  · exact (h.when fun h => h.bump).modJob

theorem evalGates {j : Nat} (h : Calm κ s₀ s) : Calm κ s₀ (s.evalGates j) := h.foldS fun h => h.evalGate

theorem gatesMoved {j : Nat} {layer : Bool} (h : Calm κ s₀ s) : Calm κ s₀ (s.gatesMoved j layer) :=
  h.endRaises.endGateStalls.flushGated.pumpMoves

theorem moveTo {j pos : Nat} (h : Calm κ s₀ s) : Calm κ s₀ (s.moveTo j pos) :=
  (h.modJob.evalGates.foldS fun h => h.winAdvance).gatesMoved.wakeMarks

theorem finishMarks {j : Nat} (h : Calm κ s₀ s) : Calm κ s₀ (s.finishMarks j) := h.foldS fun h => h.fixResult

theorem takeEst {j : Nat} (h : Calm κ s₀ s) : Calm κ s₀ (s.takeEst j) := by
  unfold State.takeEst
  split
  · exact h
  · exact h.modJob.evalGates

theorem resolve {j : Nat} (h : Calm κ s₀ s) : Calm κ s₀ (s.resolve j) := by
  unfold State.resolve
  exact Calm.finishMarks ((by
    split
    · exact h.takeEst.modJob
    · dsimp only
      split
      · exact (h.takeEst.modJob.when fun h => h.bump.setFld).bump.moveTo
      · exact (h.takeEst.modJob.when fun h => h.bump.setFld).bump))

theorem execPositionResolve {slot : JobSlot} (h : Calm κ s₀ s) (e : execPositionResolve slot s = .next t) : Calm κ s₀ t :=
  .next e h.resolve

theorem execGuardBandStart {slot : JobSlot} {entry : Nat}
    (h : Calm κ s₀ s) (e : execGuardBandStart slot entry s = .next t) : Calm κ s₀ t := by
  refine h.checked e ?_
  split
  · exact h
  · exact .ite h.waitTill.modJob h

theorem execGuardBandExpire {slot : JobSlot} {entry : Nat}
    (h : Calm κ s₀ s) (e : execGuardBandExpire slot entry s = .next t) : Calm κ s₀ t := by
  refine h.checked e ?_
  split
  · exact h
  · exact .ite h.waitTill.modJob.bump.gatesMoved h

theorem jobOn {j : Nat} (h : Calm κ s₀ s) : Calm κ s₀ (s.jobOn j) := by
  unfold State.jobOn
  split
  · exact h.modJob.evalGates.flushGated.pumpMoves
  · exact h.modJob

theorem jobOff {j : Nat} (h : Calm κ s₀ s) : Calm κ s₀ (s.jobOff j) :=
  ((h.modJob.setFld.setFld.setFld.setFld.foldS fun h => h.winOff).foldS
    fun h => h.modMove).endStalls.upd.flushGated.pumpMoves.wakeMarks

theorem writeEst {j v : Nat} (h : Calm κ s₀ s) : Calm κ s₀ (s.writeEst j v) := .ite h.modJob h.setFld

theorem gateWrite {w1 : W64} (h : Calm κ s₀ s) : Calm κ s₀ (s.gateWrite w1) := by
  unfold State.gateWrite
  dsimp only
  split
  · exact (h.when fun h => h.bump).modJob.evalGate.gatesMoved.when fun h => h.setFld
  · exact h.setFld.setFld

theorem execPtpMessage {master : W64} {offset : BitVec 32}
    (h : Calm κ s₀ s) (e : execPtpMessage master offset s = .next t) : Calm κ s₀ t :=
  .next e h.upd

theorem execPpsEdge (h : Calm κ s₀ s) (e : execPpsEdge s = .next t) : Calm κ s₀ t :=
  .next e (.ite h (Calm.ite h.upd (Calm.ite h.upd h.upd)))

/-! ### Machine/Results -/

theorem runOp {lsn : Nat} (h : Calm κ s₀ s) : Calm κ s₀ (s.runOp lsn) := by
  unfold State.runOp
  split
  · exact h
  · split
    · exact h.move
    · split
      · exact h.queryOp fun h => h
      · exact .ite h.invoke (Calm.ite h.loadTable (Calm.ite h.loadRecipe h))

theorem noteFail {p : Purpose} {st d : Nat} (h : Calm κ s₀ s) : Calm κ s₀ (s.noteFail p st d) := by
  unfold State.noteFail
  split
  · exact h
  · exact h.setFetch

theorem emitFailed {lsn sub st d : Nat} (h : Calm κ s₀ s) : Calm κ s₀ (s.emitFailed lsn sub st d) := by
  unfold State.emitFailed
  split
  · split
    · exact h.modEntry
    · exact h.noteFail
  · exact h

theorem unemit {p : Purpose} {a n : Nat} (h : Calm κ s₀ s) : Calm κ s₀ (s.unemit p a n) := by
  unfold State.unemit
  split
  · exact h.modInv
  · exact h

theorem failAccess {p : Purpose} {st d : Nat} (h : Calm κ s₀ s) : Calm κ s₀ (s.failAccess p st d) := by
  unfold State.failAccess
  split
  · exact h.dropFetch.faultPair
  · exact h.fetchFail.runOp
  · exact h.fetchFail.runOp
  · exact h.fetchFail.runOp
  · exact h.noteFail.runOp
  · exact h.noteFail.runOp
  · exact h.emitFailed
  · exact h.noteFail
  · exact h.recordFailed
  · exact h.faultPair
  · exact h.faultPair
  · exact h.bump.upd
  · exact h.moveSwitch
  · exact h.onOp fun h => h.fixResult
  · exact h
  · exact h
  · exact h
  · exact h
  · exact h
  · exact h
  · exact h

theorem tollSeen {n : Nat} (h : Calm κ s₀ s) : Calm κ s₀ (s.tollSeen n) := by
  unfold State.tollSeen
  split
  · exact h
  · exact h.upd.postEvent

theorem doneAccess {p : Purpose} (h : Calm κ s₀ s) : Calm κ s₀ (s.doneAccess p) := by
  unfold State.doneAccess
  split
  · exact h
  · split
    · exact h.recordSeen
    · exact h.runOp
    · exact h.runOp
    · exact h.tollSeen
    · exact h.moveSwitch
    · exact h.fenceDone
    · exact h

theorem readDone {p : Purpose} (h : Calm κ s₀ s) : Calm κ s₀ (s.readDone p) := by
  unfold State.readDone
  split
  · exact h.accept
  · exact h.runOp
  · exact h.runOp
  · exact h.runOp
  · exact h

/-! ### Machine/Streams -/

theorem failAnswer {port ty : Nat} {hd : Hdr} {st d : Nat} (h : Calm κ s₀ s) : Calm κ s₀ (s.failAnswer port ty hd st d) :=
  h.answer

theorem sendAck {src tc : Nat} (h : Calm κ s₀ s) : Calm κ s₀ (s.sendAck src tc) := h.modRx.sendBy

theorem pumpFences {src tc : Nat} (h : Calm κ s₀ s) : Calm κ s₀ (s.pumpFences src tc) := h.modRx.foldS fun h => h.modRx.answer

theorem countFwd {port : Nat} {hd : Hdr} (h : Calm κ s₀ s) : Calm κ s₀ (s.countFwd port hd) := h.when fun h => h.bump

theorem countEpoch {port st : Nat} (h : Calm κ s₀ s) : Calm κ s₀ (s.countEpoch port st) := h.when fun h => h.bump

theorem fwdEnd {q : RxReq} {p : State × Applied} (h : Calm κ s₀ s) (e : s.fwdEnd q = some p) : Calm κ s₀ p.1 := by
  unfold State.fwdEnd at e
  dsimp only at e
  split at e
  · cases e
  · split at e
    · cases e; exact h
    · split at e <;> (cases e; exact h.dropFetch)

theorem applyMirror {q : RxReq} (h : Calm κ s₀ s) : Calm κ s₀ (s.applyMirror q).1 :=
  iteFst ⟨fun hm => Memory.wf_wr _ _ _ (h.mirrorWf hm), h.course⟩ h

theorem applyStore {q : RxReq} (h : Calm κ s₀ s) : Calm κ s₀ (s.applyStore q).1 := by
  unfold State.applyStore
  dsimp only
  split
  · exact .iteFst h (Calm.iteFst h.doorbell (Calm.iteFst h.ringBell h))
  · split
    · exact h.meet
    · split
      · split
        next e => exact h.meet.writeCopy.ofFst e
        next e => exact h.meet.writeCopy.ofFst e
      · split
        next e => exact h.meet.writeVersion.ofFst e
        next e =>
          have h1 := h.meet.writeVersion.ofFst e
          exact .iteFst h1.dropOwners ((h1.dropOwners.when fun h => h.countFwd).setFetch)

theorem atomAnswer {port : Nat} {hd : Hdr} {a : AtomRec} (h : Calm κ s₀ s) : Calm κ s₀ (s.atomAnswer port hd a) :=
  .ite h.failAnswer h.answer

theorem recordAtom {hd : Hdr} {old : W64} {st d : Nat} (h : Calm κ s₀ s) : Calm κ s₀ (s.recordAtom hd old st d) := by
  unfold State.recordAtom
  split
  · exact h
  next e => exact (h.atomRoom e).addAtom

theorem settleAtom {q : RxReq} (h : Calm κ s₀ s) : Calm κ s₀ (s.settleAtom q).1 := by
  unfold State.settleAtom
  split
  · exact h
  · exact .iteFst h.atomAnswer h

theorem fwdAtomic {q : RxReq} {m : Nat} (h : Calm κ s₀ s) : Calm κ s₀ (s.fwdAtomic q m).1 := h.upd.countFwd.setFetch.sendReq

theorem applyAtomic {q : RxReq} (h : Calm κ s₀ s) : Calm κ s₀ (s.applyAtomic q).1 := by
  unfold State.applyAtomic
  dsimp only
  split
  · exact h.settleAtom
  · split
    · exact .iteFst h h.dropFetch.recordAtom.settleAtom
    · split
      · split
        · exact h.meet.recordAtom.settleAtom
        · exact h.meet
      · split
        · exact h.meet.recordAtom.settleAtom
        · split
          · exact h.meet.fwdAtomic
          · split
            · exact h.meet
            next e =>
              have h1 := h.meet.atomRoom e
              split
              · exact h1.countRead.tickFree.recordAtom.settleAtom
              · split
                next e => exact (h1.countRead.writeVersion.ofFst e).recordAtom.settleAtom
                next e =>
                  have h2 := h1.countRead.writeVersion.ofFst e
                  split
                  · exact h2.gainLine.tickFree.setFetch
                  · exact h2.gainLine.tickFree.recordAtom.settleAtom

theorem applyReq {q : RxReq} (h : Calm κ s₀ s) : Calm κ s₀ (s.applyReq q).1 := by
  unfold State.applyReq
  split
  next x e =>
    split at e
    · cases e
    · exact h.fwdEnd e
  · split
    · exact h.settleAtom
    · split
      · dsimp only
        split
        · split
          · exact h.countEpoch.failAnswer
          · exact h.countEpoch.recordAtom.settleAtom
        · exact h.countEpoch
      · split
        · exact h
        · split
          · exact h.applyMirror
          · exact h.applyAtomic
          · exact h.applyStore

theorem consume {src tc : Nat} {q : RxReq} {st d : Nat} (h : Calm κ s₀ s) : Calm κ s₀ (s.consume src tc q st d) := by
  unfold State.consume
  extract_lets bad s₁ s₂ s₃
  have h₂ : Calm κ s₀ s₂ := h.modRx.when fun h => h.noteStream
  exact .ite (h₂.when fun h => h.bar2Note).modRx.emit (.ite h₂.sendAck h₂)

theorem applyGo {src tc fuel : Nat} (h : Calm κ s₀ s) : Calm κ s₀ (State.applyGo src tc fuel s) := by
  induction fuel generalizing s with
  | zero => exact h
  | succ fuel ih =>
    unfold State.applyGo
    split
    · exact h
    · split
      next e => exact h.applyReq.ofFst e
      next e => exact ih (h.applyReq.ofFst e).consume

theorem loadFail {port : Nat} {hd : Hdr} {st d : Nat} (h : Calm κ s₀ s) : Calm κ s₀ (s.loadFail port hd st d) :=
  .ite h.countEpoch.loadReply h.countEpoch.failAnswer

theorem fwdLoad {port : Nat} {hd : Hdr} {m : Nat} (h : Calm κ s₀ s) : Calm κ s₀ (s.fwdLoad port hd m) := h.upd.countFwd.sendLoad

theorem relayFail {port : Nat} {hd : Hdr} {st d : Nat} (h : Calm κ s₀ s) : Calm κ s₀ (s.relayFail port hd st d) :=
  .ite h.loadReply h.failAnswer

theorem failWait {w : Wait} {st d : Nat} (h : Calm κ s₀ s) : Calm κ s₀ (s.failWait w st d) := by
  unfold State.failWait
  split
  · exact h.relayFail
  · exact h.unemit.failAccess

theorem holdLater {q : RxReq} (h : Calm κ s₀ s) : Calm κ s₀ (s.holdLater q) := h.upd

theorem startLoad {q : RxReq} (h : Calm κ s₀ s) : Calm κ s₀ (s.startLoad q) := by
  unfold State.startLoad
  dsimp only
  split
  · exact h.loadFail
  · split
    · exact h.holdLater
    · split
      · exact h.answer
      · split
        · exact h.meet.loadFail
        · split
          · exact h.meet.fwdLoad
          · split
            next e => exact h.meet.tryStall.ofFst e
            next e => exact (h.meet.tryStall.ofFst e).loadFail
            next e => exact ((h.meet.tryStall.ofFst e).when fun h => h.tollBytes).serveLoad

theorem pumpDeps {src tc : Nat} (h : Calm κ s₀ s) : Calm κ s₀ (s.pumpDeps src tc) := h.modRx.foldS fun h => h.startLoad

theorem setGap {src tc : Nat} (h : Calm κ s₀ s) : Calm κ s₀ (s.setGap src tc) := h.modRx

theorem pumpStream {src tc : Nat} (h : Calm κ s₀ s) : Calm κ s₀ (s.pumpStream src tc) := h.applyGo.setGap.pumpFences.pumpDeps

theorem pumpStreams (h : Calm κ s₀ s) : Calm κ s₀ s.pumpStreams := h.foldS fun h => h.pumpStream

theorem goOn (h : Calm κ s₀ s) : Calm κ s₀ s.goOn := h.pumpMirror.settle.pumpStreams

theorem openStream {src tc : Nat} {q : RxReq} (h : Calm κ s₀ s) : Calm κ s₀ (s.openStream src tc q) :=
  .ite h.modRx (Calm.ite h h.modRx)

theorem duplicate {src tc : Nat} {q : RxReq} (h : Calm κ s₀ s) : Calm κ s₀ (s.duplicate src tc q) := by
  unfold State.duplicate
  dsimp only
  split
  · split
    · exact h.bump.atomAnswer
    · exact h.bump.bump.failAnswer
  · exact h.bump

theorem arriveReq {q : RxReq} (h : Calm κ s₀ s) : Calm κ s₀ (s.arriveReq q) := by
  unfold State.arriveReq
  dsimp only
  split
  · exact h.openStream.duplicate
  · split
    · exact h.openStream.bump
    · exact (h.openStream.modRx.when fun h => h.holdLater).pumpStream

theorem arriveLoad {q : RxReq} (h : Calm κ s₀ s) : Calm κ s₀ (s.arriveLoad q) := .ite h.modRx.pumpDeps h.startLoad

theorem hearBuddy {hd : Hdr} (h : Calm κ s₀ s) : Calm κ s₀ (s.hearBuddy hd) := .ite h.upd h

theorem arriveFence {port : Nat} {hd : Hdr} (h : Calm κ s₀ s) : Calm κ s₀ (s.arriveFence port hd) :=
  .ite h.answer h.hearBuddy.modRx.pumpFences

theorem adoptLater (h : Calm κ s₀ s) : Calm κ s₀ s.adoptLater := (h.upd.foldS fun h => h.when fun h => h.startLoad).pumpStreams

/-! ### Machine/Ports -/

theorem moveFrames {n : Nat} (h : Calm κ s₀ s) : Calm κ s₀ (s.moveFrames n) := by
  unfold State.moveFrames
  exact h.modPort.foldS fun h => by
    split
    · exact h.sendBy
    · exact h

theorem rerouteOne {k n : Nat} {seq : W32} (h : Calm κ s₀ s) : Calm κ s₀ (s.rerouteOne k n seq) :=
  .ite h ((Calm.ite h (Calm.ite h.sendBy h)).upd.when fun h => h.modTx)

theorem reroute (h : Calm κ s₀ s) : Calm κ s₀ s.reroute := h.foldS fun h => h.rerouteOne

theorem failOwn {n : Nat} (h : Calm κ s₀ s) : Calm κ s₀ (s.failOwn n) := by
  unfold State.failOwn
  exact Calm.foldS (Calm.foldS (h.upd.upd.foldS fun h => by
    split
    · exact h.relayFail
    · exact h.failAccess) fun h => h.failAccess) fun h => h.failAccess

theorem failSentOn {n : Nat} (h : Calm κ s₀ s) : Calm κ s₀ (s.failSentOn n) := h.upd.foldS fun h => h.relayFail

theorem failReceived {n : Nat} (h : Calm κ s₀ s) : Calm κ s₀ (s.failReceived n) :=
  (h.upd.upd.upd.foldS fun h => h.loadFail).failSentOn.goOn

theorem failUnits {n : Nat} (h : Calm κ s₀ s) : Calm κ s₀ (s.failUnits n) := by
  unfold State.failUnits
  exact h.foldS fun h => by
    split
    · exact h.moveSwitch
    · exact h

theorem stopPort {n : Nat} (h : Calm κ s₀ s) : Calm κ s₀ (s.stopPort n) := h.failReceived.failOwn.failUnits.reroute.goOn

theorem dropLinkKeys {n : Nat} (h : Calm κ s₀ s) : Calm κ s₀ (s.dropLinkKeys n) := h.upd

theorem holdPort {n cause : Nat} (h : Calm κ s₀ s) : Calm κ s₀ (s.holdPort n cause) := by
  unfold State.holdPort
  dsimp only
  split
  · exact h.when fun h => h.modPort
  · exact (h.when fun h => h.dropLinkKeys).modPort.latchAlert.stopPort

theorem releasePort {n : Nat} (h : Calm κ s₀ s) : Calm κ s₀ (s.releasePort n) := .ite h.modPort.reroute.goOn h

theorem countViolation {n : Nat} {v : VLog} (h : Calm κ s₀ s) : Calm κ s₀ (s.countViolation n v) :=
  (h.bump.when fun h => h.setFld).modPort.when fun h => h.holdPort

theorem violate {n code ty : Nat} {hd : Hdr} (h : Calm κ s₀ s) : Calm κ s₀ (s.violate n code ty hd) := h.sendBy.countViolation

theorem violateCxl {n : Nat} {nonPosted : Bool} (h : Calm κ s₀ s) : Calm κ s₀ (s.violateCxl n nonPosted) := h.emit.countViolation

/-! ### Machine/Edge -/

theorem edgeDeny {n : Nat} (h : Calm κ s₀ s) : Calm κ s₀ (s.edgeDeny n) := h.bump

theorem hear {src : Nat} (h : Calm κ s₀ s) : Calm κ s₀ (s.hear src) := .ite h.upd h

theorem takeMsg {n ty : Nat} {g : Hdr} {payload : List Byte} {f : State → State} (h : Calm κ s₀ s)
    (hf : ∀ {s : State}, Calm κ s₀ s → Calm κ s₀ (f s)) : Calm κ s₀ (s.takeMsg n ty g payload f) := by
  refine .ite h ?_
  dsimp only
  split
  · exact h.hear.violate
  · exact hf h.hear

theorem enterEdge {n ty : Nat} {g : Hdr} {f : Hdr → Option (Nat × Nat) → State → State} (h : Calm κ s₀ s)
    (hf : ∀ {g : Hdr} {d : Option (Nat × Nat)} {s : State}, Calm κ s₀ s → Calm κ s₀ (f g d s)) :
    Calm κ s₀ (s.enterEdge n ty g f) := by
  unfold State.enterEdge
  split
  · exact hf h.edgeDeny
  · exact hf (h.when fun h => h.tollBytes)

theorem enter {n ty : Nat} {g : Hdr} {payload : List Byte} {f : Hdr → Option (Nat × Nat) → State → State} (h : Calm κ s₀ s)
    (hf : ∀ {g : Hdr} {d : Option (Nat × Nat)} {s : State}, Calm κ s₀ s → Calm κ s₀ (f g d s)) :
    Calm κ s₀ (s.enter n ty g payload f) :=
  .ite (hf h.hear.edgeDeny) (h.takeMsg fun h => .ite (hf h) (.ite (hf h) (h.enterEdge hf)))

theorem noteTransit {ty : Nat} {hd : Hdr} {m : Nat} (h : Calm κ s₀ s) : Calm κ s₀ (s.noteTransit ty hd m) := by
  unfold State.noteTransit
  dsimp only
  split
  · split <;> exact h.notePath
  · exact h

theorem transit {ty : Nat} {hd : Hdr} {payload : List Byte} (h : Calm κ s₀ s) : Calm κ s₀ (s.transit ty hd payload) :=
  .ite h.bump ((h.when fun h => h.noteTransit).sendBy)

theorem passReq {n ty : Nat} {k : ReqKind} {data : List Byte} {hd : Hdr} {deny : Option (Nat × Nat)} (h : Calm κ s₀ s) :
    Calm κ s₀ (s.passReq n ty k data hd deny) := by
  unfold State.passReq
  split
  · exact h.arriveReq
  · split <;> exact h.transit

theorem execUlpLoad {port : Port} {hd : Hdr} (h : Calm κ s₀ s) (e : execUlpLoad port hd s = .next t) : Calm κ s₀ t := by
  refine h.checked e ?_
  exact h.enter fun h => by
    split
    · exact h.failAnswer
    · exact .ite h.arriveLoad h.transit

theorem execUlpStore {port : Port} {hd : Hdr} {data : List Byte}
    (h : Calm κ s₀ s) (e : execUlpStore port hd data s = .next t) : Calm κ s₀ t :=
  h.checked e (h.enter fun h => h.passReq)

theorem execUlpWriteFlag {port : Port} {hd : Hdr} {data : List Byte}
    (h : Calm κ s₀ s) (e : execUlpWriteFlag port hd data s = .next t) : Calm κ s₀ t :=
  h.checked e (h.enter fun h => h.passReq)

theorem execUlpAtomic {port : Port} {hd : Hdr} {data : List Byte}
    (h : Calm κ s₀ s) (e : execUlpAtomic port hd data s = .next t) : Calm κ s₀ t :=
  h.checked e (h.enter fun h => h.passReq)

theorem execUlpFence {port : Port} {hd : Hdr} (h : Calm κ s₀ s) (e : execUlpFence port hd s = .next t) : Calm κ s₀ t :=
  h.checked e (h.enter fun h => Calm.ite h.arriveFence h.transit)

theorem execMirrorStore {port : Port} {hd : Hdr} {data : List Byte}
    (h : Calm κ s₀ s) (e : execMirrorStore port hd data s = .next t) : Calm κ s₀ t :=
  h.checked e (h.enter fun h => h.passReq)

theorem addWindow {a : HomeAsk} {id n : Nat} (h : Calm κ s₀ s) : Calm κ s₀ (s.addWindow a id n) := h.upd

theorem askHome {a : HomeAsk} {home : Nat} (h : Calm κ s₀ s) : Calm κ s₀ (s.askHome a home) := h.upd.sendBy

theorem attach {a : HomeAsk} (h : Calm κ s₀ s) : Calm κ s₀ (s.attach a).1 := by
  unfold State.attach
  split
  · exact h
  · dsimp only
    split
    · exact h.askHome
    · split
      · exact h
      · exact h.addRef.addWindow

theorem dropWindow {ep w : Nat} (h : Calm κ s₀ s) : Calm κ s₀ (s.dropWindow ep w) := h.upd

theorem detach {a : HomeAsk} (h : Calm κ s₀ s) : Calm κ s₀ (s.detach a).1 := by
  unfold State.detach
  dsimp only
  split
  · exact h
  · exact .iteFst h.askHome h.dropWindow.dropRef

theorem ulpAttach {n : Nat} {hd : Hdr} {data : List Byte} (h : Calm κ s₀ s) : Calm κ s₀ (s.ulpAttach n hd data) := by
  unfold State.ulpAttach
  refine .ite h.failAnswer ?_
  dsimp only
  split
  next e => exact h.attach.ofFst e
  next e => exact (h.attach.ofFst e).answer
  next e => exact (h.attach.ofFst e).edgeDeny.failAnswer

theorem ulpDetach {n : Nat} {hd : Hdr} (h : Calm κ s₀ s) : Calm κ s₀ (s.ulpDetach n hd) := by
  unfold State.ulpDetach
  split
  · exact h.failAnswer
  · split
    next e => exact h.detach.ofFst e
    next e => exact (h.detach.ofFst e).answer
    next e => exact (h.detach.ofFst e).edgeDeny.failAnswer

theorem dropFarRef {x : FarRef} (h : Calm κ s₀ s) : Calm κ s₀ (s.dropFarRef x) := h.upd.dropRef

theorem homeAttach {n : Nat} {hd : Hdr} {data : List Byte} (h : Calm κ s₀ s) : Calm κ s₀ (s.homeAttach n hd data) := by
  unfold State.homeAttach
  split
  · exact h.failAnswer
  · split
    · exact h.answer
    · dsimp only
      split
      · exact Calm.failAnswer (by
          split
          · exact h.dropFarRef
          · exact h)
      · exact Calm.answer (Calm.upd (Calm.addRef (by
          split
          · exact h.dropFarRef
          · exact h)))

theorem homeDetach {n : Nat} {hd : Hdr} (h : Calm κ s₀ s) : Calm κ s₀ (s.homeDetach n hd) := by
  unfold State.homeDetach
  split
  · exact h.failAnswer
  · exact Calm.answer (by
      split
      · exact h.dropFarRef
      · exact h)

theorem execUlpAttach {port : Port} {hd : Hdr} {data : List Byte}
    (h : Calm κ s₀ s) (e : execUlpAttach port hd data s = .next t) : Calm κ s₀ t := by
  refine h.checked e ?_
  exact h.enter fun h => by
    split
    · exact h.failAnswer
    · exact .ite h.ulpAttach (Calm.ite h.homeAttach h.transit)

theorem execUlpDetach {port : Port} {hd : Hdr} (h : Calm κ s₀ s) (e : execUlpDetach port hd s = .next t) : Calm κ s₀ t := by
  refine h.checked e ?_
  exact h.enter fun h => by
    split
    · exact h.failAnswer
    · exact .ite h.ulpDetach (Calm.ite h.homeDetach h.transit)

theorem markEdge {n tenant payload : Nat} {f : State → State} (h : Calm κ s₀ s)
    (hf : ∀ {s : State}, Calm κ s₀ s → Calm κ s₀ (f s)) : Calm κ s₀ (s.markEdge n tenant payload f) := by
  unfold State.markEdge
  split
  · exact .ite (hf h) h.edgeDeny
  · exact h.edgeDeny.takeMark

theorem markHere {n tenant payload : Nat} (h : Calm κ s₀ s) : Calm κ s₀ (s.markHere n tenant payload) :=
  h.markEdge fun h => h.takeMark

theorem spreadMark {n : Nat} {hd : Hdr} {payload : Nat} (h : Calm κ s₀ s) : Calm κ s₀ (s.spreadMark n hd payload) := by
  unfold State.spreadMark
  split
  · exact h.edgeDeny
  · exact .ite h.edgeDeny (h.foldS fun h => Calm.ite h.markHere h.transit)

theorem passMark {n : Nat} {hd : Hdr} {payload : Nat} (h : Calm κ s₀ s) : Calm κ s₀ (s.passMark n hd payload) :=
  .ite h.markHere h.transit

theorem execUlpMark {port : Port} {hd : Hdr} {payload : W64}
    (h : Calm κ s₀ s) (e : execUlpMark port hd payload s = .next t) : Calm κ s₀ t :=
  h.checked e (h.enter fun h => Calm.ite h (Calm.ite h.passMark (Calm.ite (h.markEdge fun h => h.passMark) h.spreadMark)))

theorem bar2Attach {n w v st d : Nat} (h : Calm κ s₀ s) : Calm κ s₀ (s.bar2Attach n w v st d) := h.upd

theorem bar2Ref {n w : Nat} {ref : W64} (h : Calm κ s₀ s) : Calm κ s₀ (s.bar2Ref n w ref) := by
  unfold State.bar2Ref
  dsimp only
  split
  · exact h.edgeDeny.bar2Attach
  · split
    · exact h.bar2Attach
    · split
      · exact h
      · split
        · split
          next e => exact h.detach.ofFst e
          next e => exact (h.detach.ofFst e).bar2Attach
          next e => exact (h.detach.ofFst e).edgeDeny.bar2Attach
        · split
          next e => exact h.attach.ofFst e
          next e => exact (h.attach.ofFst e).bar2Attach
          next e => exact (h.attach.ofFst e).edgeDeny.bar2Attach

theorem execWindowReferenceWrite {port : Port} {win word : Nat} {value : W64}
    (h : Calm κ s₀ s) (e : execWindowReferenceWrite port win word value s = .next t) : Calm κ s₀ t :=
  h.checked e (.ite h (Calm.ite h.upd (Calm.ite h.bar2Ref h)))

theorem execWindowStatusRead {port : Port} {word : WinWord}
    (h : Calm κ s₀ s) (e : execWindowStatusRead port word s = .next t) : Calm κ s₀ t := by
  refine h.checked e ?_
  split
  · exact h
  · dsimp only
    split
    · exact h.upd.emit
    · exact h.emit
    · exact h.tickFree.emit
    · exact h.emit

theorem hostAccess {n : Nat} {write : Bool} {off len : Nat} {data : List Byte} (h : Calm κ s₀ s) :
    Calm κ s₀ (s.hostAccess n write off len data) := by
  unfold State.hostAccess
  split
  · exact h.violateCxl
  · dsimp only
    split
    · exact .ite h.edgeDeny.passReq h.edgeDeny.loadFail
    · exact h.enterEdge fun h => Calm.ite h.passReq (by
        split
        · exact h.loadFail
        · exact h.arriveLoad)

theorem execCxlMemRequest {port : Port} {write : Bool} {off len : Nat} {data : List Byte}
    (h : Calm κ s₀ s) (e : execCxlMemRequest port write off len data s = .next t) : Calm κ s₀ t :=
  h.checked e (.ite h h.hostAccess)

theorem execAckTimerExpiry {ep : Ep} {tc : Tc} (h : Calm κ s₀ s) (e : execAckTimerExpiry ep tc s = .next t) : Calm κ s₀ t :=
  .next e (.ite h.waitTill.sendAck h)

theorem askResend {src tc : Nat} (h : Calm κ s₀ s) : Calm κ s₀ (s.askResend src tc) := h.sendBy

theorem execStreamGapExpiry {ep : Ep} {tc : Tc} (h : Calm κ s₀ s) (e : execStreamGapExpiry ep tc s = .next t) : Calm κ s₀ t := by
  refine .next e ?_
  split
  · exact h
  · exact h.waitTill.modRx.bump.askResend

theorem execEpochAdoptTimeout {n : Nat} (h : Calm κ s₀ s) (e : execEpochAdoptTimeout n s = .next t) : Calm κ s₀ t := by
  refine .next e ?_
  split
  · exact h
  · exact .ite h.waitTill.upd.loadFail h.waitTill.upd.modRx.pumpStream

theorem execViolationSecondRollover (h : Calm κ s₀ s) (e : execViolationSecondRollover s = .next t) : Calm κ s₀ t :=
  .next e h.waitTill.upd

/-! ### Machine/Answers -/

theorem dropWait {w : Wait} (h : Calm κ s₀ s) : Calm κ s₀ (s.dropWait w) := h.upd

theorem lateTag {port tag : Nat} {src : Ep} (h : Calm κ s₀ s) (e : s.lateTag port src tag = some t) : Calm κ s₀ t := by
  unfold State.lateTag at e
  dsimp only at e
  split at e
  · cases e; exact h.bump.upd
  · cases e

theorem lateStream {ep tc : Nat} {p : W32 → Bool} (h : Calm κ s₀ s) (e : s.lateStream ep tc p = some t) : Calm κ s₀ t := by
  unfold State.lateStream at e
  split at e
  · cases e; exact h.bump.modTx
  · cases e

theorem lateMirrors {ep tc : Nat} {seq : W32} (h : Calm κ s₀ s) : Calm κ s₀ (s.lateMirrors ep tc seq) := .ite h.bump.modTx h

theorem unmatched {port ty : Nat} {g : Hdr} {late : Option State} (h : Calm κ s₀ s)
    (hl : ∀ {t : State}, late = some t → Calm κ s₀ t) : Calm κ s₀ (s.unmatched port ty g late) := by
  unfold State.unmatched
  split
  · exact hl rfl
  · exact h.violate

theorem takeAnswer {n ty : Nat} {g : Hdr} {payload : List Byte} {f : State → State} (h : Calm κ s₀ s)
    (hf : ∀ {s : State}, Calm κ s₀ s → Calm κ s₀ (f s)) : Calm κ s₀ (s.takeAnswer n ty g payload f) :=
  h.takeMsg fun h => .ite (hf h).goOn h.transit

theorem tookBytes {p : Purpose} {off : Nat} {data : List Byte} (h : Calm κ s₀ s) : Calm κ s₀ (s.tookBytes p off data) := by
  unfold State.tookBytes
  dsimp only
  split
  · exact h.tollBytes.fetchPiece.readDone
  · exact h.tollBytes.fetchPiece

theorem relayLoad {port : Nat} {fh hd : Hdr} {data : List Byte} (h : Calm κ s₀ s) : Calm κ s₀ (s.relayLoad port fh hd data) := by
  unfold State.relayLoad
  dsimp only
  split
  · split
    · exact (h.when fun h => h.tollBytes).loadReply
    · exact (h.when fun h => h.tollBytes).loadReply
  · exact (h.when fun h => h.tollBytes).answer

theorem tookLoad {w : Wait} {hd : Hdr} {data : List Byte} (h : Calm κ s₀ s) : Calm κ s₀ (s.tookLoad w hd data) := by
  unfold State.tookLoad
  dsimp only
  split
  · exact .ite h.dropWait.relayLoad h.dropWait.relayFail
  · exact .ite h.dropWait.tookBytes h.dropWait.failWait

theorem execLoadRsp {port : Port} {hd : Hdr} {data : List Byte}
    (h : Calm κ s₀ s) (e : execLoadRsp port hd data s = .next t) : Calm κ s₀ t := by
  refine h.checked e ?_
  exact h.takeAnswer fun h => by
    split
    · exact h.unmatched fun e => h.lateTag e
    · exact .ite h.violate h.tookLoad

theorem settleReq {r : TxReq} {bad : Option (Nat × Nat)} (h : Calm κ s₀ s) : Calm κ s₀ (s.settleReq r bad) := by
  unfold State.settleReq
  split
  · exact .ite h h.upd
  · exact h.upd
  · exact h.doneAccess
  · exact h.unemit.failAccess

theorem tookAtomic {ep tc : Nat} {r : TxReq} {hd : Hdr} {data : List Byte} (h : Calm κ s₀ s) :
    Calm κ s₀ (s.tookAtomic ep tc r hd data) :=
  .ite h.modTx.setFetch h.modTx.noteFail

theorem execAtomicRsp {port : Port} {hd : Hdr} {data : List Byte}
    (h : Calm κ s₀ s) (e : execAtomicRsp port hd data s = .next t) : Calm κ s₀ t := by
  refine h.checked e ?_
  exact h.takeAnswer fun h => by
    dsimp only
    split
    · exact h.tookAtomic
    · exact h.unmatched fun e => h.lateStream e

theorem coverTx {ep tc : Nat} {seq : W32} (h : Calm κ s₀ s) : Calm κ s₀ (s.coverTx ep tc seq) := h.modTx

theorem tookAck {port ep tc : Nat} {seq : W32} {fails : Nat} (h : Calm κ s₀ s) : Calm κ s₀ (s.tookAck port ep tc seq fails) := by
  unfold State.tookAck
  dsimp only
  split
  · exact h.coverTx.foldS fun h => h.settleReq
  · exact h.coverTx.modTx.when fun h => h.sendFence

theorem execAck {port : Port} {hd : Hdr} {data : List Byte} (h : Calm κ s₀ s) (e : execAck port hd data s = .next t) :
    Calm κ s₀ t :=
  h.checked e <| h.takeAnswer fun h => .ite (h.unmatched fun e => h.lateStream e) <|
    tookAck (ite (getD h.lateMirrors fun e => h.lateMirrors.lateStream e) h.lateMirrors)

theorem tookFence {ep tc : Nat} {seq : W32} {data : List Byte} {f : TxFence} (h : Calm κ s₀ s) :
    Calm κ s₀ (s.tookFence ep tc seq data f) := by
  unfold State.tookFence
  dsimp only
  split
  · exact ((h.coverTx.modTx.foldS fun h => h.settleReq).foldS fun h => h.settleReq).failAccess
  · exact ((h.coverTx.modTx.foldS fun h => h.settleReq).foldS fun h => h.settleReq).doneAccess

theorem lateFence {src : Ep} {ep tc : Nat} {seq : W32} (h : Calm κ s₀ s) (e : s.lateFence src ep tc seq = some t) :
    Calm κ s₀ t := by
  unfold State.lateFence at e
  dsimp only at e
  split at e
  · cases e; exact h.bump.upd
  · exact h.lateStream e

theorem execFenceAck {port : Port} {hd : Hdr} {data : List Byte} (h : Calm κ s₀ s)
    (e : execFenceAck port hd data s = .next t) : Calm κ s₀ t := by
  refine h.checked e (h.takeAnswer fun h => ?_)
  dsimp only
  split
  · exact .ite h.tookFence (h.unmatched fun e => h.lateFence e)
  · exact h.unmatched fun e => h.lateFence e

theorem tookAttach {a : HomeAsk} {hd : Hdr} {data : List Byte} (h : Calm κ s₀ s) : Calm κ s₀ (s.tookAttach a hd data) := by
  unfold State.tookAttach
  dsimp only
  split
  · exact (Calm.ite h.upd.edgeDeny (Calm.ite h.upd.dropWindow (Calm.ite h.upd h.upd.addWindow))).bar2Attach
  · exact (Calm.ite h.upd.edgeDeny (Calm.ite h.upd.dropWindow (Calm.ite h.upd h.upd.addWindow))).transit

theorem execAttachRsp {port : Port} {hd : Hdr} {data : List Byte}
    (h : Calm κ s₀ s) (e : execAttachRsp port hd data s = .next t) : Calm κ s₀ t := by
  refine h.checked e ?_
  exact h.takeMsg fun h => by
    split
    · exact h.tookAttach
    · exact .ite h.violate h.transit

theorem execNak {port : Port} {hd : Hdr} (h : Calm κ s₀ s) (e : execNak port hd s = .next t) : Calm κ s₀ t := by
  refine h.checked e ?_
  exact h.takeAnswer fun h => by
    split
    · exact h.dropWait.failWait
    · exact .ite h (Calm.ite h (h.unmatched fun e => h.lateTag e))

theorem execResend {port : Port} {hd : Hdr} (h : Calm κ s₀ s) (e : execResend port hd s = .next t) : Calm κ s₀ t :=
  h.checked e (h.takeAnswer fun h => h.resendReqs)

theorem execDrain {port : Port} {hd : Hdr} (h : Calm κ s₀ s) (e : execDrain port hd s = .next t) : Calm κ s₀ t :=
  h.checked e (h.takeAnswer fun h => h.bump.when fun h => h.askResend)

theorem execMapAck {port : Port} {hd : Hdr} (h : Calm κ s₀ s) (e : execMapAck port hd s = .next t) : Calm κ s₀ t :=
  h.checked e (h.takeAnswer fun h => h.violate)

theorem resendWait {w : Wait} (h : Calm κ s₀ s) : Calm κ s₀ (s.resendWait w) := h.bump.modTx.upd.sendBy

theorem retxStream {ep tc : Nat} (h : Calm κ s₀ s) : Calm κ s₀ (s.retxStream ep tc) :=
  .ite h ((h.modTx.foldS fun h => h.settleReq).resendReqs)

theorem retxFence {ep tc : Nat} {f : TxFence} (h : Calm κ s₀ s) : Calm κ s₀ (s.retxFence ep tc f) := by
  unfold State.retxFence
  split
  · exact h
  · split
    · exact h.bump.modTx.modTx.sendBy
    · exact (h.modTx.foldS fun h => h.settleReq).failAccess

theorem retxWait {w : Wait} (h : Calm κ s₀ s) : Calm κ s₀ (s.retxWait w) :=
  .ite h (Calm.ite h.resendWait h.dropWait.upd.failWait)

theorem execRetxTimerExpiry {ep : Ep} {tc : Tc} (h : Calm κ s₀ s) (e : execRetxTimerExpiry ep tc s = .next t) : Calm κ s₀ t := by
  refine .next e ?_
  split
  · exact h
  · exact ((h.waitTill.retxStream.foldS fun h => h.retxFence).foldS fun h => h.retxWait).goOn

theorem hostDone {w : Wait} {res : EpRes} (h : Calm κ s₀ s) : Calm κ s₀ (s.hostDone w res) := by
  unfold State.hostDone
  dsimp only
  split
  · exact .ite h.dropWait.doneAccess h.dropWait.tookBytes
  · exact h.dropWait.failWait
  · exact h.dropWait.failWait
  · exact h.dropWait.failWait

theorem trayDone {w : Wait} {res : EpRes} (h : Calm κ s₀ s) : Calm κ s₀ (s.trayDone w res) := by
  unfold State.trayDone
  dsimp only
  split
  · exact h.dropWait.moveSwitch
  · exact h.dropWait.moveSwitch
  · exact h.dropWait.moveSwitch
  · exact h.dropWait.modPage.moveSwitch
  · exact h.dropWait.modPage
  · exact h.dropWait

theorem cxlCompletion {n tag : Nat} {res : EpRes} (h : Calm κ s₀ s) : Calm κ s₀ (s.cxlCompletion n tag res) := by
  unfold State.cxlCompletion
  split
  · exact h
  · split
    · split
      · split
        · exact .ite h.hostDone.goOn h.violateCxl
        · exact h.hostDone.goOn
      · split
        next e => exact h.lateTag e
        · exact h.violateCxl
    · split
      · split
        · split
          · exact .ite h.trayDone.goOn h.violateCxl
          · exact h.trayDone.goOn
        · split
          next e => exact h.lateTag e
          · exact h.violateCxl
      · exact h

theorem execCxlCompletion {port : Port} {tag : Nat} {res : EpRes}
    (h : Calm κ s₀ s) (e : execCxlCompletion port tag res s = .next t) : Calm κ s₀ t :=
  h.checked e h.cxlCompletion

/-! ### Machine/Maps -/

theorem recordCert {c : Cert} (h : Calm κ s₀ s) : Calm κ s₀ (s.recordCert c) :=
  (Calm.ite h.addEntry.freeEntry h.addEntry.upd).bbxLog.upd

theorem fenceDesc {e : Entry} (h : Calm κ s₀ s) : Calm κ s₀ (s.fenceDesc e) := by
  unfold State.fenceDesc
  dsimp only
  split
  · exact h.endWork.modEntry.release.sendRecord
  · exact h.endWork.modEntry

theorem selfFence {serial : Nat} (h : Calm κ s₀ s) : Calm κ s₀ (s.selfFence serial) :=
  (h.upd.foldS fun h => Calm.ite h.endWork (Calm.ite h.completeRec h.fenceDesc)).upd.bbxLog.alertFrom.goOn

theorem openRing {pair : Nat} (h : Calm κ s₀ s) : Calm κ s₀ (s.openRing pair) :=
  h.setFld.setFld.setFld.setFld.setFld.setFld.modRing

theorem takeAtoms {l : List AtomRec} (h : Calm κ s₀ s) : Calm κ s₀ (s.takeAtoms l) := by
  unfold State.takeAtoms
  exact h.foldS fun h => by
    split
    next e => exact (h.atomRoom e).addAtom
    · exact h

theorem takeEntry {aborts : List (Nat × Nat × Nat)} {x : Entry × List Byte} (h : Calm κ s₀ s) :
    Calm κ s₀ (s.takeEntry aborts x) := by
  unfold State.takeEntry
  dsimp only
  split
  · split
    · exact (Calm.ite h.takeAtoms h.takeAtoms.openRing).addEntry.upd.modRing.writeEp
    · exact (Calm.ite h.takeAtoms h.takeAtoms.openRing).addEntry.upd.modRing
  · split
    · exact (Calm.ite h.takeAtoms h.takeAtoms.openRing).addEntry.upd.modRing.markReplayed.abortDesc
    · exact (Calm.ite h.takeAtoms h.takeAtoms.openRing).addEntry.upd.modRing.markReplayed.when fun h =>
        h.upd.when fun h => h.setFetch

theorem takeStreams {m : Nat} (h : Calm κ s₀ s) : Calm κ s₀ (s.takeStreams m) := h.foldS fun h => h.when fun h => h.modRx

theorem takeKeys (h : Calm κ s₀ s) : Calm κ s₀ s.takeKeys := h.foldS fun h => Calm.ite h h.setWorks

theorem dropMirror (h : Calm κ s₀ s) : Calm κ s₀ s.dropMirror := h.upd

theorem turnSolo (h : Calm κ s₀ s) : Calm κ s₀ s.turnSolo := h.upd.dropMirror

theorem takeOver {m : Nat} (h : Calm κ s₀ s) : Calm κ s₀ (s.takeOver m) :=
  ((h.turnSolo.upd.foldS fun h => Calm.ite h.upd h).takeAtoms.takeStreams.takeKeys.foldS
    fun h => h.takeEntry).dropKeys.discardOpen.goOn

theorem startResync (h : Calm κ s₀ s) : Calm κ s₀ s.startResync := by
  unfold State.startResync
  split
  · exact h.upd
  · exact (h.upd.contactBuddy.foldS fun h => h.ownWrite).upd.sendMirroredPages

theorem actOnCert {c : Cert} (h : Calm κ s₀ s) : Calm κ s₀ (s.actOnCert c) := by
  unfold State.actOnCert
  dsimp only
  split
  · exact h.when fun h => h.selfFence
  · split
    · exact h.when fun h => h.upd.goOn
    · split
      · exact (h.when fun h => h.upd.goOn).takeOver
      · exact .ite ((h.when fun h => h.upd.goOn).turnSolo.goOn) (h.when fun h => h.upd.goOn)

theorem takeCert {c : Cert} (h : Calm κ s₀ s) : Calm κ s₀ (s.takeCert c) := .ite h.bump (Calm.ite h h.recordCert.actOnCert)

theorem buddyMoved {old : Option Nat} (h : Calm κ s₀ s) : Calm κ s₀ (s.buddyMoved old) := .ite h h.upd.dropMirror.startResync

theorem adopt {m : MapSt} (h : Calm κ s₀ s) : Calm κ s₀ (s.adopt m) :=
  (h.upd.foldS fun h => h.dropFarRef).buddyMoved.reroute.goOn.adoptLater

theorem mapUpdate {n : Nat} {hd : Hdr} {u : MapUpd} (h : Calm κ s₀ s) : Calm κ s₀ (s.mapUpdate n hd u) := by
  unfold State.mapUpdate
  dsimp only
  split
  · exact h.answer
  · split
    · exact Calm.answer (h.foldS fun h => by
        split
        · exact h.takeCert
        · exact h)
    · split
      · exact Calm.answer (Calm.tickFree (h.foldS fun h => by
          split
          · exact h.takeCert
          · exact h))
      · exact Calm.answer (Calm.adopt (h.foldS fun h => by
          split
          · exact h.takeCert
          · exact h))

theorem execMapUpdate {port : Port} {hd : Hdr} {u : MapUpd}
    (h : Calm κ s₀ s) (e : execMapUpdate port hd u s = .next t) : Calm κ s₀ t :=
  h.checked e (h.takeMsg fun h => Calm.ite h.mapUpdate h.transit)

theorem execMapGet {port : Port} {hd : Hdr} (h : Calm κ s₀ s) (e : execMapGet port hd s = .next t) : Calm κ s₀ t :=
  h.checked e (h.takeMsg fun h => Calm.ite h.transit (Calm.ite h.answer h.sendBy))

/-! ### Machine/Recovery -/

theorem execAtomicRecordExpiry {ep : Ep} {tag : Nat} {seq : BitVec 32}
    (h : Calm κ s₀ s) (e : execAtomicRecordExpiry ep tag seq s = .next t) : Calm κ s₀ t := by
  refine .next e ?_
  split
  · exact h
  · exact h.waitTill.dropAtoms

theorem execLivenessProbe {peer : ModId} (h : Calm κ s₀ s) (e : execLivenessProbe peer s = .next t) : Calm κ s₀ t :=
  .next e (.ite h.waitTill.sendFence h)

theorem execPeerSuspect {peer : ModId} (h : Calm κ s₀ s) (e : execPeerSuspect peer s = .next t) : Calm κ s₀ t :=
  .next e (.ite ((h.waitTill.when fun h => h.modTx).upd.bbxLog) h)

theorem execResyncComplete (h : Calm κ s₀ s) (e : execResyncComplete s = .next t) : Calm κ s₀ t :=
  .next e (.ite h.upd.contactBuddy.goOn h)

/-! ### Machine/Scores -/

theorem dropLink {n : Nat} {st : PState} (h : Calm κ s₀ s) : Calm κ s₀ (s.dropLink n st) :=
  h.modPort.moveFrames.reroute.modPort.dropLinkKeys

theorem blockPort {n : Nat} (h : Calm κ s₀ s) : Calm κ s₀ (s.blockPort n) := (h.when fun h => h.emit).dropLink.stopPort

theorem unblockPort {n : Nat} (h : Calm κ s₀ s) : Calm κ s₀ (s.unblockPort n) := h.modPort

theorem freePort {n : Nat} (h : Calm κ s₀ s) : Calm κ s₀ (s.freePort n) := h.modPort

theorem blockStack {n : Nat} (h : Calm κ s₀ s) : Calm κ s₀ (s.blockStack n) := h.upd

theorem unblockStack {n : Nat} (h : Calm κ s₀ s) : Calm κ s₀ (s.unblockStack n) := h.upd

theorem freeStack {n : Nat} (h : Calm κ s₀ s) : Calm κ s₀ (s.freeStack n) := h.upd

theorem setScore {cls index : Nat} {x : Score} (h : Calm κ s₀ s) : Calm κ s₀ (s.setScore cls index x) := h.upd

theorem retrainPort {n : Nat} (h : Calm κ s₀ s) : Calm κ s₀ (s.retrainPort n) := h.setScore.blockPort.unblockPort

theorem actPort {n : Nat} (h : Calm κ s₀ s) : Calm κ s₀ (s.actPort n) := .ite h.modPort.holdPort h.modPort.retrainPort

theorem act {cls index : Nat} (h : Calm κ s₀ s) : Calm κ s₀ (s.act cls index) := by
  unfold State.act
  dsimp only
  split
  · exact h.latchAlert
  · split
    · exact h.latchAlert.healthAdvice
    · exact .ite h.latchAlert.quarantine (Calm.ite h.latchAlert.actPort h.latchAlert.upd)

theorem addScore {cls index pts : Nat} (h : Calm κ s₀ s) : Calm κ s₀ (s.addScore cls index pts) := h.setScore.when fun h => h.act

theorem execScoreDecay (h : Calm κ s₀ s) (e : execScoreDecay s = .next t) : Calm κ s₀ t := .next e h.waitTill.upd

/-! ### Machine/Links -/

theorem loseLink {n : Nat} (h : Calm κ s₀ s) : Calm κ s₀ (s.loseLink n) := .ite h.dropLink.addScore.goOn h

theorem execLinkDown {port : Port} (h : Calm κ s₀ s) (e : execLinkDown port s = .next t) : Calm κ s₀ t := .next e h.loseLink

theorem badFrame {n : Nat} {tag : Bool} (h : Calm κ s₀ s) : Calm κ s₀ (s.badFrame n tag) := by
  unfold State.badFrame
  extract_lets s₁ s₂ s₃
  have h₃ : Calm κ s₀ s₃ := (h.when fun h => h.bump).modPort.emit.addScore
  exact .ite h₃.loseLink h₃

theorem frameBack {n : Nat} {f : Frame} (h : Calm κ s₀ s) : Calm κ s₀ (s.frameBack n f) := h.modPort.flushPort

theorem frameMsg {n : Nat} {f : Frame} (h : Calm κ s₀ s) : Calm κ s₀ (s.frameMsg n f) := by
  unfold State.frameMsg
  split
  · exact h
  · exact .ite h.violate (Calm.ite h.violate h)

theorem ideFrame {n : Nat} {f : Frame} (h : Calm κ s₀ s) : Calm κ s₀ (s.ideFrame n f) := .ite h.bump.addScore.loseLink h

theorem frame {n : Nat} {f : Frame} (h : Calm κ s₀ s) : Calm κ s₀ (s.frame n f) := by
  unfold State.frame
  split
  · exact h.ideFrame
  · split
    · exact h
    · split
      · exact h.badFrame
      · split
        · exact h.badFrame
        · dsimp only
          split
          · exact (h.when fun h => h.countFrame).frameBack
          · exact (h.when fun h => h.countFrame).frameBack.modPort.emit.frameMsg.goOn

theorem execLinkFrame {port : Port} {f : Frame} (h : Calm κ s₀ s) (e : execLinkFrame port f s = .next t) : Calm κ s₀ t :=
  h.checked e h.frame

theorem retryAsked {n : Nat} {q : BitVec 12} (h : Calm κ s₀ s) : Calm κ s₀ (s.retryAsked n q) := by
  unfold State.retryAsked
  dsimp only
  split
  · exact h
  · split
    · exact h.violate
    · exact .ite h.loseLink (h.modPort.emit.foldS fun h => h.when fun h => h.sealFrame)

theorem execLinkRetryRequest {port : Port} {seq : BitVec 12}
    (h : Calm κ s₀ s) (e : execLinkRetryRequest port seq s = .next t) : Calm κ s₀ t :=
  .next e h.retryAsked

theorem execLinkCounterLimit {port : Port} {rx : Bool} {kslot : Fin 2}
    (h : Calm κ s₀ s) (e : execLinkCounterLimit port rx kslot s = .next t) : Calm κ s₀ t :=
  .next e (.ite h (Calm.ite h.modPort.setFld h.loseLink))

theorem linkReady {n : Nat} (h : Calm κ s₀ s) : Calm κ s₀ (s.linkReady n) := h.modPort.reroute.goOn

theorem linkTrained {n : Nat} {locked : BitVec 8} {full reversed : Bool} (h : Calm κ s₀ s) :
    Calm κ s₀ (s.linkTrained n locked full reversed) := by
  unfold State.linkTrained
  split
  · exact h
  · dsimp only
    split
    · split
      · exact (h.when fun h => h.dropLink.addScore.goOn).modPort.linkReady
      · exact (h.when fun h => h.dropLink.addScore.goOn).modPort
    · split
      · split
        · exact (h.when fun h => h.dropLink.addScore.goOn).modPort
        · exact (h.when fun h => h.dropLink.addScore.goOn).modPort.linkReady
      · exact (h.when fun h => h.dropLink.addScore.goOn).modPort.modPort.addScore

theorem execLinkTrained {port : Port} {locked : BitVec 8} {full reversed : Bool}
    (h : Calm κ s₀ s) (e : execLinkTrained port locked full reversed s = .next t) : Calm κ s₀ t :=
  .next e h.linkTrained

theorem execCxlRetrainDelayExpiry {port : Port}
    (h : Calm κ s₀ s) (e : execCxlRetrainDelayExpiry port s = .next t) : Calm κ s₀ t := by
  refine .next e ?_
  split
  · exact h.waitTill.modPort
  · exact h

theorem execIdeKeyExchange {port : Port} {txKey rxKey : BitVec 256}
    (h : Calm κ s₀ s) (e : execIdeKeyExchange port txKey rxKey s = .next t) : Calm κ s₀ t := by
  refine .next e ?_
  dsimp only
  split
  · exact h
  · split
    · exact (h.modPort.when fun h => h.emit).linkReady
    · exact h.modPort.when fun h => h.emit

/-! ### Machine/Keys -/

theorem stageKey {w : W64} (h : Calm κ s₀ s) : Calm κ s₀ (s.stageKey w) := .ite h.upd h

theorem keepKey {k : Nat} (h : Calm κ s₀ s) : Calm κ s₀ (s.keepKey k) := .ite h h.upd

theorem commitKey (h : Calm κ s₀ s) : Calm κ s₀ s.commitKey := by
  unfold State.commitKey
  dsimp only
  split
  · exact h.upd
  · exact (h.upd.when fun h => h.keepKey).upd.when fun h => h.modPort.flushPort

theorem activateKey (h : Calm κ s₀ s) : Calm κ s₀ s.activateKey := .ite h.modPort.flushPort h

theorem clearKey (h : Calm κ s₀ s) : Calm κ s₀ s.clearKey := .ite h.upd h.upd

theorem modSpdm {v : SpdmPath} {f : SpdmSt → SpdmSt} (h : Calm κ s₀ s) : Calm κ s₀ (s.modSpdm v f) := h.upd

theorem spdmAnswer {v : SpdmPath} {code item : Nat} (h : Calm κ s₀ s) : Calm κ s₀ (s.spdmAnswer v code item) := h.upd.emit

theorem spdmAsk {v : SpdmPath} {ok : Bool} {code item : Nat} {f : SpdmSt → SpdmSt} (h : Calm κ s₀ s) :
    Calm κ s₀ (s.spdmAsk v ok code item f) :=
  .ite h (Calm.ite h.modSpdm.spdmAnswer h.spdmAnswer)

theorem execSpdmGetVersion {via : SpdmPath} (h : Calm κ s₀ s) (e : execSpdmGetVersion via s = .next t) : Calm κ s₀ t :=
  .next e h.spdmAsk

theorem execSpdmGetCapabilities {via : SpdmPath} (h : Calm κ s₀ s) (e : execSpdmGetCapabilities via s = .next t) : Calm κ s₀ t :=
  .next e h.spdmAsk

theorem execSpdmNegotiateAlgorithms {via : SpdmPath} {algs : SpdmAlgs}
    (h : Calm κ s₀ s) (e : execSpdmNegotiateAlgorithms via algs s = .next t) : Calm κ s₀ t :=
  .next e h.spdmAsk

theorem execSpdmGetDigests {via : SpdmPath} (h : Calm κ s₀ s) (e : execSpdmGetDigests via s = .next t) : Calm κ s₀ t :=
  .next e h.spdmAsk

theorem execSpdmGetCertificate {via : SpdmPath} {slot off len : Nat}
    (h : Calm κ s₀ s) (e : execSpdmGetCertificate via slot off len s = .next t) : Calm κ s₀ t :=
  h.checked e h.spdmAsk

theorem execSpdmChallenge {via : SpdmPath} {slot : Nat} {nonce : List Byte}
    (h : Calm κ s₀ s) (e : execSpdmChallenge via slot nonce s = .next t) : Calm κ s₀ t :=
  .next e h.spdmAsk

theorem execSpdmGetMeasurements {via : SpdmPath} {index : Nat} {nonce : List Byte}
    (h : Calm κ s₀ s) (e : execSpdmGetMeasurements via index nonce s = .next t) : Calm κ s₀ t :=
  .next e h.spdmAsk

theorem execSpdmKeyExchange {via : SpdmPath} {share : List Byte}
    (h : Calm κ s₀ s) (e : execSpdmKeyExchange via share s = .next t) : Calm κ s₀ t :=
  .next e h.spdmAsk

theorem execSpdmFinish {via : SpdmPath} {root : Option (BitVec 384)} {ok : Bool}
    (h : Calm κ s₀ s) (e : execSpdmFinish via root ok s = .next t) : Calm κ s₀ t :=
  .next e ((h.when fun h => h.upd.bbxLog).spdmAsk)

theorem execSpdmHeartbeat {via : SpdmPath} (h : Calm κ s₀ s) (e : execSpdmHeartbeat via s = .next t) : Calm κ s₀ t :=
  .next e h.spdmAsk

theorem execSpdmEndSession {via : SpdmPath} (h : Calm κ s₀ s) (e : execSpdmEndSession via s = .next t) : Calm κ s₀ t :=
  .next e h.spdmAsk

/-! ### Machine/Switch -/

theorem enqueue {l : List Cell} {stream : Nat × Bool} (h : Calm κ s₀ s) : Calm κ s₀ (s.enqueue l stream) := by
  unfold State.enqueue
  split
  · exact h
  · exact h.addUnit

theorem modReseq {k : Nat} {f : Reseq → Reseq} (h : Calm κ s₀ s) : Calm κ s₀ (s.modReseq k f) := h.upd

theorem passCell {k : Nat} {c : Cell} (h : Calm κ s₀ s) : Calm κ s₀ (s.passCell k c) :=
  .ite h.modReseq (Calm.ite h.upd.modReseq.enqueue h.modReseq)

theorem drainCells {k fuel : Nat} (h : Calm κ s₀ s) : Calm κ s₀ (State.drainCells k fuel s) := by
  induction fuel generalizing s with
  | zero => exact h
  | succ fuel ih =>
    unfold State.drainCells
    split
    · exact ih h.passCell
    · exact h

theorem cellIn {c : Cell} (h : Calm κ s₀ s) : Calm κ s₀ (s.cellIn c).1 := by
  unfold State.cellIn
  dsimp only
  split
  · exact h.bump
  · split
    · exact h
    · split
      · exact h.passCell.drainCells
      · exact .iteFst (Calm.iteFst h h.modReseq) (Calm.iteFst h.modReseq.bump h)

theorem cellGap {k : Nat} (h : Calm κ s₀ s) : Calm κ s₀ (s.cellGap k) := by
  unfold State.cellGap
  dsimp only
  split
  · exact h
  · split
    · exact h.waitTill
    · exact h.waitTill.modReseq.bump.drainCells

theorem stageTwo {m : Nat} (h : Calm κ s₀ s) : Calm κ s₀ (s.stageTwo m) := by
  unfold State.stageTwo
  dsimp only
  split
  · exact h
  · split
    next e => exact (h.cellIn.ofFst e).upd
    next e => exact h.cellIn.ofFst e

theorem stageOne1 {i : Nat} (h : Calm κ s₀ s) : Calm κ s₀ (s.stageOne1 i) := by
  unfold State.stageOne1
  dsimp only
  split
  · exact h
  · exact h.upd

theorem colour {m : SwMsg} (h : Calm κ s₀ s) : Calm κ s₀ (s.colour m).2 := by
  unfold State.colour
  dsimp only
  split
  · exact h
  · exact h.upd

theorem takeIn {m : SwMsg} (h : Calm κ s₀ s) : Calm κ s₀ (s.takeIn m) := h.upd.when fun h => h.emit

theorem offer {m : SwMsg} {c : Colour} (h : Calm κ s₀ s) : Calm κ s₀ (s.offer m c) := .ite h.bump (Calm.ite h.upd h.takeIn)

theorem pumpWaiting (h : Calm κ s₀ s) : Calm κ s₀ s.pumpWaiting := h.upd.foldS fun h => Calm.ite h.upd h.takeIn

theorem execCellArrive {cell : Cell} (h : Calm κ s₀ s) (e : execCellArrive cell s = .next t) : Calm κ s₀ t := by
  refine h.checked e ?_
  split
  next e => exact (h.cellIn.ofFst e).pumpWaiting
  next e => exact (h.cellIn.ofFst e).upd

theorem execCellGapExpiry {inp out : Port} {tc : Tc}
    (h : Calm κ s₀ s) (e : execCellGapExpiry inp out tc s = .next t) : Calm κ s₀ t :=
  .next e h.cellGap.pumpWaiting

theorem execSwitchSlot (h : Calm κ s₀ s) (e : execSwitchSlot s = .next t) : Calm κ s₀ t :=
  .next e (((h.foldS fun h => h.stageTwo).foldS fun h => h.stageOne1).upd.pumpWaiting)

theorem admitMsg {m : SwMsg} (h : Calm κ s₀ s) : Calm κ s₀ (s.admitMsg m) :=
  ((h.colour.when fun h => h.bump).when fun h => h.bump).foldS fun h => h.offer

theorem execMessageAdmit {m : SwMsg} (h : Calm κ s₀ s) (e : execMessageAdmit m s = .next t) : Calm κ s₀ t :=
  h.checked e h.admitMsg

theorem startUnit {n k : Nat} {prio : Bool} (h : Calm κ s₀ s) : Calm κ s₀ (s.startUnit n k prio) := by
  unfold State.startUnit
  split
  · exact h
  · exact Calm.pumpWaiting (Calm.tagHeads (by
      split
      · exact h.modQueue.modPort.upd.sendCopy
      · exact h.modQueue.modPort.upd.emit))

theorem execUnitStart {out : Port} (h : Calm κ s₀ s) (e : execUnitStart out s = .next t) : Calm κ s₀ t := by
  refine .next e ?_
  extract_lets n s₁ s₂ l tc3
  have h₁ : Calm κ s₀ s₁ := by
    dsimp only [s₁]
    split
    · exact h.waitTill
    · exact h
  have h₂ : Calm κ s₀ s₂ := h₁.pumpWaiting.tagHeads
  split
  · split
    · exact h₂.startUnit
    · exact h₂
  · split
    · exact h₂.startUnit
    · exact h₂

theorem shaperCommit {v : Nat} (h : Calm κ s₀ s) : Calm κ s₀ (s.shaperCommit v) := h.modQueue

theorem meterCommit {t m v : Nat} (h : Calm κ s₀ s) : Calm κ s₀ (s.meterCommit t m v) := .ite h h.upd

/-! ### Machine/Resets -/

theorem parkCtx {cx : Nat} (h : Calm κ s₀ s) : Calm κ s₀ (s.parkCtx cx) := by
  unfold State.parkCtx
  split
  · exact h
  · exact .ite h.dropCtx h.unreceive.dropCtx.modInv

theorem rewind {e : Entry} (h : Calm κ s₀ s) : Calm κ s₀ (s.rewind e) :=
  (h.dropFetches.endMoves.endLoad.foldS fun h => h.dropRef).upd.putEntry

theorem hubReset (h : Calm κ s₀ s) : Calm κ s₀ s.hubReset :=
  (((((h.foldS fun h => h.parkCtx).foldS fun h => h.rewind).foldS fun h => h.dropLinkKeys).dropFetches.foldS
    fun h => h.endAbort).foldS fun h => h.dropRef).upd.upd.setFld.setFld

theorem coldReset (h : Calm κ s₀ s) : Calm κ s₀ s.coldReset := (h.hubReset.foldS fun h => h.setFld).upd

theorem clearRings (h : Calm κ s₀ s) : Calm κ s₀ s.clearRings := h.upd

theorem loseHbm (h : Calm κ s₀ s) : Calm κ s₀ s.loseHbm :=
  ⟨fun _ => Memory.wf_nil, h.course⟩

theorem driveOut {v : Bool} (h : Calm κ s₀ s) : Calm κ s₀ (s.driveOut v) := .ite h h.upd.emit

theorem drivePower (h : Calm κ s₀ s) : Calm κ s₀ s.drivePower := .ite h h.upd.emit

theorem coldOrHubReset {lvl : Nat} (h : Calm κ s₀ s) :
    Calm κ s₀ (if lvl = 2 then s.coldReset.loseHbm else if lvl = 1 then s.coldReset else s.hubReset) :=
  .ite h.coldReset.loseHbm (.ite h.coldReset h.hubReset)

/-- A power-on reset empties the mirror half; every other level keeps it in canonical form. -/
theorem levelReset_mirrorWf {lvl : Nat} (h : Calm κ s₀ s) (hs : Memory.wf s₀.ldg.mirrorHalf = true) :
    Memory.wf (if lvl = 3 then s.powerOn else if lvl = 2 then s.coldReset.loseHbm else if lvl = 1 then s.coldReset
      else s.hubReset).ldg.mirrorHalf = true := by
  by_cases hlvl : lvl = 3
  · rw [if_pos hlvl]; exact Memory.wf_nil
  · rw [if_neg hlvl]; exact h.coldOrHubReset.mirrorWf hs

theorem entryOf_le (lvl : Nat) : entryOf lvl ≤ 4 := by
  unfold entryOf
  split
  · exact Nat.le_refl 4
  · split <;> decide

theorem takeReset {b : Nat} (h : Calm .loud s₀ s) : Calm .loud s₀ (s.takeReset b) := by
  unfold State.takeReset
  extract_lets lvl last entry asserted held s₁ s₂ s₃ _ _ s₄
  have hentry : entry ≤ 4 := by
    dsimp only [entry]
    split
    · exact Nat.le_trans (Nat.min_le_right ..) (entryOf_le lvl)
    · exact entryOf_le lvl
  have h₂ : Calm .loud s₀ s₂ := (h.when fun h => h.bump).when fun h => h.bump
  have h₄ : Calm .loud s₀ s₄ := ⟨h₂.levelReset_mirrorWf, .inr ⟨rfl, .inr ⟨rfl, hentry, .inl hentry⟩⟩⟩
  exact (h₄.when fun h => h.driveOut).drivePower

theorem checkRelease (h : Calm κ s₀ s) : Calm κ s₀ s.checkRelease := .ite h.upd h

theorem assertSource {b : Nat} {cold pulse powerLost : Bool} (h : Calm .loud s₀ s) :
    Calm .loud s₀ (s.assertSource b cold pulse powerLost) :=
  .ite h.upd.upd h.upd.takeReset

theorem releaseSource {b : Nat} (h : Calm κ s₀ s) : Calm κ s₀ (s.releaseSource b) := h.upd.checkRelease

theorem execPorstNAssert (h : Calm .loud s₀ s) (e : execPorstNAssert s = .next t) : Calm .loud s₀ t := .next e h.upd.assertSource

theorem execMrstNAssert (h : Calm .loud s₀ s) (e : execMrstNAssert s = .next t) : Calm .loud s₀ t := .next e h.assertSource

theorem execWrstNAssert (h : Calm .loud s₀ s) (e : execWrstNAssert s = .next t) : Calm .loud s₀ t := .next e h.assertSource

theorem execResetPinRelease {pin : ResetPin} (h : Calm κ s₀ s) (e : execResetPinRelease pin s = .next t) : Calm κ s₀ t := by
  refine .next e ?_
  split
  · exact .ite h.upd.releaseSource h.upd
  · exact h.releaseSource
  · exact h.releaseSource

theorem stopAt {cause : Nat} (h : Calm .loud s₀ s) : Calm .loud s₀ (s.stopAt cause) := by
  unfold State.stopAt
  extract_lets old s₁
  have h₁ : Calm .loud s₀ s₁ := h.bbxLog
  refine latchAlert ⟨h₁.mirrorWf, .inr ⟨rfl, ?_⟩⟩
  obtain ⟨hactive, hentry, -⟩ | ⟨hactive, hentry, -⟩ := h₁.staysPut_or_isReset
  · exact .inl ⟨hactive, hentry, .inr rfl⟩
  · exact .inr ⟨hactive, hentry, .inr rfl⟩

theorem loseCopy {q : Nat} (h : Calm .loud s₀ s) : Calm .loud s₀ (s.loseCopy q) := h.updLoud.when fun h => h.stopAt

theorem downQuad {q : Nat} (h : Calm .loud s₀ s) : Calm .loud s₀ (s.downQuad q) := (h.foldS fun h => h.holdPort).loseSlices.loseCopy

theorem resetQuad {q : Nat} (h : Calm .loud s₀ s) : Calm .loud s₀ (s.resetQuad q) := h.bump.updLoud.downQuad

theorem execCriticalEccError {q : Option Quad} (h : Calm .loud s₀ s) (e : execCriticalEccError q s = .next t) : Calm .loud s₀ t := by
  refine .next e ?_
  split
  · exact h.assertSource
  · exact .ite h.upd.upd h.upd.resetQuad

theorem execResetPulseEnd {bit : Nat} (h : Calm κ s₀ s) (e : execResetPulseEnd bit s = .next t) : Calm κ s₀ t := by
  refine h.checked e ?_
  split
  · exact h
  · exact .ite h.waitTill.upd.releaseSource.upd h.waitTill.upd.releaseSource

theorem execMramPulseEnd (h : Calm .loud s₀ s) (e : execMramPulseEnd s = .next t) : Calm .loud s₀ t := by
  refine .next e ?_
  split
  · exact h
  · exact ((h.bbxPulseEnd.foldS fun h => h.takeReset).foldS fun h => Calm.ite h.resetQuad h.resetQuad.upd).checkRelease

theorem execStackRetrainComplete {stk : Stack} {ok : Bool}
    (h : Calm .loud s₀ s) (e : execStackRetrainComplete stk ok s = .next t) : Calm .loud s₀ t :=
  .next e (.ite h (Calm.ite h.upd.goOn h.upd.updLoud.bbxLog.latchAlert.downQuad))

theorem applyRole {alien : BitVec 64} {n : Nat} (h : Calm κ s₀ s) : Calm κ s₀ (s.applyRole alien n) := h.modPort

theorem setDecoders {attested : BitVec 64} {l : List (Nat × Nat × Nat × Nat)} (h : Calm κ s₀ s) :
    Calm κ s₀ (s.setDecoders attested l) :=
  h.upd.foldS fun h => h.foldS fun h => h.modShelf

theorem trainStacks {good : BitVec 12} (h : Calm .loud s₀ s) : Calm .loud s₀ (s.trainStacks good) :=
  h.foldS fun h => Calm.ite h.upd (Calm.ite h.upd h.upd.updLoud.bbxLog.latchAlert.downQuad)

theorem restoreCopies (h : Calm .loud s₀ s) : Calm .loud s₀ s.restoreCopies := h.updLoud

theorem testSlices {good : BitVec 32} (h : Calm κ s₀ s) : Calm κ s₀ (s.testSlices good) :=
  h.foldS fun h => Calm.ite h (Calm.ite h.bump.upd h.bump.bump.quarantine)

theorem loseLedger (h : Calm κ s₀ s) : Calm κ s₀ s.loseLedger := by
  unfold State.loseLedger
  extract_lets old gen _ _ _ s₁
  have h₁ : Calm κ s₀ s₁ := h.clearRings.upd (hmirror := rfl)
  exact h₁.bbxLog.latchAlert

theorem restoreHalf (h : Calm κ s₀ s) : Calm κ s₀ s.restoreHalf := h.upd

theorem scanBox {repaired voided : Nat} (h : Calm κ s₀ s) : Calm κ s₀ (s.scanBox repaired voided) := h.upd.bump.bump

theorem joinMirror (h : Calm κ s₀ s) : Calm κ s₀ s.joinMirror := .ite h.upd.dropMirror (Calm.ite h h.startResync)

theorem resendMirror (h : Calm κ s₀ s) : Calm κ s₀ s.resendMirror := by
  unfold State.resendMirror
  split
  · exact h.when fun h => h.resendReqs
  · exact h

theorem writeAidxs (h : Calm κ s₀ s) : Calm κ s₀ s.writeAidxs := h.foldS fun h => h.writeAidx

theorem beginReplay (h : Calm κ s₀ s) : Calm κ s₀ s.beginReplay := by
  unfold State.beginReplay
  exact Calm.goOn (Calm.writeAidxs ((h.foldS fun h => h.markReplayed).upd.resendMirror.foldS fun h => by
    split
    · exact h.writeEp
    · exact h))

theorem beginRun (h : Calm κ s₀ s) : Calm κ s₀ s.beginRun := (h.foldS fun h => h.startTenantReset).goOn

theorem execStageTimeout (h : Calm .loud s₀ s) (e : execStageTimeout s = .next t) : Calm .loud s₀ t := by
  refine .next e ?_
  split
  · exact h
  · split
    · exact h.waitTill.stopAt
    · exact h

theorem execRailRegulationTimeout {rail : Nat}
    (h : Calm .loud s₀ s) (e : execRailRegulationTimeout rail s = .next t) : Calm .loud s₀ t :=
  h.checked e (.ite h.upd.stopAt h)

/-! ### Machine/Power -/

theorem execPower48vGood {mv : BitVec 16} (h : Calm .loud s₀ s) (e : execPower48vGood mv s = .next t) : Calm .loud s₀ t :=
  .next e ((Calm.ite h.updLoud.upd h.updLoud).releaseSource.alertFrom)

theorem execPower48vLost {mv : BitVec 16} (h : Calm .loud s₀ s) (e : execPower48vLost mv s = .next t) : Calm .loud s₀ t :=
  .next e h.updLoud.assertSource.alertFrom

theorem execAuxPowerGood {mv : BitVec 13} {i3cAddr : BitVec 2} {bscanN : Bool} (h : Calm κ s₀ s)
    (e : execAuxPowerGood mv i3cAddr bscanN s = .next t) : Calm κ s₀ t :=
  .next e ((h.upd (hspine := by split <;> rfl)).when fun h => h.releaseSource).alertFrom

theorem execPowerLimiterSample {avgW : Nat} {mv : BitVec 16}
    (h : Calm .loud s₀ s) (e : execPowerLimiterSample avgW mv s = .next t) : Calm .loud s₀ t :=
  h.checked e (h.waitTill.updLoud.alertFrom.when fun h => h.goOn)

theorem execThermalSample {quads stks : List ℤ} (h : Calm κ s₀ s) (e : execThermalSample quads stks s = .next t) : Calm κ s₀ t :=
  h.checked e (.ite h.waitTill.upd.releaseSource h.waitTill.upd)

theorem execThermalTrip {isStack : Bool} {idx : Nat} {deg : ℤ}
    (h : Calm .loud s₀ s) (e : execThermalTrip isStack idx deg s = .next t) : Calm .loud s₀ t :=
  h.checked e (.ite h h.updLoud.setFld.bump.latchAlert.bbxLog.assertSource)

theorem portsDown (h : Calm κ s₀ s) : Calm κ s₀ s.portsDown := h.foldS fun h => Calm.ite h.dropLink h

theorem chooseRef (h : Calm κ s₀ s) : Calm κ s₀ s.chooseRef := by
  unfold State.chooseRef
  split
  · exact .ite h h.upd.portsDown.goOn
  · extract_lets _ s₁ _ s₂ s₃
    have h₁ : Calm κ s₀ s₁ := .ite h h.upd
    have h₃ : Calm κ s₀ s₃ := h₁.upd.foldS fun h => h.modPort
    exact .ite h₃.goOn h₁

theorem execRefclkLoss {b : Bool} (h : Calm .loud s₀ s) (e : execRefclkLoss b s = .next t) : Calm .loud s₀ t :=
  .next e h.updLoud.chooseRef.alertFrom

theorem execRefclkReturn {b : Bool} (h : Calm .loud s₀ s) (e : execRefclkReturn b s = .next t) : Calm .loud s₀ t :=
  .next e h.updLoud.chooseRef.alertFrom

theorem faultQuad {q cause dev other : Nat} (h : Calm .loud s₀ s) : Calm .loud s₀ (s.faultQuad q cause dev other) :=
  .ite h h.updLoud.bbxLog.latchAlert.downQuad

theorem comparePair {cause i j : Nat} (h : Calm .loud s₀ s) : Calm .loud s₀ (s.comparePair cause i j) :=
  .ite h (Calm.ite h.upd (Calm.ite h.upd.faultQuad h.upd.faultQuad))

theorem execNeighbourCompare {mhz mv : List Nat} {deg : List ℤ}
    (h : Calm .loud s₀ s) (e : execNeighbourCompare mhz mv deg s = .next t) : Calm .loud s₀ t :=
  h.checked e ((h.waitTill.upd.foldS fun h => h.foldS fun h => h.comparePair).goOn)

theorem execCrossingTimeout {q : Quad} (h : Calm .loud s₀ s) (e : execCrossingTimeout q s = .next t) : Calm .loud s₀ t :=
  .next e h.setFld.bump.faultQuad.goOn

theorem kicked {n : Nat} (h : Calm κ s₀ s) : Calm κ s₀ { s with rst := { s.rst with kickAt := n } } := h.upd

theorem execWatchdogExpiry {silent : BitVec 16} (h : Calm .loud s₀ s) (e : execWatchdogExpiry silent s = .next t) : Calm .loud s₀ t :=
  .next e (.ite h h.waitTill.bump.bbxLog.kicked.assertSource)

theorem kick {v : Nat} (h : Calm κ s₀ s) : Calm κ s₀ (s.kick v) := .ite h.upd h

/-! ### Machine/Health -/

theorem setMargin {cls index unit hi lo v : Nat} (h : Calm κ s₀ s) : Calm κ s₀ (s.setMargin cls index unit hi lo v) := h.upd

theorem execSerdesScan {port : Port} {lane : Fin 8} {mv : BitVec 8} {mui : BitVec 10}
    (h : Calm κ s₀ s) (e : execSerdesScan port lane mv mui s = .next t) : Calm κ s₀ t :=
  .next e (.ite h (h.setMargin.setMargin.when fun h => h.addScore))

theorem execHbmScan {stk : Stack} {chan : Fin 32} {pct : BitVec 8}
    (h : Calm κ s₀ s) (e : execHbmScan stk chan pct s = .next t) : Calm κ s₀ t :=
  .next e (.ite h (h.setMargin.when fun h => h.addScore))

theorem execOpticalScan {port : Port} {lane : Fin 8} {power : Option (BitVec 32)} {warn : BitVec 32}
    (h : Calm κ s₀ s) (e : execOpticalScan port lane power warn s = .next t) : Calm κ s₀ t := by
  refine .next e ?_
  dsimp only
  split
  · exact h
  · split
    · exact h.emit.modPort
    · exact h.emit.modPort.setMargin.when fun h => h.addScore

theorem passBin {n : Nat} (h : Calm κ s₀ s) : Calm κ s₀ (s.passBin n) := h.upd

theorem execKnownAnswerTest {slice : Slice} {pass : Bool} {vector : Nat}
    (h : Calm κ s₀ s) (e : execKnownAnswerTest slice pass vector s = .next t) : Calm κ s₀ t :=
  .next e (.ite h (Calm.ite h.bump.passBin h.bump.bump.quarantine))

theorem cycleStack {n : Nat} (h : Calm κ s₀ s) : Calm κ s₀ (s.cycleStack n) := h.upd.unblockStack

theorem cyclePort {n : Nat} (h : Calm κ s₀ s) : Calm κ s₀ (s.cyclePort n) := h.blockPort.unblockPort

theorem rtsBegin {cls index : Nat} (h : Calm κ s₀ s) : Calm κ s₀ (s.rtsBegin cls index) := by
  unfold State.rtsBegin
  split
  · exact h.cycleStack
  · split
    · exact h.cyclePort
    · exact .ite ((h.foldS fun h => h.cycleStack).foldS fun h => h.cyclePort) h

theorem rtsStart {v : Nat} (h : Calm κ s₀ s) : Calm κ s₀ (s.rtsStart v) := .ite h (Calm.ite h.upd h.upd.rtsBegin)

theorem slicePasses {n : Nat} (h : Calm κ s₀ s) : Calm κ s₀ (s.slicePasses n) := h.upd.bump.passBin.setScore

theorem stackPasses {n : Nat} (h : Calm κ s₀ s) : Calm κ s₀ (s.stackPasses n) := h.upd.setScore

theorem endHold {n : Nat} (h : Calm κ s₀ s) : Calm κ s₀ (s.endHold n) := .ite h.modPort.releasePort h

theorem quadPasses {q : Nat} (h : Calm .loud s₀ s) : Calm .loud s₀ (s.quadPasses q) :=
  ((h.updLoud.foldS fun h => h.stackPasses).foldS fun h => h.setScore.endHold).foldS fun h => h.slicePasses

theorem execReturnToServiceEnd {pass : Bool} (h : Calm .loud s₀ s) (e : execReturnToServiceEnd pass s = .next t) : Calm .loud s₀ t := by
  refine .next e (.ite h ?_)
  extract_lets cls index result _ s₁ s₂
  have h₂ : Calm .loud s₀ s₂ := h.upd.bbxLog
  exact .ite h₂ <| .ite h₂.slicePasses.goOn <| .ite h₂.stackPasses.goOn <|
    .ite h₂.setScore.releasePort.goOn h₂.quadPasses.goOn

theorem execPatrolRead {stk : Stack} {addr : BitVec 37} {result : EccResult}
    (h : Calm κ s₀ s) (e : execPatrolRead stk addr result s = .next t) : Calm κ s₀ t := by
  refine .next e ?_
  dsimp only
  split
  · exact h
  · split
    · exact h
    · exact h.bump.addScore
    · exact h.upd.bump.addScore

theorem clearSticky (h : Calm κ s₀ s) : Calm κ s₀ s.clearSticky := h.upd

theorem writeToll {n : Nat} {record : List Byte} (h : Calm κ s₀ s) : Calm κ s₀ (s.writeToll n record) := by
  unfold State.writeToll
  dsimp only
  split
  next e => exact (h.writeEp.ofFst e).upd
  next e => exact (h.writeEp.ofFst e).bump.upd

theorem execTollIntervalEnd (h : Calm κ s₀ s) (e : execTollIntervalEnd s = .next t) : Calm κ s₀ t :=
  .next e (.ite h.waitTill.upd.writeToll h.waitTill.upd)

/-! ### Machine/RegWrite -/

theorem lockAll {secure : Bool} (h : Calm κ s₀ s) : Calm κ s₀ (s.lockAll secure) :=
  ((h.foldS fun h => .ite h h.setWord).foldS fun h => h.setWord).foldS fun h => h.setWord

theorem enablePair {pair : Nat} (h : Calm κ s₀ s) : Calm κ s₀ (s.enablePair pair) := by
  unfold State.enablePair
  split
  · exact h.setFld.sendPrior.goOn
  · exact h.faultPair

theorem writeRing {l : Loc} {x : Wr} (h : Calm κ s₀ s) : Calm κ s₀ (s.writeRing l x) := by
  unfold State.writeRing
  extract_lets pair on s₁ s₂ s₃
  have h₁ : Calm κ s₀ s₁ := h.when fun h => h.setWord
  have h₂ : Calm κ s₀ s₂ := .ite h₁ (.ite (.ite h₁ h₁.enablePair) (.ite h₁ h₁.setFld.dropFetches))
  exact .ite h₂.noteRing.startRingReset.goOn h₂.noteRing

theorem writeTenReset {t : Nat} (h : Calm κ s₀ s) : Calm κ s₀ (s.writeTenReset t) :=
  .ite h (Calm.ite h.startTenantReset.goOn h.modTen)

theorem writeFreq {l : Loc} {x : Wr} (h : Calm κ s₀ s) : Calm κ s₀ (s.writeFreq l x) := .ite h (Calm.ite h.setFld h.setWord)

theorem writeTier {l : Loc} {x : Wr} (h : Calm κ s₀ s) : Calm κ s₀ (s.writeTier l x) := h.setWord.when fun h => h.stopAuto

theorem writeNot3 {l : Loc} {x : Wr} {hi lo : Nat} (h : Calm κ s₀ s) : Calm κ s₀ (s.writeNot3 l x hi lo) := h.setWord

theorem writeWin {l : Loc} {x : Wr} (h : Calm κ s₀ s) : Calm κ s₀ (s.writeWin l x) :=
  .ite (Calm.ite h h.winOff.goOn) (Calm.ite h.setWord.winOn h.setWord)

theorem writeJob {l : Loc} {x : Wr} (h : Calm κ s₀ s) : Calm κ s₀ (s.writeJob l x) :=
  .ite (Calm.ite h h.jobOff.goOn) (Calm.ite h.setWord.jobOn.goOn h.setWord)

theorem writeEstReg {l : Loc} {x : Wr} (h : Calm κ s₀ s) : Calm κ s₀ (s.writeEstReg l x) := h.setWord.writeEst.evalGates

theorem writeHold {n act : Nat} (h : Calm κ s₀ s) : Calm κ s₀ (s.writeHold n act) :=
  (h.when fun h => h.releasePort.goOn).when fun h => h.holdPort

theorem writeKeyCmd {act : Nat} (h : Calm κ s₀ s) : Calm κ s₀ (s.writeKeyCmd act) :=
  ((h.when fun h => h.commitKey).when fun h => h.activateKey).when fun h => h.clearKey

theorem writeBlkPort {l : Loc} {x : Wr} (h : Calm κ s₀ s) : Calm κ s₀ (s.writeBlkPort l x) :=
  (h.setWord.foldS fun h => h.blockPort).foldS fun h => h.unblockPort

theorem writeBlkHbm {l : Loc} {x : Wr} (h : Calm κ s₀ s) : Calm κ s₀ (s.writeBlkHbm l x) :=
  (h.setWord.foldS fun h => h.blockStack).foldS fun h => h.unblockStack

theorem writeWdt {l : Loc} {x : Wr} (h : Calm κ s₀ s) : Calm κ s₀ (s.writeWdt l x) := by
  unfold State.writeWdt
  exact h.setWord.when fun h => h.upd

theorem writeRstCmd {act : Nat} (h : Calm .loud s₀ s) : Calm .loud s₀ (s.writeRstCmd act) :=
  .ite h.assertSource (Calm.ite h.assertSource h)

theorem writeAbort {act : Nat} (h : Calm κ s₀ s) : Calm κ s₀ (s.writeAbort act) := .ite h.requestAbort.goOn h

theorem clearMgmt (h : Calm κ s₀ s) : Calm κ s₀ s.clearMgmt := h.upd

theorem effect {l : Loc} {secure : Bool} {x : Wr} (h : Calm .loud s₀ s) : Calm .loud s₀ (s.effect l secure x) := by
  unfold State.effect
  dsimp only
  split
  · exact h.setWord.when fun h => h.lockAll
  · exact .ite h.clearMgmt h
  · exact h.upd.alertFrom
  · exact h.setWord.alertFrom
  · exact h.writeRstCmd
  · exact h.writeBlkPort
  · exact h.writeBlkHbm
  · exact h.writeWdt
  · exact h.kick
  · exact h.setWord.when fun h => h.chooseRef
  · exact h.writeFreq
  · exact h.setWord
  · exact h.setWord.shelfWorld
  · exact h.stageKey
  · exact h.writeKeyCmd
  · exact .ite h.writeTenReset h
  · exact h.writeRing
  · exact .ite h h.setWord
  · exact .ite h h.setWord
  · exact .ite h h.setWord
  · exact .ite h h.setWord
  · exact h.shelfCmdWord.goOn
  · exact h.writeTier
  · exact h.writeWin
  · exact .ite h h.setWord
  · exact .ite h h.setWord
  · exact .ite h h.setWord
  · exact h.upd
  · exact h.gateWrite
  · exact h.writeJob
  · exact h.writeEstReg
  · exact .ite h h.setWord
  · exact h.setWord.pumpWaiting
  · exact h.shaperCommit
  · exact h.meterCommit
  · exact h.meterCommit
  · exact h.upd
  · exact h.writeAbort
  · exact h.writeNot3
  · exact h.rtsStart
  · exact h.setWord.when fun h => h.clearSticky
  · exact h.writeHold
  · exact .ite h h.writeNot3
  · exact .ite h h.setWord
  · exact .ite h h.setWord
  · exact .ite h h.setWord
  · exact .ite h.setWord h
  · exact .ite h.setWord h
  · exact .ite h.setWord h
  · exact .ite h.setWord h
  · exact h.upd
  · exact h.setWord

theorem writeLoc {l : Loc} {secure : Bool} {v : W64} (h : Calm .loud s₀ s) : Calm .loud s₀ (s.writeLoc l secure v).1 :=
  (Calm.ite h.effect h).when fun h => h.worldViol

theorem mgmtError {path addr cause : Nat} (h : Calm κ s₀ s) : Calm κ s₀ (s.mgmtError path addr cause) := by
  unfold State.mgmtError
  exact h.upd (hspine := by split <;> rfl)

theorem regWrite {path : Nat} {secure : Bool} {addr : Nat} {v : W64} (h : Calm .loud s₀ s) :
    Calm .loud s₀ (s.regWrite path secure addr v).1 := by
  unfold State.regWrite
  split
  · exact h.mgmtError
  · split
    next e => exact h.writeLoc.ofFst e
    next e => exact (h.writeLoc.ofFst e).mgmtError

theorem regRead {path addr : Nat} (h : Calm κ s₀ s) : Calm κ s₀ (s.regRead path addr).1 := by
  unfold State.regRead
  split
  · exact h.mgmtError
  · exact h

/-! ### Machine/Mgmt -/

theorem writeBy {path : Path} {addr : Nat} {v : W64} (h : Calm .loud s₀ s) : Calm .loud s₀ (s.writeBy path addr v) := .ite h.regWrite h

theorem execRegisterWrite {path : Path} {addr : BitVec 32} {value : W64}
    (h : Calm .loud s₀ s) (e : execRegisterWrite path addr value s = .next t) : Calm .loud s₀ t :=
  .next e h.writeBy

theorem execRingEnable {path : Path} {pair : Pair} {value : W64}
    (h : Calm .loud s₀ s) (e : execRingEnable path pair value s = .next t) : Calm .loud s₀ t :=
  .next e h.writeBy

theorem execRingReset {path : Path} {pair : Pair} (h : Calm .loud s₀ s) (e : execRingReset path pair s = .next t) : Calm .loud s₀ t :=
  .next e h.writeBy

theorem execTenantReset {path : Path} {tenant : Tenant}
    (h : Calm .loud s₀ s) (e : execTenantReset path tenant s = .next t) : Calm .loud s₀ t :=
  .next e h.writeBy

theorem execShelfAssign {path : Path} {tier : Tier} {idx : Nat} {tenant : Tenant} {common : Bool}
    (h : Calm .loud s₀ s) (e : execShelfAssign path tier idx tenant common s = .next t) : Calm .loud s₀ t :=
  h.checked e h.writeBy

theorem execShelfRevokeEvacuate {path : Path} {tier : Tier} {idx : Nat}
    (h : Calm .loud s₀ s) (e : execShelfRevokeEvacuate path tier idx s = .next t) : Calm .loud s₀ t :=
  h.checked e h.writeBy

theorem execShelfRevokeForce {path : Path} {tier : Tier} {idx : Nat}
    (h : Calm .loud s₀ s) (e : execShelfRevokeForce path tier idx s = .next t) : Calm .loud s₀ t :=
  h.checked e h.writeBy

theorem execShelfOnline {path : Path} {tier : Tier} {idx : Nat}
    (h : Calm .loud s₀ s) (e : execShelfOnline path tier idx s = .next t) : Calm .loud s₀ t :=
  h.checked e h.writeBy

theorem execShelfWorldSet {path : Path} {tier : Tier} {idx : Nat} {secure : Bool}
    (h : Calm .loud s₀ s) (e : execShelfWorldSet path tier idx secure s = .next t) : Calm .loud s₀ t :=
  h.checked e h.writeBy

theorem execWindowEnable {path : Path} {win : Win} {value : W64}
    (h : Calm .loud s₀ s) (e : execWindowEnable path win value s = .next t) : Calm .loud s₀ t :=
  .next e h.writeBy

theorem execJobEnable {path : Path} {slot : JobSlot} {value : W64}
    (h : Calm .loud s₀ s) (e : execJobEnable path slot value s = .next t) : Calm .loud s₀ t :=
  .next e h.writeBy

theorem execJobDisable {path : Path} {slot : JobSlot}
    (h : Calm .loud s₀ s) (e : execJobDisable path slot s = .next t) : Calm .loud s₀ t :=
  .next e h.writeBy

theorem execEstimateWrite {path : Path} {slot : JobSlot} {value : W64}
    (h : Calm .loud s₀ s) (e : execEstimateWrite path slot value s = .next t) : Calm .loud s₀ t :=
  .next e h.writeBy

theorem execGateW0Stage {path : Path} {value : W64}
    (h : Calm .loud s₀ s) (e : execGateW0Stage path value s = .next t) : Calm .loud s₀ t :=
  .next e h.writeBy

theorem execGateCommit {path : Path} {value : W64} (h : Calm .loud s₀ s) (e : execGateCommit path value s = .next t) : Calm .loud s₀ t :=
  .next e h.writeBy

theorem execPortHold {path : Path} {port : Port} (h : Calm .loud s₀ s) (e : execPortHold path port s = .next t) : Calm .loud s₀ t :=
  .next e h.writeBy

theorem execPortRelease {path : Path} {port : Port}
    (h : Calm .loud s₀ s) (e : execPortRelease path port s = .next t) : Calm .loud s₀ t :=
  .next e h.writeBy

theorem execShaperConfig {path : Path} {value : W64}
    (h : Calm .loud s₀ s) (e : execShaperConfig path value s = .next t) : Calm .loud s₀ t :=
  .next e h.writeBy

theorem execMeterCommit {path : Path} {tenant : Tenant} {meter : Fin 2} {value : W64}
    (h : Calm .loud s₀ s) (e : execMeterCommit path tenant meter value s = .next t) : Calm .loud s₀ t :=
  .next e h.writeBy

theorem execStepAbort {path : Path} {value : W64} (h : Calm .loud s₀ s) (e : execStepAbort path value s = .next t) : Calm .loud s₀ t :=
  .next e h.writeBy

theorem execKeyDataStage {path : Path} {value : W64}
    (h : Calm .loud s₀ s) (e : execKeyDataStage path value s = .next t) : Calm .loud s₀ t :=
  .next e h.writeBy

theorem execKeyCommit {path : Path} (h : Calm .loud s₀ s) (e : execKeyCommit path s = .next t) : Calm .loud s₀ t := .next e h.writeBy

theorem execKeyActivate {path : Path} (h : Calm .loud s₀ s) (e : execKeyActivate path s = .next t) : Calm .loud s₀ t :=
  .next e h.writeBy

theorem execKeyClear {path : Path} (h : Calm .loud s₀ s) (e : execKeyClear path s = .next t) : Calm .loud s₀ t := .next e h.writeBy

theorem execRstCmdWarm {path : Path} (h : Calm .loud s₀ s) (e : execRstCmdWarm path s = .next t) : Calm .loud s₀ t := .next e h.writeBy

theorem execRstCmdCold {path : Path} (h : Calm .loud s₀ s) (e : execRstCmdCold path s = .next t) : Calm .loud s₀ t := .next e h.writeBy

theorem execPortBlockReset {path : Path} {value : W64}
    (h : Calm .loud s₀ s) (e : execPortBlockReset path value s = .next t) : Calm .loud s₀ t :=
  .next e h.writeBy

theorem execHbmBlockReset {path : Path} {value : W64}
    (h : Calm .loud s₀ s) (e : execHbmBlockReset path value s = .next t) : Calm .loud s₀ t :=
  .next e h.writeBy

theorem execWatchdogKick {path : Path} {value : W64}
    (h : Calm .loud s₀ s) (e : execWatchdogKick path value s = .next t) : Calm .loud s₀ t :=
  .next e h.writeBy

theorem execQuadrantFreqWrite {path : Path} {q : Quad} {value : W64}
    (h : Calm .loud s₀ s) (e : execQuadrantFreqWrite path q value s = .next t) : Calm .loud s₀ t :=
  .next e h.writeBy

theorem execReturnToService {path : Path} {value : W64}
    (h : Calm .loud s₀ s) (e : execReturnToService path value s = .next t) : Calm .loud s₀ t :=
  .next e h.writeBy

theorem execClearSticky {path : Path} (h : Calm .loud s₀ s) (e : execClearSticky path s = .next t) : Calm .loud s₀ t :=
  .next e h.writeBy

theorem execLockSet {path : Path} {block : Blk} (h : Calm .loud s₀ s) (e : execLockSet path block s = .next t) : Calm .loud s₀ t :=
  .next e h.writeBy

theorem execLockAll {path : Path} (h : Calm .loud s₀ s) (e : execLockAll path s = .next t) : Calm .loud s₀ t := .next e h.writeBy

theorem barRead {n addr size : Nat} (h : Calm κ s₀ s) : Calm κ s₀ (s.barRead n addr size) := by
  unfold State.barRead
  split
  · exact Calm.emit (by
      split
      · exact h.mgmtError
      · exact h)
  · split
    · exact Calm.emit (by
        split
        · exact h.mgmtError
        · exact h)
    · exact h.mgmtError.emit

theorem execBar0Access {port : Port} {write : Bool} {addr : BitVec 32} {size : Nat} {value : W64}
    (h : Calm .loud s₀ s) (e : execBar0Access port write addr size value s = .next t) : Calm .loud s₀ t :=
  .next e (.ite h (Calm.ite h.barRead (Calm.ite h.regWrite h.mgmtError)))

theorem applyRec {path : Path} {r : RegRec} (h : Calm .loud s₀ s) : Calm .loud s₀ (s.applyRec path r).1 := by
  unfold State.applyRec
  split
  · exact h
  · split
    · split
      next e => exact h.regRead.ofFst e
      next e => exact h.regRead.ofFst e
    · split
      next e => exact h.regWrite.ofFst e
      next e => exact h.regWrite.ofFst e

theorem ethRecord {src : EthSrc} {b : List Byte} (h : Calm .loud s₀ s) : Calm .loud s₀ (s.ethRecord src b) := by
  unfold State.ethRecord
  split
  · exact h
  · split
    · exact h
    · exact Calm.emit (Calm.upd (by
        split
        · exact h
        · exact h.applyRec))

theorem execEthRegisterRead {src : EthSrc} {rec : List Byte}
    (h : Calm .loud s₀ s) (e : execEthRegisterRead src rec s = .next t) : Calm .loud s₀ t :=
  .next e h.ethRecord

theorem execEthRegisterWrite {src : EthSrc} {rec : List Byte}
    (h : Calm .loud s₀ s) (e : execEthRegisterWrite src rec s = .next t) : Calm .loud s₀ t :=
  .next e h.ethRecord

theorem execArpRequest {ip : BitVec 32} {mac : BitVec 48}
    (h : Calm κ s₀ s) (e : execArpRequest ip mac s = .next t) : Calm κ s₀ t :=
  .next e (.ite h.emit h)

theorem execSecureRegisterAccess {rec : List Byte} (h : Calm .loud s₀ s) (e : execSecureRegisterAccess rec s = .next t) :
    Calm .loud s₀ t := by
  refine .next e ?_
  split
  · exact h
  · exact .ite h h.applyRec.emit

theorem i3cWrite {b : List Byte} (h : Calm .loud s₀ s) : Calm .loud s₀ (s.i3cWrite b) := .ite h.regWrite (Calm.ite h.upd h.mgmtError)

theorem execI3cRegisterWrite {bytes : List Byte} (h : Calm .loud s₀ s) (e : execI3cRegisterWrite bytes s = .next t) : Calm .loud s₀ t :=
  .next e h.i3cWrite

theorem execI3cSetReadAddress {bytes : List Byte}
    (h : Calm .loud s₀ s) (e : execI3cSetReadAddress bytes s = .next t) : Calm .loud s₀ t :=
  .next e h.i3cWrite

theorem execI3cRegisterRead (h : Calm κ s₀ s) (e : execI3cRegisterRead s = .next t) : Calm κ s₀ t := by
  refine .next e ?_
  exact Calm.emit (by
    split
    · exact h.mgmtError
    · exact h)

theorem execI3cDynamicAddress {viaStatic : Bool} {addr : BitVec 7}
    (h : Calm κ s₀ s) (e : execI3cDynamicAddress viaStatic addr s = .next t) : Calm κ s₀ t :=
  .next e h.upd

theorem execTapInstruction {ir : TapInstr} (h : Calm κ s₀ s) (e : execTapInstruction ir s = .next t) : Calm κ s₀ t :=
  .next e (h.upd.when fun h => h.emit)

end Sys2Proof.Machine.Calm
end


section
/-! SUPPORT. The course of the boot stage under one command, and the two invariants of R20 that follow. -/

namespace Sys2Proof.Machine

/-- What one command can do to the stage and the reset in effect: nothing but what `Calm` lets pass; or it ends the reset in
effect, at the stage that reset enters (R387); or it passes one stage on (R20). -/
inductive Course (s t : State) : Prop
  | calm (h : Calm .loud s t)
  | leaves (hactive : s.rst.active = true) (hsound : Sound s → Sound t)
  | passes (hstage : s.gen.stage ≤ 8) (hmirror : Memory.wf s.ldg.mirrorHalf = true → Memory.wf t.ldg.mirrorHalf = true)
      (hentry : t.rst.entryMin = s.rst.entryMin ∨ t.rst.entryMin ≤ 4)
      (hnext : t.gen.stage = s.gen.stage + 1 ∨ t.gen.stage = stFault ∨ t.spine.IsReset)

theorem Calm.sound {κ : Scope} {s t : State} (h : Calm κ s t) (hs : Sound s) : Sound t := by
  obtain ⟨hstage, hentry, hwf⟩ := hs
  have hwf := h.mirrorWf hwf
  obtain ⟨-, he, ht⟩ | ⟨-, he, ht⟩ := h.staysPut_or_isReset
  · refine ⟨?_, (show t.rst.entryMin = _ from he) ▸ hentry, hwf⟩
    obtain ht | ht := ht
    · exact (show t.gen.stage = _ from ht) ▸ hstage
    · exact .inr ht
  · exact ⟨ht.imp (fun h => Nat.le_trans h (by decide)) id, .inl (Nat.le_trans he (by decide)), hwf⟩

/-! ### Leaving a reset (R387) -/

theorem leaveReset_sound {s u : State} (h : Calm .loud s u) (hs : Sound s) : Sound u.leaveReset := by
  have hu := h.sound hs
  unfold State.leaveReset
  extract_lets _ _ v
  have hv : Sound v := ⟨hu.entry, hu.entry, hu.mirror⟩
  exact (Calm.refl .quiet v).bbxLog.sound hv

theorem waitTill_rst (s : State) (n : Nat) : (s.waitTill n).rst = s.rst := advance_rst s _

theorem execResetStretchExpiry_course {s t : State} (e : execResetStretchExpiry s = .next t) : Course s t := by
  have ht := Host.Outcome.next.inj e
  split at ht
  · exact .calm (ht ▸ .refl _ s)
  · extract_lets s₁ due quads stks ports whole s₂ s₃ s₄ at ht
    have h₄ : Calm .loud s s₄ :=
      (((Calm.refl _ s).waitTill.foldS fun h => h.updLoud).foldS fun h => h.freeStack).foldS fun h => h.freePort
    split at ht
    next hw =>
      have hactive : s₁.rst.active = true := by
        cases ha : s₁.rst.active with
        | false => simp [whole, ha] at hw
        | true => rfl
      exact .leaves (waitTill_rst s _ ▸ hactive) fun hs => ht ▸ leaveReset_sound h₄ hs
    · exact .calm (ht ▸ h₄)

/-! ### Passing a stage (R20) -/

theorem Calm.enterStage {κ : Scope} {s₀ s : State} {n : Nat} (h : Calm κ s₀ { s with gen := { s.gen with stage := n, stageAt := s.now } }) :
    Calm κ s₀ (s.enterStage n) := .ite h.driveOut (.ite h.beginReplay (.ite h.beginRun h))

/-- Work that is calm and then the next stage. -/
theorem Course.enters {s u : State} {n : Nat} (h : Calm .loud s u) (hn : s.gen.stage = n) (hle : n ≤ 8) :
    Course s (u.enterStage (n + 1)) := by
  have hv := (Calm.refl .quiet { u with gen := { u.gen with stage := n + 1, stageAt := u.now } }).enterStage
  refine .passes (hn ▸ hle) (fun hs => hv.mirrorWf (h.mirrorWf hs)) ?_ (.inl ?_)
  · have hentry : (u.enterStage (n + 1)).rst.entryMin = u.rst.entryMin := congrArg Spine.entryMin hv.spine_eq
    rw [hentry]
    exact h.staysPut_or_isReset.imp (fun h => h.2.1) (fun h => h.2.1)
  · rw [hn]
    exact congrArg Spine.stage hv.spine_eq

theorem bootFirmware_course {s : State} {r : StageReport} (hs : s.gen.stage = 1) : Course s (s.bootFirmware r) := by
  have h := Calm.refl .loud s
  unfold State.bootFirmware
  dsimp only
  split
  · exact .enters h.upd hs (by decide)
  · split
    · exact .enters h.upd hs (by decide)
    · exact .calm h.stopAt

theorem stageDone_course (s : State) (r : StageReport) : Course s (s.stageDone r) := by
  have h := Calm.refl .loud s
  unfold State.stageDone
  split
  next hs =>
    split
    · exact .enters h hs (by decide)
    · exact .calm h
  next hs => exact bootFirmware_course hs
  next hs =>
    split
    · exact .calm h
    · dsimp only
      split
      · exact .enters h.upd.drivePower hs (by decide)
      · exact .calm h.upd.drivePower.stopAt
  next hs =>
    dsimp only
    split
    · exact .calm h.trainStacks.restoreCopies.stopAt
    · exact .enters h.trainStacks.restoreCopies hs (by decide)
  next hs => exact .enters h.testSlices hs (by decide)
  next hs => exact .enters (Calm.ite h.scanBox.restoreHalf h.scanBox.loseLedger).settle hs (by decide)
  next hs =>
    split
    · exact .enters (h.foldS fun h => h.applyRole).setDecoders hs (by decide)
    · exact .calm h.stopAt
  next hs =>
    split
    · exact .enters h.joinMirror.contactBuddy hs (by decide)
    · exact .calm h
  next hs =>
    split
    · exact .calm h
    · exact .enters h hs (by decide)
  · exact .calm h

theorem execStageAdvance_course {s t : State} {r : StageReport} (e : execStageAdvance r s = .next t) : Course s t := by
  have ht := Host.Outcome.next.inj e
  subst ht
  split
  · split
    · exact .calm (.refl _ s)
    · exact stageDone_course s r
  · exact .calm (.refl _ s)

/-! ### Every command -/

theorem exec_course : ∀ {c : Instr} {s t : State}, exec c s = .next t → Course s t
  | .submissionDoorbell .., s, _, e => .calm ((Calm.refl _ s).execSubmissionDoorbell e)
  | .completionDoorbell .., s, _, e => .calm ((Calm.refl _ s).execCompletionDoorbell e)
  | .descriptorAccept .., s, _, e => .calm ((Calm.refl _ s).execDescriptorAccept e)
  | .descriptorStart .., s, _, e => .calm ((Calm.refl _ s).execDescriptorStart e)
  | .descriptorComplete .., s, _, e => .calm ((Calm.refl _ s).execDescriptorComplete e)
  | .nop .., s, _, e => .calm ((Calm.refl _ s).execNop e)
  | .move .., s, _, e => .calm ((Calm.refl _ s).execMove e)
  | .alloc .., s, _, e => .calm ((Calm.refl _ s).execAlloc e)
  | .free .., s, _, e => .calm ((Calm.refl _ s).execFree e)
  | .openVersion .., s, _, e => .calm ((Calm.refl _ s).execOpenVersion e)
  | .seal .., s, _, e => .calm ((Calm.refl _ s).execSeal e)
  | .publish .., s, _, e => .calm ((Calm.refl _ s).execPublish e)
  | .publishHolderSeal .., s, _, e => .calm ((Calm.refl _ s).execPublishHolderSeal e)
  | .retire .., s, _, e => .calm ((Calm.refl _ s).execRetire e)
  | .hold .., s, _, e => .calm ((Calm.refl _ s).execHold e)
  | .release .., s, _, e => .calm ((Calm.refl _ s).execRelease e)
  | .promote .., s, _, e => .calm ((Calm.refl _ s).execPromote e)
  | .demote .., s, _, e => .calm ((Calm.refl _ s).execDemote e)
  | .invoke .., s, _, e => .calm ((Calm.refl _ s).execInvoke e)
  | .fence .., s, _, e => .calm ((Calm.refl _ s).execFence e)
  | .mark .., s, _, e => .calm ((Calm.refl _ s).execMark e)
  | .queryRegion .., s, _, e => .calm ((Calm.refl _ s).execQueryRegion e)
  | .queryVersions .., s, _, e => .calm ((Calm.refl _ s).execQueryVersions e)
  | .queryHolds .., s, _, e => .calm ((Calm.refl _ s).execQueryHolds e)
  | .querySubparts .., s, _, e => .calm ((Calm.refl _ s).execQuerySubparts e)
  | .queryUsage .., s, _, e => .calm ((Calm.refl _ s).execQueryUsage e)
  | .queryAdvice .., s, _, e => .calm ((Calm.refl _ s).execQueryAdvice e)
  | .loadRecipe .., s, _, e => .calm ((Calm.refl _ s).execLoadRecipe e)
  | .loadTable .., s, _, e => .calm ((Calm.refl _ s).execLoadTable e)
  | .ringEnable .., s, _, e => .calm ((Calm.refl _ s).execRingEnable e)
  | .ringReset .., s, _, e => .calm ((Calm.refl _ s).execRingReset e)
  | .tenantReset .., s, _, e => .calm ((Calm.refl _ s).execTenantReset e)
  | .registerWrite .., s, _, e => .calm ((Calm.refl _ s).execRegisterWrite e)
  | .shelfAssign .., s, _, e => .calm ((Calm.refl _ s).execShelfAssign e)
  | .shelfRevokeEvacuate .., s, _, e => .calm ((Calm.refl _ s).execShelfRevokeEvacuate e)
  | .shelfRevokeForce .., s, _, e => .calm ((Calm.refl _ s).execShelfRevokeForce e)
  | .shelfOnline .., s, _, e => .calm ((Calm.refl _ s).execShelfOnline e)
  | .evacuationDone .., s, _, e => .calm ((Calm.refl _ s).execEvacuationDone e)
  | .drainComplete .., s, _, e => .calm ((Calm.refl _ s).execDrainComplete e)
  | .scrubComplete .., s, _, e => .calm ((Calm.refl _ s).execScrubComplete e)
  | .scrubTimeout .., s, _, e => .calm ((Calm.refl _ s).execScrubTimeout e)
  | .shelfWorldSet .., s, _, e => .calm ((Calm.refl _ s).execShelfWorldSet e)
  | .orphanHoldExpiry .., s, _, e => .calm ((Calm.refl _ s).execOrphanHoldExpiry e)
  | .pageMoveSwitch .., s, _, e => .calm ((Calm.refl _ s).execPageMoveSwitch e)
  | .stallBoundExpiry .., s, _, e => .calm ((Calm.refl _ s).execStallBoundExpiry e)
  | .placementScan, s, _, e => .calm ((Calm.refl _ s).execPlacementScan e)
  | .adviceExpiry .., s, _, e => .calm ((Calm.refl _ s).execAdviceExpiry e)
  | .windowEnable .., s, _, e => .calm ((Calm.refl _ s).execWindowEnable e)
  | .windowLayerStage .., s, _, e => .calm ((Calm.refl _ s).execWindowLayerStage e)
  | .windowLayerLanded .., s, _, e => .calm ((Calm.refl _ s).execWindowLayerLanded e)
  | .jobEnable .., s, _, e => .calm ((Calm.refl _ s).execJobEnable e)
  | .jobDisable .., s, _, e => .calm ((Calm.refl _ s).execJobDisable e)
  | .ulpMark .., s, _, e => .calm ((Calm.refl _ s).execUlpMark e)
  | .stepInEdge, s, _, e => .calm ((Calm.refl _ s).execStepInEdge e)
  | .positionResolve .., s, _, e => .calm ((Calm.refl _ s).execPositionResolve e)
  | .estimateWrite .., s, _, e => .calm ((Calm.refl _ s).execEstimateWrite e)
  | .gateW0Stage .., s, _, e => .calm ((Calm.refl _ s).execGateW0Stage e)
  | .gateCommit .., s, _, e => .calm ((Calm.refl _ s).execGateCommit e)
  | .guardBandStart .., s, _, e => .calm ((Calm.refl _ s).execGuardBandStart e)
  | .guardBandExpire .., s, _, e => .calm ((Calm.refl _ s).execGuardBandExpire e)
  | .ptpMessage .., s, _, e => .calm ((Calm.refl _ s).execPtpMessage e)
  | .ppsEdge, s, _, e => .calm ((Calm.refl _ s).execPpsEdge e)
  | .subpartStart .., s, _, e => .calm ((Calm.refl _ s).execSubpartStart e)
  | .budgetExhausted .., s, _, e => .calm ((Calm.refl _ s).execBudgetExhausted e)
  | .phaseCommit .., s, _, e => .calm ((Calm.refl _ s).execPhaseCommit e)
  | .finalSectionStart .., s, _, e => .calm ((Calm.refl _ s).execFinalSectionStart e)
  | .invokeComplete .., s, _, e => .calm ((Calm.refl _ s).execInvokeComplete e)
  | .workCommit .., s, _, e => .calm ((Calm.refl _ s).execWorkCommit e)
  | .workKeyExpiry .., s, _, e => .calm ((Calm.refl _ s).execWorkKeyExpiry e)
  | .loadTile .., s, _, e => .calm ((Calm.refl _ s).execLoadTile e)
  | .storeTile .., s, _, e => .calm ((Calm.refl _ s).execStoreTile e)
  | .decode .., s, _, e => .calm ((Calm.refl _ s).execDecode e)
  | .encode .., s, _, e => .calm ((Calm.refl _ s).execEncode e)
  | .macTile .., s, _, e => .calm ((Calm.refl _ s).execMacTile e)
  | .vecAdd .., s, _, e => .calm ((Calm.refl _ s).execVecAdd e)
  | .vecSub .., s, _, e => .calm ((Calm.refl _ s).execVecSub e)
  | .vecMul .., s, _, e => .calm ((Calm.refl _ s).execVecMul e)
  | .vecFma .., s, _, e => .calm ((Calm.refl _ s).execVecFma e)
  | .vecDiv .., s, _, e => .calm ((Calm.refl _ s).execVecDiv e)
  | .vecSqrt .., s, _, e => .calm ((Calm.refl _ s).execVecSqrt e)
  | .vecExp2 .., s, _, e => .calm ((Calm.refl _ s).execVecExp2 e)
  | .vecLog2 .., s, _, e => .calm ((Calm.refl _ s).execVecLog2 e)
  | .vecRcp .., s, _, e => .calm ((Calm.refl _ s).execVecRcp e)
  | .vecRsqrt .., s, _, e => .calm ((Calm.refl _ s).execVecRsqrt e)
  | .vecMin .., s, _, e => .calm ((Calm.refl _ s).execVecMin e)
  | .vecMax .., s, _, e => .calm ((Calm.refl _ s).execVecMax e)
  | .vecMulRow .., s, _, e => .calm ((Calm.refl _ s).execVecMulRow e)
  | .vecSumRow .., s, _, e => .calm ((Calm.refl _ s).execVecSumRow e)
  | .vecMaxRow .., s, _, e => .calm ((Calm.refl _ s).execVecMaxRow e)
  | .vecScale .., s, _, e => .calm ((Calm.refl _ s).execVecScale e)
  | .scalarMovi .., s, _, e => .calm ((Calm.refl _ s).execScalarMovi e)
  | .scalarAdd .., s, _, e => .calm ((Calm.refl _ s).execScalarAdd e)
  | .scalarAddi .., s, _, e => .calm ((Calm.refl _ s).execScalarAddi e)
  | .scalarSub .., s, _, e => .calm ((Calm.refl _ s).execScalarSub e)
  | .scalarMul .., s, _, e => .calm ((Calm.refl _ s).execScalarMul e)
  | .scalarShl .., s, _, e => .calm ((Calm.refl _ s).execScalarShl e)
  | .scalarShr .., s, _, e => .calm ((Calm.refl _ s).execScalarShr e)
  | .scalarAnd .., s, _, e => .calm ((Calm.refl _ s).execScalarAnd e)
  | .scalarOr .., s, _, e => .calm ((Calm.refl _ s).execScalarOr e)
  | .scalarXor .., s, _, e => .calm ((Calm.refl _ s).execScalarXor e)
  | .scalarLd .., s, _, e => .calm ((Calm.refl _ s).execScalarLd e)
  | .scalarSt .., s, _, e => .calm ((Calm.refl _ s).execScalarSt e)
  | .softmaxStep .., s, _, e => .calm ((Calm.refl _ s).execSoftmaxStep e)
  | .exactAcc .., s, _, e => .calm ((Calm.refl _ s).execExactAcc e)
  | .exactRound .., s, _, e => .calm ((Calm.refl _ s).execExactRound e)
  | .gather .., s, _, e => .calm ((Calm.refl _ s).execGather e)
  | .scatter .., s, _, e => .calm ((Calm.refl _ s).execScatter e)
  | .xorPopcount .., s, _, e => .calm ((Calm.refl _ s).execXorPopcount e)
  | .heapInsert .., s, _, e => .calm ((Calm.refl _ s).execHeapInsert e)
  | .heapDrain .., s, _, e => .calm ((Calm.refl _ s).execHeapDrain e)
  | .compareSelect .., s, _, e => .calm ((Calm.refl _ s).execCompareSelect e)
  | .compact .., s, _, e => .calm ((Calm.refl _ s).execCompact e)
  | .prefetch .., s, _, e => .calm ((Calm.refl _ s).execPrefetch e)
  | .send .., s, _, e => .calm ((Calm.refl _ s).execSend e)
  | .recv .., s, _, e => .calm ((Calm.refl _ s).execRecv e)
  | .recvTimeout .., s, _, e => .calm ((Calm.refl _ s).execRecvTimeout e)
  | .messageArrive .., s, _, e => .calm ((Calm.refl _ s).execMessageArrive e)
  | .messageHoldExpiry .., s, _, e => .calm ((Calm.refl _ s).execMessageHoldExpiry e)
  | .waitMark .., s, _, e => .calm ((Calm.refl _ s).execWaitMark e)
  | .waitMarkTimeout .., s, _, e => .calm ((Calm.refl _ s).execWaitMarkTimeout e)
  | .atomic .., s, _, e => .calm ((Calm.refl _ s).execAtomic e)
  | .loop .., s, _, e => .calm ((Calm.refl _ s).execLoop e)
  | .branchIf .., s, _, e => .calm ((Calm.refl _ s).execBranchIf e)
  | .emitStore .., s, _, e => .calm ((Calm.refl _ s).execEmitStore e)
  | .emitResult .., s, _, e => .calm ((Calm.refl _ s).execEmitResult e)
  | .ulpLoad .., s, _, e => .calm ((Calm.refl _ s).execUlpLoad e)
  | .ulpStore .., s, _, e => .calm ((Calm.refl _ s).execUlpStore e)
  | .ulpWriteFlag .., s, _, e => .calm ((Calm.refl _ s).execUlpWriteFlag e)
  | .ulpAtomic .., s, _, e => .calm ((Calm.refl _ s).execUlpAtomic e)
  | .ulpFence .., s, _, e => .calm ((Calm.refl _ s).execUlpFence e)
  | .ulpAttach .., s, _, e => .calm ((Calm.refl _ s).execUlpAttach e)
  | .ulpDetach .., s, _, e => .calm ((Calm.refl _ s).execUlpDetach e)
  | .mapUpdate .., s, _, e => .calm ((Calm.refl _ s).execMapUpdate e)
  | .mapGet .., s, _, e => .calm ((Calm.refl _ s).execMapGet e)
  | .loadRsp .., s, _, e => .calm ((Calm.refl _ s).execLoadRsp e)
  | .atomicRsp .., s, _, e => .calm ((Calm.refl _ s).execAtomicRsp e)
  | .ack .., s, _, e => .calm ((Calm.refl _ s).execAck e)
  | .fenceAck .., s, _, e => .calm ((Calm.refl _ s).execFenceAck e)
  | .attachRsp .., s, _, e => .calm ((Calm.refl _ s).execAttachRsp e)
  | .nak .., s, _, e => .calm ((Calm.refl _ s).execNak e)
  | .resend .., s, _, e => .calm ((Calm.refl _ s).execResend e)
  | .drain .., s, _, e => .calm ((Calm.refl _ s).execDrain e)
  | .mapAck .., s, _, e => .calm ((Calm.refl _ s).execMapAck e)
  | .linkFrame .., s, _, e => .calm ((Calm.refl _ s).execLinkFrame e)
  | .linkRetryRequest .., s, _, e => .calm ((Calm.refl _ s).execLinkRetryRequest e)
  | .linkDown .., s, _, e => .calm ((Calm.refl _ s).execLinkDown e)
  | .linkTrained .., s, _, e => .calm ((Calm.refl _ s).execLinkTrained e)
  | .ackTimerExpiry .., s, _, e => .calm ((Calm.refl _ s).execAckTimerExpiry e)
  | .retxTimerExpiry .., s, _, e => .calm ((Calm.refl _ s).execRetxTimerExpiry e)
  | .epochAdoptTimeout .., s, _, e => .calm ((Calm.refl _ s).execEpochAdoptTimeout e)
  | .violationSecondRollover, s, _, e => .calm ((Calm.refl _ s).execViolationSecondRollover e)
  | .portHold .., s, _, e => .calm ((Calm.refl _ s).execPortHold e)
  | .portRelease .., s, _, e => .calm ((Calm.refl _ s).execPortRelease e)
  | .windowReferenceWrite .., s, _, e => .calm ((Calm.refl _ s).execWindowReferenceWrite e)
  | .cxlMemRequest .., s, _, e => .calm ((Calm.refl _ s).execCxlMemRequest e)
  | .ideKeyExchange .., s, _, e => .calm ((Calm.refl _ s).execIdeKeyExchange e)
  | .cellArrive .., s, _, e => .calm ((Calm.refl _ s).execCellArrive e)
  | .cellGapExpiry .., s, _, e => .calm ((Calm.refl _ s).execCellGapExpiry e)
  | .streamGapExpiry .., s, _, e => .calm ((Calm.refl _ s).execStreamGapExpiry e)
  | .messageAdmit .., s, _, e => .calm ((Calm.refl _ s).execMessageAdmit e)
  | .unitStart .., s, _, e => .calm ((Calm.refl _ s).execUnitStart e)
  | .shaperConfig .., s, _, e => .calm ((Calm.refl _ s).execShaperConfig e)
  | .meterCommit .., s, _, e => .calm ((Calm.refl _ s).execMeterCommit e)
  | .mirrorStore .., s, _, e => .calm ((Calm.refl _ s).execMirrorStore e)
  | .atomicRecordExpiry .., s, _, e => .calm ((Calm.refl _ s).execAtomicRecordExpiry e)
  | .stepAbort .., s, _, e => .calm ((Calm.refl _ s).execStepAbort e)
  | .livenessProbe .., s, _, e => .calm ((Calm.refl _ s).execLivenessProbe e)
  | .peerSuspect .., s, _, e => .calm ((Calm.refl _ s).execPeerSuspect e)
  | .resyncComplete, s, _, e => .calm ((Calm.refl _ s).execResyncComplete e)
  | .stageAdvance .., _, _, e => execStageAdvance_course e
  | .stageTimeout, s, _, e => .calm ((Calm.refl _ s).execStageTimeout e)
  | .keyDataStage .., s, _, e => .calm ((Calm.refl _ s).execKeyDataStage e)
  | .keyCommit .., s, _, e => .calm ((Calm.refl _ s).execKeyCommit e)
  | .keyActivate .., s, _, e => .calm ((Calm.refl _ s).execKeyActivate e)
  | .keyClear .., s, _, e => .calm ((Calm.refl _ s).execKeyClear e)
  | .linkCounterLimit .., s, _, e => .calm ((Calm.refl _ s).execLinkCounterLimit e)
  | .spdmGetVersion .., s, _, e => .calm ((Calm.refl _ s).execSpdmGetVersion e)
  | .spdmGetCapabilities .., s, _, e => .calm ((Calm.refl _ s).execSpdmGetCapabilities e)
  | .spdmNegotiateAlgorithms .., s, _, e => .calm ((Calm.refl _ s).execSpdmNegotiateAlgorithms e)
  | .spdmGetDigests .., s, _, e => .calm ((Calm.refl _ s).execSpdmGetDigests e)
  | .spdmGetCertificate .., s, _, e => .calm ((Calm.refl _ s).execSpdmGetCertificate e)
  | .spdmChallenge _ _ x, s, _, e => .calm ((Calm.refl _ s).execSpdmChallenge (nonce := x) e)
  | .spdmGetMeasurements _ _ x, s, _, e => .calm ((Calm.refl _ s).execSpdmGetMeasurements (nonce := x) e)
  | .spdmKeyExchange _ x, s, _, e => .calm ((Calm.refl _ s).execSpdmKeyExchange (share := x) e)
  | .spdmFinish .., s, _, e => .calm ((Calm.refl _ s).execSpdmFinish e)
  | .spdmHeartbeat .., s, _, e => .calm ((Calm.refl _ s).execSpdmHeartbeat e)
  | .spdmEndSession .., s, _, e => .calm ((Calm.refl _ s).execSpdmEndSession e)
  | .porstNAssert, s, _, e => .calm ((Calm.refl _ s).execPorstNAssert e)
  | .mrstNAssert, s, _, e => .calm ((Calm.refl _ s).execMrstNAssert e)
  | .wrstNAssert, s, _, e => .calm ((Calm.refl _ s).execWrstNAssert e)
  | .resetPinRelease .., s, _, e => .calm ((Calm.refl _ s).execResetPinRelease e)
  | .rstCmdWarm .., s, _, e => .calm ((Calm.refl _ s).execRstCmdWarm e)
  | .rstCmdCold .., s, _, e => .calm ((Calm.refl _ s).execRstCmdCold e)
  | .resetStretchExpiry, _, _, e => execResetStretchExpiry_course e
  | .mramPulseEnd, s, _, e => .calm ((Calm.refl _ s).execMramPulseEnd e)
  | .portBlockReset .., s, _, e => .calm ((Calm.refl _ s).execPortBlockReset e)
  | .hbmBlockReset .., s, _, e => .calm ((Calm.refl _ s).execHbmBlockReset e)
  | .watchdogKick .., s, _, e => .calm ((Calm.refl _ s).execWatchdogKick e)
  | .watchdogExpiry .., s, _, e => .calm ((Calm.refl _ s).execWatchdogExpiry e)
  | .criticalEccError .., s, _, e => .calm ((Calm.refl _ s).execCriticalEccError e)
  | .power48vGood .., s, _, e => .calm ((Calm.refl _ s).execPower48vGood e)
  | .power48vLost .., s, _, e => .calm ((Calm.refl _ s).execPower48vLost e)
  | .auxPowerGood .., s, _, e => .calm ((Calm.refl _ s).execAuxPowerGood e)
  | .powerLimiterSample .., s, _, e => .calm ((Calm.refl _ s).execPowerLimiterSample e)
  | .thermalSample .., s, _, e => .calm ((Calm.refl _ s).execThermalSample e)
  | .thermalTrip .., s, _, e => .calm ((Calm.refl _ s).execThermalTrip e)
  | .refclkLoss .., s, _, e => .calm ((Calm.refl _ s).execRefclkLoss e)
  | .refclkReturn .., s, _, e => .calm ((Calm.refl _ s).execRefclkReturn e)
  | .neighbourCompare .., s, _, e => .calm ((Calm.refl _ s).execNeighbourCompare e)
  | .quadrantFreqWrite .., s, _, e => .calm ((Calm.refl _ s).execQuadrantFreqWrite e)
  | .crossingTimeout .., s, _, e => .calm ((Calm.refl _ s).execCrossingTimeout e)
  | .scoreDecay, s, _, e => .calm ((Calm.refl _ s).execScoreDecay e)
  | .serdesScan .., s, _, e => .calm ((Calm.refl _ s).execSerdesScan e)
  | .hbmScan .., s, _, e => .calm ((Calm.refl _ s).execHbmScan e)
  | .opticalScan .., s, _, e => .calm ((Calm.refl _ s).execOpticalScan e)
  | .knownAnswerTest .., s, _, e => .calm ((Calm.refl _ s).execKnownAnswerTest e)
  | .shadowThirdRun .., s, _, e => .calm ((Calm.refl _ s).execShadowThirdRun e)
  | .returnToService .., s, _, e => .calm ((Calm.refl _ s).execReturnToService e)
  | .returnToServiceEnd .., s, _, e => .calm ((Calm.refl _ s).execReturnToServiceEnd e)
  | .clearSticky .., s, _, e => .calm ((Calm.refl _ s).execClearSticky e)
  | .tollIntervalEnd, s, _, e => .calm ((Calm.refl _ s).execTollIntervalEnd e)
  | .patrolRead .., s, _, e => .calm ((Calm.refl _ s).execPatrolRead e)
  | .ethRegisterRead .., s, _, e => .calm ((Calm.refl _ s).execEthRegisterRead e)
  | .ethRegisterWrite .., s, _, e => .calm ((Calm.refl _ s).execEthRegisterWrite e)
  | .arpRequest .., s, _, e => .calm ((Calm.refl _ s).execArpRequest e)
  | .i3cRegisterWrite .., s, _, e => .calm ((Calm.refl _ s).execI3cRegisterWrite e)
  | .i3cSetReadAddress .., s, _, e => .calm ((Calm.refl _ s).execI3cSetReadAddress e)
  | .i3cRegisterRead, s, _, e => .calm ((Calm.refl _ s).execI3cRegisterRead e)
  | .i3cDynamicAddress v _, s, _, e => .calm ((Calm.refl _ s).execI3cDynamicAddress (viaStatic := v) e)
  | .bar0Access .., s, _, e => .calm ((Calm.refl _ s).execBar0Access e)
  | .lockSet .., s, _, e => .calm ((Calm.refl _ s).execLockSet e)
  | .lockAll .., s, _, e => .calm ((Calm.refl _ s).execLockAll e)
  | .fenceTimeout .., s, _, e => .calm ((Calm.refl _ s).execFenceTimeout e)
  | .secureRegisterAccess .., s, _, e => .calm ((Calm.refl _ s).execSecureRegisterAccess e)
  | .tapInstruction .., s, _, e => .calm ((Calm.refl _ s).execTapInstruction e)
  | .cxlCompletion .., s, _, e => .calm ((Calm.refl _ s).execCxlCompletion e)
  | .holderAnswer .., s, _, e => .calm ((Calm.refl _ s).execHolderAnswer e)
  | .moveSubpartRequest .., s, _, e => .calm ((Calm.refl _ s).execMoveSubpartRequest e)
  | .stackRetrainComplete .., s, _, e => .calm ((Calm.refl _ s).execStackRetrainComplete e)
  | .cxlRetrainDelayExpiry .., s, _, e => .calm ((Calm.refl _ s).execCxlRetrainDelayExpiry e)
  | .resetPulseEnd .., s, _, e => .calm ((Calm.refl _ s).execResetPulseEnd e)
  | .railRegulationTimeout .., s, _, e => .calm ((Calm.refl _ s).execRailRegulationTimeout e)
  | .switchSlot, s, _, e => .calm ((Calm.refl _ s).execSwitchSlot e)
  | .windowStatusRead .., s, _, e => .calm ((Calm.refl _ s).execWindowStatusRead e)

/-- A step on an empty queue lets time pass; another runs the front command. -/
theorem step_course {s t : State} (e : step s = .next t) : ∃ q, Course { s with pending := q } t := by
  unfold step at e
  split at e
  · exact ⟨s.pending, .calm (.next e (Calm.refl _ s).idle)⟩
  next c cs _ => exact ⟨cs, exec_course e⟩

theorem Course.sound {s t : State} (h : Course s t) (hs : Sound s) : Sound t := by
  cases h with
  | calm h => exact h.sound hs
  | leaves _ h => exact h hs
  | passes hstage hmirror hentry hnext =>
    refine ⟨?_, ?_, hmirror hs.mirror⟩
    · obtain h | h | ⟨-, -, h⟩ := hnext
      · exact .inl (by omega)
      · exact .inr h
      · exact h.imp (fun h => Nat.le_trans h (by decide)) id
    · exact hentry.elim (fun h => h ▸ hs.entry) fun h => .inl (by omega)

/-- Settles O4: a step keeps the stages legal and the mirror half in canonical form, by its course. -/
theorem stepKeepsSound : Obligations.StepKeepsSound := by
  intro s t hs e
  obtain ⟨q, hc⟩ := step_course e
  exact hc.sound ⟨hs.stage, hs.entry, hs.mirror⟩

theorem Calm.stageInOrder {s t : State} (h : Calm .loud s t) (ht : t.rst.active = false) :
    t.gen.stage = s.gen.stage ∨ t.gen.stage = stFault := by
  obtain ⟨-, -, h⟩ | ⟨ha, -, -⟩ := h.staysPut_or_isReset
  · exact h
  · exact absurd (ha.symm.trans ht) (by decide)

/-- Settles O5: with no reset in effect before and after, the course is calm or passes one stage on. -/
theorem stagesGoInOrder : Obligations.StagesGoInOrder := by
  intro s t e hs ht
  obtain ⟨q, hc⟩ := step_course e
  cases hc with
  | calm h =>
    obtain h | h := h.stageInOrder ht
    · exact ⟨.inl h, fun hf => h.trans hf⟩
    · exact ⟨.inr (.inr h), fun _ => h⟩
  | leaves ha _ => exact absurd (ha.symm.trans hs) (by decide)
  | passes hle _ _ hnext =>
    have hle : s.gen.stage ≤ 8 := hle
    refine ⟨?_, fun hf => by omega⟩
    obtain h | h | ⟨ha, -, -⟩ := hnext
    · exact .inr (.inl ⟨hle, h⟩)
    · exact .inr (.inr h)
    · exact absurd (ha.symm.trans ht) (by decide)

end Sys2Proof.Machine
end


section
/-! SUPPORT. The step and the completion of every command (O1), and the state after power-on (O3). -/

namespace Sys2Proof.Machine

theorem checked_completes (s : State) (c : Instr) (u : State) :
    ∃ t, checked s c u = .next t ∧ (c.wf = false → t = s) :=
  ⟨_, rfl, fun h => by rw [h]; rfl⟩

/-- A command whose operands can fail to fit is `checked`; every other is always well formed. -/
theorem exec_completes (c : Instr) (s : State) : ∃ t : State, exec c s = .next t ∧ (c.wf = false → t = s) := by
  cases c
  case submissionDoorbell | completionDoorbell | publishHolderSeal | shelfAssign | shelfRevokeEvacuate | shelfRevokeForce
      | shelfOnline | shelfWorldSet | ulpMark | guardBandStart | guardBandExpire | messageArrive | ulpLoad | ulpStore |
      ulpWriteFlag | ulpAtomic | ulpFence | ulpAttach | ulpDetach | mapUpdate | mapGet | loadRsp | atomicRsp | ack |
      fenceAck | attachRsp | nak | resend | drain | mapAck | linkFrame | windowReferenceWrite | cxlMemRequest |
      cellArrive | messageAdmit | mirrorStore | stageAdvance | spdmGetCertificate | powerLimiterSample | thermalSample |
      thermalTrip | neighbourCompare | cxlCompletion | moveSubpartRequest | resetPulseEnd | railRegulationTimeout |
      windowStatusRead => exact checked_completes _ _ _
  all_goals exact ⟨_, rfl, Bool.noConfusion⟩

/-- Settles O1, command by command. -/
theorem stepRunsTheFrontCommand : Obligations.StepRunsTheFrontCommand :=
  ⟨fun _ _ _ => rfl, exec_completes⟩

/-- Settles O3: the reset state's fields, read one by one. -/
theorem resetIsPowerOn : Obligations.ResetIsPowerOn := by
  refine ⟨rfl, rfl, rfl, rfl, rfl, rfl, rfl, rfl, ?orphanHold, rfl, ?pairs, ?sound⟩
  case orphanHold => decide
  case pairs =>
    intro p
    have hreset : State.reset.fld F.tqRingCtlEnable p.val = State.reset.fld F.tqRingCtlEnable 0 := rfl
    have hzero : State.reset.fld F.tqRingCtlEnable 0 = 0 := by decide
    simp [State.flag, hreset, hzero]
  case sound => exact ⟨.inl (Nat.zero_le 9), .inl (Nat.zero_le 9), Memory.wf_reset⟩

end Sys2Proof.Machine
end


section
/-! SUPPORT. What the passing of time writes, part by part, and the idle step (O2; R125, R148, R305, R330, R403, R416). -/

namespace Sys2Proof.Machine

/-- `u` is `s` but for the words of registers and the time counted under throttling. -/
def State.ThrottleCounted (s u : State) : Prop :=
  ∃ r a b, u = { s with regs := r, pwr := { s.pwr with thrNs := a, thermNs := b } }

theorem State.ThrottleCounted.bump {s u : State} (h : s.ThrottleCounted u) (f : FRef) (i j d : Nat) :
    s.ThrottleCounted (u.bump f i j d) := by
  obtain ⟨r, a, b, rfl⟩ := h
  exact ⟨_, a, b, rfl⟩

theorem State.ThrottleCounted.when {s u : State} (h : s.ThrottleCounted u) (c : Bool) {f : State → State}
    (hf : s.ThrottleCounted (f u)) : s.ThrottleCounted (u.when c f) := by
  cases c
  · exact h
  · exact hf

theorem throttleTime_counts (s : State) (dt : Nat) : s.ThrottleCounted (s.throttleTime dt) := by
  unfold State.throttleTime
  extract_lets a b _ s₁ s₂
  have h₁ : s.ThrottleCounted s₁ := ⟨s.regs, a % 1000000, b % 1000000, rfl⟩
  have h₂ : s.ThrottleCounted s₂ := h₁.when _ (h₁.bump ..)
  exact h₂.when _ (h₂.bump ..)

theorem foldS_tollTime_eq (s : State) (dt : Nat) (l : List Nat) :
    ∃ c, foldS (fun s t => s.tollTime dt t) s l = { s with toll := { s.toll with cnt := c } } := by
  induction l generalizing s with
  | nil => exact ⟨s.toll.cnt, rfl⟩
  | cons t l ih =>
    obtain ⟨c, hc⟩ := ih (s.tollTime dt t)
    exact ⟨c, hc⟩

theorem secondTime_eq (s : State) (dt : Nat) :
    s.secondTime dt = { s with fab :=
      if s.time.mono / 1000000000 = (s.time.mono + dt) / 1000000000 then s.fab
      else { s.fab with ports := s.fab.ports.mapV (fun _ (p : PortSt) => { p with vsec := 0 }) } } := by
  unfold State.secondTime
  split <;> rfl

/-- Time writes its two clocks, the credits, the throttling times and their counts, the toll, and the ports' counts of the
second, and nothing else. -/
theorem advance_eq (s : State) {dt : Nat} (hdt : dt ≠ 0) : ∃ q r a b c, s.advance dt =
    { s with
      sw := { s.sw with queues := q }, regs := r, pwr := { s.pwr with thrNs := a, thermNs := b },
      fab := if s.time.mono / 1000000000 = (s.time.mono + dt) / 1000000000 then s.fab
        else { s.fab with ports := s.fab.ports.mapV (fun _ (p : PortSt) => { p with vsec := 0 }) },
      toll := { s.toll with cnt := c },
      time := { s.time with mono := s.time.mono + dt, wall := s.time.wall + dt } } := by
  obtain ⟨r, a, b, hthrottle⟩ := throttleTime_counts (s.shaperTime dt) dt
  unfold State.advance
  simp only [if_neg hdt, hthrottle, secondTime_eq]
  obtain ⟨c, hc⟩ := foldS_tollTime_eq ((s.shaperTime dt).throttleTime dt |>.secondTime dt) dt
    ((s.shaperTime dt).throttleTime dt |>.secondTime dt).tolled
  rw [hthrottle, secondTime_eq] at hc
  rw [hc]
  exact ⟨_, r, a, b, c, rfl⟩

/-- Settles O2: an empty queue lets a tick pass, and `advance_eq` says what that writes. -/
theorem idleStepLetsATickPass : Obligations.IdleStepLetsATickPass := by
  intro s hs
  obtain ⟨q, r, a, b, c, ht⟩ := advance_eq s (dt := 8) (by decide)
  refine ⟨s.advance 8, ?_, advance_time s 8, ?_⟩
  · simp only [step, hs, idle]
  · rw [ht]
    exact ⟨rfl, ⟨c, rfl⟩, ⟨q, rfl⟩, ⟨a, b, rfl⟩, rfl⟩

end Sys2Proof.Machine
end


section
/-! SUPPORT. What the reset controller writes, and the reset sources' effects (O58; R15, R16, R385–R397). -/

namespace Sys2Proof.Machine

/-! ### Bits of a word -/

theorem bit_toNat {m : Nat} (w : BitVec m) (n : Nat) : bit w.toNat n = w.getLsbD n :=
  (Nat.testBit_eq_decide_div_mod_eq).symm

theorem bit_withBit {b : Nat} (hb : b < 8) (w : BitVec 8) (v : Bool) : bit (withBit w b v).toNat b = v := by
  rw [bit_toNat]
  cases v <;> simp [withBit, hb]

theorem bit_or_shiftLeft {q : Nat} (hq : q < 4) (w : BitVec 4) : bit (w ||| 1#4 <<< q).toNat q = true := by
  rw [bit_toNat]
  simp [hq]

/-! ### Alerts, records and the stop at FAULT (R395, R413) -/

theorem alertFrom_eq (s old : State) : ∃ o, s.alertFrom old = { s with out := o } := by
  unfold State.alertFrom
  extract_lets _ u
  have hu : ∃ o, u = { s with out := o } := by
    dsimp only [u, State.when]
    split
    · exact ⟨_, rfl⟩
    · exact ⟨s.out, rfl⟩
  obtain ⟨o, hu⟩ := hu
  rw [hu]
  dsimp only [State.when]
  split
  · exact ⟨_, rfl⟩
  · exact ⟨o, rfl⟩

theorem latchAlert_eq (s : State) (n : Nat) :
    ∃ o, s.latchAlert n = { s with out := o, gen := { s.gen with alerts := s.gen.alerts ||| (1#12 <<< n) } } :=
  alertFrom_eq _ s

theorem bbxQueue_eq (s : State) (r : BbxRec) : ∃ w b, s.bbxQueue r = { s with regs := w, bbx := b } := by
  unfold State.bbxQueue
  extract_lets q low q'
  split
  · exact ⟨s.regs, _, rfl⟩
  · split
    · exact ⟨_, s.bbx, rfl⟩
    · exact ⟨_, _, rfl⟩

theorem bbxPulse_eq (s : State) : ∃ b, s.bbxPulse = { s with bbx := b } := by
  unfold State.bbxPulse
  split
  · exact ⟨_, rfl⟩
  · exact ⟨s.bbx, rfl⟩

/-- A record writes the strongbox and its count of dropped records only. -/
theorem bbxLog_eq (s : State) (kind cls index : Nat) (data : List Byte) (ident tenant job position : Nat) :
    ∃ w b, s.bbxLog kind cls index data ident tenant job position = { s with regs := w, bbx := b } := by
  obtain ⟨w, b, h⟩ := bbxQueue_eq s (s.bbxForm kind cls index data ident tenant job position)
  obtain ⟨b', h'⟩ := bbxPulse_eq { s with regs := w, bbx := b }
  exact ⟨w, b', by rw [State.bbxLog, h, h']⟩

/-- The stop at FAULT writes the stage, its time and cause, the record and the alert, and nothing else. -/
theorem stopAt_eq (s : State) (cause : Nat) : ∃ o w b, s.stopAt cause =
    { s with out := o, regs := w, bbx := b,
             gen := { s.gen with stage := stFault, stageAt := s.now, faultCause := cause, alerts := s.gen.alerts ||| (1#12 <<< 0) } } := by
  unfold State.stopAt
  extract_lets old u
  obtain ⟨w, b, hu⟩ : ∃ w b, u = { s with regs := w, bbx := b } := bbxLog_eq ..
  obtain ⟨o, ho⟩ := latchAlert_eq { u with gen := { u.gen with stage := stFault, stageAt := u.now, faultCause := cause } } 0
  exact ⟨o, w, b, by rw [ho, hu]; rfl⟩

/-! ### The reset controller (R385–R389) -/

theorem driveOut_eq (s : State) (v : Bool) : ∃ o, s.driveOut v = { s with out := o, rst := { s.rst with rstOutN := v } } := by
  unfold State.driveOut
  split
  next h => exact ⟨s.out, by rw [← h]⟩
  · exact ⟨_, rfl⟩

theorem drivePower_eq (s : State) : ∃ o p, s.drivePower = { s with out := o, rst := { s.rst with pwrGood := p } } := by
  unfold State.drivePower
  extract_lets v
  split
  · exact ⟨s.out, s.rst.pwrGood, rfl⟩
  · exact ⟨_, _, rfl⟩

/-- What a source's level clears, its count included (R386). -/
def State.levelReset (s : State) (b : Nat) : State :=
  let lvl := s.levelOf b
  let s := s.when (lvl = 0) (fun s => s.bump F.rstCntWarm)
  let s := s.when (lvl = 1 || lvl = 2) (fun s => s.bump F.rstCntCold)
  if lvl = 3 then s.powerOn else if lvl = 2 then s.coldReset.loseHbm else if lvl = 1 then s.coldReset else s.hubReset

/-- The stage a source enters: the lowest so far (R21). -/
def State.entryFor (s : State) (b : Nat) : Nat :=
  if s.rst.active then min s.rst.entryMin (entryOf (s.levelOf b)) else entryOf (s.levelOf b)

/-- A source that takes effect clears what its level clears, and a reset is in effect at its entry stage; RST_OUT_N is low after all
but a warm one. -/
theorem takeReset_eq (s : State) (b : Nat) : ∃ o l v p, (s.levelOf b ≠ 0 → v = false) ∧ s.takeReset b =
    { s.levelReset b with
      out := o,
      rst := { (s.levelReset b).rst with
        active := true, asserted := s.rst.asserted, held := withBit s.rst.held b false, last := l, entryMin := s.entryFor b,
        beganAt := (s.levelReset b).now, releasedAt := none, rstOutN := v, pwrGood := p },
      gen := { (s.levelReset b).gen with stage := s.entryFor b, stageAt := (s.levelReset b).now } } := by
  unfold State.takeReset
  extract_lets lvl last entry asserted held s₁ s₂ s₃ _ _ u
  obtain ⟨o, hout⟩ := driveOut_eq u false
  obtain ⟨o', v, hv, hw⟩ : ∃ o' v, (lvl ≠ 0 → v = false) ∧
      u.when (lvl ≠ 0 || u.flag F.rstCtlOutWarm) (fun s => s.driveOut false) =
        { u with out := o', rst := { u.rst with rstOutN := v } } := by
    dsimp only [State.when]
    split
    · exact ⟨o, false, fun _ => rfl, hout⟩
    next h => exact ⟨u.out, u.rst.rstOutN, fun hl => absurd (by simp [hl]) h, rfl⟩
  rw [hw]
  obtain ⟨o'', p, hp⟩ := drivePower_eq { u with out := o', rst := { u.rst with rstOutN := v } }
  exact ⟨o'', withBit last b true, v, p, hv, hp⟩

/-- What holds once a source of a level has taken effect where none was (R21, R385). -/
structure State.InReset (t : State) (b lvl : Nat) : Prop where
  active : t.rst.active = true
  stage : t.gen.stage = entryOf lvl
  outLow : lvl ≠ 0 → t.rst.rstOutN = false
  source : bit t.rst.asserted.toNat b = true

theorem takeReset_asserted (s : State) (b : Nat) : (s.takeReset b).rst.asserted = s.rst.asserted := by
  obtain ⟨o, l, v, p, -, h⟩ := takeReset_eq s b
  rw [h]

theorem takeReset_active (s : State) (b : Nat) : (s.takeReset b).rst.active = true := by
  obtain ⟨o, l, v, p, -, h⟩ := takeReset_eq s b
  rw [h]

/-- An asserted source's bit reads 1, whether its effect is held or not. -/
theorem assertSource_asserted (s : State) {b : Nat} (hb : b < 8) (cold pulse powerLost : Bool) :
    bit (s.assertSource b cold pulse powerLost).rst.asserted.toNat b = true := by
  unfold State.assertSource
  extract_lets _ u
  have hu : bit u.rst.asserted.toNat b = true := bit_withBit hb ..
  split
  · exact hu
  · rwa [takeReset_asserted]

/-- Without a strongbox pulse in progress, and for the loss of power always, the source takes effect at once. -/
theorem assertSource_takes (s : State) (b : Nat) (cold pulse powerLost : Bool) (h : (s.bbx.pulse.isSome && !powerLost) = false) :
    s.assertSource b cold pulse powerLost = ({ s with rst := { s.rst with
      asserted := withBit s.rst.asserted b true, cold := withBit s.rst.cold b cold,
      pulseAt := if pulse then Tbl.ins b (s.now + 1000) s.rst.pulseAt else s.rst.pulseAt } } : State).takeReset b := by
  unfold State.assertSource
  extract_lets u
  exact if_neg (by simpa using h)

theorem assertSource_inReset {s : State} (hpulse : s.bbx.pulse = none) (hactive : s.rst.active = false) {b lvl : Nat}
    (hb : b < 8) (cold pulse : Bool)
    (hlvl : ∀ u : State, u.rst.cold = withBit s.rst.cold b cold → u.levelOf b = lvl) :
    (s.assertSource b cold pulse false).InReset b lvl := by
  have hsrc := assertSource_asserted s hb cold pulse false
  rw [assertSource_takes s b cold pulse false (by simp [hpulse])] at hsrc ⊢
  generalize hu : ({ s with rst := _ } : State) = u at hsrc ⊢
  have hl : u.levelOf b = lvl := hlvl u (by rw [← hu])
  obtain ⟨o, l, v, p, hv, h⟩ := takeReset_eq u b
  rw [hl] at hv
  rw [h] at hsrc ⊢
  refine ⟨rfl, ?_, hv, hsrc⟩
  have ha : u.rst.active = false := by rw [← hu]; exact hactive
  simp [State.entryFor, ha, hl]

theorem releaseSource_eq (s : State) (b : Nat) : ∃ at_, s.releaseSource b = { s with rst := { s.rst with
    asserted := withBit s.rst.asserted b false, pulseAt := s.rst.pulseAt.del b, releasedAt := at_ } } := by
  unfold State.releaseSource State.checkRelease
  extract_lets u
  split
  · exact ⟨_, rfl⟩
  · exact ⟨s.rst.releasedAt, rfl⟩

/-! ### Quadrants (R15, R391) -/

theorem stopAt_spine (s : State) (cause : Nat) : (s.stopAt cause).spine = { s.spine with stage := stFault } := by
  obtain ⟨o, w, b, h⟩ := stopAt_eq s cause
  rw [h]

/-- A copy of the shared structures is lost; with the last one bring-up or the running module stops at FAULT (R15; log entry 143). -/
def Spine.loseCopy (x : Spine) (q : Nat) : Spine :=
  { x with
    copies := x.copies &&& ~~~(1#4 <<< q),
    stage := if x.copies ≠ 0 ∧ x.copies &&& ~~~(1#4 <<< q) = 0 ∧ 3 < x.stage ∧ x.stage ≠ 15 then 15 else x.stage }

theorem loseCopy_spine (s : State) (q : Nat) : (s.loseCopy q).spine = s.spine.loseCopy q := by
  unfold State.loseCopy State.when
  extract_lets had _ u
  split
  next h =>
    obtain ⟨⟨⟨hhad, hnone⟩, hmemory⟩, hfault⟩ := by simpa only [Bool.and_eq_true, decide_eq_true_eq] using h
    rw [stopAt_spine, Spine.loseCopy, if_pos ⟨hhad, hnone, hmemory, hfault⟩]
    rfl
  next h =>
    rw [Spine.loseCopy, if_neg]
    rintro ⟨hhad, hnone, hmemory, hfault⟩
    exact h (by simpa only [Bool.and_eq_true, decide_eq_true_eq] using ⟨⟨⟨hhad, hnone⟩, hmemory⟩, hfault⟩)

theorem downQuad_spine (s : State) (q : Nat) : (s.downQuad q).spine = s.spine.loseCopy q := by
  unfold State.downQuad
  extract_lets u
  have hu : Calm .quiet s (u.loseSlices fun n => n / 8 = q) := ((Calm.refl _ s).foldS fun h => h.holdPort).loseSlices
  rw [loseCopy_spine, hu.spine_eq]

theorem resetQuad_spine (s : State) (q : Nat) :
    (s.resetQuad q).spine = { s.spine with quads := s.rst.quads ||| 1#4 <<< q }.loseCopy q := by
  unfold State.resetQuad
  extract_lets m s₁ _ s₂
  have h₂ : s₂.spine = { s₁.spine with quads := s₁.rst.quads ||| 1#4 <<< q } := rfl
  rw [downQuad_spine, h₂, State.spine, State.bump_gen, State.bump_rst, State.bump_pwr]

/-! ### Pins and internal sources (R385, R388) -/

theorem takeReset_powerOn (s : State) (b : Nat) (h : s.levelOf b = 3) :
    (s.takeReset b).ldg.entries = [] ∧ (s.takeReset b).regs = [] ∧ (s.takeReset b).bbx.ring = s.bbx.ring := by
  obtain ⟨o, l, v, p, -, ht⟩ := takeReset_eq s b
  have hu : s.levelReset b = s.powerOn := by simp [State.levelReset, State.when, h]
  rw [ht, hu]
  exact ⟨rfl, rfl, rfl⟩

theorem porst_takesEffect {s : State} (hpulse : s.bbx.pulse = none) (hactive : s.rst.active = false) :
    ∃ t : State, exec .porstNAssert s = .next t ∧ t.InReset 0 3 ∧ t.ldg.entries = [] ∧ t.regs = [] ∧
      t.bbx.ring = s.bbx.ring := by
  refine ⟨_, rfl, assertSource_inReset ?_ ?_ (by decide) true false fun _ _ => rfl, ?_⟩
  · exact hpulse
  · exact hactive
  rw [assertSource_takes _ _ _ _ _ (by simp [hpulse])]
  exact takeReset_powerOn _ 0 rfl

theorem source_held {s : State} {v : Bool} (hpulse : s.bbx.pulse = some v) {b : Nat} (hb : b < 8) (cold pulse : Bool) :
    (s.assertSource b cold pulse false).gen = s.gen ∧ (s.assertSource b cold pulse false).rst.active = s.rst.active ∧
      bit (s.assertSource b cold pulse false).rst.held.toNat b = true := by
  unfold State.assertSource
  extract_lets _ u
  rw [if_pos (by simp [u, hpulse])]
  exact ⟨rfl, rfl, bit_withBit hb _ true⟩

theorem execMramPulseEnd_eq {s : State} {v : Bool} (hpulse : s.bbx.pulse = some v) : execMramPulseEnd s =
    (let u := foldS (fun s b => s.takeReset b) s.bbxPulseEnd ((List.range 8).filter (fun b => bit s.rst.held.toNat b))
     .next ((foldS (fun s q =>
        let s := s.resetQuad q
        if bit s.rst.asserted.toNat 5 then s
        else { s with rst := { s.rst with quadAt := Tbl.ins q (s.now + s.stretch) s.rst.quadAt } }) u
          ((List.range 4).filter (fun q => bit s.rst.quadWait.toNat q))).checkRelease)) := by
  rw [execMramPulseEnd, if_neg (by simp [hpulse])]

theorem criticalEcc_resetsQuad {s : State} (hpulse : s.bbx.pulse = none) (q : Quad) :
    ∃ t : State, exec (.criticalEccError (some q)) s = .next t ∧
      t.spine = { s.spine with quads := s.rst.quads ||| 1#4 <<< q.val }.loseCopy q.val := by
  refine ⟨_, rfl, ?_⟩
  dsimp only
  rw [if_neg (by simp [hpulse]), resetQuad_spine]

/-! ### Release, stretch and the end of a pulse (R387, R390) -/

theorem releaseSource_asserted (s : State) {b : Nat} (hb : b < 8) : bit (s.releaseSource b).rst.asserted.toNat b = false := by
  obtain ⟨_, h⟩ := releaseSource_eq s b
  rw [h]
  exact bit_withBit hb _ false

theorem execResetPulseEnd_releases {s : State} {b t : Nat} (hb : b < 8) (hquad : b ≠ 5) (ht : s.rst.pulseAt.look b = some t) :
    ∃ u : State, exec (.resetPulseEnd b) s = .next u ∧
      bit u.rst.asserted.toNat b = false ∧ u.rst.pulseAt.look b = none ∧ t ≤ u.now := by
  refine ⟨_, checked_of_wf (i := .resetPulseEnd b) (decide_eq_true hb) s _, ?_⟩
  dsimp only
  rw [ht]
  dsimp only
  rw [if_neg hquad]
  refine ⟨releaseSource_asserted _ hb, ?_⟩
  obtain ⟨_, h⟩ := releaseSource_eq _ b
  rw [h]
  exact ⟨by simp [Tbl.look_del], le_waitTill_now s t⟩

theorem bump_word (s : State) (f : FRef) (i j d : Nat) (l : Loc) (h : l.addr ≠ (⟨f.reg, i, j⟩ : Loc).addr) :
    (s.bump f i j d).word l = s.word l := s.word_setWord_ne _ l _ h

/-- Only the two counts of time under throttling are registers that time writes (R403). -/
theorem advance_word (s : State) (dt : Nat) (l : Loc) (hpower : l.addr ≠ (⟨F.pwrCntThrottleMs.reg, 0, 0⟩ : Loc).addr)
    (htherm : l.addr ≠ (⟨F.pwrCntThermalMs.reg, 0, 0⟩ : Loc).addr) : (s.advance dt).word l = s.word l := by
  have hthrottle : ∀ s : State, (s.throttleTime dt).word l = s.word l := fun s => by
    unfold State.throttleTime
    extract_lets a b _ u
    rw [State.when_keeps (fun s => s.word l) _ fun s => bump_word s _ _ _ _ l htherm,
      State.when_keeps (fun s => s.word l) _ fun s => bump_word s _ _ _ _ l hpower]
    rfl
  have htoll : ∀ (s : State) ks, (foldS (fun s t => s.tollTime dt t) s ks).word l = s.word l :=
    foldS_keeps (fun s => s.word l) _ fun _ _ => rfl
  have hsteps : (((s.shaperTime dt).throttleTime dt).secondTime dt).word l = s.word l := by
    rw [secondTime_eq]
    exact hthrottle (s.shaperTime dt)
  unfold State.advance
  split
  · exact htoll s _
  · exact (htoll _ _).trans hsteps

theorem waitTill_stretch (s : State) (n : Nat) : (s.waitTill n).stretch = s.stretch := by
  unfold State.stretch State.fld
  rw [State.waitTill, advance_word _ _ _ (by decide) (by decide)]

/-- Waiting releases no port. -/
theorem waitTill_blockAt {s : State} (n : Nat) (h : ∀ x ∈ s.fab.ports, x.2.blockAt = none) :
    ∀ x ∈ (s.waitTill n).fab.ports, x.2.blockAt = none := by
  by_cases hn : 8 * ceilDiv n 8 - s.time.mono = 0
  · rw [State.waitTill, hn]
    exact fun x hx => h x hx
  · obtain ⟨q, r, a, b, c, hs⟩ := advance_eq s hn
    rw [State.waitTill, hs]
    dsimp only
    split
    · exact h
    · intro x hx
      obtain ⟨y, hy, rfl⟩ := List.mem_map.mp hx
      exact h y hy

theorem execResetStretchExpiry_leaves {s : State} {t : Nat} (hactive : s.rst.active = true) (hat : s.rst.releasedAt = some t)
    (hends : s.stretchEnds = [t + s.stretch]) (hstks : s.rst.hbmAt = []) (hquads : s.rst.quadAt = [])
    (hports : ∀ x ∈ s.fab.ports, x.2.blockAt = none) :
    execResetStretchExpiry s = .next ((s.waitTill (t + s.stretch)).leaveReset) := by
  unfold execResetStretchExpiry
  split
  next h => exact nomatch hends.symm.trans h
  next a rest h =>
  obtain ⟨rfl, rfl⟩ := List.cons.inj (hends.symm.trans h)
  refine congrArg Host.Outcome.next ?_
  extract_lets u due quads stks ports whole s₂ s₃ s₄
  have hrst : u.rst = s.rst := waitTill_rst s _
  have hquads : quads = [] := by simp only [quads, hrst, hquads, List.filter_nil, List.map_nil]
  have hstks : stks = [] := by simp only [stks, hrst, hstks, List.filter_nil, List.map_nil]
  have hports : ports = [] :=
    List.map_eq_nil_iff.mpr (List.filter_eq_nil_iff.mpr fun x hx => by simp [waitTill_blockAt _ hports x hx])
  have hwhole : whole = true := by
    have hdue : t + s.stretch ≤ u.now := le_waitTill_now s _
    have hstretch : u.stretch = s.stretch := waitTill_stretch s _
    simpa only [whole, hrst, hactive, hat, due, decide_eq_true_eq, hstretch] using hdue
  have hs₄ : s₄ = u := by simp only [s₄, s₃, s₂, hquads, hstks, hports, foldS_nil]
  rw [if_pos hwhole, hs₄]
  rfl

/-! ### Supplies, watchdog and trips (R392–R397) -/

theorem takeReset_powerLost {s : State} {b : Nat} (h : s.levelOf b = 2) :
    (s.takeReset b).ldg.entries = [] ∧ (s.takeReset b).rgn = {} ∧ (s.takeReset b).pwr.good48 = s.pwr.good48 := by
  obtain ⟨o, l, v, p, -, ht⟩ := takeReset_eq s b
  have hu : s.levelReset b = (s.bump F.rstCntCold).coldReset.loseHbm := by simp [State.levelReset, State.when, h]
  have hquiet : Calm .quiet s (s.levelReset b) := hu ▸ (Calm.refl _ s).bump.coldReset.loseHbm
  rw [ht]
  refine ⟨?_, ?_, congrArg Spine.good48 hquiet.spine_eq⟩ <;> rw [hu] <;> rfl

/-- The loss of power resets at once, whatever the strongbox does (R388). -/
theorem assertSource_powerLost (s : State) :
    let t := s.assertSource 7 true false true
    t.rst.active = true ∧ t.pwr.good48 = s.pwr.good48 ∧ t.ldg.entries = [] ∧ t.rgn = {} ∧
      bit t.rst.asserted.toNat 7 = true := by
  have hsrc := assertSource_asserted s (b := 7) (by decide) true false true
  rw [assertSource_takes _ _ _ _ _ (Bool.and_false _)] at hsrc ⊢
  obtain ⟨hentries, hrgn, hgood⟩ := takeReset_powerLost (b := 7) rfl
  exact ⟨takeReset_active .., hgood, hentries, hrgn, hsrc⟩

theorem power48vLost_resets (s : State) (mv : BitVec 16) : ∃ t : State, exec (.power48vLost mv) s = .next t ∧
    t.rst.active = true ∧ t.pwr.good48 = false ∧ t.ldg.entries = [] ∧ t.rgn = {} ∧ bit t.rst.asserted.toNat 7 = true := by
  refine ⟨_, rfl, ?_⟩
  extract_lets old _ u
  obtain ⟨o, h⟩ := alertFrom_eq (u.assertSource 7 true false true) old
  rw [h]
  exact assertSource_powerLost u

theorem power48vGood_releases (s : State) (mv : BitVec 16) : ∃ t : State, exec (.power48vGood mv) s = .next t ∧
    t.pwr.good48 = true ∧ t.pwr.mv48 = mv.toNat ∧ bit t.rst.asserted.toNat 7 = false ∧ t.gen.stage = s.gen.stage := by
  refine ⟨_, rfl, ?_⟩
  extract_lets old _ u _ v
  obtain ⟨hgood, hmv, hstage⟩ : v.pwr.good48 = true ∧ v.pwr.mv48 = mv.toNat ∧ v.gen.stage = s.gen.stage := by
    dsimp only [v]
    split <;> exact ⟨rfl, rfl, rfl⟩
  clear_value v
  obtain ⟨o, h⟩ := alertFrom_eq (v.releaseSource 7) old
  obtain ⟨_, hr⟩ := releaseSource_eq v 7
  rw [h, hr]
  exact ⟨hgood, hmv, bit_withBit (by decide) _ false, hstage⟩

theorem auxPowerGood_releases {s : State} (hlow : s.rst.porLow = false) (mv : BitVec 13) (i3c : BitVec 2) (scan : Bool) :
    ∃ t : State, exec (.auxPowerGood mv i3c scan) s = .next t ∧
      t.pwr.auxGood = true ∧ t.pwr.straps = i3c ∧ t.pwr.bscanN = scan ∧ bit t.rst.asserted.toNat 0 = false := by
  refine ⟨_, rfl, ?_⟩
  extract_lets old _ _ u
  obtain ⟨o, h⟩ := alertFrom_eq (u.releaseSource 0) old
  obtain ⟨_, hr⟩ := releaseSource_eq u 0
  rw [State.when, if_pos (by simpa using hlow), h, hr]
  exact ⟨rfl, rfl, rfl, bit_withBit (by decide) _ false⟩

theorem execWatchdogExpiry_eq {s : State} (henable : s.flag F.rstWdtEnable = true) (silent : BitVec 16) :
    ∃ (u : State) (cold : Bool), exec (.watchdogExpiry silent) s = .next (u.assertSource 4 cold true false) :=
  ⟨_, _, congrArg Host.Outcome.next (if_neg (by simp [henable]))⟩

theorem watchdogExpiry_asserts {s : State} (henable : s.flag F.rstWdtEnable = true) (silent : BitVec 16) :
    ∃ t : State, exec (.watchdogExpiry silent) s = .next t ∧ bit t.rst.asserted.toNat 4 = true := by
  obtain ⟨u, cold, h⟩ := execWatchdogExpiry_eq henable silent
  exact ⟨_, h, assertSource_asserted u (by decide) ..⟩

theorem thermalTrip_asserts {s : State} (hnone : bit s.rst.asserted.toNat 6 = false) {idx : Nat} {deg : Int} (hidx : idx < 4)
    (hlow : 115 ≤ deg) (hhigh : deg ≤ 127) :
    ∃ t : State, exec (.thermalTrip false idx deg) s = .next t ∧ bit t.rst.asserted.toNat 6 = true := by
  have hdeg : degOk deg = true := by simp [degOk]; omega
  have hwf : (Instr.thermalTrip false idx deg).wf = true := (Bool.and_eq_true _ _).mpr ⟨decide_eq_true hidx, hdeg⟩
  refine ⟨_, checked_of_wf hwf s _, ?_⟩
  rw [if_neg (by simp [hnone]; omega)]
  exact assertSource_asserted _ (by decide) ..

/-- A stack that is training, its reset over and the module past MEMORY, is taken back by the end of its training (R390). -/
theorem retrain_applies {s : State} {stk : Stack} (hst : (s.stk.rd {} stk.val).st = 0)
    (hheld : s.rst.hbmAt.look stk.val = none) (hblock : bit (s.fld F.rstBlkHbmAssert) stk.val = false)
    (hactive : s.rst.active = false) (hstage : 4 ≤ s.gen.stage) :
    ¬ (decide ((s.stk.rd {} stk.val).st ≠ 0) || (s.rst.hbmAt.look stk.val).isSome || bit (s.fld F.rstBlkHbmAssert) stk.val ||
      s.rst.active || decide (s.gen.stage < 4)) = true := by
  rw [hst, hheld, hblock, hactive]
  simpa using hstage

theorem downQuad_fault {s : State} {q : Nat} : (s.downQuad q).pwr.fault = s.pwr.fault := by
  have h := congrArg Spine.fault (downQuad_spine s q)
  dsimp only [State.spine, Spine.of, Spine.loseCopy] at h
  exact h

theorem stackRetrainComplete_fails {s : State} {stk : Stack} (h : ¬ (decide ((s.stk.rd {} stk.val).st ≠ 0) ||
      (s.rst.hbmAt.look stk.val).isSome || bit (s.fld F.rstBlkHbmAssert) stk.val || s.rst.active ||
      decide (s.gen.stage < 4)) = true) :
    ∃ t : State, exec (.stackRetrainComplete stk false) s = .next t ∧ bit t.pwr.fault.toNat (stackQuad stk.val) = true := by
  refine ⟨_, rfl, ?_⟩
  rw [if_neg h, if_neg (by decide)]
  extract_lets u q _ v
  have hq : q < 4 := Nat.div_lt_of_lt_mul stk.isLt
  obtain ⟨w, b, hlog⟩ := bbxLog_eq v 0x05 4 q (leBytes 1 0) 0 0 0xFFFF 0
  obtain ⟨o, halert⟩ := latchAlert_eq { v with regs := w, bbx := b } 7
  rw [downQuad_fault, hlog, halert]
  exact bit_or_shiftLeft hq s.pwr.fault

/-- Settles O58: each source asserts its bit and takes effect as `takeReset_eq` says, or is held; releases, stretches and pulse ends
follow the reset controller's equations. -/
theorem resetsTakeEffect : Obligations.ResetsTakeEffect := by
  intro s
  refine ⟨fun hpulse hactive => ?_, fun b hpulse => ?_, fun hpulse q => ?_, ⟨rfl, rfl, fun haux => ?_⟩,
    fun hactive t hat hends hstks hquads hports _ => execResetStretchExpiry_leaves hactive hat hends hstks hquads hports,
    fun b t hb hquad ht => execResetPulseEnd_releases hb hquad ht,
    fun mv => ⟨power48vLost_resets s mv, power48vGood_releases s mv⟩,
    fun mv i3c scan hlow => auxPowerGood_releases hlow mv i3c scan,
    fun _ henable silent => watchdogExpiry_asserts henable silent,
    fun hnone idx deg hidx hlow hhigh => thermalTrip_asserts hnone hidx hlow hhigh, fun stk hst hheld hblock hactive hstage => ?_⟩
  · obtain ⟨t, ht, hreset, hentries, hregs, hring⟩ := porst_takesEffect hpulse hactive
    have hmrst := assertSource_inReset hpulse hactive (b := 1) (lvl := 1) (by decide) true false fun _ _ => rfl
    have hwrst := assertSource_inReset hpulse hactive (b := 2) (lvl := 0) (by decide) false false fun _ _ => rfl
    have hecc := assertSource_inReset hpulse hactive (b := 5) (lvl := 1) (by decide) true true fun u hu => by
      simp [State.levelOf, hu, bit_withBit, b2n]
    exact ⟨⟨t, ht, hreset.active, hreset.stage, hreset.outLow (by decide), hreset.source, hentries, hregs, hring⟩,
      ⟨_, rfl, hmrst.active, hmrst.stage, hmrst.outLow (by decide), hmrst.source⟩,
      ⟨_, rfl, hwrst.active, hwrst.stage, hwrst.source⟩, ⟨_, rfl, hecc.active, hecc.stage, hecc.source⟩⟩
  · obtain ⟨hgen, hactive, hheld⟩ := source_held hpulse (b := 1) (by decide) true false
    obtain ⟨hgen', -, hheld'⟩ := source_held hpulse (b := 2) (by decide) false false
    exact ⟨⟨_, rfl, hgen, hactive, hheld⟩, ⟨_, rfl, hgen', hheld'⟩, execMramPulseEnd_eq hpulse⟩
  · obtain ⟨t, ht, hspine⟩ := criticalEcc_resetsQuad hpulse q
    simp only [State.spine, Spine.of, Spine.loseCopy, Spine.mk.injEq] at hspine
    obtain ⟨hstage, hactive, -, hcopies, hquads, -⟩ := hspine
    exact ⟨t, ht, hactive, hquads ▸ bit_or_shiftLeft q.isLt _, hcopies, hcopies ▸ hstage⟩
  · obtain ⟨_, h⟩ := releaseSource_eq { s with rst := { s.rst with porLow := false } } 0
    refine ⟨_, congrArg Host.Outcome.next (if_pos haux), ?_⟩
    rw [h]
    exact ⟨rfl, bit_withBit (by decide) _ false⟩
  · have h := retrain_applies hst hheld hblock hactive hstage
    refine ⟨congrArg Host.Outcome.next ?_, stackRetrainComplete_fails h⟩
    rw [if_neg h, if_pos rfl]

end Sys2Proof.Machine
end


section
/-! SUPPORT. Attestation requests and the commands of the bring-up stages (O57; R20, R372, R381, R394, R395). -/

namespace Sys2Proof.Machine

/-! ### Attestation (R372, R381) -/

theorem spdmAsk_right {s : State} {v : SpdmPath} (hopen : s.spdmOpen v = true) {ok : Bool} (hok : ok = true) (code item : Nat)
    (f : SpdmSt → SpdmSt) : s.spdmAsk v ok code item f = (s.modSpdm v f).spdmAnswer v code item := by
  rw [State.spdmAsk, if_neg (by simp [hopen]), if_pos hok]

theorem spdmAsk_wrong {s : State} {v : SpdmPath} (hopen : s.spdmOpen v = true) {ok : Bool} (hok : ¬ ok = true) (code item : Nat)
    (f : SpdmSt → SpdmSt) : s.spdmAsk v ok code item f = s.spdmAnswer v spdmError item := by
  rw [State.spdmAsk, if_neg (by simp [hopen]), if_neg hok]

/-- On an open transport a request whose place is right changes the connection and is answered, another is answered with an
error. -/
theorem spdmAsk_of_open {s : State} {v : SpdmPath} (hopen : s.spdmOpen v = true) {ok : Bool} {p : Prop} [Decidable p]
    (hp : ok = true ↔ p) (code item : Nat) (f : SpdmSt → SpdmSt) :
    (.next (s.spdmAsk v ok code item f) : Host.Outcome State Fault Refusal) =
      if p then .next ((s.modSpdm v f).spdmAnswer v code item) else .next (s.spdmAnswer v spdmError item) := by
  split
  next h => rw [spdmAsk_right hopen (hp.mpr h)]
  next h => rw [spdmAsk_wrong hopen (h ∘ hp.mp)]

/-- What a good exchange is (R372; log entry 103). -/
def State.FinishFine (s : State) (via : SpdmPath) (root : Option (BitVec 384)) (ok : Bool) : Prop :=
  (s.spdm via).exchanged = true ∧ ok = true ∧ (via ≠ .i3c ∨ (∃ r, root = some r ∧
    (s.sec.root = some r ∨ s.sec.root = none ∨ (s.spdm via).session = true)))

theorem rootOk_or_inside_iff (s : State) (session : Bool) (root : Option (BitVec 384)) :
    (s.rootOk root || session && root.isSome) = true ↔
      ∃ r, root = some r ∧ (s.sec.root = some r ∨ s.sec.root = none ∨ session = true) := by
  cases root with
  | none => simp [State.rootOk]
  | some r =>
    cases he : s.sec.root with
    | none => simp [State.rootOk, he]
    | some e => simp [State.rootOk, he, eq_comm (a := r) (b := e)]

theorem finishGood_iff (s : State) (via : SpdmPath) (root : Option (BitVec 384)) (ok : Bool) :
    ((s.spdm via).exchanged && ok && (via ≠ .i3c || s.rootOk root || (s.spdm via).session && root.isSome)) = true ↔
      s.FinishFine via root ok := by
  rw [Bool.or_assoc, Bool.and_eq_true, Bool.and_eq_true, Bool.or_eq_true, rootOk_or_inside_iff, decide_eq_true_eq, and_assoc]
  rfl

/-- Where no root is enrolled by it, an exchange only opens the session or is answered with an error. -/
theorem execSpdmFinish_keepsRoot {s : State} {via : SpdmPath} {root : Option (BitVec 384)} {ok : Bool}
    (hkeep : ¬ (s.FinishFine via root ok ∧ via = .i3c ∧ s.sec.root ≠ root)) :
    exec (.spdmFinish via root ok) s = .next (s.spdmAsk via
      ((s.spdm via).exchanged && ok && (via ≠ .i3c || s.rootOk root || (s.spdm via).session && root.isSome)) spdmFinishRsp 0
      (fun c => { c with exchanged := false, session := true })) := by
  refine congrArg Host.Outcome.next ?_
  extract_lets inside good u
  have hgood : good = true ↔ s.FinishFine via root ok := finishGood_iff s via root ok
  have hu : u = s := by
    refine if_neg fun h => hkeep ?_
    simp only [Bool.and_eq_true, decide_eq_true_eq] at h
    obtain ⟨⟨⟨hg, -⟩, hvia⟩, hroot⟩ := h
    exact ⟨hgood.mp hg, hvia, hroot⟩
  rw [hu]

/-- On I3C a good exchange with another root enrols that root, recorded, and opens the session (R372; log entry 103). -/
theorem execSpdmFinish_enrols {s : State} {r : BitVec 384} {ok : Bool} (hfine : s.FinishFine .i3c (some r) ok)
    (hroot : s.sec.root ≠ some r) :
    exec (.spdmFinish .i3c (some r) ok) s =
      .next (((({ s with sec := { s.sec with root := some r } } : State).bbxLog 0x0D 0 0 (leBytes 48 r.toNat).reverse).modSpdm
        .i3c (fun c => { c with exchanged := false, session := true })).spdmAnswer .i3c spdmFinishRsp 0) := by
  have hgood := (finishGood_iff s .i3c (some r) ok).mpr hfine
  refine congrArg Host.Outcome.next ?_
  extract_lets inside good u
  have hgood : good = true := hgood
  have hwhen : (good && s.spdmOpen .i3c && decide (SpdmPath.i3c = .i3c) && decide (s.sec.root ≠ some r)) = true := by
    simp [hgood, State.spdmOpen, hroot]
  have hu : u = ({ s with sec := { s.sec with root := some r } } : State).bbxLog 0x0D 0 0 (leBytes 48 r.toNat).reverse :=
    if_pos hwhen
  rw [hu, spdmAsk_right rfl hgood]

/-! ### Stages (R20, R394, R395) -/

theorem execStageAdvance_eq {s : State} (hactive : s.rst.active = false) (hporst : s.rst.asserted &&& 1#8 = 0) {r : StageReport}
    (hwf : r.wf = true) : exec (.stageAdvance r) s = .next (s.stageDone r) := by
  refine (checked_of_wf (i := .stageAdvance r) hwf s _).trans (congrArg Host.Outcome.next (if_neg ?_))
  simp only [hactive, Bool.false_or, decide_eq_true_eq, not_not]
  exact hporst

theorem stageDone_replay {s : State} (hstage : s.gen.stage = 8)
    (hdone : ∀ e ∈ s.ldg.entries, e.live = false ∧ (e.kind = .desc → e.staged = none)) (r : StageReport) :
    s.stageDone r = s.enterStage 9 := by
  unfold State.stageDone
  rw [hstage]
  refine if_neg fun h => ?_
  obtain ⟨e, he, h⟩ := List.any_eq_true.mp h
  obtain ⟨hlive, hstaged⟩ := hdone e he
  rw [hlive, Bool.false_or, Bool.and_eq_true, decide_eq_true_eq] at h
  rw [hstaged h.1] at h
  exact nomatch h.2

theorem stageTimeout_stops {s : State} (hactive : s.rst.active = false) {t : Nat} (hbound : s.stageBound = some t) :
    ∃ u : State, exec .stageTimeout s = .next u ∧ u.gen.stage = 15 ∧ s.gen.stageAt + t ≤ u.now := by
  obtain ⟨o, w, b, h⟩ := stopAt_eq (s.waitTill (s.gen.stageAt + t)) whyBound
  refine ⟨(s.waitTill (s.gen.stageAt + t)).stopAt whyBound, congrArg Host.Outcome.next ?_, ?_⟩
  · rw [if_neg (by simp [hactive]), hbound]
  · rw [h]
    exact ⟨rfl, le_waitTill_now s _⟩

theorem railRegulationTimeout_stops {s : State} (hactive : s.rst.active = false) (hstage : s.gen.stage = 2)
    (hgood : s.pwr.good48 = true) {rail : Nat} (hlow : 1 ≤ rail) (hhigh : rail ≤ 8) :
    ∃ u : State, exec (.railRegulationTimeout rail) s = .next u ∧ u.gen.stage = 15 ∧ u.pwr.rails = rail - 1 := by
  have hwf : (Instr.railRegulationTimeout rail).wf = true :=
    (Bool.and_eq_true _ _).mpr ⟨decide_eq_true hlow, decide_eq_true hhigh⟩
  obtain ⟨o, w, b, h⟩ := stopAt_eq { s with pwr := { s.pwr with rails := rail - 1 } } whyRail
  refine ⟨_, (checked_of_wf hwf s _).trans (congrArg Host.Outcome.next (if_pos ?_)), ?_⟩
  · simp [hstage, stMainPower, hgood, hactive, hlow, hhigh]
  · rw [h]
    exact ⟨rfl, rfl⟩

/-- Settles O57: `spdmAsk_of_open` for each request, the stages by what `stageDone` does in each, and the stop at FAULT. -/
theorem attestationAndStages : Obligations.AttestationAndStages := by
  intro s
  refine ⟨fun via hopen => ?_, fun hactive hporst r hwf => ?_, fun hactive t hbound => stageTimeout_stops hactive hbound,
    fun hactive hstage hgood rail hlow hhigh => railRegulationTimeout_stops hactive hstage hgood hlow hhigh⟩
  · intro c bad good
    refine ⟨?_, spdmAsk_of_open hopen .rfl .., fun a => spdmAsk_of_open hopen .rfl .., spdmAsk_of_open hopen .rfl ..,
      fun slot off len hslot hoff hlen => ?_, fun slot nonce => spdmAsk_of_open hopen (by simp [c]) ..,
      fun i nonce => spdmAsk_of_open hopen (by simp [c]) .., fun share => spdmAsk_of_open hopen .rfl .., fun root ok => ?_,
      spdmAsk_of_open hopen .rfl .., spdmAsk_of_open hopen .rfl ..⟩
    · exact congrArg Host.Outcome.next (spdmAsk_right hopen rfl ..)
    · have hcert : (Instr.spdmGetCertificate via slot off len).wf = true := (Bool.and_eq_true _ _).mpr
        ⟨(Bool.and_eq_true _ _).mpr ⟨decide_eq_true hslot, decide_eq_true hoff⟩, decide_eq_true hlen⟩
      exact (checked_of_wf hcert s _).trans (spdmAsk_of_open hopen (by simp [c]) ..)
    · intro fine opened
      have hiff := finishGood_iff s via root ok
      refine ⟨fun hbad => ?_, fun hfine hkeep => ?_, fun hfine hvia r hr hroot => ?_⟩
      · rw [execSpdmFinish_keepsRoot fun h => hbad h.1, spdmAsk_wrong hopen (hbad ∘ hiff.mp)]
      · rw [execSpdmFinish_keepsRoot fun h => hkeep.elim (· h.2.1) h.2.2, spdmAsk_right hopen (hiff.mpr hfine)]
        rfl
      · subst hvia hr
        exact execSpdmFinish_enrols hfine hroot
  · rw [execStageAdvance_eq hactive hporst hwf]
    refine ⟨fun h haux => ?_, fun h => ?_, fun h => ?_, fun h hgood => ?_, fun h => ?_, fun h => ?_, fun h => ?_, fun h => ?_,
      fun h hdone => congrArg _ (stageDone_replay h hdone r), fun h => ?_⟩
    all_goals unfold State.stageDone; rw [h]
    · rw [haux]; rfl
    · rfl
    · rfl
    · rw [hgood]; rfl
    · rfl
    · rfl
    · rfl
    · simp only [Bool.and_eq_true]
    · rfl

end Sys2Proof.Machine
end


section
/-! SUPPORT. The start of sub-parts and the commit of a phase without staged effects (O25; R14, R196–R198, R206–R208). -/

namespace Sys2Proof.Machine

/-! ### What a write to the own half leaves alone (R343) -/

section
variable {β : Type} (g : State → β)
  (hsend : ∀ (s : State) fab out regs, g { s with fab := fab, out := out, regs := regs } = g s)

include hsend

theorem countFrame_keeps (s : State) (n k : Nat) : g (s.countFrame n k) = g s := by
  have hport : ∀ (s : State) f, g (s.modPort n f) = g s := fun s _ => hsend s _ s.out s.regs
  unfold State.countFrame
  extract_lets c u v
  calc g (v.when _ _) = g v := State.when_keeps g _ (fun s => hport s _) ..
    _ = g u := State.when_keeps g _ (fun s => hsend s s.fab s.out _) ..
    _ = g s := hport s _

theorem sendBy_keeps (s : State) (n : Nat) (o : Out) : g (s.sendBy n o) = g s := by
  have hemit : ∀ (s : State) o, g (s.emit o) = g s := fun s _ => hsend s s.fab _ s.regs
  have hport : ∀ (s : State) f, g (s.modPort n f) = g s := fun s _ => hsend s _ s.out s.regs
  have hseal : ∀ s : State, g (s.sealFrame n) = g s := fun s => by
    unfold State.sealFrame
    split
    · exact (countFrame_keeps g hsend ..).trans (hemit s _)
    · rfl
  unfold State.sendBy
  split
  · rfl
  · split
    · exact hemit s o
    · split
      · exact hport s _
      · rw [State.putFrame, State.when_keeps g _ hseal, hport, hemit]

theorem sendReq_keeps (s : State) (n ep tc : Nat) (k : ReqKind) (p : Purpose) (addr : Nat) (data : List Byte) (poison : Bool)
    (xr : Nat × Nat × Nat × Bool) (op : Byte) (tag : W16) : g (s.sendReq n ep tc k p addr data poison xr op tag) = g s := by
  have htx : ∀ (s : State) f, g (s.modTx ep tc f) = g s := fun s _ => hsend s _ s.out s.regs
  have hresend : ∀ (s : State) (q : TxReq → Bool), g (s.resendReqs ep tc q) = g s := fun s q => by
    unfold State.resendReqs
    extract_lets t l n₀ n₁ u v
    calc g (foldS _ v l) = g v := foldS_keeps g _ (fun s _ => sendBy_keeps g hsend s ..) ..
      _ = g u := htx u _
      _ = g s := hsend s s.fab s.out _
  unfold State.sendReq
  extract_lets u t t' r hdr v
  calc g ((v.when _ _).sendBy n _) = g (v.when _ _) := sendBy_keeps g hsend ..
    _ = g v := State.when_keeps g _ (fun s => hsend s _ s.out s.regs) ..
    _ = g u := htx u _
    _ = g s := State.when_keeps g _ (fun s => hresend s _) ..

/-- A write to the own half only sends: mirror stores are counted, and go out on the stream to the buddy. -/
theorem ownWrite_keeps (hsent : ∀ (s : State) n, g { s with ldg := { s.ldg with mirrorSent := n } } = g s) (s : State) (off : Nat)
    (bytes : List Byte) : g (s.ownWrite off bytes) = g s := by
  unfold State.ownWrite
  split
  · split
    · exact foldS_keeps g _ (fun s q => (sendReq_keeps g hsend ..).trans (hsent s _)) ..
    · rfl
  · rfl

end

theorem writePhase_slc (s : State) (c : Ctx) (p : PhaseRec) : (s.writePhase c p).slc = s.slc :=
  ownWrite_keeps State.slc (fun _ _ _ _ => rfl) (fun _ _ => rfl) ..

theorem writePhase_entries (s : State) (c : Ctx) (p : PhaseRec) : (s.writePhase c p).ldg.entries = s.ldg.entries :=
  ownWrite_keeps (fun s => s.ldg.entries) (fun _ _ _ _ => rfl) (fun _ _ => rfl) ..

/-- Outside MIRRORED mode and RESYNC nothing is sent for the own half. -/
theorem ownWrite_of_loc {s : State} (h : s.ldg.mode = .loc) (off : Nat) (bytes : List Byte) : s.ownWrite off bytes = s := by
  have hm : s.mirrors = false := by simp [State.mirrors, h]
  unfold State.ownWrite
  split
  · rw [if_neg (by simp [hm])]
  · rfl

/-! ### The start of a sub-part (R14, R197, R198, R208) -/

/-- A context that enters takes the next number and the first free slot, and nothing else changes in the slices or the ledger's
entries. -/
theorem addCtx_slc (s : State) (c : Ctx) : (s.addCtx c).slc = (s.placeCtx { c with slot := s.freeSlot }).slc := by
  unfold State.addCtx
  extract_lets c' u
  split
  · split
    · exact writePhase_slc ..
    · rfl
  · rfl

theorem addCtx_entries (s : State) (c : Ctx) : (s.addCtx c).ldg.entries = s.ldg.entries := by
  unfold State.addCtx
  extract_lets c' u
  split
  · split
    · exact writePhase_entries ..
    · rfl
  · rfl

theorem ctx_addCtx (s : State) (c : Ctx) : (s.addCtx c).ctx s.slc.nextCtx = some { c with slot := s.freeSlot } := by
  rw [State.ctx, addCtx_slc]
  exact Tbl.look_ins_self ..

/-- A library recipe's context whose image is not that of ATTN_APPEND reads nothing at its start (log entry 157). -/
theorem libStart_of_not_append {s : State} {cx : Nat} {c : Ctx} {e : Entry} (hc : s.ctx cx = some c)
    (he : s.entry c.lsn = some e) (hid : s.libIdent e ≠ libAppend) : s.libStart cx = s := by
  have hident : ∀ r ident x, s.libAt cx = some (r, ident, x) → ident = s.libIdent e := by
    intro r ident x h
    unfold State.libAt at h
    rw [hc] at h
    dsimp only at h
    split at h
    next v e' _ he' =>
      obtain rfl := Option.some.inj (he.symm.trans he')
      split at h
      · have h := (Option.ite_none_right_eq_some.mp h).2
        exact (congrArg (fun y => y.2.1) (Option.some.inj h)).symm
      · exact nomatch h
    · exact nomatch h
  unfold State.libStart
  split
  next r ident x h => rw [hident r ident x h, State.when, if_neg (by simp [hid])]
  · rfl

/-- The phase record a sub-part restarts from, if any. -/
def Inv.back (v : Inv) (k : Nat) : Option PhaseRec := ((v.restarts.find? (fun r => r.1 = k)).map Prod.snd).getD none

/-- A sub-part's context has entered: its restart is used up. -/
def State.begun (s : State) (lsn slice : Nat) (v : Inv) (k : Nat) : State :=
  (s.modInv lsn (fun v => { v with restarts := v.restarts.filter (fun r => r.1 ≠ k) })).addCtx (s.newCtx lsn k slice v (v.back k) none)

/-- A sub-part that is not sampled starts on its slice when that is the least loaded one and has room. -/
theorem placeSub_starts {s : State} {lsn k slice : Nat} {v : Inv} (hleast : s.leastOf (s.slicesFor (s.subQuad v k)) slice = true)
    (hup : s.slicesUp ≠ []) (hroom : s.sliceRoom slice v.img = true) (hshadow : v.shadow ≠ some k) :
    s.placeSub lsn k slice v = (s.begun lsn slice v k).libStart s.slc.nextCtx := by
  rw [State.placeSub, if_neg (by simp [hup]), if_pos hleast, State.launch]
  extract_lets start
  rw [if_neg (by simp [hroom]), if_neg hshadow]
  rfl

theorem ctx_begun (s : State) (lsn slice : Nat) (v : Inv) (k : Nat) :
    (s.begun lsn slice v k).ctx s.slc.nextCtx = some { s.newCtx lsn k slice v (v.back k) none with slot := s.freeSlot } :=
  ctx_addCtx (s.modInv lsn _) _

theorem newCtx_lsn (s : State) (lsn k slice : Nat) (v : Inv) (back : Option PhaseRec) (sh : Option Nat) :
    (s.newCtx lsn k slice v back sh).lsn = lsn := by
  unfold State.newCtx
  cases back <;> rfl

theorem libStart_begun {s : State} {lsn slice k : Nat} {v : Inv} {e : Entry} (he : s.entry lsn = some e)
    (hid : s.libIdent e ≠ libAppend) : (s.begun lsn slice v k).libStart s.slc.nextCtx = s.begun lsn slice v k := by
  have hentry : (s.begun lsn slice v k).entry lsn = some e := by
    rw [State.entry, State.begun, addCtx_entries]
    exact he
  have hslots : (s.begun lsn slice v k).slc.slots = s.slc.slots := by rw [State.begun, addCtx_slc]; rfl
  refine libStart_of_not_append (e := e) (ctx_begun ..) ?_ ?_
  · rw [newCtx_lsn]
    exact hentry
  · rwa [State.libIdent, hslots]

theorem execSubpartStart_starts {s : State} {lsn k : Nat} {slice : Slice} {e : Entry} {v : Inv} (hw : Working s lsn opInvoke e)
    (hv : s.inv lsn = some v) (hk : k < v.count) (hwait : s.subWaits lsn k v = true) :
    exec (.subpartStart lsn k slice) s = .next (s.placeSub lsn k slice.val v) := by
  refine congrArg Host.Outcome.next ?_
  rw [onOp_of_working hw, hv]
  exact if_pos (by simp [hk, hwait])

theorem execFinalSectionStart_starts {s : State} {lsn : Nat} {slice : Slice} {e : Entry} {v : Inv} (hw : Working s lsn opInvoke e)
    (hv : s.inv lsn = some v) (himg : v.img.final ≠ 0) (hended : v.allEnded = true) (hdone : v.finalDone = none)
    (hgood : (s.endsOf lsn v).all (fun x => statusGood x.2.1) = true) (hwait : s.subWaits lsn finalSub v = true) :
    exec (.finalSectionStart lsn slice) s = .next (s.placeSub lsn finalSub slice.val v) := by
  refine congrArg Host.Outcome.next ?_
  rw [onOp_of_working hw, hv]
  exact if_pos (by simp [himg, hended, hdone, hgood, hwait])

/-! ### The commit of a phase (R206, R207) -/

theorem Tbl.look_mapV {α : Type} (f : Nat → α → α) (t : Tbl α) (k : Nat) : (t.mapV f).look k = (t.look k).map (f k) := by
  induction t with
  | nil => rfl
  | cons x t ih =>
    by_cases h : x.1 = k
    · simp [Tbl.mapV, Tbl.look, h]
    · simpa [Tbl.mapV, Tbl.look, h] using ih

/-- A word written to a register is read back. -/
theorem State.word_setWord_self (s : State) (l : Loc) (w : Nat) (hreset : l.resetWord < 2 ^ 64) :
    (s.setWord l w).word l = w % 2 ^ 64 := by
  rw [State.word, State.setWord_regs, Tbl.put]
  by_cases h : BitVec.ofNat 64 w = BitVec.ofNat 64 l.resetWord
  · have hw := congrArg BitVec.toNat h
    rw [BitVec.toNat_ofNat, BitVec.toNat_ofNat, Nat.mod_eq_of_lt hreset] at hw
    rw [if_pos h, Tbl.look_del, if_pos rfl]
    exact hw.symm
  · rw [if_neg h, Tbl.look_ins_self]
    exact BitVec.toNat_ofNat ..

/-- A commit raises the count of commits, which stops at its maximum (R403). -/
theorem commits_bump (s : State) :
    (s.bump F.slcCnt1Commits).fld F.slcCnt1Commits = min (s.fld F.slcCnt1Commits + 1) (2 ^ 32 - 1) := by
  have hword := s.word_setWord_self ⟨.slcCnt1, 0, 0⟩
    (insBits (s.word ⟨.slcCnt1, 0, 0⟩) 31 0 (min (bits (s.word ⟨.slcCnt1, 0, 0⟩) 31 0 + 1) (2 ^ 32 - 1))) (by decide)
  simp only [State.fld, State.bump, State.setFld, F.slcCnt1Commits, Fix.read, hword]
  simp only [bits, insBits]
  omega

theorem sendEmits_nil (s : State) (e : Entry) {c : Ctx} (h : c.emits = []) :
    ∃ invs, s.sendEmits e c = { s with slc := { s.slc with invs := invs } } := by
  unfold State.sendEmits
  extract_lets u
  split
  · exact ⟨_, rfl⟩
  · rw [h]
    exact ⟨_, rfl⟩

/-- A commit with nothing staged, sent or emitted, before its section's end, counts, notes its results and renews its contexts; the
rest of the state stays (R207). -/
theorem phaseDone_eq {s : State} {cx : Nat} {c : Ctx} {e : Entry} {v : Inv} (hstage : c.stage = []) (hsends : c.sends = [])
    (hemits : c.emits = []) (hpc : c.pc ≤ v.img.lastStep c.sub) : ∃ invs, s.phaseDone cx c e v =
      { s.bump F.slcCnt1Commits with slc := { s.slc with
        invs := invs,
        ctxs := (Tbl.alter cx (fun c => c.committed v.img) s.slc.ctxs).mapV
          (fun _ (x : Ctx) => if x.shadowOf = some cx then x.committed v.img else x) } } := by
  unfold State.phaseDone
  extract_lets u₁ u₂ u₃ _ u₄ u₅ u₆ u₇
  have hu : u₆ = u₄ := by
    dsimp only [u₆, u₅]
    rw [hsends, hstage]
    rfl
  obtain ⟨invs, h⟩ := sendEmits_nil u₆ e hemits
  have h₇ : u₇ = { u₄ with slc := { u₄.slc with invs := invs } } := hu ▸ h
  refine ⟨invs, ?_⟩
  rw [if_neg (Nat.not_lt.mpr hpc), h₇]
  rfl

theorem ctx_phaseDone {s : State} {cx : Nat} {c : Ctx} {e : Entry} {v : Inv} (hc : s.ctx cx = some c) (hshadow : c.shadowOf = none)
    (hstage : c.stage = []) (hsends : c.sends = []) (hemits : c.emits = []) (hpc : c.pc ≤ v.img.lastStep c.sub) :
    (s.phaseDone cx c e v).ctx cx = some (c.committed v.img) := by
  obtain ⟨invs, h⟩ := phaseDone_eq (s := s) (cx := cx) (e := e) hstage hsends hemits hpc
  have hlook : s.slc.ctxs.look cx = some c := hc
  rw [h, State.ctx]
  dsimp only
  rw [Tbl.look_mapV, Tbl.look_alter_self, hlook]
  refine congrArg some (if_neg ?_)
  simp [Ctx.committed, hshadow]

/-- A context that stands at the end of its phase runs nothing of a library recipe. -/
theorem libRun_of_atCommit {s : State} {cx : Nat} {c : Ctx} {n : Nat} (hc : s.ctx cx = some c) (hst : c.status = .commit n) :
    s.libRun cx = s := by
  have hnone : s.libAt cx = none := by
    unfold State.libAt
    rw [hc]
    dsimp only
    rw [hst]
    split
    · split
      · exact if_neg (by simp)
      · rfl
    · rfl
  rw [State.libRun, hnone]

/-- In LOCAL mode, no former buddy's answer owed, a context without a shadow and with nothing staged commits at once. -/
theorem execPhaseCommit_commits {s : State} {cx : Nat} {c : Ctx} {e : Entry} {v : Inv} (hc : s.ctx cx = some c)
    (hst : c.status = .commit 0) (hmay : s.mayCommit c = some (e, v)) (hnoShadow : s.shadowCx cx = none) (hstage : c.stage = [])
    (hmode : s.ldg.mode = .loc) (hbound : s.ldg.bound = none) :
    exec (.phaseCommit cx) s = .next (s.phaseDone cx c e v) := by
  have hwrite : s.phaseWrite c v.img = s := by
    rw [State.phaseWrite, hstage]
    exact ownWrite_of_loc hmode ..
  have hdurable : ∀ n, s.durable n = true := fun n => by simp [State.durable, hbound, hmode]
  refine congrArg Host.Outcome.next ?_
  rw [libRun_of_atCommit hc hst, State.phaseCommit, hc]
  dsimp only
  rw [hmay, Ctx.atCommit, hst, hnoShadow]
  dsimp only
  rw [State.commitPhase, hstage, State.applyStage]
  dsimp only
  rw [if_pos rfl, hwrite, if_pos (hdurable _)]

/-- Settles O25: a sub-part or final section that waits is placed by `placeSub_starts`, and a phase without staged effects commits
as `phaseDone_eq` says. -/
theorem subpartsStartAndCommit : Obligations.SubpartsStartAndCommit := by
  intro s lsn slice e v he hrunning hfenced hhalting hv back begun started fits
  have hstarts : ∀ k, fits k → s.placeSub lsn k slice.val v = started k := fun k hfits => by
    obtain ⟨-, hleast, hup, hroom, hshadow⟩ := hfits
    exact placeSub_starts hleast hup hroom hshadow
  refine ⟨fun k hop hk hfits => ⟨?_, ctx_begun s lsn slice.val v k, fun hid => libStart_begun he hid⟩,
    fun hop himg hended hdone hgood hfits => ?_,
    fun k c hc hlsn hst hshadow hup htested hnoShadow hstage hsends hemits hpc hmode hbound => ?_⟩
  · exact (execSubpartStart_starts ⟨he, hrunning, hop, hfenced, hhalting⟩ hv hk hfits.1).trans (congrArg _ (hstarts k hfits))
  · exact (execFinalSectionStart_starts ⟨he, hrunning, hop, hfenced, hhalting⟩ hv himg hended hdone hgood hfits.1).trans
      (congrArg _ (hstarts finalSub hfits))
  · have hmay : s.mayCommit c = some (e, v) := by
      rw [State.mayCommit, hlsn, he, hv]
      exact if_pos (by simp [hrunning, hfenced, hshadow, hup, htested])
    refine ⟨_, execPhaseCommit_commits hc hst hmay hnoShadow hstage hmode hbound, ?_, ?_⟩
    · rw [ctx_phaseDone hc hshadow hstage hsends hemits hpc, Ctx.committed, hstage, hsends, hemits]
    · obtain ⟨invs, h⟩ := phaseDone_eq (s := s) (cx := k) (e := e) hstage hsends hemits hpc
      rw [h]
      exact ⟨commits_bump s, rfl, rfl⟩

end Sys2Proof.Machine
end


section
/-! SUPPORT. What the sending of messages, the writing of records, the fault of a ring pair and the end of a descriptor's work leave
alone, and what an entry reads as after each change of the ledger (R34, R40, R53, R339–R343). -/

namespace Sys2Proof.Machine

/-! ### Sending (R25, R273, R343) -/

/-- A part of the state that sending does not touch: it lies outside the fabric, the outward messages, the registers, the toll and
the number of mirror stores sent. -/
structure Unsent {β : Type} (g : State → β) : Prop where
  send : ∀ (s : State) fab out regs, g { s with fab := fab, out := out, regs := regs } = g s
  toll : ∀ (s : State) toll, g { s with toll := toll } = g s
  mirror : ∀ (s : State) n, g { s with ldg := { s.ldg with mirrorSent := n } } = g s

namespace Unsent
variable {β : Type} {g : State → β} (h : Unsent g)
include h

theorem fab (s : State) (fab : FabSt) : g { s with fab := fab } = g s := h.send s fab s.out s.regs

theorem regs (s : State) (regs : Tbl W64) : g { s with regs := regs } = g s := h.send s s.fab s.out regs

theorem ownWrite (s : State) (off : Nat) (b : List Byte) : g (s.ownWrite off b) = g s := ownWrite_keeps g h.send h.mirror s off b

theorem noteRing (s : State) (p : Nat) : g (s.noteRing p) = g s := by
  unfold State.noteRing
  split
  · exact h.ownWrite ..
  · rfl

theorem mirrorEntry (s : State) (old : Option Entry) (e : Entry) : g (s.mirrorEntry old e) = g s :=
  (State.when_keeps g _ (fun s => h.ownWrite s ..) ..).trans (State.when_keeps g _ (fun s => h.ownWrite s ..) ..)

theorem modEntry (hput : ∀ (s : State) e, g (s.putEntry e) = g s) (s : State) (lsn : Nat) (f : Entry → Entry) :
    g (s.modEntry lsn f) = g s := by
  unfold State.modEntry
  split
  · exact (h.mirrorEntry ..).trans (hput ..)
  · rfl

theorem writeEp (s : State) (t ptr tc : Nat) (b : List Byte) (poison : Bool) (p : Purpose) :
    g (s.writeEp t ptr tc b poison p).1 = g s := by
  have htoll : g (s.tollBytes t b.length) = g s := h.toll ..
  unfold State.writeEp
  extract_lets n
  split
  · rfl
  · split
    · exact (foldS_keeps g _ (fun s q => sendReq_keeps g h.send s ..) ..).trans htoll
    · exact (foldS_keeps g _ (fun s q => h.send s _ _ s.regs) ..).trans htoll

/-- A read also notes its standing. -/
theorem readEp (hfetch : ∀ (s : State) p f, g (s.setFetch p f) = g s) (s : State) (t ptr len : Nat) (p : Purpose) :
    g (s.readEp t ptr len p) = g s := by
  unfold State.readEp
  extract_lets n
  split
  · exact hfetch ..
  · refine (foldS_keeps g _ (fun s q => ?_) ..).trans (hfetch ..)
    dsimp only
    split
    · exact (sendBy_keeps g h.send ..).trans (h.send s _ s.out s.regs)
    · exact h.send s _ _ s.regs

end Unsent

/-! ### Records and faults of a ring pair (R40, R51, R53) -/

/-- A part of the state that posting a record does not touch: of the rings it sees neither WIDX nor an owed EVT_LOST. -/
structure Unposted {β : Type} (g : State → β) : Prop extends Unsent g where
  ring : ∀ (s : State) p (w : Ring → W32) (l : Ring → Bool), g (s.modRing p (fun r => { r with widx := w r, lost := l r })) = g s

/-- A part of the state that a fault of a pair does not touch either: it does not see FAULTED and its code. -/
structure Unfaulted {β : Type} (g : State → β) : Prop extends Unposted g where
  fault : ∀ (s : State) p c, g (s.modRing p (fun r => { r with faulted := true, code := c })) = g s

namespace Unposted
variable {β : Type} {g : State → β} (h : Unposted g)
include h

theorem writeRecord (s : State) (p : Nat) (c : Cpl) (q : Purpose) : g (s.writeRecord p c q).1 = g s :=
  calc g (s.writeRecord p c q).1
    _ = g ((s.modRing p (fun r => { r with widx := r.widx + 1, lost := false })).noteRing p) := h.writeEp ..
    _ = g (s.modRing p (fun r => { r with widx := r.widx + 1, lost := false })) := h.noteRing ..
    _ = g s := h.ring s p (fun r => r.widx + 1) (fun _ => false)

theorem postEvent (s : State) (p : Nat) (c : Cpl) : g (s.postEvent p c) = g s := by
  unfold State.postEvent
  split
  · exact h.writeRecord ..
  · exact (h.ring _ p (fun r => r.widx) (fun _ => true)).trans (h.regs s _)

end Unposted

namespace Unfaulted
variable {β : Type} {g : State → β} (h : Unfaulted g)
include h

theorem faultPair (s : State) (p c : Nat) : g (s.faultPair p c) = g s := by
  unfold State.faultPair
  split
  · rfl
  · exact (h.postEvent ..).trans ((h.noteRing ..).trans (h.fault ..))

theorem writeAidx (s : State) (p : Nat) : g (s.writeAidx p) = g s := by
  unfold State.writeAidx
  extract_lets v
  generalize hw : s.writeEp _ _ _ _ _ _ = x
  have hx : g x.1 = g s := hw ▸ h.writeEp ..
  obtain ⟨t, _ | _⟩ := x
  · exact hx
  · exact (h.faultPair ..).trans hx

end Unfaulted

theorem unsent_ring : Unsent State.ring := ⟨fun _ _ _ _ => rfl, fun _ _ => rfl, fun _ _ => rfl⟩

theorem ring_modRing (s : State) (p q : Nat) (f : Ring → Ring) :
    (s.modRing p f).ring q = if q = p then f (s.ring p) else s.ring q := Tbl.rd_upd ..

/-- What a change of a pair keeps of a ring, it keeps of every pair. -/
theorem modRing_keeps {β : Type} {v : Ring → β} {f : Ring → Ring} (hf : ∀ r, v (f r) = v r) (s : State) (p : Nat) :
    (fun q => v ((s.modRing p f).ring q)) = fun q => v (s.ring q) := by
  funext q
  rw [ring_modRing]
  split
  next h => rw [hf, h]
  · rfl

theorem unposted_ring {β : Type} {v : Ring → β} (hv : ∀ r w l, v { r with widx := w, lost := l } = v r) :
    Unposted (fun s p => v (s.ring p)) where
  send _ _ _ _ := rfl
  toll _ _ := rfl
  mirror _ _ := rfl
  ring s p _ _ := modRing_keeps (fun _ => hv ..) s p

theorem unfaulted_ring {β : Type} {v : Ring → β}
    (hv : ∀ r w l x c, v { r with widx := w, lost := l, faulted := x, code := c } = v r) :
    Unfaulted (fun s p => v (s.ring p)) where
  toUnposted := unposted_ring fun r w l => hv r w l r.faulted r.code
  fault s p c := modRing_keeps (fun r => hv r r.widx r.lost true c) s p

theorem unfaulted_entries : Unfaulted (fun s => s.ldg.entries) :=
  ⟨⟨⟨fun _ _ _ _ => rfl, fun _ _ => rfl, fun _ _ => rfl⟩, fun _ _ _ _ => rfl⟩, fun _ _ _ => rfl⟩

/-! ### The entry list (R339, R341) -/

theorem entry_lsn {s : State} {lsn : Nat} {e : Entry} (h : s.entry lsn = some e) : e.lsn = lsn := by
  simpa using List.find?_some h

theorem find?_listUpd {l : List Entry} {e x : Entry} (n : Nat) (h : l.find? (fun y => y.lsn = e.lsn) = some x) :
    (listUpd (fun y => y.lsn = e.lsn) (fun _ => e) l).find? (fun y => y.lsn = n) =
      if n = e.lsn then some e else l.find? (fun y => y.lsn = n) := by
  induction l with
  | nil => exact nomatch h
  | cons a l ih =>
    by_cases ha : a.lsn = e.lsn
    · by_cases hn : n = e.lsn
      · simp [listUpd, ha, hn]
      · simp [listUpd, ha, hn, Ne.symm hn]
    · have hl : l.find? (fun y => y.lsn = e.lsn) = some x := by simpa [ha] using h
      by_cases hn : a.lsn = n
      · simp [listUpd, hn, show n ≠ e.lsn from hn ▸ ha]
      · simp [listUpd, ha, hn, ih hl]

/-- What an entry that is put back reads as, and every other one. -/
theorem entry_putEntry {s : State} {e x : Entry} (n : Nat) (h : s.entry e.lsn = some x) :
    (s.putEntry e).entry n = if n = e.lsn then some e else s.entry n := find?_listUpd n h

theorem entry_putEntry_self {s : State} {e x : Entry} (h : s.entry e.lsn = some x) : (s.putEntry e).entry e.lsn = some e := by
  rw [entry_putEntry _ h, if_pos rfl]

/-- A change of an entry that keeps its l.lsn. -/
theorem entry_modEntry {s : State} {lsn : Nat} {e : Entry} {f : Entry → Entry} (h : s.entry lsn = some e) (hf : (f e).lsn = e.lsn) :
    (s.modEntry lsn f).entry lsn = some (f e) := by
  have hlsn : (f e).lsn = lsn := hf.trans (entry_lsn h)
  have hput : (s.putEntry (f e)).entry lsn = some (f e) := by
    have := entry_putEntry_self (s := s) (e := f e) (x := e) (by rw [hlsn]; exact h)
    rwa [hlsn] at this
  unfold State.modEntry
  rw [h]
  dsimp only
  rw [State.entry, unfaulted_entries.mirrorEntry]
  exact hput

theorem entry_setNote {s : State} {lsn : Nat} {e : Entry} (h : s.entry lsn = some e) (note : List Nat) :
    s.setNote lsn note = s.putEntry { e with note := note } := by
  rw [State.setNote, h]

/-! ### The end of a descriptor's work (R342) -/

/-- A part of the state that outlasts the end of a descriptor's work: it lies outside the slices, the regions, the work table, the
reads and tier moves under way, and what sending touches. -/
structure Outlasts {β : Type} (g : State → β) : Prop extends Unsent g where
  slc : ∀ (s : State) slc, g { s with slc := slc } = g s
  works : ∀ (s : State) w, g { s with ldg := { s.ldg with works := w } } = g s
  fetch : ∀ (s : State) fab f, g { s with fab := fab, tq := { s.tq with fetch := f } } = g s
  moves : ∀ (s : State) rgn m, g { s with rgn := rgn, tier := { s.tier with moves := m } } = g s

namespace Outlasts
variable {β : Type} {g : State → β} (h : Outlasts g)
include h

theorem rgn (s : State) (rgn : RgnSt) : g { s with rgn := rgn } = g s := h.moves s rgn s.tier.moves

theorem dropFetches (s : State) (p : Purpose → Bool) : g (s.dropFetches p) = g s := h.fetch ..

theorem setWorks (s : State) (l : List WorkKey) : g (s.setWorks l) = g s :=
  (foldS_keeps g _ (fun s _ => h.ownWrite s ..) ..).trans ((foldS_keeps g _ (fun s _ => h.ownWrite s ..) ..).trans (h.works s l))

theorem ctxToll (s : State) (c : Ctx) : g (s.ctxToll c) = g s := by
  unfold State.ctxToll
  split
  · exact h.toll ..
  · rfl

theorem dropMessages (s : State) (v : Inv) (lsn : Nat) : g (s.dropMessages v lsn) = g s := by
  unfold State.dropMessages
  extract_lets gone n slc u
  have hu : g u = g s := h.slc ..
  split
  · exact hu
  · exact (h.regs u _).trans hu

theorem endInv (s : State) (e : Entry) (status : Nat) : g (s.endInv e status) = g s := by
  unfold State.endInv
  split
  · rfl
  next v _ =>
    extract_lets ps mine got u₁ slc u₂ u₃ ldg u₄
    have h₁ : g u₁ = g s := foldS_keeps g _ (fun s c => h.ctxToll s c) ..
    have h₃ : g u₃ = g s :=
      calc g u₃ = g ((u₂.sweepPages ps).dropMessages v e.lsn) := h.fab ..
        _ = g (u₂.sweepPages ps) := h.dropMessages ..
        _ = g u₂ := h.rgn ..
        _ = g u₁ := h.slc ..
        _ = g s := h₁
    have h₄ : g u₄ = g s := (h.setWorks ..).trans ((h.works ..).trans h₃)
    split
    · exact h₄
    · refine (foldS_keeps g _ (fun s b => ?_) ..).trans h₄
      split
      · exact h.rgn ..
      · rfl

theorem endMoves (s : State) (lsn : Nat) : g (s.endMoves lsn) = g s := h.moves ..

/-- All but the taking back of a slot that was being loaded. -/
theorem endLoad_of_codec (hcodec : ∀ (s : State) c, g { s with codec := c } = g s) (s : State) (e : Entry) :
    g (s.endLoad e) = g s := by
  unfold State.endLoad
  split
  · split
    · exact hcodec ..
    · split
      · exact h.slc ..
      · rfl
  · rfl

theorem endWork (hcodec : ∀ (s : State) c, g { s with codec := c } = g s) (s : State) (e : Entry) (status : Nat) :
    g (s.endWork e status) = g s :=
  (h.endLoad_of_codec hcodec ..).trans ((h.endMoves ..).trans ((h.endInv ..).trans (h.dropFetches ..)))

end Outlasts

theorem outlasts_entries : Outlasts (fun s => s.ldg.entries) :=
  ⟨unfaulted_entries.toUnsent, fun _ _ => rfl, fun _ _ => rfl, fun _ _ _ => rfl, fun _ _ _ => rfl⟩

theorem entries_endWork (s : State) (e : Entry) (status : Nat) : (s.endWork e status).ldg.entries = s.ldg.entries :=
  outlasts_entries.endWork (fun _ _ => rfl) ..

/-- The entry whose result is fixed (R342). -/
def State.committed (s : State) (e : Entry) (r : Res) : Entry :=
  { e with
    state := .committed, cpl := some (s.record e r),
    result := if r.status = St.ok && (e.opcode = opOpen || e.opcode = opPublish || e.opcode = opAlloc) then r.r0 else e.result }

theorem fixResult_eq {s : State} {lsn : Nat} {e : Entry} (he : s.entry lsn = some e) (hdesc : e.acceptedDesc = true)
    (hstate : e.state = .accepted ∨ e.state = .started) (r : Res) :
    ∃ f : Entry → Entry, s.fixResult lsn r = (s.endWork e r.status).modEntry lsn f ∧ f e = s.committed e r := by
  unfold State.fixResult
  rw [he]
  exact ⟨_, if_pos (by simpa [hdesc] using hstate), rfl⟩

/-- Fixing a result commits the entry with its record. -/
theorem entry_fixResult {s : State} {lsn : Nat} {e : Entry} (he : s.entry lsn = some e) (hdesc : e.acceptedDesc = true)
    (hstate : e.state = .accepted ∨ e.state = .started) (r : Res) : (s.fixResult lsn r).entry lsn = some (s.committed e r) := by
  obtain ⟨f, h, hf⟩ := fixResult_eq he hdesc hstate r
  have hentry : (s.endWork e r.status).entry lsn = some e := by
    rw [State.entry, entries_endWork]
    exact he
  rw [h, entry_modEntry hentry (by rw [hf]; rfl), hf]

/-- A part of the state that the work of descriptors does not touch: it outlasts it, and sees neither entries nor codec slots. -/
structure Unworked {β : Type} (g : State → β) : Prop extends Outlasts g where
  codec : ∀ (s : State) c, g { s with codec := c } = g s
  put : ∀ (s : State) e, g (s.putEntry e) = g s

namespace Unworked
variable {β : Type} {g : State → β} (h : Unworked g)
include h

theorem fixResult (s : State) (lsn : Nat) (r : Res) : g (s.fixResult lsn r) = g s := by
  unfold State.fixResult
  split
  · rfl
  · split
    · exact (h.modEntry h.put ..).trans (h.endWork h.codec ..)
    · rfl

theorem setNote (s : State) (lsn : Nat) (note : List Nat) : g (s.setNote lsn note) = g s := by
  unfold State.setNote
  split
  · exact h.put ..
  · rfl

theorem yieldLoad (s : State) (op slot : Nat) : g (s.yieldLoad op slot) = g s := by
  unfold State.yieldLoad
  split
  · exact (h.setNote ..).trans ((h.dropFetches ..).trans (h.endLoad_of_codec h.codec ..))
  · rfl

theorem yieldLoads (s : State) (e : Entry) : g (s.yieldLoads e) = g s := by
  unfold State.yieldLoads
  extract_lets u
  refine (State.when_keeps g _ (fun s => h.yieldLoad s ..) ..).trans ?_
  dsimp only [u]
  split
  · exact h.yieldLoad ..
  · rfl

theorem markReplayed (s : State) (lsn : Nat) : g (s.markReplayed lsn) = g s := (h.regs ..).trans (h.modEntry h.put ..)

end Unworked

theorem unworked_ring : Unworked State.ring :=
  ⟨⟨unsent_ring, fun _ _ => rfl, fun _ _ => rfl, fun _ _ _ => rfl, fun _ _ _ => rfl⟩, fun _ _ => rfl, fun _ _ => rfl⟩

end Sys2Proof.Machine
end


section
/-! SUPPORT. Doorbells: which ring pair a doorbell reaches, what its value does, and what the work it sets going leaves of the pair's
HEAD (O26, O27; R28–R33, R53). -/

namespace Sys2Proof.Machine

/-! ### The fault of a pair (R53) -/

/-- The pointers of every ring pair: TAIL and HEAD. -/
def State.pointers (s : State) (p : Nat) : W32 × W32 := ((s.ring p).tail, (s.ring p).head)

/-- FAULTED and FAULT_CODE of every ring pair. -/
def State.faults (s : State) (p : Nat) : Bool × Nat := ((s.ring p).faulted, (s.ring p).code)

theorem unfaulted_pointers : Unfaulted State.pointers := unfaulted_ring (v := fun r => (r.tail, r.head)) fun _ _ _ _ _ => rfl

theorem unposted_faults : Unposted State.faults := unposted_ring (v := fun r => (r.faulted, r.code)) fun _ _ _ => rfl

theorem pointers_faultPair (s : State) (p c : Nat) :
    ((s.faultPair p c).ring p).tail = (s.ring p).tail ∧ ((s.faultPair p c).ring p).head = (s.ring p).head :=
  Prod.mk.inj (congrFun (unfaulted_pointers.faultPair s p c) p)

theorem faultPair_of_faulted {s : State} {p : Nat} (h : (s.ring p).faulted = true) (c : Nat) : s.faultPair p c = s := by
  rw [State.faultPair, if_pos h]

/-- The first cause of a fault keeps its code. -/
theorem faults_faultPair {s : State} {p : Nat} (h : (s.ring p).faulted = false) (c : Nat) :
    ((s.faultPair p c).ring p).faulted = true ∧ ((s.faultPair p c).ring p).code = c := by
  have hfaults : (s.faultPair p c).faults p = (true, c) := by
    rw [State.faultPair, if_neg (by simp [h])]
    dsimp only
    rw [unposted_faults.postEvent, unposted_faults.noteRing, State.faults, ring_modRing, if_pos rfl]
  exact Prod.mk.inj hfaults

/-! ### What keeps the pointers (R34, R56, R345) -/

theorem pointers_modRing {f : Ring → Ring} (hf : ∀ r, ((f r).tail, (f r).head) = (r.tail, r.head)) (s : State) (p : Nat) :
    (s.modRing p f).pointers = s.pointers := modRing_keeps (v := fun r => (r.tail, r.head)) hf s p

theorem pointers_sendRecord (s : State) (lsn : Nat) (prior : Bool) : (s.sendRecord lsn prior).pointers = s.pointers := by
  have hmod : ∀ f, (s.modEntry lsn f).pointers = s.pointers := fun f => by
    unfold State.pointers
    rw [unworked_ring.modEntry unworked_ring.put]
  unfold State.sendRecord
  split
  · rfl
  · split
    · rfl
    · dsimp only
      split
      · exact (State.when_keeps _ _ (fun _ => unfaulted_pointers.faultPair ..) ..).trans (hmod _)
      · exact (unfaulted_pointers.writeRecord ..).trans (hmod _)

theorem pointers_sendPrior (s : State) (p : Nat) : (s.sendPrior p).pointers = s.pointers :=
  foldS_keeps _ _ (fun _ _ => State.when_keeps _ _ (fun _ => pointers_sendRecord ..) ..) ..

/-- An acceptance raises the accepted index alone among a pair's pointers. -/
theorem pointers_acceptEntry (s : State) (lsn : Nat) : (s.acceptEntry lsn).pointers = s.pointers := by
  unfold State.acceptEntry
  split
  · rfl
  next e _ =>
    extract_lets u₁ slot loaded u₂ ldg u₃ u₄
    have hring : u₄.ring = s.ring := 
      (State.when_keeps State.ring _ (fun _ => unworked_ring.markReplayed ..) ..).trans (unworked_ring.yieldLoads ..)
    calc _ = (u₄.modRing e.pair (fun r => { r with aidx := r.aidx + 1 })).pointers :=
          (unfaulted_pointers.writeAidx ..).trans (unfaulted_pointers.noteRing ..)
      _ = u₄.pointers := pointers_modRing (f := fun r => { r with aidx := r.aidx + 1 }) (fun _ => rfl) u₄ e.pair
      _ = s.pointers := by unfold State.pointers; rw [hring]

theorem pointers_coverEntry (s : State) (e : Entry) : (s.coverEntry e).pointers = s.pointers := by
  unfold State.coverEntry
  split
  · split <;> rfl
  · split
    · split
      · exact pointers_acceptEntry ..
      · rfl
    · split <;> rfl
  · rfl

theorem pointers_pumpMirror (s : State) : s.pumpMirror.pointers = s.pointers := by
  unfold State.pumpMirror
  split
  · rfl
  · exact foldS_keeps _ _ (fun _ _ => pointers_coverEntry ..) ..

/-! ### The doorbells (R28, R31, R32) -/

theorem doorbell_of_entitled {s : State} {src : DbSrc} {off : Nat} (hoff : off < 2 ^ 20) (hfenced : s.ldg.fenced = false)
    (h : s.entitled src (off / 4096) = true) (size : Nat) (v : W64) : s.doorbell src off size v = s.ringBell off size v := by
  rw [State.doorbell, if_neg (by simp [hfenced]), if_neg (by simpa [h] using hoff)]

theorem doorbell_of_not_entitled {s : State} {src : DbSrc} {off : Nat} (hfenced : s.ldg.fenced = false)
    (h : s.entitled src (off / 4096) = false) (size : Nat) (v : W64) :
    s.doorbell src off size v = s.bump F.portEcntEdgeDeny src.port.val := by
  rw [State.doorbell, if_neg (by simp [hfenced]), if_pos (by simp [h])]

/-- A doorbell in good form reaches its pair: a tail below 0x40 of its page, a head above. -/
theorem ringBell_of_live {s : State} {off size : Nat} {v : W64} (hsize : size = 8) (halign : off % 4096 % 8 = 0)
    (hpage : off % 4096 < 0x80) (hv : v.toNat < 2 ^ 32) (hlive : s.liveP (8 * (off / 4096) + off % 4096 / 8 % 8) = true) :
    s.ringBell off size v =
      if off % 4096 < 0x40 then s.submitTail (8 * (off / 4096) + off % 4096 / 8 % 8) (v.setWidth 32)
      else s.completionHead (8 * (off / 4096) + off % 4096 / 8 % 8) (v.setWidth 32) := by
  rw [State.ringBell]
  rw [if_neg (by simp [hsize, halign]; omega), if_neg (by simp [hlive])]
  rfl

theorem head_completionHead {s : State} {p : Nat} {h : W32} (hin : (h - (s.ring p).head).toNat ≤ (s.ring p).unread) :
    ((s.completionHead p h).ring p).head = h := by
  have hpointers : (s.completionHead p h).pointers p = ((s.ring p).tail, h) := by
    rw [State.completionHead]
    rw [if_pos hin, pointers_pumpMirror, pointers_sendPrior]
    change ((s.modRing p _).noteRing p).pointers p = _
    rw [unfaulted_pointers.noteRing, State.pointers, ring_modRing, if_pos rfl]
  exact (Prod.mk.inj hpointers).2

/-- Settles O26: a head within the written records is taken and stays, any other faults the pair. -/
theorem completionDoorbellMovesHeadOrFaults : Obligations.CompletionDoorbellMovesHeadOrFaults := by
  intro s src t p h ht hp hfenced hentitled hlive r c
  have hoff : 4096 * t + 0x40 + 8 * p < 2 ^ 20 := by omega
  have hpage : (4096 * t + 0x40 + 8 * p) / 4096 = t := by omega
  have hpair : 8 * ((4096 * t + 0x40 + 8 * p) / 4096) + (4096 * t + 0x40 + 8 * p) % 4096 / 8 % 8 = 8 * t + p := by omega
  have hexec : exec c s = .next (s.completionHead (8 * t + p) h) := by
    have hwide : (h.setWidth 64).toNat < 2 ^ 32 := by
      rw [BitVec.toNat_setWidth]
      omega
    have hback : (h.setWidth 64).setWidth 32 = h := by simp
    calc exec c s = .next (s.doorbell src (4096 * t + 0x40 + 8 * p) 8 (h.setWidth 64)) :=
          checked_of_wf (by simpa [c, Instr.wf] using hoff) ..
      _ = .next (s.ringBell (4096 * t + 0x40 + 8 * p) 8 (h.setWidth 64)) := by
          rw [doorbell_of_entitled hoff hfenced (by rwa [hpage])]
      _ = .next (s.completionHead (8 * t + p) h) := by
          rw [ringBell_of_live rfl (by omega) (by omega) hwide (by rwa [hpair]), if_neg (by omega), hpair, hback]
  refine ⟨fun hin => ⟨_, hexec, head_completionHead hin⟩, fun hout => ⟨_, hexec, ?_⟩⟩
  have hfault : s.completionHead (8 * t + p) h = s.faultPair (8 * t + p) 0x02 := if_neg (Nat.not_le.mpr hout)
  rw [hfault]
  exact ⟨(pointers_faultPair ..).2, fun hf => faults_faultPair hf _, fun hf => faultPair_of_faulted hf _⟩

/-- Settles O27, by the doorbell's offset, size, value and pair. -/
theorem submissionDoorbellMovesTailOrIsTurnedAway : Obligations.SubmissionDoorbellMovesTailOrIsTurnedAway := by
  intro s src off size v hoff hfenced c o pair r n tail
  have hexec : exec c s = .next (s.doorbell src off size v) := checked_of_wf (by simpa [c, Instr.wf] using hoff) ..
  rw [hexec]
  refine ⟨fun h => by rw [doorbell_of_not_entitled hfenced h], fun hent => ?_⟩
  rw [doorbell_of_entitled hoff hfenced hent]
  refine ⟨fun hbad => ?_, fun hsize halign hv => ⟨fun hpage hdead => ?_, fun htail hlive => ?_⟩⟩
  · rw [State.ringBell]
    rw [if_pos (by simpa [o, or_assoc] using hbad)]
  · rw [State.ringBell]
    rw [if_neg (by simp [hsize]; omega), if_pos (by simpa using hdead)]
  · have hbell : s.ringBell off size v = s.submitTail pair tail := by
      rw [ringBell_of_live hsize halign (by omega) hv hlive, if_pos htail]
    have hn : s.sqSize pair = n := by
      simp only [State.sqSize, ringSize, n]
      split <;> rfl
    rw [hbell, State.submitTail]
    dsimp only
    rw [hn]
    refine ⟨fun h => by rw [if_pos h], fun hne hring hacc => ?_, fun hne hout => ⟨_, rfl, ?_⟩⟩
    · rw [if_neg hne, if_pos (by simpa using ⟨hring, hacc⟩)]
      rfl
    · rw [if_neg hne, if_neg (by simpa using hout)]
      exact ⟨(pointers_faultPair ..).1, fun hf => faults_faultPair hf _⟩

end Sys2Proof.Machine
end


section
/-! SUPPORT. The fixing of a descriptor's result (O33), its start (O29), NOP and FENCE (O31), and QUERY (O36) (R39, R44–R48, R50,
R88, R121, R280). -/

namespace Sys2Proof.Machine

/-! ### The record of a result (R47, R48) -/

/-- A running INVOKE. -/
def runningInvoke : Entry := { lsn := 0, state := .started, opcode := opInvoke }

/-- A module that has it in its ledger. -/
def invokingState : State := { ldg := { entries := [runningInvoke], nextLsn := 1 } }

/-- The failure that a descriptor takes from the answer of module 1, which refused a request with EPOCH 0x0B10 at its epoch 7. -/
def epochRefused : Res :=
  let f := answeredFail 1 St.epoch 0x0B10 (leBytes 4 7)
  Res.fail f.1 f.2

/-- Refutes O33: the detail of a result that refuses with EPOCH carries the refusing module's epoch above its 16 bits, for
`cpl.result0` (R48, R292), and the record has the 16 bits alone: 0x0B10 where the result's detail is 0x80B10. -/
theorem not_fixedResultIsRecorded : ¬ Obligations.FixedResultIsRecorded := by
  unfold Obligations.FixedResultIsRecorded
  intro h
  obtain ⟨x, c, hx, -, hc, -, hdetail, -⟩ := h invokingState 0 runningInvoke epochRefused rfl rfl (.inr rfl)
  have hentry : (invokingState.fixResult 0 epochRefused).entry 0 = some (invokingState.committed runningInvoke epochRefused) :=
    entry_fixResult rfl rfl (.inr rfl) _
  obtain rfl : _ = x := Option.some.inj (hentry.symm.trans hx)
  obtain rfl : _ = c := Option.some.inj hc
  exact absurd hdetail (by decide)

/-- A descriptor that runs has its result fixed. -/
theorem entry_fixResult_of_running {s : State} {lsn : Nat} {e : Entry} (he : s.entry lsn = some e) (hrun : e.running = true)
    (r : Res) : (s.fixResult lsn r).entry lsn = some (s.committed e r) := by
  obtain ⟨hdesc, hstate⟩ : e.acceptedDesc = true ∧ e.state = .started := by simpa [Entry.running] using hrun
  exact entry_fixResult he hdesc (.inr hstate) r

/-! ### The start of a descriptor (R39, R44, R50) -/

/-- The entry of a descriptor that starts. -/
def State.started (s : State) (e : Entry) : Entry := { e with state := .started, startAt := s.now }

/-- A descriptor starts: its entry turns STARTED and is written through. -/
def State.startEntry (s : State) (lsn : Nat) : State := s.modEntry lsn (fun e => s.started e)

theorem start_of_mayStart {s : State} {lsn : Nat} {e : Entry} (he : s.entry lsn = some e) (hmay : s.mayStart e = true) :
    s.start lsn = match descBad e.words with
      | some d => (s.startEntry lsn).fixResult lsn (Res.fail St.malformed d)
      | none => s.startEntry lsn := by
  rw [State.start, he]
  exact if_pos hmay

theorem start_of_not_mayStart {s : State} {lsn : Nat} {e : Entry} (he : s.entry lsn = some e) (hmay : s.mayStart e = false) :
    s.start lsn = s := by
  rw [State.start, he]
  exact if_neg (by simp [hmay])

theorem entry_startEntry {s : State} {lsn : Nat} {e : Entry} (he : s.entry lsn = some e) :
    (s.startEntry lsn).entry lsn = some (s.started e) := entry_modEntry he rfl

theorem acceptedDesc_started {s : State} {e : Entry} (h : s.mayStart e = true) : (s.started e).acceptedDesc = true := by
  have hdesc : e.acceptedDesc = true := by
    by_contra hnot
    simp [State.mayStart, State.startable, hnot] at h
  simp only [Entry.acceptedDesc, Bool.and_eq_true] at hdesc ⊢
  exact ⟨hdesc.1, rfl⟩

/-- A detail of MALFORMED is one of R50's codes. -/
theorem descBad_le {words : List W64} {d : Nat} (h : descBad words = some d) : d ≤ 7 := by
  unfold descBad at h
  extract_lets w op at h
  split_ifs at h <;> cases h <;> decide

/-- Settles O29, by whether the descriptor may start and by the rule its words break. -/
theorem descriptorStartOrMalformed : Obligations.DescriptorStartOrMalformed := by
  intro s lsn e he
  have hexec : exec (.descriptorStart lsn) s = .next (s.start lsn) := rfl
  rw [hexec]
  refine ⟨fun hmay => by rw [start_of_not_mayStart he hmay], fun hmay hgood => ⟨_, rfl, ?_⟩, fun d hmay hbad => ?_⟩
  · rw [start_of_mayStart he hmay, hgood]
    have hsent : Unsent fun s => (s.rgn, s.slc) := ⟨fun _ _ _ _ => rfl, fun _ _ => rfl, fun _ _ => rfl⟩
    exact ⟨entry_startEntry he, Prod.mk.inj (hsent.modEntry (fun _ _ => rfl) s lsn _)⟩
  · have hentry := entry_fixResult (entry_startEntry he) (acceptedDesc_started hmay) (.inr rfl) (Res.fail St.malformed d)
    rw [start_of_mayStart he hmay, hbad]
    refine ⟨_, _, _, rfl, hentry, rfl, rfl, rfl, ?_, rfl⟩
    exact Nat.mod_eq_of_lt (Nat.lt_of_le_of_lt (descBad_le hbad) (by decide))

/-! ### NOP and FENCE (R44, R46, R280) -/

theorem fenceMet_eq (s : State) (e : Entry) :
    s.fenceMet e = !s.ldg.entries.any (fun x => x.live &&
      ((x.pair = e.pair && x.lsn < e.lsn) || (bit (e.w 2) 0 && x.tenant = e.tenant && x.accepted < e.accepted))) := rfl

theorem fenceMet_waitTill (s : State) (e : Entry) (t : Nat) : (s.waitTill t).fenceMet e = s.fenceMet e := by
  rw [fenceMet_eq, State.waitTill, advance_ldg]
  rfl

theorem tx_advance (s : State) (dt : Nat) : (s.advance dt).fab.tx = s.fab.tx := by
  by_cases hdt : dt = 0
  · subst hdt
    simp [State.advance]
  · obtain ⟨q, r, a, b, c, h⟩ := advance_eq s hdt
    rw [h]
    dsimp only
    split <;> rfl

theorem fenceStreams_waitTill (s : State) (e : Entry) (t : Nat) : (s.waitTill t).fenceStreams e = s.fenceStreams e := by
  rw [State.fenceStreams, State.waitTill, tx_advance]
  rfl

theorem entry_waitTill (s : State) (lsn t : Nat) : (s.waitTill t).entry lsn = s.entry lsn := by
  rw [State.entry, State.waitTill, advance_ldg]
  rfl

theorem time_fixResult (s : State) (lsn : Nat) (r : Res) : (s.fixResult lsn r).time = s.time :=
  Unworked.fixResult
    ⟨⟨⟨fun _ _ _ _ => rfl, fun _ _ => rfl, fun _ _ => rfl⟩, fun _ _ => rfl, fun _ _ => rfl, fun _ _ _ => rfl, fun _ _ _ => rfl⟩,
      fun _ _ => rfl, fun _ _ => rfl⟩ s lsn r

/-- A FENCE whose timeout comes while something in its scope is left fails (R46). -/
def State.fenceFailed (s : State) (lsn : Nat) (e : Entry) : State :=
  let u := s.waitTill (e.startAt + s.fenceNs e)
  (u.fixResult lsn (Res.fail St.timeout (u.free % 65536))).tickFree

theorem execFenceTimeout_fails {s : State} {lsn : Nat} {e : Entry} (hw : Working s lsn opFence e)
    (h : s.fenceMet e = false ∨ s.fenceStreams e ≠ []) : exec (.fenceTimeout lsn) s = .next (s.fenceFailed lsn e) := by
  refine congrArg Host.Outcome.next ?_
  rw [onOp_of_working hw]
  exact if_neg (by simpa [fenceMet_waitTill, fenceStreams_waitTill, or_iff_not_imp_left] using h)

theorem fence_of_working {s : State} {lsn : Nat} {e : Entry} (hw : Working s lsn opFence e) :
    s.fence lsn = if !s.fenceMet e || !e.note.isEmpty then s
      else match s.fenceStreams e with
        | [] => s.fixResult lsn Res.ok
        | l => foldS (fun s k => s.sendFence (s.streamPort (k / 4) (k % 4)) (k / 4) (k % 4) (.fenceOp lsn)) (s.setNote lsn [1]) l :=
  onOp_of_working hw _

/-- Settles O31: NOP fixes OK; a FENCE by its scope, its streams and its timeout. -/
theorem nopAndFenceFixTheirResults : Obligations.NopAndFenceFixTheirResults := by
  intro s lsn e
  refine ⟨fun hw => ?_, fun hw => ?_⟩
  · have hexec : exec (.nop lsn) s = .next (s.fixResult lsn Res.ok) := congrArg Host.Outcome.next (onOp_of_working hw _)
    exact ⟨_, _, _, hexec, entry_fixResult_of_running hw.entry hw.running _, rfl, rfl, rfl, rfl, rfl, rfl⟩
  · intro blocks
    have hmet : s.fenceMet e = !s.ldg.entries.any blocks := fenceMet_eq s e
    have hexec : exec (.fence lsn) s = .next (s.fence lsn) := rfl
    rw [hexec, fence_of_working hw, hmet]
    refine ⟨fun hlive => by rw [hlive]; rfl, fun hlive hnote => ?_, fun hleft => ?_⟩
    · rw [hlive, hnote]
      refine ⟨fun hnone => ?_, fun hsome => ?_⟩
      · rw [hnone]
        exact ⟨_, _, _, rfl, entry_fixResult_of_running hw.entry hw.running _, rfl, rfl, rfl⟩
      · cases hl : s.fenceStreams e with
        | nil => exact absurd hl hsome
        | cons k l => rfl
    · have hentry : (s.waitTill (e.startAt + s.fenceNs e)).entry lsn = some e := (entry_waitTill ..).trans hw.entry
      have htime : (s.fenceFailed lsn e).time.mono = (s.waitTill (e.startAt + s.fenceNs e)).now :=
        congrArg TimeSt.mono (time_fixResult ..)
      refine ⟨_, _, _, execFenceTimeout_fails hw (by simpa [hmet] using hleft), entry_fixResult_of_running hentry hw.running _,
        rfl, rfl, rfl, ?_, ?_⟩
      · rw [htime]
        exact now_le_waitTill_now ..
      · rw [htime]
        exact le_waitTill_now ..

/-! ### QUERY (R45, R88, R121) -/

theorem queryOp_of_written {s : State} {lsn kind n : Nat} {e : Entry} (hw : Working s lsn opQuery e) (hkind : bits (e.w 2) 7 0 = kind)
    (hnote : e.note = [1, n]) (hfab : s.hasFabric lsn = false) (hgood : ∀ st d, s.fetchOf (.query lsn) ≠ some (.failed st d))
    (f : Entry → State → State) : s.queryOp lsn kind f = s.fixResult lsn { r0 := n } := by
  rw [State.queryOp, onOp_of_working hw, if_neg (by simp [hkind]), hnote]
  refine (if_neg (by simp [hfab])).trans ?_
  split
  next st d h => exact absurd h (hgood st d)
  · rfl

theorem queryOp_of_new {s : State} {lsn kind : Nat} {e : Entry} (hw : Working s lsn opQuery e) (hkind : bits (e.w 2) 7 0 = kind)
    (hnote : e.note = []) (f : Entry → State → State) : s.queryOp lsn kind f = f e s := by
  rw [State.queryOp, onOp_of_working hw, if_neg (by simp [hkind]), hnote]

theorem regionRecord_length (s : State) (id : Nat) (r : Region) : (s.regionRecord id r).length = 64 := by
  simp [State.regionRecord]

theorem holdsRecord_length (s : State) (r : Region) (n : Nat) (v : Version) (t : Nat) : (s.holdsRecord r n v t).length = 64 := by
  simp [State.holdsRecord]

/-- A lone record that fits its buffer is written in one access and noted with its length. -/
theorem queryWrite_one {s w : State} {e : Entry} {b : List Byte} (hne : b ≠ []) (hfits : b.length ≤ bits (e.w 5) 31 0)
    (hwrite : s.writeEp e.tenant (e.w 4) 2 b false (.query e.lsn) = (w, none)) :
    s.queryWrite e [b] = w.setNote e.lsn [1, b.length] := by
  simp [State.queryWrite, hfits, hne, hwrite]

/-- Settles O36, kind by kind. -/
theorem queriesWriteAndComplete : Obligations.QueriesWriteAndComplete := by
  intro s lsn e hw kind ref
  have hnew : ∀ {k f}, e.note = [] → kind = k → s.queryOp lsn k f = f e s := fun hnote hkind => queryOp_of_new hw hkind hnote _
  refine ⟨fun p hp hkind n hnote hfab hgood => ?_, fun hnote => ⟨fun r hkind hr => ?_, fun r hkind hr => ?_, fun r n v hkind hr => ?_,
    fun hkind => ?_, fun hkind => ?_, fun hkind => ?_⟩, fun b w hne hfits hwrite => ?_⟩
  · have hdone : ∀ f, s.queryOp lsn p.1 f = s.fixResult lsn { r0 := n } := queryOp_of_written hw hkind hnote hfab hgood
    simp only [List.mem_cons, List.not_mem_nil, or_false] at hp
    rcases hp with rfl | rfl | rfl | rfl | rfl | rfl <;> exact congrArg Host.Outcome.next (hdone _)
  · refine ⟨regionRecord_length .., congrArg Host.Outcome.next ((hnew hnote hkind).trans ?_)⟩
    dsimp only
    rw [hr]
  · refine congrArg Host.Outcome.next ((hnew hnote hkind).trans ?_)
    rw [hr]
  · refine ⟨holdsRecord_length .., congrArg Host.Outcome.next ((hnew hnote hkind).trans ?_)⟩
    rw [hr]
  · exact congrArg Host.Outcome.next (hnew hnote hkind)
  · exact congrArg Host.Outcome.next (hnew hnote hkind)
  · refine ⟨_, ?_, congrArg Host.Outcome.next (hnew hnote hkind)⟩
    rw [List.length_map, List.length_range]
    exact Nat.le_of_lt_succ (Nat.mod_lt _ (Nat.succ_pos _))
  · rw [queryWrite_one hne hfits hwrite, entry_lsn hw.entry]

end Sys2Proof.Machine
end


section
/-! SUPPORT. MOVE and LOAD_TABLE: how each begins, goes on and ends (O32; R45, R75, R167–R171, R181, R278, R282, R300, R455). -/

namespace Sys2Proof.Machine

/-! ### MOVE (R181) -/

theorem move_of_new {s : State} {lsn : Nat} {e : Entry} (hw : Working s lsn opMove e) (hnote : e.note = []) :
    s.move lsn = s.moveBegin e := by
  rw [State.move, onOp_of_working hw, hnote]

/-- The source's bytes have come. -/
theorem move_of_read {s : State} {lsn dst : Nat} {e : Entry} {b : List Byte} (hw : Working s lsn opMove e) (hnote : e.note = [2, dst])
    (hgot : s.fetchOf (.moveRead lsn) = some (.got b)) : s.move lsn = (s.dropFetch (.moveRead lsn)).moveOut e dst b := by
  rw [State.move, onOp_of_working hw, hnote]
  simp only [hgot]

/-- The destination's bytes have all been applied. -/
theorem move_of_written {s : State} {lsn : Nat} {e : Entry} (hw : Working s lsn opMove e) (hnote : e.note = [1])
    (hfab : s.hasFabric lsn = false) (hgood : ∀ st d, s.fetchOf (.moveWrite lsn) ≠ some (.failed st d)) :
    s.move lsn = s.fixResult lsn Res.ok := by
  rw [State.move, onOp_of_working hw, hnote]
  refine (if_neg (by simp [hfab])).trans ?_
  split
  next st d h => exact absurd h (hgood st d)
  · rfl

/-- From endpoint memory: the destination is noted and the source is read. -/
theorem moveBegin_of_endpoint {s : State} {e : Entry} {dst : Nat} (hsrc : bit (e.w 7) 0 = true) (hdst : s.moveDst e = .ok dst)
    (hgood : ∀ st d, ((s.setNote e.lsn [2, dst]).readEp e.tenant (e.w 2) (bits (e.w 6) 39 0) (.moveRead e.lsn)).fetchOf
      (.moveRead e.lsn) ≠ some (.failed st d)) :
    s.moveBegin e = (s.setNote e.lsn [2, dst]).readEp e.tenant (e.w 2) (bits (e.w 6) 39 0) (.moveRead e.lsn) := by
  rw [State.moveBegin]
  refine (if_pos hsrc).trans ?_
  rw [hdst]
  dsimp only
  split
  next st d h => exact absurd h (hgood st d)
  · rfl

/-- The read reference of a MOVE on its source (R82). -/
def State.moveRef (s : State) (e : Entry) (n : Nat) : State :=
  (s.addRef (refOf (e.w 2)).region n).putEntry { e with ref := some ((refOf (e.w 2)).region, n) }

/-- From a version, whose bytes held here are read without poison: they go out, or the rest is loaded first. -/
theorem moveBegin_of_version {s : State} {e : Entry} {r : Region} {n dst : Nat} {v : Version} {b : List Byte}
    (hsrc : bit (e.w 7) 0 = false) (hread : s.resolveRead (s.callerOf e) (refOf (e.w 2)) = .ok (r, n, v))
    (hrange : bits (e.w 3) 55 0 + bits (e.w 6) 39 0 ≤ r.size) (hdst : s.moveDst e = .ok dst)
    (hkc : bits (e.w 7) 15 8 = fmtKc → s.kcMismatch v (bits (e.w 7) 27 24) = false)
    (hgot : (s.moveRef e n).readVersion (refOf (e.w 2)).region n (bits (e.w 3) 55 0) (bits (e.w 6) 39 0) e.acceptAt = .ok (b, [])) :
    let id := (refOf (e.w 2)).region
    let off := bits (e.w 3) 55 0
    let len := bits (e.w 6) 39 0
    let w := (s.moveRef e n).countRead (.ok (b, [])) id n off len
    s.moveBegin e = if (w.farSpans id r off len).isEmpty then w.moveOut e dst b
      else (w.setNote e.lsn [2, dst]).loadRest e id n r off len b := by
  intro id off len w
  rw [State.moveBegin]
  refine (if_neg (by simp [hsrc])).trans ?_
  rw [hread]
  refine (if_neg (Nat.not_lt.mpr hrange)).trans ?_
  rw [hdst]
  refine (if_neg (by simpa using hkc)).trans ?_
  extract_lets u got w'
  have hgot' : got = .ok (b, []) := hgot
  have hw : w' = w := congrArg (fun got => (s.moveRef e n).countRead got id n off len) hgot'
  rw [hw, hgot']
  rfl

/-- The bytes of a MOVE as its formats and slot convert them, with the count of blocks written as NaN. -/
def State.moveBytes (s : State) (e : Entry) (b : List Byte) : List Byte × Nat :=
  convert (s.kcOf (bits (e.w 7) 27 24)) (s.kcOf (bits (e.w 7) 27 24)) (bits (e.w 7) 15 8) (bits (e.w 7) 23 16) b

/-- Converted bytes for endpoint memory have left. -/
theorem moveOut_of_endpoint {s w : State} {e : Entry} {dst : Nat} {b : List Byte} (hdst : bit (e.w 7) 1 = true)
    (hwrite : s.writeEp e.tenant (e.w 4) 2 (s.moveBytes e b).1 false (.moveWrite e.lsn) = (w, none)) :
    s.moveOut e dst b = (w.bump F.codecCnt0NanBlocks 0 0 (s.moveBytes e b).2).setNote e.lsn [1] := by
  rcases hb : s.moveBytes e b with ⟨out, nans⟩
  rw [hb] at hwrite
  rw [State.moveBytes] at hb
  simp only [State.moveOut, hb, hdst, hwrite, if_true]

/-- Converted bytes are written into a version: stores on the fabric are awaited, without any the MOVE is done. -/
theorem moveOut_of_version {s u w : State} {e : Entry} {dst : Nat} {b : List Byte} (hdst : bit (e.w 7) 1 = false)
    (hslot : (if bits (e.w 7) 23 16 = fmtKc then s.recordSlot (refOf (e.w 4)).region dst (bits (e.w 7) 27 24) else (s, none)) =
      (u, none))
    (hwrite : u.writeVersion (refOf (e.w 4)).region dst (bits (e.w 5) 55 0) (s.moveBytes e b).1 false e.acceptAt e.job
      (.moveWrite e.lsn) = (w, none)) :
    let v := w.bump F.codecCnt0NanBlocks 0 0 (s.moveBytes e b).2
    s.moveOut e dst b = if v.hasFabric e.lsn then v.setNote e.lsn [1] else v.fixResult e.lsn Res.ok := by
  rcases hb : s.moveBytes e b with ⟨out, nans⟩
  rw [hb] at hwrite
  rw [State.moveBytes] at hb
  simp only [State.moveOut, hb, hdst, hslot, hwrite, Bool.false_eq_true, if_false]

/-! ### LOAD_TABLE (R167, R170) -/

/-- A LOAD_TABLE takes its slot. -/
def State.takeSlot (s : State) (e : Entry) (slot : Nat) : State :=
  let a := s.setNote e.lsn [slot, if (s.cslot slot).st = SlotState.empty then 0 else 1, s.now]
  { a with codec := Tbl.upd {} slot (fun c =>
      { c with st := .loading, owner := if c.st = SlotState.empty then e.tenant else c.owner }) a.codec }

theorem unsent_codec : Unsent State.codec := ⟨fun _ _ _ _ => rfl, fun _ _ => rfl, fun _ _ => rfl⟩

theorem outlasts_codec : Outlasts State.codec :=
  ⟨unsent_codec, fun _ _ => rfl, fun _ _ => rfl, fun _ _ _ => rfl, fun _ _ _ => rfl⟩

theorem cslot_readEp_takeSlot (s : State) (e : Entry) (slot t ptr len : Nat) (p : Purpose) :
    (((s.takeSlot e slot).readEp t ptr len p).cslot slot).st = .loading := by
  rw [State.cslot, unsent_codec.readEp (fun _ _ _ => rfl), State.takeSlot, Tbl.rd_upd_self]

theorem loadTable_of_new {s : State} {lsn slot : Nat} {e : Entry} (hw : Working s lsn opLoadTable e) (hnote : e.note = [])
    (hslot : s.loadTarget e.tenant (bits (e.w 2) 4 0) = .ok slot) (hlo : 64 ≤ bits (e.w 4) 31 0) (hhi : bits (e.w 4) 31 0 ≤ 8256)
    (hgood : ∀ st d, ((s.takeSlot e slot).readEp e.tenant (e.w 3) (bits (e.w 4) 31 0) (.image lsn)).fetchOf (.image lsn) ≠
      some (.failed st d)) :
    s.loadTable lsn = (s.takeSlot e slot).readEp e.tenant (e.w 3) (bits (e.w 4) 31 0) (.image lsn) := by
  have hlsn := entry_lsn hw.entry
  subst hlsn
  rw [State.loadTable, onOp_of_working hw, hnote]
  dsimp only
  rw [hslot]
  refine (if_neg (by simp; omega)).trans ?_
  change (match ((s.takeSlot e slot).readEp e.tenant (e.w 3) (bits (e.w 4) 31 0) (.image e.lsn)).fetchOf _ with
    | some (.failed st d) => _ | _ => _) = _
  split
  next st d h => exact absurd h (hgood st d)
  · rfl

theorem loadTable_of_image {s : State} {lsn slot old at_ : Nat} {e : Entry} {b : List Byte} (hw : Working s lsn opLoadTable e)
    (hnote : e.note = [slot, old, at_]) (hgot : s.fetchOf (.image lsn) = some (.got b)) :
    s.loadTable lsn = s.takeTable e slot b := by
  rw [State.loadTable, onOp_of_working hw, hnote]
  simp only [hgot]

/-- What a slot holds of a good image (R167). -/
def tableSlot (t : TabImg) (tenant : Nat) : CodecSlot :=
  if t.kind = 0 then {}
  else { st := .loaded, kind := t.kind, owner := tenant, cls := t.cls, count := t.count, ident := t.ident, body := t.body }

/-- The slot has taken the image, and the entry its identity. -/
def State.tableTaken (s : State) (e : Entry) (slot : Nat) (t : TabImg) : State :=
  ({ s with codec := Tbl.put {} slot (tableSlot t e.tenant) s.codec } : State).modEntry e.lsn (fun e => { e with ident := t.ident })

theorem takeTable_of_good {s : State} {e : Entry} {slot : Nat} {b : List Byte}
    (h : (tabImg b).good (bits (e.w 4) 31 0) (bits (e.w 2) 15 8) = true) :
    s.takeTable e slot b = (s.tableTaken e slot (tabImg b)).fixResult e.lsn { r0 := slot } := by
  rw [State.takeTable]
  exact if_pos h

theorem cslot_tableTaken (s : State) (e : Entry) (slot : Nat) (t : TabImg) :
    (s.tableTaken e slot t).cslot slot = tableSlot t e.tenant := by
  rw [State.cslot, State.tableTaken, unsent_codec.modEntry (fun _ _ => rfl), Tbl.rd_put_self]

/-- The end of a LOAD_TABLE's work leaves a slot that is no longer LOADING as it is. -/
theorem codec_endLoad {s : State} {e : Entry} {slot old at_ : Nat} (hop : e.opcode = opLoadTable) (hnote : e.note = [slot, old, at_])
    (hst : (s.cslot slot).st ≠ .loading) : (s.endLoad e).codec = s.codec := by
  rw [State.endLoad, hnote]
  dsimp only
  rw [if_neg (by simp [show (Tbl.rd {} s.codec slot).st ≠ .loading from hst]), if_neg (by simp [hop, opLoadTable, opLoadRecipe])]

theorem tableSlot_not_loading (t : TabImg) (tenant : Nat) : (tableSlot t tenant).st ≠ .loading := by
  unfold tableSlot
  split <;> simp

theorem codec_fixResult {s : State} {lsn slot old at_ : Nat} {e : Entry} (he : s.entry lsn = some e) (hrun : e.running = true)
    (hop : e.opcode = opLoadTable) (hnote : e.note = [slot, old, at_]) (hst : (s.cslot slot).st ≠ .loading) (r : Res) :
    (s.fixResult lsn r).codec = s.codec := by
  obtain ⟨hdesc, hstate⟩ : e.acceptedDesc = true ∧ e.state = .started := by simpa [Entry.running] using hrun
  obtain ⟨f, h, -⟩ := fixResult_eq he hdesc (.inr hstate) r
  have hwork : (((s.dropFetches (fun p => p.lsn = some e.lsn)).endInv e r.status).endMoves e.lsn).codec = s.codec :=
    (outlasts_codec.endMoves ..).trans ((outlasts_codec.endInv ..).trans (outlasts_codec.dropFetches ..))
  rw [h, unsent_codec.modEntry (fun _ _ => rfl), State.endWork, codec_endLoad hop hnote (by rwa [State.cslot, hwork]), hwork]

/-- Settles O32: each clause is the case of MOVE or LOAD_TABLE it speaks of. -/
theorem moveAndLoadTable : Obligations.MoveAndLoadTable := by
  intro s lsn e x len sf df
  refine ⟨fun hw hnote => ⟨?fromVersion, ?fromEndpoint⟩,
    fun hw => ⟨fun dst b hnote hgot => ?read, fun hnote hfab hgood => ?written⟩, fun dst b => ⟨?toEndpoint, ?toVersion⟩,
    fun hw => ⟨?newTable, ?image⟩⟩
  case fromVersion =>
    intro r n v dst b hsrc hread hrange hdst hkc id off u got w hgot
    have hw' : w = (s.moveRef e n).countRead (.ok (b, [])) id n off len := congrArg (u.countRead · id n off len) hgot
    have hbegin : s.moveBegin e = if (w.farSpans id r off len).isEmpty then w.moveOut e dst b
        else (w.setNote lsn [2, dst]).loadRest e id n r off len b := by
      rw [hw', ← entry_lsn hw.entry]
      exact moveBegin_of_version hsrc hread hrange hdst hkc hgot
    have hexec : exec (.move lsn) s = .next (s.moveBegin e) := congrArg Host.Outcome.next (move_of_new hw hnote)
    rw [hexec, hbegin]
    exact ⟨fun hnear => by rw [hnear]; rfl, fun hfar => by rw [if_neg (by simpa using hfar)]⟩
  case fromEndpoint =>
    intro dst hsrc hdst u hgood
    have hlsn := entry_lsn hw.entry
    subst hlsn
    exact congrArg Host.Outcome.next ((move_of_new hw hnote).trans (moveBegin_of_endpoint hsrc hdst hgood))
  case read => exact congrArg Host.Outcome.next (move_of_read hw hnote hgot)
  case written => exact congrArg Host.Outcome.next (move_of_written hw hnote hfab hgood)
  case toEndpoint =>
    intro w hdst hwrite
    exact moveOut_of_endpoint hdst hwrite
  case toVersion =>
    intro u w hdst hslot hwrite v
    have hout : s.moveOut e dst b = if v.hasFabric e.lsn then v.setNote e.lsn [1] else v.fixResult e.lsn Res.ok :=
      moveOut_of_version hdst hslot hwrite
    rw [hout]
    exact ⟨fun hfab => if_neg (by simp [hfab]), fun hfab => if_pos hfab⟩
  case newTable =>
    intro slot hnote hslot hlo hhi a b u hgood
    have hlsn := entry_lsn hw.entry
    subst hlsn
    exact ⟨congrArg Host.Outcome.next (loadTable_of_new hw hnote hslot hlo hhi hgood), cslot_readEp_takeSlot ..⟩
  case image =>
    intro slot old at_ b hnote hgot t ht
    have hlsn := entry_lsn hw.entry
    subst hlsn
    have hentry : (s.tableTaken e slot t).entry e.lsn = some { e with ident := t.ident } := entry_modEntry hw.entry rfl
    have hexec : exec (.loadTable e.lsn) s = .next ((s.tableTaken e slot t).fixResult e.lsn { r0 := slot }) :=
      congrArg Host.Outcome.next ((loadTable_of_image hw hnote hgot).trans (takeTable_of_good ht))
    have hst : ((s.tableTaken e slot t).cslot slot).st ≠ .loading := by
      rw [cslot_tableTaken]
      exact tableSlot_not_loading t e.tenant
    refine ⟨_, _, _, hexec, entry_fixResult_of_running hentry hw.running _, rfl, rfl, rfl, ?_⟩
    rw [State.cslot, codec_fixResult hentry hw.running hw.opcode hnote hst]
    exact cslot_tableTaken ..

end Sys2Proof.Machine
end


section
/-! SUPPORT. Acceptance: what an entry added to the ledger reads as, and what the acceptance of a descriptor leaves of it (O28; R25, R27,
R34–R36, R170, R222, R341, R345). -/

namespace Sys2Proof.Machine

/-! ### A new entry (R341) -/

/-- The entry as the ledger numbers and dates it. -/
def State.numbered (s : State) (e : Entry) : Entry := { e with lsn := s.ldg.nextLsn, gen := s.ldg.gen, epoch := s.fab.map.epoch }

theorem entries_addEntry (s : State) (e : Entry) : (s.addEntry e).ldg.entries = s.ldg.entries ++ [s.numbered e] := by
  unfold State.addEntry
  extract_lets e' ldg u
  exact unfaulted_entries.mirrorEntry ..

theorem unfaulted_nextLsn : Unfaulted (fun s => s.ldg.nextLsn) :=
  ⟨⟨⟨fun _ _ _ _ => rfl, fun _ _ => rfl, fun _ _ => rfl⟩, fun _ _ _ _ => rfl⟩, fun _ _ _ => rfl⟩

theorem unworked_nextLsn : Unworked (fun s => s.ldg.nextLsn) :=
  ⟨⟨unfaulted_nextLsn.toUnsent, fun _ _ => rfl, fun _ _ => rfl, fun _ _ _ => rfl, fun _ _ _ => rfl⟩, fun _ _ => rfl, fun _ _ => rfl⟩

theorem nextLsn_addEntry (s : State) (e : Entry) : (s.addEntry e).ldg.nextLsn = s.ldg.nextLsn + 1 := by
  unfold State.addEntry
  extract_lets e' ldg u
  exact unfaulted_nextLsn.mirrorEntry ..

/-- An entry is known by its l.lsn, and no entry of that l.lsn runs. -/
structure Waits (lsn : Nat) (e : Entry) (s : State) : Prop where
  entry : s.entry lsn = some e
  idle : ∀ x ∈ s.ldg.entries, x.lsn = lsn → x.running = false

theorem waits_addEntry {s : State} {e : Entry} (hnew : s.entry s.ldg.nextLsn = none) (hstate : e.state = .accepted) :
    Waits s.ldg.nextLsn (s.numbered e) (s.addEntry e) where
  entry := by
    have hfind : s.ldg.entries.find? (fun x => x.lsn = s.ldg.nextLsn) = none := hnew
    rw [State.entry, entries_addEntry, List.find?_append, hfind]
    simp [State.numbered]
  idle x hx hlsn := by
    rw [entries_addEntry, List.mem_append, List.mem_singleton] at hx
    rcases hx with hx | rfl
    · simpa [hlsn] using List.find?_eq_none.mp hnew x hx
    · simp [Entry.running, State.numbered, hstate]

/-! ### Acceptance (R34, R36, R222) -/

theorem mem_listUpd {α : Type} {p : α → Bool} {a x : α} {l : List α} (h : x ∈ listUpd p (fun _ => a) l) : x ∈ l ∨ x = a := by
  induction l with
  | nil => exact .inl h
  | cons b l ih =>
    simp only [listUpd] at h
    split at h
    · rcases List.mem_cons.mp h with rfl | h
      · exact .inr rfl
      · exact .inl (List.mem_cons_of_mem _ h)
    · rcases List.mem_cons.mp h with rfl | h
      · exact .inl List.mem_cons_self
      · exact (ih h).imp_left (List.mem_cons_of_mem _)

theorem Waits.of_entries {lsn : Nat} {e : Entry} {s t : State} (h : Waits lsn e s) (ht : t.ldg.entries = s.ldg.entries) :
    Waits lsn e t := by
  refine ⟨?_, ht ▸ h.idle⟩
  rw [State.entry, ht]
  exact h.entry

/-- The note of another entry. -/
theorem Waits.setNote {lsn n : Nat} {e : Entry} {s : State} (h : Waits lsn e s) (hn : n ≠ lsn) (note : List Nat) :
    Waits lsn e (s.setNote n note) := by
  cases hx : s.entry n with
  | none => rwa [State.setNote, hx]
  | some x =>
    have hxn : x.lsn = n := entry_lsn hx
    rw [entry_setNote hx]
    refine ⟨?_, fun y hy hlsn => ?_⟩
    · rw [entry_putEntry (e := { x with note := note }) lsn (by exact hxn ▸ hx), if_neg (by exact fun heq => hn (hxn ▸ heq.symm))]
      exact h.entry
    · rcases mem_listUpd hy with hy | rfl
      · exact h.idle y hy hlsn
      · exact absurd (hxn.symm.trans hlsn) hn

/-- A load that yields its slot is a running one's. -/
theorem Waits.yieldLoad {lsn : Nat} {e : Entry} {s : State} (h : Waits lsn e s) (op slot : Nat) : Waits lsn e (s.yieldLoad op slot) := by
  unfold State.yieldLoad
  split
  next x hx =>
    have hrun : x.running = true := by
      have := List.find?_some hx
      simp only [Bool.and_eq_true] at this
      exact this.1.1
    have hne : x.lsn ≠ lsn := fun heq => by simp [h.idle x (List.mem_of_find?_eq_some hx) heq] at hrun
    exact (h.of_entries (outlasts_entries.endLoad_of_codec (fun _ _ => rfl) s x)).of_entries (t := (s.endLoad x).dropFetches _) rfl
      |>.setNote hne []
  · exact h

theorem Waits.yieldLoads {lsn : Nat} {e : Entry} {s : State} (h : Waits lsn e s) (x : Entry) : Waits lsn e (s.yieldLoads x) := by
  unfold State.yieldLoads
  extract_lets u
  have hu : Waits lsn e u := by
    dsimp only [u]
    split
    · exact h.yieldLoad ..
    · exact h
  unfold State.when
  split
  · exact hu.yieldLoad ..
  · exact hu

/-- What an acceptance keeps of a descriptor: all but its references, its place in the order and the marks of a replay. -/
def Entry.sameDesc (e x : Entry) : Prop :=
  x.lsn = e.lsn ∧ x.state = e.state ∧ x.kind = e.kind ∧ x.pair = e.pair ∧ x.index = e.index ∧ x.words = e.words ∧ x.opcode = e.opcode

/-- The accepted index of every pair. -/
def State.aidxs (s : State) (p : Nat) : W32 := (s.ring p).aidx

theorem unfaulted_aidxs : Unfaulted State.aidxs := unfaulted_ring (v := fun r => r.aidx) fun _ _ _ _ _ => rfl

theorem aidxs_modRing_succ (s : State) (p : Nat) :
    (s.modRing p (fun r => { r with aidx := r.aidx + 1 })).aidxs p = s.aidxs p + 1 := by
  rw [State.aidxs, ring_modRing, if_pos rfl]
  rfl

/-- One more descriptor has been accepted. -/
def State.countAccept (s : State) : State := { s with ldg := { s.ldg with accepts := s.ldg.accepts + 1 } }

/-- An acceptance: loads yield, the entry counts, and the pair's accepted index covers it and is written back. -/
theorem acceptEntry_eq {s : State} {lsn : Nat} {e : Entry} (he : s.entry lsn = some e) :
    ∃ x, e.sameDesc x ∧ s.acceptEntry lsn =
      ((((((s.yieldLoads e).putEntry x).countAccept.when (decide ((s.yieldLoads e).gen.stage = stReplay)) (fun s => s.markReplayed lsn)).modRing
        e.pair (fun r => { r with aidx := r.aidx + 1 })).noteRing e.pair).writeAidx e.pair) := by
  unfold State.acceptEntry
  rw [he]
  refine ⟨_, ?_, rfl⟩
  exact ⟨rfl, rfl, rfl, rfl, rfl, rfl, rfl⟩

theorem entry_when_markReplayed {s : State} {lsn : Nat} {e x : Entry} (h : s.entry lsn = some x) (hx : e.sameDesc x) (c : Bool) :
    ∃ y, (s.when c (fun s => s.markReplayed lsn)).entry lsn = some y ∧ e.sameDesc y := by
  cases c
  · exact ⟨x, h, hx⟩
  · exact ⟨_, entry_modEntry h rfl, hx⟩

theorem aidxs_acceptEntry {s : State} {lsn : Nat} {e : Entry} (he : s.entry lsn = some e) :
    (s.acceptEntry lsn).aidxs e.pair = s.aidxs e.pair + 1 := by
  obtain ⟨x, -, h⟩ := acceptEntry_eq he
  have hring : ∀ c, ((((s.yieldLoads e).putEntry x).countAccept).when c (fun s => s.markReplayed lsn)).ring = s.ring := fun c =>
    (State.when_keeps State.ring _ (fun _ => unworked_ring.markReplayed ..) ..).trans (unworked_ring.yieldLoads ..)
  rw [h, unfaulted_aidxs.writeAidx, unfaulted_aidxs.noteRing, aidxs_modRing_succ, State.aidxs, hring]
  rfl

theorem entry_acceptEntry {s : State} {lsn : Nat} {e : Entry} (h : Waits lsn e s) :
    ∃ y, (s.acceptEntry lsn).entry lsn = some y ∧ e.sameDesc y := by
  obtain ⟨x, hx, heq⟩ := acceptEntry_eq h.entry
  have hput : ((s.yieldLoads e).putEntry x).countAccept.entry lsn = some x := by
    have hlsn : x.lsn = lsn := hx.1.trans (entry_lsn h.entry)
    have hself := entry_putEntry_self (s := s.yieldLoads e) (e := x) (x := e) (hlsn ▸ (h.yieldLoads e).entry)
    rwa [hlsn] at hself
  obtain ⟨y, hy, hxy⟩ := entry_when_markReplayed hput hx (decide ((s.yieldLoads e).gen.stage = stReplay))
  refine ⟨y, ?_, hxy⟩
  rw [heq, State.entry, unfaulted_entries.writeAidx, unfaulted_entries.noteRing]
  exact hy

theorem nextLsn_acceptEntry {s : State} {lsn : Nat} {e : Entry} (he : s.entry lsn = some e) :
    (s.acceptEntry lsn).ldg.nextLsn = s.ldg.nextLsn := by
  obtain ⟨x, -, h⟩ := acceptEntry_eq he
  rw [h, unfaulted_nextLsn.writeAidx, unfaulted_nextLsn.noteRing]
  exact (State.when_keeps (fun s => s.ldg.nextLsn) _ (fun _ => unworked_nextLsn.markReplayed ..) ..).trans
    (unworked_nextLsn.yieldLoads ..)

/-! ### DESCRIPTOR_ACCEPT (R25, R34, R35) -/

theorem takeDescriptor_of_unmirrored {s : State} (hmode : s.ldg.mode ≠ .mirrored) (hbound : s.ldg.bound = none) (p : Nat)
    (words : List W64) : s.takeDescriptor p words = (s.addEntry (s.newEntry p words)).acceptEntry s.ldg.nextLsn := by
  have hkept : ∀ e, (s.addEntry e).ldg.mode = s.ldg.mode ∧ (s.addEntry e).ldg.bound = s.ldg.bound := fun e => by
    unfold State.addEntry
    extract_lets e' ldg u
    exact Prod.mk.inj (Unsent.mirrorEntry (g := fun s => (s.ldg.mode, s.ldg.bound))
      ⟨fun _ _ _ _ => rfl, fun _ _ => rfl, fun _ _ => rfl⟩ u none e')
  rw [State.takeDescriptor]
  exact if_neg (by simp [hkept, hmode, hbound])

/-- A fetched descriptor is in the ledger, accepted, under the next l.lsn. -/
theorem takeDescriptor_accepts {s : State} (hmode : s.ldg.mode ≠ .mirrored) (hbound : s.ldg.bound = none)
    (hnew : s.entry s.ldg.nextLsn = none) (p : Nat) (words : List W64) :
    (∃ e, (s.takeDescriptor p words).entry s.ldg.nextLsn = some e ∧ (s.numbered (s.newEntry p words)).sameDesc e) ∧
      (s.takeDescriptor p words).aidxs p = s.aidxs p + 1 ∧ (s.takeDescriptor p words).ldg.nextLsn = s.ldg.nextLsn + 1 := by
  have hwaits : Waits s.ldg.nextLsn (s.numbered (s.newEntry p words)) (s.addEntry (s.newEntry p words)) :=
    waits_addEntry hnew rfl
  have haidx : (s.addEntry (s.newEntry p words)).aidxs p = s.aidxs p := by
    unfold State.addEntry
    extract_lets e' ldg u
    exact congrFun (unfaulted_aidxs.mirrorEntry u none e') p
  rw [takeDescriptor_of_unmirrored hmode hbound]
  exact ⟨entry_acceptEntry hwaits, (aidxs_acceptEntry hwaits.entry).trans (congrArg (· + 1) haidx),
    (nextLsn_acceptEntry hwaits.entry).trans (nextLsn_addEntry ..)⟩

theorem accept_of_not_mayAccept {s : State} {p : Nat} (h : s.mayAccept p = false) :
    s.accept p = match s.fetchOf (.sqFetch p (s.nextIndex p).toNat) with
      | some (.got _) => s.dropFetch (.sqFetch p (s.nextIndex p).toNat)
      | _ => s := by
  rw [State.accept]
  exact if_pos (by simp [h])

theorem accept_of_mayAccept {s : State} {p : Nat} (h : s.mayAccept p = true) :
    s.accept p = match s.fetchOf (.sqFetch p (s.nextIndex p).toNat) with
      | some (.got b) => (s.dropFetch (.sqFetch p (s.nextIndex p).toNat)).takeDescriptor p (descWords b)
      | some _ => s
      | none =>
        let t := s.readEp (pairTenant p) (s.slotPtr p (s.nextIndex p)) 64 (.sqFetch p (s.nextIndex p).toNat)
        match t.fetchOf (.sqFetch p (s.nextIndex p).toNat) with
        | some (.failed _ _) => (t.dropFetch (.sqFetch p (s.nextIndex p).toNat)).faultPair p 0x03
        | _ => t := by
  rw [State.accept]
  exact if_neg (by simp [h])

theorem descWords_opcode (b : List Byte) : bits (((descWords b).getD 0 0).toNat) 7 0 = bits (leAt b 0 8) 7 0 := by
  simp [descWords, bits]

/-- Settles O28, by whether the pair may accept and where its fetch stands. -/
theorem descriptorAcceptEntersLedger : Obligations.DescriptorAcceptEntersLedger := by
  intro s pair p i slot asked
  have hexec : exec (.descriptorAccept pair) s = .next (s.accept p) := rfl
  have hi : s.nextIndex p = i := rfl
  rw [hexec]
  refine ⟨fun hmay => ?_, fun b hmay hgot hmode hbound hnew => ?_, fun hmay hnone hgood => ?_⟩
  · rw [accept_of_not_mayAccept hmay, hi]
    refine ⟨fun hno => ?_, fun b hgot => by rw [hgot]⟩
    split
    next b h => exact absurd h (hno b)
    · rfl
  · have haccept : s.accept p = (s.dropFetch (.sqFetch p i.toNat)).takeDescriptor p (descWords b) := by
      rw [accept_of_mayAccept hmay, hi, hgot]
    obtain ⟨⟨e, he, -, hstate, hkind, hpair, hindex, hwords, hop⟩, haidx, hlsn⟩ :=
      takeDescriptor_accepts (s := s.dropFetch (.sqFetch p i.toNat)) hmode hbound hnew p (descWords b)
    rw [haccept]
    exact ⟨_, e, rfl, haidx, he, hstate, hkind, hpair, hindex, hwords, hop.trans (descWords_opcode b), hlsn⟩
  · have htenant : pairTenant p = p / 8 := Nat.mod_eq_of_lt (by omega)
    rw [accept_of_mayAccept hmay, hi, hnone, htenant]
    change Host.Outcome.next (match asked.fetchOf _ with | some (.failed _ _) => _ | _ => asked) = _
    split
    next st d h => exact absurd h (hgood st d)
    · rfl

end Sys2Proof.Machine
end


section
/-! SUPPORT. The completion of a descriptor that holds the last reference on a RETIRING version (O30; R40, R47, R76, R82, R341). -/

namespace Sys2Proof.Machine

/-- A descriptor with a fixed result that reads version 1 of region 5, under l.lsn 0. -/
def lastReader : Entry := { lsn := 0, state := .committed, cpl := some {}, ref := some (5, 1) }

/-- The version is RETIRING and has no other reader, and the module gives l.lsn 0 next. The pair's completion ring lies behind a
CXL-up port. -/
def lastReaderState : State :=
  { ldg := { entries := [lastReader], nextLsn := 0 },
    rgn := { regions := [(5, { owner := 0, size := 65536, tier := 0, vers := [(1, { state := .retiring, refs := 1 })] })] },
    fab := { ports := [(0, { st := .up, role := roleUp })] } }

/-- The end of the version is recorded under l.lsn 0, and once that record is durable every entry of l.lsn 0 goes: the
descriptor's record is not written. -/
theorem widx_completeRec_lastReader : ((lastReaderState.completeRec 0).ring 0).widx = 0 := by decide +kernel

/-- Refutes O30: the statement does not ask that the descriptor's l.lsn lies below the next one, as that of every accepted
descriptor does (R341). Where it is the next one, the release of the last read reference on a RETIRING version logs the version's
end under the descriptor's own l.lsn and frees its entry with it, and WIDX stays. -/
theorem not_descriptorCompleteWritesRecord : ¬ Obligations.DescriptorCompleteWritesRecord := by
  unfold Obligations.DescriptorCompleteWritesRecord
  intro h
  obtain ⟨-, hwidx, -⟩ := h lastReaderState 0 lastReader {} rfl rfl rfl rfl rfl (fun hop => absurd hop (by decide)) rfl
    (by decide +kernel) (by decide +kernel)
  exact absurd (widx_completeRec_lastReader.symm.trans hwidx) (by decide +kernel)

end Sys2Proof.Machine
end


section
/-! SUPPORT. Writes of TQ_RING_CTL and TQ_TEN_RESET: which register the address reaches, what its fields take, and what the write does
to the pair or the tenant (O45; R7, R30, R53, R56–R58, R442, R450). -/

namespace Sys2Proof.Machine

/-! ### The register at an address (R442) -/

theorem locateIn_append {a : Nat} {l : List Reg} (h : ∀ r ∈ l, r.place.at? a = none) (m : List Reg) :
    locateIn (l ++ m) a = locateIn m a := by
  induction l with
  | nil => rfl
  | cons r l ih =>
    rw [List.cons_append, locateIn, h r List.mem_cons_self]
    exact ih fun x hx => h x (List.mem_cons_of_mem _ hx)

/-- A place covers nothing past its end. -/
theorem Place.at?_of_end_le {p : Place} {a : Nat} (hs : 0 < p.s1) (h : p.base + p.n1 * p.s1 ≤ a) : p.at? a = none := by
  have hpast : ¬(a - p.base) / p.s1 < p.n1 := Nat.not_lt.mpr ((Nat.le_div_iff_mul_le hs).mpr (by omega))
  unfold Place.at?
  split
  · rfl
  · exact if_neg fun h => hpast h.1

/-- TQ_RING_CTL of a pair lies past every register before it. -/
theorem locate_tqRingCtl {i : Nat} (hi : i < 2048) : locate (addrOf .tqRingCtl i) = some ⟨.tqRingCtl, i, 0⟩ := by
  have haddr : addrOf .tqRingCtl i = 0x520000 + 0x80 * i := by simp [addrOf, Loc.addr, Reg.place]; omega
  have hsplit : Reg.all = Reg.all.take 50 ++ .tqRingCtl :: Reg.all.drop 51 := rfl
  have hends : ∀ r ∈ Reg.all.take 50, 0 < r.place.s1 ∧ r.place.base + r.place.n1 * r.place.s1 ≤ 0x520000 := by decide
  have hself : Reg.tqRingCtl.place.at? (0x520000 + 0x80 * i) = some (i, 0) := by
    simp [Place.at?, Reg.place, hi]
  rw [haddr, locate, hsplit, locateIn_append fun r hr => Place.at?_of_end_le (hends r hr).1 (by have := (hends r hr).2; omega),
    locateIn, hself]

/-- TQ_TEN_RESET of a tenant lies past every register before it but TQ_TEN_CTL, whose words stand between. -/
theorem locate_tqTenReset {t : Nat} (ht : t < 256) : locate (addrOf .tqTenReset t) = some ⟨.tqTenReset, t, 0⟩ := by
  have haddr : addrOf .tqTenReset t = 0x501008 + 0x100 * t := by simp [addrOf, Loc.addr, Reg.place]; omega
  have hsplit : Reg.all = Reg.all.take 47 ++ .tqTenCtl :: .tqTenReset :: Reg.all.drop 49 := rfl
  have hends : ∀ r ∈ Reg.all.take 47, 0 < r.place.s1 ∧ r.place.base + r.place.n1 * r.place.s1 ≤ 0x501000 := by decide
  have hctl : Reg.tqTenCtl.place.at? (0x501008 + 0x100 * t) = none := by
    have hrest : (0x501008 + 0x100 * t - 0x501000) % 0x100 = 8 := by omega
    simp [Place.at?, Reg.place, hrest]
  have hself : Reg.tqTenReset.place.at? (0x501008 + 0x100 * t) = some (t, 0) := by
    simp [Place.at?, Reg.place, ht]
  rw [haddr, locate, hsplit, locateIn_append fun r hr => Place.at?_of_end_le (hends r hr).1 (by have := (hends r hr).2; omega),
    locateIn, hctl]
  dsimp only
  rw [locateIn, hself]

/-! ### A write that its register's fields take (R7, R450–R452) -/

/-- A register whose fields any source of the right world may write: none is read-only, lockable or of the secure world alone. -/
def openReg (r : Reg) : Prop := r ≠ .bbxCtl ∧ ∀ f ∈ r.flds, f.acc = .rw ∨ f.acc = .wo

theorem takes_of_accepts {s : State} {path : Path} {r : Reg} {i : Nat} (h : Accepts s path r i) (hr : openReg r) :
    ∀ f ∈ r.flds, s.takes ⟨r, i, 0⟩ (pathSecure path) f = .yes := by
  intro f hf
  obtain ⟨hbbx, hacc⟩ := hr
  have hworld : pathSecure path = true ∨ s.blockSecure (blockAt (⟨r, i, 0⟩ : Loc).addr).1 (blockAt (⟨r, i, 0⟩ : Loc).addr).2 = false :=
    h.world
  rcases hacc f hf with hf | hf <;> rcases hworld with hw | hw <;> simp [State.takes, secureOnly, hbbx, hf, hw]

/-- A register that is no block's control register has no LOCK. -/
theorem lockStays_of_ne {l : Loc} (h : ∀ b n, ctlOf b n ≠ l) (held : Nat) (x : Wr) : lockStays l held x = x := by
  rw [lockStays]
  exact if_neg (by simp [h])

/-- Neither reset register of the TQ block is a block's control register. -/
theorem ctlOf_ne {l : Loc} (h : l.reg = .tqRingCtl ∨ l.reg = .tqTenReset) (b n : Nat) : ctlOf b n ≠ l := by
  rintro rfl
  unfold ctlOf at h
  dsimp only at h
  split at h <;> simp at h

/-- An accepted write does what the register does with the fields of the value. -/
theorem writeBy_of_accepts {s : State} {path : Path} {r : Reg} {i : Nat} (h : Accepts s path r i) (hr : openReg r)
    (hloc : locate (addrOf r i) = some ⟨r, i, 0⟩) (halign : addrOf r i % 8 = 0) (hctl : ∀ b n, ctlOf b n ≠ ⟨r, i, 0⟩) (v : W64) :
    s.writeBy path (addrOf r i) v =
      let x := s.sortWrite ⟨r, i, 0⟩ (pathSecure path) v.toNat
      if x.any then s.effect ⟨r, i, 0⟩ (pathSecure path) x else s := by
  have hreach : s.reach (addrOf r i) = .ok ⟨r, i, 0⟩ := by simp [State.reach, halign, hloc, h.served]
  have hyes := takes_of_accepts h hr
  have hcause : s.writeCause ⟨r, i, 0⟩ (pathSecure path) v.toNat = none := by
    have hnone : ∀ t, t ≠ .yes → (r.flds.any fun f => s.takes ⟨r, i, 0⟩ (pathSecure path) f = t &&
        f.changes (s.heldWord ⟨r, i, 0⟩) v.toNat) = false := fun t ht => by
      rw [List.any_eq_false]
      intro f hf
      simp [hyes f hf, Ne.symm ht]
    simp [State.writeCause, hnone]
  simp [State.writeBy, h.opened, regWrite_of_reach hreach, State.writeLoc, hcause, lockStays_of_ne hctl, State.when]

/-! ### TQ_RING_CTL (R30, R53, R56) -/

/-- The location of a pair's TQ_RING_CTL. -/
abbrev ringLoc (p : Nat) : Loc := ⟨.tqRingCtl, p, 0⟩

theorem sortWrite_ring {s : State} {sec : Bool} {p : Nat} (h : ∀ f ∈ Reg.tqRingCtl.flds, s.takes (ringLoc p) sec f = .yes) (v : Nat) :
    s.sortWrite (ringLoc p) sec v =
      { w := insBits (insBits (insBits (s.word (ringLoc p)) 0 0 (bits v 0 0)) 11 8 (bits v 11 8)) 15 12 (bits v 15 12),
        act := insBits 0 16 16 (bits v 16 16), any := true } := by
  simp only [Reg.flds, List.mem_cons, List.not_mem_nil, or_false, forall_eq_or_imp, forall_eq] at h
  obtain ⟨h₀, h₁, h₂, h₃⟩ := h
  simp [State.sortWrite, Reg.flds, h₀, h₁, h₂, h₃, State.heldWord]

theorem bit_iff (w n : Nat) : bit w n = true ↔ w / 2 ^ n % 2 = 1 := decide_eq_true_iff

theorem enable_sortWrite {s : State} {sec : Bool} {p : Nat} (h : ∀ f ∈ Reg.tqRingCtl.flds, s.takes (ringLoc p) sec f = .yes) (v : Nat) :
    bit (s.sortWrite (ringLoc p) sec v).w 0 = bit v 0 := by
  rw [sortWrite_ring h, Bool.eq_iff_iff, bit_iff, bit_iff]
  simp only [insBits, bits]
  omega

theorem reset_sortWrite {s : State} {sec : Bool} {p : Nat} (h : ∀ f ∈ Reg.tqRingCtl.flds, s.takes (ringLoc p) sec f = .yes) (v : Nat) :
    bit (s.sortWrite (ringLoc p) sec v).act 16 = bit v 16 := by
  rw [sortWrite_ring h, Bool.eq_iff_iff, bit_iff, bit_iff]
  simp only [insBits, bits]
  omega

/-- A write of TQ_RING_CTL that is accepted. -/
theorem writeBy_ring {s : State} {path : Path} {pair : Pair} (h : Accepts s path .tqRingCtl pair.val) (v : W64) :
    s.writeBy path (addrOf .tqRingCtl pair.val) v =
      s.writeRing (ringLoc pair.val) (s.sortWrite (ringLoc pair.val) (pathSecure path) v.toNat) := by
  have hopen : openReg .tqRingCtl := by simp [openReg, Reg.flds]
  have halign : addrOf .tqRingCtl pair.val % 8 = 0 := by simp [addrOf, Loc.addr, Reg.place]; omega
  rw [writeBy_of_accepts h hopen (locate_tqRingCtl pair.isLt) halign (ctlOf_ne (.inl rfl))]
  dsimp only
  rw [sortWrite_ring (takes_of_accepts h hopen)]
  rfl

theorem takes_ring {s : State} {path : Path} {p : Nat} (h : Accepts s path .tqRingCtl p) :
    ∀ f ∈ Reg.tqRingCtl.flds, s.takes (ringLoc p) (pathSecure path) f = .yes :=
  takes_of_accepts h (by simp [openReg, Reg.flds])

/-- ENABLE set on a pair that is off: the sizes are held and the pair is checked. -/
theorem writeRing_enables {s : State} {p : Nat} {x : Wr} (hon : bit x.w 0 = true) (hreset : bit x.act 16 = false)
    (hoff : s.flag F.tqRingCtlEnable p = false) (hidle : (s.ring p).resetting = none) :
    s.writeRing (ringLoc p) x = ((s.setWord (ringLoc p) (insBits x.w 0 0 0)).enablePair p).noteRing p := by
  have hidle' : ((s.setWord (ringLoc p) (insBits x.w 0 0 0)).ring p).resetting = none := hidle
  simp [State.writeRing, hon, hreset, hoff, hidle', State.when]

/-- ENABLE cleared on a pair that is on. -/
theorem writeRing_disables {s : State} {p : Nat} {x : Wr} (hoff : bit x.w 0 = false) (hreset : bit x.act 16 = false)
    (hon : s.flag F.tqRingCtlEnable p = true) (hidle : (s.ring p).resetting = none) :
    s.writeRing (ringLoc p) x = ((s.setFld F.tqRingCtlEnable 0 p).dropFetches (isFetchOf p)).noteRing p := by
  simp [State.writeRing, hon, hreset, hoff, hidle, State.when]

/-- RESET written with ENABLE on a pair that is on. -/
theorem writeRing_resets {s : State} {p : Nat} {x : Wr} (hstays : bit x.w 0 = true) (hreset : bit x.act 16 = true)
    (hon : s.flag F.tqRingCtlEnable p = true) (hidle : (s.ring p).resetting = none) :
    s.writeRing (ringLoc p) x =
      (((s.noteRing p).modRing p (fun r => { r with resetting := some 0x0201 })).dropFetches (isFetchOf p)).goOn := by
  have hidle' : ((s.noteRing p).ring p).resetting = none := by
    rw [unsent_ring.noteRing]
    exact hidle
  simp [State.writeRing, State.startRingReset, hstays, hreset, hon, hidle, hidle', State.when]

/-- The value RING_RESET writes: the register's own fields, with RESET. -/
theorem withField_reset (s : State) (p : Nat) :
    bit (s.withField .tqRingCtl p 16 16 1).toNat 0 = s.flag F.tqRingCtlEnable p ∧
      bit (s.withField .tqRingCtl p 16 16 1).toNat 16 = true := by
  simp [State.withField, State.rwWord, Reg.flds, State.heldWord, sumOf, put, bit, insBits, bits, State.flag, State.fld,
    F.tqRingCtlEnable, Fix.read]
  omega

/-! ### TQ_TEN_RESET (R57, R58) -/

theorem writeBy_tenReset {s : State} {path : Path} {t : Tenant} (h : Accepts s path .tqTenReset t.val) :
    s.writeBy path (addrOf .tqTenReset t.val) 1 = s.writeTenReset t.val := by
  have hopen : openReg .tqTenReset := by simp [openReg, Reg.flds]
  have halign : addrOf .tqTenReset t.val % 8 = 0 := by simp [addrOf, Loc.addr, Reg.place]; omega
  have htakes := takes_of_accepts h hopen
  simp only [Reg.flds, List.mem_singleton, forall_eq] at htakes
  rw [writeBy_of_accepts h hopen (locate_tqTenReset t.isLt) halign (ctlOf_ne (.inr rfl))]
  simp [State.sortWrite, Reg.flds, htakes, State.effect, bit, insBits, bits]

/-- Settles O45: what each write of TQ_RING_CTL and TQ_TEN_RESET sorts into, and what the write then does. -/
theorem ringsTurnOnAndReset : Obligations.RingsTurnOnAndReset := by
  intro s path
  refine ⟨fun pair v h hon hreset hoff hidle => ?_, fun pair v h hoff hreset hon hidle => ?_, fun pair h hon hidle => ?_,
    fun t h hidle => ?_⟩
  · intro l u
    have hexec : exec (.ringEnable path pair v) s = .next ((u.enablePair pair.val).noteRing pair.val) := by
      refine congrArg Host.Outcome.next ((writeBy_ring h v).trans (writeRing_enables ?_ ?_ hoff hidle))
      · rw [enable_sortWrite (takes_ring h), hon]
      · rw [reset_sortWrite (takes_ring h), hreset]
    rw [hexec, State.enablePair]
    exact ⟨fun hgood => by rw [hgood], fun c hbad => by rw [hbad]⟩
  · refine congrArg Host.Outcome.next ((writeBy_ring h v).trans (writeRing_disables ?_ ?_ hon hidle))
    · rw [enable_sortWrite (takes_ring h), hoff]
    · rw [reset_sortWrite (takes_ring h), hreset]
  · obtain ⟨hkeeps, hresets⟩ := withField_reset s pair.val
    refine congrArg Host.Outcome.next ((writeBy_ring h _).trans (writeRing_resets ?_ ?_ hon hidle))
    · rw [enable_sortWrite (takes_ring h), hkeeps, hon]
    · rw [reset_sortWrite (takes_ring h), hresets]
  · have hexec : exec (.tenantReset path t) s = .next (s.writeTenReset t.val) := congrArg Host.Outcome.next (writeBy_tenReset h)
    rw [hexec, State.writeTenReset, if_neg (by simp [hidle])]
    exact ⟨fun hrun => by rw [if_pos hrun], fun hstop => by rw [if_neg (by simp [hstop])]⟩

end Sys2Proof.Machine
end


section
/-! SUPPORT. The shelf commands: what the words of RGN_SHELF_CMD and SEC_SHELF_CMD sort into, and what a command does to a shelf
that it reaches (O46; R65–R67, R90, R371, R373). -/

namespace Sys2Proof.Machine

/-! ### Words and fields (R1, R7) -/

/-- Bits taken over above the low ones of a number. -/
theorem insBits_low {lo hi : Nat} (h : lo ≤ hi + 1) (v : Nat) : insBits (v % 2 ^ lo) hi lo (bits v hi lo) = v % 2 ^ (hi + 1) := by
  have hbits : bits (v % 2 ^ lo) hi lo = 0 := by
    rw [bits, Nat.div_eq_of_lt (Nat.mod_lt _ (Nat.two_pow_pos lo)), Nat.zero_mod]
  have hmod : bits v hi lo % 2 ^ (hi + 1 - lo) = bits v hi lo := Nat.mod_mod ..
  have hpow : 2 ^ (hi + 1) = 2 ^ lo * 2 ^ (hi + 1 - lo) := by rw [← pow_add, Nat.add_sub_cancel' h]
  rw [insBits, hbits, hmod, hpow, Nat.mod_mul, bits, Nat.zero_mul, Nat.sub_zero, Nat.mul_comm]

theorem locate_rgnShelfCmd : locate (addrOf .rgnShelfCmd) = some ⟨.rgnShelfCmd, 0, 0⟩ := rfl
theorem locate_secShelfCmd : locate (addrOf .secShelfCmd) = some ⟨.secShelfCmd, 0, 0⟩ := rfl


theorem ctlOf_ne_shelfCmd {l : Loc} (h : l.reg = .rgnShelfCmd ∨ l.reg = .secShelfCmd) (b n : Nat) : ctlOf b n ≠ l := by
  rintro rfl
  unfold ctlOf at h
  dsimp only at h
  split at h <;> simp at h

/-- A write all of whose fields are taken does what the register does with them. -/
theorem writeBy_of_takes {s : State} {path : Path} {r : Reg} {i : Nat} (h : Accepts s path r i)
    (hyes : ∀ f ∈ r.flds, s.takes ⟨r, i, 0⟩ (pathSecure path) f = .yes)
    (hloc : locate (addrOf r i) = some ⟨r, i, 0⟩) (halign : addrOf r i % 8 = 0) (hctl : ∀ b n, ctlOf b n ≠ ⟨r, i, 0⟩) (v : W64) :
    s.writeBy path (addrOf r i) v =
      let x := s.sortWrite ⟨r, i, 0⟩ (pathSecure path) v.toNat
      if x.any then s.effect ⟨r, i, 0⟩ (pathSecure path) x else s := by
  have hreach : s.reach (addrOf r i) = .ok ⟨r, i, 0⟩ := by simp [State.reach, halign, hloc, h.served]
  have hcause : s.writeCause ⟨r, i, 0⟩ (pathSecure path) v.toNat = none := by
    have hnone : ∀ t, t ≠ .yes → (r.flds.any fun f => s.takes ⟨r, i, 0⟩ (pathSecure path) f = t &&
        f.changes (s.heldWord ⟨r, i, 0⟩) v.toNat) = false := fun t ht =>
      List.any_eq_false.mpr fun f hf => by simp [hyes f hf, Ne.symm ht]
    simp [State.writeCause, hnone]
  simp [State.writeBy, h.opened, regWrite_of_reach hreach, State.writeLoc, hcause, lockStays_of_ne hctl, State.when]

/-! ### RGN_SHELF_CMD (R65, R90) -/

theorem sortWrite_rgnShelfCmd {s : State} {sec : Bool}
    (h : ∀ f ∈ Reg.rgnShelfCmd.flds, s.takes ⟨.rgnShelfCmd, 0, 0⟩ sec f = .yes) (v : Nat) :
    s.sortWrite ⟨.rgnShelfCmd, 0, 0⟩ sec v = { w := s.heldWord ⟨.rgnShelfCmd, 0, 0⟩, act := v % 2 ^ 34, any := true } := by
  have hact : insBits (insBits (insBits (insBits (insBits (insBits (v % 2 ^ 0) 3 0 (bits v 3 0)) 5 4 (bits v 5 4)) 6 6 (bits v 6 6))
      7 7 (bits v 7 7)) 15 8 (bits v 15 8)) 33 16 (bits v 33 16) = v % 2 ^ 34 := by
    iterate 6 rw [insBits_low (by decide)]
  rw [pow_zero, Nat.mod_one] at hact
  simp only [Reg.flds, List.mem_cons, List.not_mem_nil, or_false, forall_eq_or_imp, forall_eq] at h
  obtain ⟨h₀, h₁, h₂, h₃, h₄, h₅⟩ := h
  simp only [State.sortWrite, Reg.flds, List.foldl_cons, List.foldl_nil, h₀, h₁, h₂, h₃, h₄, h₅, ne_eq, not_true_eq_false, if_false,
    hact]

theorem effect_rgnShelfCmd (s : State) (sec : Bool) (x : Wr) :
    s.effect ⟨.rgnShelfCmd, 0, 0⟩ sec x = (s.shelfCmdWord sec x.act).goOn := rfl

/-- A write of RGN_SHELF_CMD that is accepted. -/
theorem writeBy_rgnShelfCmd {s : State} {path : Path} (h : Accepts s path .rgnShelfCmd 0) (v : W64) :
    s.writeBy path (addrOf .rgnShelfCmd) v = (s.shelfCmdWord (pathSecure path) (v.toNat % 2 ^ 34)).goOn := by
  have hyes := takes_of_accepts h (by simp [openReg, Reg.flds])
  rw [writeBy_of_takes h hyes locate_rgnShelfCmd rfl (ctlOf_ne_shelfCmd (.inl rfl))]
  dsimp only
  rw [sortWrite_rgnShelfCmd hyes, if_pos rfl, effect_rgnShelfCmd]

theorem b2n_lt (b : Bool) : b2n b < 2 := by cases b <;> decide

theorem bit_eq {w n : Nat} {b : Bool} (h : w / 2 ^ n % 2 = b2n b) : bit w n = b := by
  rw [bit, h]
  cases b <;> rfl

/-- The word of a shelf command gives the command. -/
theorem shelfCmdWord_shelfWord {op tier idx tenant : Nat} (hop : op < 16) (htier : tier < 4) (hidx : idx < 2 ^ 18)
    (htenant : tenant < 256) (s : State) (secure force common : Bool) :
    s.shelfCmdWord secure ((shelfWord op tier idx force common tenant).toNat % 2 ^ 34) =
      s.shelfCmd secure op tier idx force common tenant := by
  have hf := b2n_lt force
  have hc := b2n_lt common
  obtain ⟨v, hv, hword⟩ : ∃ v, v = (shelfWord op tier idx force common tenant).toNat % 2 ^ 34 ∧
      v = op + 16 * tier + 64 * b2n force + 128 * b2n common + 256 * tenant + 65536 * idx := by
    refine ⟨_, rfl, ?_⟩
    rw [shelfWord, BitVec.toNat_ofNat, Nat.mod_eq_of_lt htier, Nat.mod_eq_of_lt hidx]
    omega
  rw [← hv, State.shelfCmdWord, show bits v 3 0 = op by unfold bits; omega, show bits v 5 4 = tier by unfold bits; omega,
    show bits v 33 16 = idx by unfold bits; omega, show bit v 6 = force from bit_eq (by omega),
    show bit v 7 = common from bit_eq (by omega), show bits v 15 8 = tenant by unfold bits; omega]

/-- A command that writes RGN_SHELF_CMD gives its shelf command, and what waits goes on. -/
theorem checked_shelfWord {s : State} {path : Path} {i : Instr} (hwf : i.wf = true) (h : Accepts s path .rgnShelfCmd 0)
    {op idx tenant : Nat} (hop : op < 16) (hidx : idx < 2 ^ 18) (htenant : tenant < 256) (tier : Tier) (force common : Bool) :
    checked s i (s.writeBy path (addrOf .rgnShelfCmd) (shelfWord op tier.val idx force common tenant)) =
      .next (s.shelfCmd (pathSecure path) op tier.val idx force common tenant).goOn := by
  rw [checked_of_wf hwf, writeBy_rgnShelfCmd h, shelfCmdWord_shelfWord hop tier.isLt hidx htenant]

/-! ### Shelf commands (R65, R371) -/

section
variable {s : State} {secure force common : Bool} {tier idx tenant : Nat} {h : Shelf}

/-- A command for a shelf that does not exist. -/
theorem shelfCmd_of_none (hbusy : s.rgn.cmdBusy = false) (hnone : s.shelf tier idx = none) {op : Nat} (h0 : 0 < op) (h3 : op ≤ 3) :
    s.shelfCmd secure op tier idx force common tenant = s.shelfResult 1 := by
  have hop : ¬op = 0 ∧ ¬op > 3 := by omega
  simp [State.shelfCmd, hbusy, hnone, hop]

/-- A command reaches its shelf: none runs, and the shelf is no system shelf nor of a world the source is not of. -/
structure ShelfOpen (s : State) (secure : Bool) (tier idx : Nat) (h : Shelf) : Prop where
  shelf : s.shelf tier idx = some h
  free : s.rgn.cmdBusy = false
  world : h.secure = true → secure = true
  notSystem : h.st ≠ .system

variable (ho : ShelfOpen s secure tier idx h)
include ho

theorem ShelfOpen.shelfCmd_eq {op : Nat} (h0 : 0 < op) (h3 : op ≤ 3) (hc : op = 1 → common = true → tenant = 0) :
    s.shelfCmd secure op tier idx force common tenant =
      if op = 1 then if h.st = .free then s.assignShelf tier idx tenant common else s.shelfResult 2
      else if op = 2 then
        if h.st ≠ .assigned then s.shelfResult 2
        else if force then s.forceRevoke tier idx else s.evacuate tier idx h
      else if h.st = .offline then (s.startScrub tier idx).shelfResult 0 else s.shelfResult 2 := by
  have hworld : (h.secure && !secure) = false := by
    cases hs : h.secure
    · rfl
    · rw [ho.world hs]; rfl
  have hop : ¬op = 0 ∧ ¬op > 3 := by omega
  have hcommon : ¬(op = 1 ∧ common = true ∧ tenant ≠ 0) := fun ⟨h1, hcom, ht⟩ => ht (hc h1 hcom)
  simp only [State.shelfCmd, ho.shelf, hworld, ho.free, ho.notSystem]
  rw [if_neg (by simp), if_neg (by simp [hop]), if_neg not_false, if_neg (by simpa [and_assoc] using hcommon)]

/-- ASSIGN takes a FREE shelf. -/
theorem ShelfOpen.assign (hc : common = true → tenant = 0) :
    s.shelfCmd secure 1 tier idx force common tenant =
      if h.st = .free then s.assignShelf tier idx tenant common else s.shelfResult 2 :=
  ho.shelfCmd_eq (by decide) (by decide) fun _ => hc

/-- REVOKE takes an ASSIGNED shelf. -/
theorem ShelfOpen.revoke :
    s.shelfCmd secure 2 tier idx force common tenant =
      if h.st ≠ .assigned then s.shelfResult 2 else if force then s.forceRevoke tier idx else s.evacuate tier idx h :=
  ho.shelfCmd_eq (by decide) (by decide) fun h1 => nomatch h1

/-- ONLINE takes an OFFLINE shelf. -/
theorem ShelfOpen.online :
    s.shelfCmd secure 3 tier idx force common tenant =
      if h.st = .offline then (s.startScrub tier idx).shelfResult 0 else s.shelfResult 2 :=
  ho.shelfCmd_eq (by decide) (by decide) fun h1 => nomatch h1

end

theorem evacuate_of_full {s : State} {tier idx : Nat} {h : Shelf} (hfull : (s.idsOn tier idx).length > s.evacRoom tier idx h) :
    s.evacuate tier idx h = s.shelfResult 3 := if_pos hfull

/-! ### SEC_SHELF_CMD (R371, R373) -/

/-- Only a secure path reaches the SEC block, and it may write every field of SEC_SHELF_CMD. -/
theorem takes_secShelfCmd {s : State} {path : Path} (h : Accepts s path .secShelfCmd 0) :
    ∀ f ∈ Reg.secShelfCmd.flds, s.takes ⟨.secShelfCmd, 0, 0⟩ (pathSecure path) f = .yes := by
  have hsecure : pathSecure path = true := h.world.resolve_right (by simp [State.blockSecure, blockAt, addrOf, Loc.addr, Reg.place])
  intro f hf
  have hacc : f.acc = .rws := by
    simp only [Reg.flds, List.mem_cons, List.not_mem_nil, or_false] at hf
    rcases hf with rfl | rfl | rfl <;> rfl
  simp [State.takes, hacc, hsecure]

theorem sortWrite_secShelfCmd {s : State} {sec : Bool}
    (h : ∀ f ∈ Reg.secShelfCmd.flds, s.takes ⟨.secShelfCmd, 0, 0⟩ sec f = .yes) (v : Nat) :
    ∃ w, s.sortWrite ⟨.secShelfCmd, 0, 0⟩ sec v = { w := w, act := 0, any := true } ∧
      bits w 1 0 = bits v 1 0 ∧ bit w 2 = bit v 2 ∧ bits w 35 16 = bits v 35 16 := by
  simp only [Reg.flds, List.mem_cons, List.not_mem_nil, or_false, forall_eq_or_imp, forall_eq] at h
  obtain ⟨h₀, h₁, h₂⟩ := h
  generalize hheld : s.heldWord ⟨.secShelfCmd, 0, 0⟩ = k
  refine ⟨insBits (insBits (insBits k 1 0 (bits v 1 0)) 2 2 (bits v 2 2)) 35 16 (bits v 35 16), ?_, ?_, ?_, ?_⟩
  · simp [State.sortWrite, Reg.flds, h₀, h₁, h₂, hheld]
  · simp only [insBits, bits]
    omega
  · rw [Bool.eq_iff_iff, bit_iff, bit_iff]
    simp only [insBits, bits]
    omega
  · simp only [insBits, bits]
    omega

theorem effect_secShelfCmd (s : State) (sec : Bool) (x : Wr) :
    s.effect ⟨.secShelfCmd, 0, 0⟩ sec x = (s.setWord ⟨.secShelfCmd, 0, 0⟩ x.w).shelfWorld x.w := rfl

/-- What the word of SEC_SHELF_CMD gives. -/
theorem bits_shelfWorldWord (tier : Tier) {idx : Nat} (hidx : idx < 2 ^ 18) (secure : Bool) :
    let v := (BitVec.ofNat 64 (put 1 0 tier.val + putB 2 secure + put 35 16 idx)).toNat
    bits v 1 0 = tier.val ∧ bit v 2 = secure ∧ bits v 35 16 = idx := by
  intro v
  have hs := b2n_lt secure
  have htier := tier.isLt
  have hv : v = tier.val + 4 * b2n secure + 65536 * idx := by
    simp only [v, put, putB, BitVec.toNat_ofNat]
    omega
  exact ⟨by unfold bits; omega, bit_eq (by omega), by unfold bits; omega⟩

/-- A write of SEC_SHELF_CMD that is accepted sets the register, and the world of the shelf it names when it is FREE. -/
theorem writeBy_secShelfCmd {s : State} {path : Path} (h : Accepts s path .secShelfCmd 0) (tier : Tier) {idx : Nat}
    (hidx : idx < 2 ^ 18) (secure : Bool) :
    ∃ w, s.writeBy path (addrOf .secShelfCmd) (BitVec.ofNat 64 (put 1 0 tier.val + putB 2 secure + put 35 16 idx)) =
      (s.setWord ⟨.secShelfCmd, 0, 0⟩ w).shelfWorld w ∧ bits w 1 0 = tier.val ∧ bit w 2 = secure ∧ bits w 35 16 = idx := by
  have hyes := takes_secShelfCmd h
  obtain ⟨htier, hsecure, hidx'⟩ := bits_shelfWorldWord tier hidx secure
  generalize BitVec.ofNat 64 (put 1 0 tier.val + putB 2 secure + put 35 16 idx) = v at htier hsecure hidx'
  obtain ⟨w, hw, hwt, hws, hwi⟩ := sortWrite_secShelfCmd hyes v.toNat
  refine ⟨w, ?_, hwt.trans htier, hws.trans hsecure, hwi.trans hidx'⟩
  rw [writeBy_of_takes h hyes locate_secShelfCmd rfl (ctlOf_ne_shelfCmd (.inr rfl))]
  dsimp only
  rw [hw, if_pos rfl, effect_secShelfCmd]

section
variable {s : State} {path : Path} {idx : Nat} (h : Accepts s path .rgnShelfCmd 0) (hidx : idx < 2 ^ 18) (tier : Tier)
include h hidx

theorem exec_shelfAssign (tenant : Tenant) (common : Bool) : exec (.shelfAssign path tier idx tenant common) s =
    .next (s.shelfCmd (pathSecure path) 1 tier.val idx false common tenant.val).goOn :=
  checked_shelfWord (i := .shelfAssign path tier idx tenant common) (decide_eq_true hidx) h (by decide) hidx tenant.isLt ..

theorem exec_shelfRevokeEvacuate : exec (.shelfRevokeEvacuate path tier idx) s =
    .next (s.shelfCmd (pathSecure path) 2 tier.val idx false false 0).goOn :=
  checked_shelfWord (i := .shelfRevokeEvacuate path tier idx) (decide_eq_true hidx) h (by decide) hidx (by decide) ..

theorem exec_shelfRevokeForce : exec (.shelfRevokeForce path tier idx) s =
    .next (s.shelfCmd (pathSecure path) 2 tier.val idx true false 0).goOn :=
  checked_shelfWord (i := .shelfRevokeForce path tier idx) (decide_eq_true hidx) h (by decide) hidx (by decide) ..

theorem exec_shelfOnline : exec (.shelfOnline path tier idx) s =
    .next (s.shelfCmd (pathSecure path) 3 tier.val idx false false 0).goOn :=
  checked_shelfWord (i := .shelfOnline path tier idx) (decide_eq_true hidx) h (by decide) hidx (by decide) ..

end

/-- Settles O46: each command's word gives its shelf command, and what that does to a shelf it reaches. -/
theorem shelfCommandsAct : Obligations.ShelfCommandsAct := by
  intro s path tier idx hidx
  refine ⟨fun hacc hfree => ⟨fun h hshelf hworld hsys => ?reached, fun hnone tenant common => ?missing⟩, fun secure hacc => ?world⟩
  case reached =>
    have ho : ShelfOpen s (pathSecure path) tier.val idx h := ⟨hshelf, hfree, hworld, hsys⟩
    refine ⟨fun tenant common hcommon => ?_, ?_, ?_, ?_⟩
    · rw [exec_shelfAssign hacc hidx, ho.assign hcommon, apply_ite State.goOn]
      rfl
    · rw [exec_shelfRevokeEvacuate hacc hidx, ho.revoke, apply_ite State.goOn, if_neg Bool.false_ne_true]
      by_cases hfull : (s.idsOn tier.val idx).length > s.evacRoom tier.val idx h
      · rw [evacuate_of_full hfull, if_pos hfull]
      · rw [if_neg hfull]
    · rw [exec_shelfRevokeForce hacc hidx, ho.revoke, apply_ite State.goOn, if_pos rfl]
    · rw [exec_shelfOnline hacc hidx, ho.online, apply_ite State.goOn]
      rfl
  case missing =>
    rw [exec_shelfAssign hacc hidx, shelfCmd_of_none hfree hnone (by decide) (by decide)]
  case world =>
    obtain ⟨w, hw, htier, hsecure, hidx'⟩ := writeBy_secShelfCmd hacc tier hidx secure
    have hwf : (Instr.shelfWorldSet path tier idx secure).wf = true := decide_eq_true (by omega)
    refine ⟨s.setWord ⟨.secShelfCmd, 0, 0⟩ w, rfl, (checked_of_wf hwf ..).trans (congrArg Host.Outcome.next (hw.trans ?_))⟩
    rw [State.shelfWorld, htier, hsecure, hidx']
    rfl

end Sys2Proof.Machine
end


section
/-! SUPPORT. What a shelf, a register and the clock read as after a change, and how shelves drain, are scrubbed and come back or go
OFFLINE (O40; R65–R67, R371, R396, R413, R454). -/

namespace Sys2Proof.Machine

/-! ### Shelves as they read (R61, R62) -/

/-- What a shelf that is no system shelf reads as after a change of it. -/
theorem shelf_modShelf_self {s : State} {tier idx : Nat} {h : Shelf} (hshelf : s.shelf tier idx = some h) (hst : h.st ≠ .system)
    (f : Shelf → Shelf) : (s.modShelf tier idx f).shelf tier idx = some (f h) := by
  obtain ⟨hidx, hread⟩ := Option.ite_none_right_eq_some.mp hshelf
  have hsys : isSystemShelf tier idx = false := by
    by_contra hsys
    rw [if_pos (by simpa using hsys)] at hread
    exact hst (Option.some.inj hread ▸ rfl)
  rw [if_neg (by simp [hsys])] at hread
  refine (if_pos hidx).trans ?_
  rw [if_neg (by simp [hsys])]
  change some (Tbl.rd {} (Tbl.upd {} (shelfKey tier idx) f s.rgn.shelves) (shelfKey tier idx)) = _
  rw [Tbl.rd_upd_self, Option.some.inj hread]

/-- The passing of time leaves regions, pages and shelves alone. -/
theorem advance_rgn (s : State) (dt : Nat) : (s.advance dt).rgn = s.rgn := by
  by_cases hdt : dt = 0
  · subst hdt
    rfl
  · obtain ⟨q, r, a, b, c, h⟩ := advance_eq s hdt
    rw [h]

theorem waitTill_rgn (s : State) (t : Nat) : (s.waitTill t).rgn = s.rgn := advance_rgn ..

theorem shelf_of_rgn {s u : State} (h : u.rgn = s.rgn) (tier idx : Nat) : u.shelf tier idx = s.shelf tier idx := by
  rw [State.shelf, State.shelfCount, h]
  rfl

/-! ### Register words (R7, R442) -/

/-- A strongbox record writes no register but BBX_STS. -/
theorem word_bbxLog {l : Loc} (hl : l.addr ≠ addrOf .bbxSts) (s : State) (kind cls index : Nat) (data : List Byte)
    (ident tenant job position : Nat) : (s.bbxLog kind cls index data ident tenant job position).word l = s.word l := by
  have hdrop : ∀ s : State, s.bbxDrop.word l = s.word l := fun s => State.word_setWord_ne s _ l _ hl
  obtain ⟨b, hpulse⟩ := bbxPulse_eq (s.bbxQueue (s.bbxForm kind cls index data ident tenant job position))
  rw [State.bbxLog, hpulse]
  change (s.bbxQueue _).word l = s.word l
  unfold State.bbxQueue
  extract_lets q low q'
  split
  · rfl
  · split
    · exact hdrop s
    · exact hdrop _

/-- SCRUB_FAIL is bit 20 of RGN_STS. -/
theorem flag_scrubFail (s : State) : s.flag F.rgnStsScrubFail = decide (bits (s.word ⟨.rgnSts, 0, 0⟩) 20 20 = 1) := rfl

theorem flag_scrubFail_setFld (s : State) : (s.setFld F.rgnStsScrubFail 1).flag F.rgnStsScrubFail = true := by
  have hset : s.setFld F.rgnStsScrubFail 1 = s.setWord ⟨.rgnSts, 0, 0⟩ (insBits (s.word ⟨.rgnSts, 0, 0⟩) 20 20 1) := rfl
  rw [hset, flag_scrubFail, State.word_setWord_self _ _ _ (by decide), decide_eq_true_iff]
  simp only [bits, insBits]
  omega

/-! ### Draining and scrubbing (R65–R67) -/

theorem evacDone_of_empty {s : State} {tier idx k : Nat} {m : MoveJob} (hrun : s.running = true)
    (hmove : s.evacMove tier idx = some (k, m)) (hempty : s.idsOn tier idx = []) :
    s.evacDone tier idx =
      (State.drainShelf { s with tier := { s.tier with moves := Tbl.del k s.tier.moves } } tier idx).shelfResult 0 := by
  simp [State.evacDone, hmove, hrun, hempty]

theorem drained_of_zero {s : State} {tier idx : Nat} {h : Shelf} (hshelf : s.shelf tier idx = some h) (hst : h.st = .draining)
    (hzero : s.drainCount tier idx = 0) : s.drained tier idx = s.startScrub tier idx := by
  simp [State.drained, hshelf, hst, hzero]

theorem drained_of_pos {s : State} {tier idx : Nat} (hpos : s.drainCount tier idx ≠ 0) : s.drained tier idx = s := by
  unfold State.drained
  split
  · exact if_neg (by simp [hpos])
  · rfl

theorem scrubbed_of_scrubbing {s : State} {tier idx : Nat} {h : Shelf} (hshelf : s.shelf tier idx = some h)
    (hst : h.st = .scrubbing) :
    s.scrubbed tier idx = (s.wipeShelf tier idx).modShelf tier idx (fun _ => {}) := by
  simp [State.scrubbed, hshelf, hst]

/-- No page is left on a shelf that was wiped. -/
theorem idsOn_wipeShelf (s : State) (tier idx : Nat) : (s.wipeShelf tier idx).idsOn tier idx = [] := by
  refine List.map_eq_nil_iff.mpr (List.filter_eq_nil_iff.mpr fun e he hon => ?_)
  obtain ⟨he, hkept⟩ := List.mem_filter.mp he
  have hmem : e.1 ∈ s.idsOn tier idx := List.mem_map_of_mem (List.mem_filter.mpr ⟨he, hon⟩)
  have hgone : ∀ x ∈ s.idsOn tier idx, x ≠ e.1 := by simpa using hkept
  exact hgone e.1 hmem rfl

theorem rgn_bbxLog (s : State) (kind cls index : Nat) (data : List Byte) (ident tenant job position : Nat) :
    (s.bbxLog kind cls index data ident tenant job position).rgn = s.rgn := by
  obtain ⟨w, b, h⟩ := bbxLog_eq s kind cls index data ident tenant job position
  rw [h]

theorem time_bbxLog (s : State) (kind cls index : Nat) (data : List Byte) (ident tenant job position : Nat) :
    (s.bbxLog kind cls index data ident tenant job position).time = s.time := by
  obtain ⟨w, b, h⟩ := bbxLog_eq s kind cls index data ident tenant job position
  rw [h]

/-- The scrub of a shelf is given up at the first tick at or after `t`. -/
def State.scrubFails (s : State) (tier idx t : Nat) : State :=
  (((s.waitTill t).modShelf tier idx (fun h => { h with st := .offline })).setFld F.rgnStsScrubFail 1).bbxLog 0x0C 0 0
    (leBytes 1 tier ++ leBytes 4 idx)

theorem scrubLate_of_scrubbing {s : State} {tier idx : Nat} {h : Shelf} (hshelf : s.shelf tier idx = some h)
    (hst : h.st = .scrubbing) :
    s.scrubLate tier idx = s.scrubFails tier idx (h.scrubAt + 10000000000) := by
  rw [State.scrubLate, hshelf]
  dsimp only
  rw [if_pos hst]
  rfl

theorem shelf_scrubFails {s : State} {tier idx : Nat} {h : Shelf} (hshelf : s.shelf tier idx = some h) (hst : h.st = .scrubbing)
    (t : Nat) : (s.scrubFails tier idx t).shelf tier idx = some { h with st := .offline } := by
  have hlater : (s.waitTill t).shelf tier idx = some h := (shelf_of_rgn (waitTill_rgn ..) ..).trans hshelf
  rw [State.scrubFails, shelf_of_rgn (rgn_bbxLog ..), shelf_of_rgn (State.setFld_rgn ..)]
  exact shelf_modShelf_self hlater (by simp [hst]) _

theorem flag_scrubFails (s : State) (tier idx t : Nat) : (s.scrubFails tier idx t).flag F.rgnStsScrubFail = true := by
  rw [State.scrubFails, flag_scrubFail, word_bbxLog (by decide), ← flag_scrubFail, flag_scrubFail_setFld]

theorem le_mono_scrubFails (s : State) (tier idx t : Nat) : t ≤ (s.scrubFails tier idx t).time.mono := by
  rw [State.scrubFails, time_bbxLog]
  exact le_waitTill_now s t

/-- Settles O40, event by event. -/
theorem shelvesDrainAndScrub : Obligations.ShelvesDrainAndScrub := by
  intro s tier idx h hshelf
  refine ⟨fun k m hrun hmove hempty => ?evacuated, fun hst hzero => ?drained, fun hst hpos => ?waits,
    fun hst => ⟨fun hstep => ?scrubbed, ?late⟩⟩
  case evacuated => exact ⟨_, rfl, congrArg Host.Outcome.next (evacDone_of_empty hrun hmove hempty)⟩
  case drained =>
    refine ⟨s.startScrub tier.val idx, congrArg Host.Outcome.next (drained_of_zero hshelf hst hzero), ?_, rfl, rfl, rfl⟩
    exact shelf_modShelf_self hshelf (by simp [hst]) _
  case waits => exact congrArg Host.Outcome.next (drained_of_pos hpos)
  case scrubbed =>
    have hwiped : (s.wipeShelf tier.val idx).shelf tier.val idx = some h := hshelf
    refine ⟨_, congrArg Host.Outcome.next ((if_neg (by simp [hstep])).trans (scrubbed_of_scrubbing hshelf hst)), ?_, ?_, rfl⟩
    · exact shelf_modShelf_self hwiped (by simp [hst]) _
    · exact idsOn_wipeShelf s tier.val idx
  case late =>
    exact ⟨_, congrArg Host.Outcome.next (scrubLate_of_scrubbing hshelf hst), shelf_scrubFails hshelf hst _, flag_scrubFails ..,
      le_mono_scrubFails ..⟩

end Sys2Proof.Machine
end


section
/-! SUPPORT. What regions and versions read as after each change of them, and that the record of a transition leaves them
alone (R69–R76, R78, R85). -/

namespace Sys2Proof.Machine

/-! ### Regions and versions as they read (R69, R73) -/

theorem region_modRegion (s : State) (id : Nat) (f : Region → Region) (j : Nat) :
    (s.modRegion id f).region j = if j = id then (s.region id).map f else s.region j := Tbl.look_alter ..

theorem region_modRegion_self {s : State} {id : Nat} {r : Region} (h : s.region id = some r) (f : Region → Region) :
    (s.modRegion id f).region id = some (f r) := by rw [region_modRegion, if_pos rfl, h, Option.map_some]

theorem region_modRegion_ne {id j : Nat} (h : j ≠ id) (s : State) (f : Region → Region) :
    (s.modRegion id f).region j = s.region j := by rw [region_modRegion, if_neg h]

theorem version_of_region {s : State} {id : Nat} {r : Region} (h : s.region id = some r) (n : Nat) :
    s.version id n = r.vers.look n := by rw [State.version, h]

theorem region_of_version {s : State} {id n : Nat} {v : Version} (h : s.version id n = some v) :
    ∃ r, s.region id = some r ∧ r.vers.look n = some v := by
  cases hr : s.region id with
  | none => simp [State.version, hr] at h
  | some r => exact ⟨r, rfl, (version_of_region hr n).symm.trans h⟩

theorem region_modVersion_self {s : State} {id : Nat} {r : Region} (h : s.region id = some r) (n : Nat) (f : Version → Version) :
    (s.modVersion id n f).region id = some { r with vers := Tbl.alter n f r.vers } := region_modRegion_self h _

theorem version_modVersion_self {s : State} {id n : Nat} {v : Version} (h : s.version id n = some v) (f : Version → Version) :
    (s.modVersion id n f).version id n = some (f v) := by
  obtain ⟨r, hr, hv⟩ := region_of_version h
  rw [version_of_region (region_modVersion_self hr n f), Tbl.look_alter_self, hv, Option.map_some]

/-- A change of a region's own properties leaves its versions alone. -/
theorem version_modRegion {f : Region → Region} (hf : ∀ r, (f r).vers = r.vers) (s : State) (id n : Nat) :
    (s.modRegion id f).version id n = s.version id n := by
  cases hr : s.region id with
  | none => simp [State.version, region_modRegion, hr]
  | some r => rw [version_of_region (region_modRegion_self hr f), version_of_region hr, hf]

theorem region_ins (s : State) (id : Nat) (r : Region) (j : Nat) :
    ({ s with rgn := { s.rgn with regions := Tbl.ins id r s.rgn.regions } } : State).region j =
      if j = id then some r else s.region j := Tbl.look_ins ..

/-! ### The record of a version's transition (R78, R85) -/

theorem unsent_rgn : Unsent State.rgn := ⟨fun _ _ _ _ => rfl, fun _ _ => rfl, fun _ _ => rfl⟩

theorem logVersion_rgn (s : State) (lsn id n : Nat) : (s.logVersion lsn id n).rgn = s.rgn := by
  have hadd : ∀ e, (s.addEntry e).rgn = s.rgn := fun e => by
    unfold State.addEntry
    extract_lets e' ldg u
    exact unsent_rgn.mirrorEntry ..
  unfold State.logVersion
  extract_lets l u till
  split
  · exact hadd _
  · exact hadd _

theorem region_of_rgn {s u : State} (h : u.rgn = s.rgn) (id : Nat) : u.region id = s.region id := by
  rw [State.region, State.region, h]

end Sys2Proof.Machine
end


section
/-! SUPPORT. ALLOC, FREE, OPEN and SEAL (O34; R69, R70, R72, R73, R76, R77). -/

namespace Sys2Proof.Machine

/-! ### FREE (R72) -/

/-- `t` is `s` with region `id` freed, or gone: what is left of it has no latest version, and every other region is as it was. -/
structure FreedIn (s : State) (id : Nat) (t : State) : Prop where
  freed : ∀ q, t.region id = some q → q.latest = 0 ∧ q.freeing.isSome = true
  others : ∀ j, j ≠ id → t.region j = s.region j

namespace FreedIn
variable {s t : State} {id : Nat} (h : FreedIn s id t)
include h

/-- The versions of the region change, or it goes. -/
theorem step {u : State}
    (hself : ∀ q, u.region id = some q → ∃ r, t.region id = some r ∧ q.latest = r.latest ∧ q.freeing = r.freeing)
    (hothers : ∀ j, j ≠ id → u.region j = t.region j) : FreedIn s id u where
  freed q hq := by
    obtain ⟨r, hr, hlatest, hfreeing⟩ := hself q hq
    rw [hlatest, hfreeing]
    exact h.freed r hr
  others j hj := (hothers j hj).trans (h.others j hj)

theorem of_region {u : State} (hu : ∀ j, u.region j = t.region j) : FreedIn s id u :=
  h.step (fun q hq => ⟨q, (hu id).symm.trans hq, rfl, rfl⟩) fun j _ => hu j

theorem logSelf (n : Nat) : FreedIn s id (t.logSelf id n) := h.of_region (region_of_rgn (logVersion_rgn ..))

/-- A change of the region that keeps its latest version and when it was freed. -/
theorem modRegion {f : Region → Region} (hf : ∀ r, (f r).latest = r.latest ∧ (f r).freeing = r.freeing) :
    FreedIn s id (t.modRegion id f) := by
  refine h.step (fun q hq => ?_) fun j hj => region_modRegion_ne hj ..
  rw [region_modRegion, if_pos rfl] at hq
  obtain ⟨r, hr, rfl⟩ := Option.map_eq_some_iff.mp hq
  exact ⟨r, hr, hf r⟩

theorem dropRegion : FreedIn s id { t with rgn := { t.rgn with regions := Tbl.del id t.rgn.regions } } := by
  have hdel : ∀ j, ({ t with rgn := { t.rgn with regions := Tbl.del id t.rgn.regions } } : State).region j =
      if j = id then none else t.region j := fun j => Tbl.look_del ..
  refine h.step (fun q hq => ?_) fun j hj => by rw [hdel, if_neg hj]
  rw [hdel, if_pos rfl] at hq
  exact nomatch hq

theorem dropVersion (n : Nat) : FreedIn s id (t.dropVersion id n) := by
  unfold State.dropVersion
  split
  · exact h
  · extract_lets ps u w
    have hu : FreedIn s id u := h.modRegion fun _ => ⟨rfl, rfl⟩
    have hw : FreedIn s id w := hu.of_region fun _ => rfl
    split
    · split
      · exact hw.dropRegion
      · exact hw
    · exact hw

theorem retireVersion (n : Nat) : FreedIn s id (t.retireVersion id n) := by
  have hmod : FreedIn s id (t.modVersion id n (fun v => { v with state := .retiring })) := h.modRegion fun _ => ⟨rfl, rfl⟩
  unfold State.retireVersion State.reap
  split
  · split
    · exact (hmod.dropVersion n).logSelf n
    · exact hmod
  · exact hmod

theorem discardVersion (n : Nat) : FreedIn s id (t.discardVersion id n) := by
  unfold State.discardVersion
  split
  · extract_lets u
    have hu : FreedIn s id u := h.dropVersion n
    refine logSelf ?_ n
    exact hu.of_region fun _ => rfl
  · exact h

end FreedIn

theorem freeRegion_frees (s : State) (id : Nat) : FreedIn s id (s.freeRegion id) := by
  unfold State.freeRegion
  split
  next hnone => exact ⟨fun q hq => absurd (hnone.symm.trans hq) nofun, fun _ _ => rfl⟩
  next r hr =>
    refine foldS_inv (FreedIn s id) _ (fun t x ht => ?_) _ _ ⟨fun q hq => ?_, fun j hj => region_modRegion_ne hj ..⟩
    · split
      · exact ht.discardVersion x.1
      · exact ht.retireVersion x.1
    · rw [region_modRegion_self hr] at hq
      obtain rfl := Option.some.inj hq
      exact ⟨rfl, rfl⟩

/-! ### ALLOC (R69, R70) -/

theorem le_freshId (s : State) (left k : Nat) : 0x10000 ≤ s.freshId left k := by
  induction left generalizing k with
  | zero => exact Nat.le_add_right ..
  | succ left ih =>
    unfold State.freshId
    split
    · exact ih ..
    · exact Nat.le_add_right ..

/-- The ID an ALLOC gives its region. -/
def State.allocId (s : State) (e : Entry) : Nat :=
  if bits (e.w 2) 23 0 = 0 then s.freshId (s.rgn.regions.length + s.fab.map.regions.length + 1) s.free else bits (e.w 2) 23 0

theorem allocId_of_ne {e : Entry} (h : bits (e.w 2) 23 0 ≠ 0) (s : State) : s.allocId e = bits (e.w 2) 23 0 := if_neg h

theorem le_allocId_of_zero {e : Entry} (h : bits (e.w 2) 23 0 = 0) (s : State) : 0x10000 ≤ s.allocId e := by
  rw [State.allocId, if_pos h]
  exact le_freshId ..

/-- The state once the region is made; a fresh ID uses a free value. -/
def State.allocated (s : State) (e : Entry) : State :=
  let u := if bits (e.w 2) 23 0 = 0 then s.tickFree else s
  { u with rgn := { u.rgn with regions := Tbl.ins (s.allocId e) (s.newRegion e) u.rgn.regions } }

theorem alloc_of_free {s : State} {lsn : Nat} {e : Entry} (hw : Working s lsn opAlloc e) (hfree : s.allocFail e = none) :
    s.alloc lsn = ((s.allocated e).logVersion lsn (s.allocId e) 1).fixResult lsn { r0 := s.allocId e } := by
  rw [State.alloc, onOp_of_working hw]
  dsimp only
  rw [hfree]
  dsimp only
  unfold State.allocated State.allocId
  split <;> rfl

theorem alloc_of_fail {s : State} {lsn st d : Nat} {e : Entry} (hw : Working s lsn opAlloc e)
    (hfail : s.allocFail e = some (st, d)) : s.alloc lsn = s.fixResult lsn (Res.fail st d) := by
  rw [State.alloc, onOp_of_working hw]
  dsimp only
  rw [hfail]
  rfl

theorem allocated_rgn (s : State) (e : Entry) :
    (s.allocated e).rgn = { s.rgn with regions := Tbl.ins (s.allocId e) (s.newRegion e) s.rgn.regions } := by
  unfold State.allocated
  split <;> rfl

theorem region_allocated (s : State) (e : Entry) (j : Nat) :
    (s.allocated e).region j = if j = s.allocId e then some (s.newRegion e) else s.region j := by
  rw [State.region, allocated_rgn]
  exact Tbl.look_ins ..

/-! ### FREE, OPEN and SEAL (R72, R76, R77) -/

theorem freeOp_of_rights {s : State} {lsn : Nat} {e : Entry} {r : Region} (hw : Working s lsn opFree e)
    (hr : s.rights (s.callerOf e) (refOf (e.w 2)).region false false = .ok r) :
    s.freeOp lsn = ((s.freeRegion (refOf (e.w 2)).region).logVersion lsn (refOf (e.w 2)).region 0).fixResult lsn Res.ok := by
  rw [State.freeOp, onOp_of_working hw]
  dsimp only
  rw [hr]

theorem openOp_of_named {s : State} {lsn b : Nat} {e : Entry} {r : Region} {v : Version} (hw : Working s lsn opOpen e)
    (hnamed : s.named (s.callerOf e) (refOf (e.w 2)) false false = .ok (r, b, v)) (hmay : openFail r v e.pair = none) :
    s.openOp lsn = ((s.modRegion (refOf (e.w 2)).region (fun q => { q with
      highest := r.highest + 1, vers := Tbl.ins (r.highest + 1) (openedOn b v e.pair e.job) q.vers })).logVersion lsn
        (refOf (e.w 2)).region (r.highest + 1)).fixResult lsn { r0 := r.highest + 1 } := by
  rw [State.openOp, onOp_of_working hw]
  dsimp only
  rw [hnamed]
  dsimp only
  rw [hmay]

theorem sealOp_of_named {s : State} {lsn n : Nat} {e : Entry} {r : Region} {v : Version} (hw : Working s lsn opSeal e)
    (hfirst : (s.ldg.entries.any (fun x => x.pair = e.pair && x.live && x.lsn < e.lsn)) = false)
    (hnamed : s.named (s.callerOf e) (refOf (e.w 2)) false false = .ok (r, n, v)) (hopen : v.state = .opened)
    (hwhole : v.parted = false) (hwriter : v.writer = e.pair) :
    s.sealOp lsn = ((s.modVersion (refOf (e.w 2)).region n (fun v => { v with state := .sealed })).logVersion lsn
      (refOf (e.w 2)).region n).fixResult lsn Res.ok := by
  rw [State.sealOp, onOp_of_working hw]
  dsimp only
  rw [hfirst, if_neg Bool.false_ne_true, hnamed]
  dsimp only
  rw [if_neg (by simp [hwriter]), if_neg (by simp [hopen]), if_neg (by simp [Version.writable, hopen, hwhole])]

/-- Settles O34, command by command. -/
theorem regionsAndVersionsChange : Obligations.RegionsAndVersionsChange := by
  intro s lsn e id ref
  refine ⟨fun hw => ⟨fun st d hfail => ?denied, fun hfree => ?allocated⟩, fun hw r hr => ?freed,
    fun hw r b v hnamed hmay hr => ?opened,
    fun hw r n v hnamed hopen hwhole hwriter hfirst hv => ?sealed⟩
  case denied => exact congrArg Host.Outcome.next (alloc_of_fail hw hfail)
  case allocated =>
    refine ⟨s.allocId e, s.allocated e, congrArg Host.Outcome.next (alloc_of_free hw hfree),
      fun hid => allocId_of_ne hid s, fun hid => le_allocId_of_zero hid s,
      ⟨s.newRegion e, _, ?_, rfl, rfl, rfl, rfl, rfl, rfl, rfl, rfl, rfl, rfl, rfl, rfl, rfl, rfl, rfl, rfl⟩,
      fun j hj => ?_, ?_, ?_⟩
    · rw [region_allocated, if_pos rfl]
    · rw [region_allocated, if_neg hj]
    · rw [allocated_rgn]
    · rw [allocated_rgn]
  case freed =>
    obtain ⟨hfreed, hothers⟩ := freeRegion_frees s ref.region
    exact ⟨congrArg Host.Outcome.next (freeOp_of_rights hw hr), hfreed, hothers⟩
  case opened =>
    exact ⟨_, congrArg Host.Outcome.next (openOp_of_named hw hnamed hmay), region_modRegion_self hr _,
      fun j hj => region_modRegion_ne hj .., rfl⟩
  case sealed =>
    exact ⟨_, congrArg Host.Outcome.next (sealOp_of_named hw hfirst hnamed hopen hwhole hwriter), version_modVersion_self hv _, rfl⟩

end Sys2Proof.Machine
end


section
/-! SUPPORT. PUBLISH with its holders, RETIRE and the orphan hold (O35; R68, R74, R76, R78–R81). -/

namespace Sys2Proof.Machine

/-! ### PUBLISH (R68, R76, R78–R80) -/

theorem publishOp_of_alone {s : State} {lsn n : Nat} {e : Entry} {r : Region} {v : Version} (hw : Working s lsn opPublish e)
    (hnote : e.note = []) (hnamed : s.named (s.callerOf e) (refOf (e.w 2)) false false = .ok (r, n, v))
    (hmay : s.publishFail e v = none) (hwhole : v.incomplete = false)
    (halone : (s.holderList (refOf (e.w 2)).region n).filter (· ≠ s.self) = []) :
    s.publishOp lsn = s.publishCompare e (refOf (e.w 2)).region n := by
  rw [State.publishOp, onOp_of_working hw]
  dsimp only
  rw [if_neg (by simp [hnote]), hnamed]
  dsimp only
  rw [hmay]
  dsimp only
  rw [hwhole, if_neg Bool.false_ne_true, halone]
  rfl

/-- A version is the latest published one, and the other holders are told. -/
def State.published (s : State) (id n : Nat) : State :=
  let u := (s.modVersion id n (fun v => { v with state := .published, parted := false })).modRegion id
    (fun r => { r with latest := n })
  u.emits (((u.holderList id n).filter (· ≠ u.self)).map (fun m => .commitTell m id n))

/-- A version is an orphan, held from now. -/
def State.orphaned (s : State) (id n : Nat) : State :=
  s.modVersion id n (fun v => { v with
    state := .orphan, orphanUntil := s.now + 1000000 * s.fld F.rgnCtlOrphanHold, parted := false })

section
variable {s : State} {e : Entry} {id n : Nat} {r : Region} {v : Version} (hr : s.region id = some r)
  (hv : s.version id n = some v)
include hr hv

theorem publishCompare_of_latest (hmay : s.publishFail e v = none) (hbase : bits (e.w 3) 31 0 = r.latest) :
    s.publishCompare e id n = ((s.published id n).logVersion e.lsn id n).fixResult e.lsn { r0 := n } := by
  rw [State.publishCompare, hr, hv]
  dsimp only
  rw [hmay]
  dsimp only
  rw [if_pos hbase]
  rfl

theorem publishCompare_of_conflict (hmay : s.publishFail e v = none) (hbase : bits (e.w 3) 31 0 ≠ r.latest) :
    s.publishCompare e id n =
      ((s.orphaned id n).logVersion e.lsn id n).fixResult e.lsn { status := St.conflict, r0 := n, r1 := r.latest } := by
  rw [State.publishCompare, hr, hv]
  dsimp only
  rw [hmay]
  dsimp only
  rw [if_neg hbase]
  rfl

omit hr in
theorem version_published : (s.published id n).version id n = some { v with state := .published, parted := false } :=
  (version_modRegion (f := fun r => { r with latest := n }) (fun _ => rfl) ..).trans (version_modVersion_self hv _)

omit hv in
theorem region_published : ∃ q, (s.published id n).region id = some q ∧ q.latest = n :=
  ⟨_, region_modRegion_self (region_modVersion_self hr n _) _, rfl⟩

end

/-! ### The holders of a PUBLISH (R79) -/

/-- Meeting a version writes the regions alone. -/
theorem meet_eq (s : State) (id n tenant : Nat) : ∃ g, s.meet id n tenant = { s with rgn := g } := by
  unfold State.meet
  extract_lets r q q'
  split
  · exact ⟨s.rgn, rfl⟩
  · exact ⟨_, rfl⟩

/-- A version that is known stays as it is when it is met again. -/
theorem version_meet {s : State} {id n : Nat} {v : Version} (hv : s.version id n = some v) (tenant : Nat) :
    (s.meet id n tenant).version id n = some v := by
  obtain ⟨r₀, hr, hlook⟩ := region_of_version hv
  unfold State.meet
  extract_lets r q q'
  have hq : q.vers.look n = some v := by
    dsimp only [q, r]
    rw [State.partRegion, hr]
    exact hlook
  have hq' : q' = q := if_pos (by rw [hq]; rfl)
  split
  · exact hv
  · have hregion := (region_ins s id q' id).trans (if_pos rfl)
    rw [version_of_region hregion, hq', hq]

theorem sealFailed_of_open {s : State} {id n : Nat} {v : Version} (hv : s.version id n = some v) (hopen : v.state = .opened) :
    (s.sealFailed id n).version id n = some { v with state := .sealed, parted := false } := by
  rw [State.sealFailed, version_modVersion_self hv, if_pos hopen]

/-- The state of a holder once its part of a version takes no more writes. -/
def State.partSealed (s : State) (id n : Nat) : State :=
  (s.meet id n (s.partRegion id (Config.partOwner id)).owner).sealFailed id n

theorem partSealed_eq (s : State) (id n : Nat) : ∃ g, s.partSealed id n = { s with rgn := g } := by
  obtain ⟨g, h⟩ := meet_eq s id n (s.partRegion id (Config.partOwner id)).owner
  rw [State.partSealed, h]
  exact ⟨_, rfl⟩

theorem execPublishHolderSeal_eq (s : State) (home : ModId) {id n : Nat} (tag : Nat) (hid : id < 2 ^ 24) (hn : n < 2 ^ 32) :
    exec (.publishHolderSeal home id n tag) s =
      .next (if s.ldg.fenced = true then s.emit (.sealAns home.toNat tag false)
        else (s.partSealed id n).emit (.sealAns home.toNat tag true)) := by
  have hwf : (Instr.publishHolderSeal home id n tag).wf = true := by simpa [Instr.wf] using ⟨hid, hn⟩
  refine (checked_of_wf hwf ..).trans (congrArg Host.Outcome.next ?_)
  extract_lets owner u
  cases hf : s.ldg.fenced
  · have hu : u = s.partSealed id n := if_pos (by simp [hf])
    obtain ⟨g, hg⟩ := partSealed_eq s id n
    rw [hu, hg, hf]
    rfl
  · have hu : u = s := if_neg (by simp [hf])
    rw [hu, hf]
    rfl

/-- The last holder answers well, and none failed before. -/
theorem publishAnswer_of_last {s : State} {lsn n m : Nat} {e : Entry} (hw : Working s lsn opPublish e) (hnote : e.note = [n, m])
    (hgood : e.failedParts = []) :
    s.publishAnswer lsn m true =
      (s.putEntry { e with note := [n] }).publishCompare { e with note := [n] } (refOf (e.w 2)).region n := by
  rw [State.publishAnswer, onOp_of_working hw]
  dsimp only
  rw [hnote]
  simp [State.publishAnswered, hgood]

theorem moveAnswer_of_none {s : State} {lsn m slack : Nat} {ok full : Bool}
    (h : ∀ k, s.tier.moves.find?
      (fun x => (x.2.mover = .promote lsn || x.2.mover = .demote lsn) && x.2.remote.any (· = m)) ≠ some k) :
    s.moveAnswer lsn m ok full slack = s := by
  rw [State.moveAnswer, Option.eq_none_iff_forall_ne_some.mpr h]

/-! ### RETIRE and the orphan hold (R76, R80, R81) -/

theorem retireOp_of_named {s : State} {lsn n : Nat} {e : Entry} {r : Region} {v : Version} (hw : Working s lsn opRetire e)
    (hnamed : s.named (s.callerOf e) (refOf (e.w 2)) false false = .ok (r, n, v)) (hopen : v.state ≠ .opened)
    (hretiring : v.state ≠ .retiring) :
    s.retireOp lsn = if n = r.latest then s.fixResult lsn (Res.fail 0x08 0x0305)
      else ((s.retireVersion (refOf (e.w 2)).region n).logVersion lsn (refOf (e.w 2)).region n).fixResult lsn Res.ok := by
  rw [State.retireOp, onOp_of_working hw]
  dsimp only
  rw [hnamed]
  dsimp only
  rw [if_neg hopen, if_neg hretiring]
  rfl

theorem execOrphanHoldExpiry_of_orphan {s : State} {id n : Nat} {v : Version} (hv : s.version id n = some v)
    (horphan : v.state = .orphan) :
    exec (.orphanHoldExpiry id n) s = .next ((((s.waitTill v.orphanUntil).modVersion id n (fun x =>
      { x with expired := true })).retireVersion id n).logSelf id n) := by
  refine congrArg Host.Outcome.next ?_
  rw [hv]
  exact if_pos horphan

/-- Settles O35: the compare point by the declared base, a holder's part, and the ends of a version. -/
theorem publishAndRetire : Obligations.PublishAndRetire := by
  intro s
  refine ⟨fun lsn e r n v hw hnote hnamed hmay hwhole halone hr hv => ?publish,
    fun home id n tag hid hn => ⟨fun hf => ?fenced, fun hf => ?holder⟩,
    fun lsn e n home slack hw hnote hgood hmoves => ?answered,
    fun lsn e r n v hw hnamed hopen hretiring => ?retire, fun id n v hv horphan => execOrphanHoldExpiry_of_orphan hv horphan⟩
  case publish =>
    intro id
    have hcompare : exec (.publish lsn) s = .next (s.publishCompare e id n) :=
      congrArg Host.Outcome.next (publishOp_of_alone hw hnote hnamed hmay hwhole halone)
    obtain rfl := entry_lsn hw.entry
    refine ⟨fun hbase => ⟨s.published id n, ?_, version_published hv, region_published hr⟩,
      fun hbase => ⟨s.orphaned id n, ?_, version_modVersion_self hv _, _, region_modVersion_self hr n _, rfl⟩⟩
    · rw [hcompare, publishCompare_of_latest hr hv hmay hbase]
    · rw [hcompare, publishCompare_of_conflict hr hv hmay hbase]
      rfl
  case fenced =>
    rw [execPublishHolderSeal_eq s home tag hid hn, if_pos hf]
    rfl
  case holder =>
    obtain ⟨g, hg⟩ := partSealed_eq s id n
    refine ⟨_, (execPublishHolderSeal_eq s home tag hid hn).trans (by rw [if_neg (by simp [hf])]), ?_, fun v hv hopen => ?_⟩
    · rw [hg]
      rfl
    · exact sealFailed_of_open (version_meet hv _) hopen
  case answered =>
    intro u hnone
    refine congrArg Host.Outcome.next ?_
    change (s.publishAnswer lsn home.toNat true).moveAnswer lsn home.toNat true false slack = _
    rw [publishAnswer_of_last hw hnote hgood]
    exact moveAnswer_of_none hnone
  case retire =>
    intro id
    have hretire := retireOp_of_named hw hnamed hopen hretiring
    exact ⟨fun hn => congrArg Host.Outcome.next (hretire.trans (if_neg hn)),
      fun hn => congrArg Host.Outcome.next (hretire.trans (if_pos hn))⟩

end Sys2Proof.Machine
end

section
/-! SUPPORT. Holds and the moves that PROMOTE and DEMOTE begin (O37; R96, R101–R104). -/

namespace Sys2Proof.Machine

/-! ### A dropped hold (R101, R104) -/

theorem reap_of_not_retiring {s : State} {id n : Nat} {v : Version} (hv : s.version id n = some v) (hst : v.state ≠ .retiring) :
    s.reap id n = s := by
  simp [State.reap, hv, hst]

/-- No demotion runs while none is pending or a hold remains. -/
theorem runPending_of_waits {s : State} {id n : Nat} {v : Version} (hv : s.version id n = some v)
    (h : v.holds ≠ [] ∨ v.pend = none) : s.runPending id n = s := by
  obtain ⟨r, hr, -⟩ := region_of_version hv
  cases hp : v.pend with
  | none => simp [State.runPending, hr, hv, hp]
  | some d =>
    have hholds : v.holds.isEmpty = false := by simpa [hp] using h
    simp [State.runPending, hr, hv, hp, hholds]

/-- Where other holds remain or no demotion is pending, only the version's holds change. -/
theorem dropHold_of_waits {s : State} {id n : Nat} {v : Version} (hv : s.version id n = some v) (hst : v.state ≠ .retiring)
    (t : Nat) (h : v.holds.filter (· ≠ t) ≠ [] ∨ v.pend = none) :
    s.dropHold id n t = s.modVersion id n (fun v => { v with holds := v.holds.filter (· ≠ t) }) := by
  have hu := version_modVersion_self hv (fun v => { v with holds := v.holds.filter (· ≠ t) })
  rw [State.dropHold, reap_of_not_retiring hu hst, runPending_of_waits hu h]

/-! ### The four commands (R96, R101, R104) -/

theorem holdOp_of_named {s : State} {lsn n : Nat} {e : Entry} {r : Region} {v : Version} (hw : Working s lsn opHold e)
    (href : s.heldRef e false false false = .ok (r, n, v)) :
    s.holdOp lsn = (s.modVersion (refOf (e.w 2)).region n (fun v =>
      { v with holds := listAdd e.tenant v.holds })).fixResult lsn Res.ok := by
  rw [State.holdOp, onOp_of_working hw, href]

theorem releaseOp_of_named {s : State} {lsn n : Nat} {e : Entry} {r : Region} {v : Version} (hw : Working s lsn opRelease e)
    (href : s.heldRef e false true true = .ok (r, n, v)) :
    s.releaseOp lsn = if e.tenant ∈ v.holds then (s.dropHold (refOf (e.w 2)).region n e.tenant).fixResult lsn Res.ok
      else s.fixResult lsn (Res.fail St.denied 0x0401) := by
  rw [State.releaseOp, onOp_of_working hw, href]
  simp [State.failDesc]

theorem promoteOp_of_named {s : State} {lsn n lo hi : Nat} {e : Entry} {r : Region} {v : Version}
    (hw : Working s lsn opPromote e) (hnew : (s.tier.moves.any fun m => m.2.mover = .promote lsn) = false)
    (hpaced : s.pacedFail e = none) (href : s.heldRef e true false false = .ok (r, n, v))
    (hrange : moveRange e r = some (lo, hi)) : s.promoteOp lsn = s.promoteBegin e r n v lo hi := by
  rw [State.promoteOp, onOp_of_working hw, hnew, hpaced, href]
  dsimp only
  rw [hrange]
  rfl

theorem demoteOp_of_named {s : State} {lsn n lo hi : Nat} {e : Entry} {r : Region} {v : Version}
    (hw : Working s lsn opDemote e) (hnew : (s.tier.moves.any fun m => m.2.mover = .demote lsn) = false)
    (href : s.heldRef e false false false = .ok (r, n, v)) (hrange : moveRange e r = some (lo, hi))
    (hmay : s.demoteFail e r = none) : s.demoteOp lsn = s.demoteAct e r n lo hi := by
  rw [State.demoteOp, onOp_of_working hw, hnew, href]
  dsimp only
  rw [hrange]
  dsimp only
  rw [hmay]
  rfl

/-- Settles O37: each command on the version it names, and what dropping a hold leaves alone. -/
theorem holdsAndMoves : Obligations.HoldsAndMoves := by
  intro s lsn e
  refine ⟨fun hw r n v href hv => ?hold, fun hw r n v href => ?release,
    fun hw r n v lo hi hnew hpaced href hrange => congrArg _ (promoteOp_of_named hw hnew hpaced href hrange),
    fun hw r n v lo hi hnew href hrange hmay hv => ?demote, fun id n t v hv hst h => ?drop⟩
  case hold => exact ⟨_, congrArg _ (holdOp_of_named hw href), version_modVersion_self hv _, rfl, rfl⟩
  case release =>
    have hrel := releaseOp_of_named hw href
    exact ⟨fun hin => congrArg _ (hrel.trans (if_pos hin)), fun hout => congrArg _ (hrel.trans (if_neg hout))⟩
  case demote =>
    have hact := demoteOp_of_named hw hnew href hrange hmay
    obtain rfl := entry_lsn hw.entry
    refine ⟨fun hother => congrArg _ (hact.trans (if_pos hother)), fun howner => ?_⟩
    intro u slot w hu
    replace hact : s.demoteOp e.lsn = _ := hact.trans (if_neg (not_not.mpr howner))
    rw [show (s.dropHold _ _ _).version _ _ = _ from hu] at hact
    exact ⟨fun hheld => congrArg _ (hact.trans (if_neg (by simpa using hheld))),
      fun hfree => congrArg _ (hact.trans (if_pos (by simp [hfree])))⟩
  case drop =>
    rw [dropHold_of_waits hv hst t h]
    exact ⟨version_modVersion_self hv _, rfl, rfl⟩

end Sys2Proof.Machine
end

section
/-! SUPPORT. The switch of a moved page, move sub-parts for other modules, and the bound of a stall (O38; R95, R97, R103, R105,
R113). -/

namespace Sys2Proof.Machine

/-! ### Pages as they read (R92) -/

theorem page_modPage (s : State) (p : Nat) (f : Page → Page) (k : Nat) :
    (s.modPage p f).page k = if k = p then (s.page p).map f else s.page k := Tbl.look_alter ..

theorem page_of_rgn {s u : State} (h : u.rgn = s.rgn) (k : Nat) : u.page k = s.page k := by
  rw [State.page, State.page, h]

theorem version_of_rgn {s u : State} (h : u.rgn = s.rgn) (id n : Nat) : u.version id n = s.version id n := by
  rw [State.version, State.version, region_of_rgn h]

theorem countLp_rgn (s : State) (d : Nat) : (s.countLp d).rgn = s.rgn := by
  unfold State.countLp
  split
  case h_6 => rfl
  all_goals exact State.bump_rgn ..

/-- Of the regions, their versions and the pages, a switch changes its page's entry alone. -/
theorem switchPage_rgn (s : State) (m : MoveJob) (p : Nat) (g : Page) (v : PageMv) :
    ∃ f : Page → Page, (∀ q, (f q).tier = v.tier ∧ (f q).shelf = v.shelf ∧ (f q).mv = none) ∧
      (s.switchPage m p g v).rgn = (s.modPage p f).rgn := by
  unfold State.switchPage
  extract_lets form up bad evac s₁ s₂ s₃
  have hcounted : s₂.rgn = s₁.rgn := by
    clear_value bad
    cases bad with
    | none => rfl
    | some d => exact countLp_rgn ..
  have hraw : s₃.rgn = s₂.rgn := State.when_keeps State.rgn (fun s => s.bump F.codecCnt0RawPages) (fun _ => rfl) ..
  refine ⟨_, fun q => ⟨rfl, rfl, rfl⟩, (State.when_keeps State.rgn _ (fun s => ?_) ..).trans (hraw.trans hcounted)⟩
  split <;> rfl

/-! ### The switch (R95, R103, R105) -/

section
variable {s : State} {p : Nat} {g : Page} {v : PageMv} {m : MoveJob}

/-- A stalled read waits for the page (R113). -/
def State.readsPage (s : State) (p : Nat) (t : Stall) : Bool :=
  match s.version t.region t.version with
  | some x => x.pageAt t.page = some (.page p)
  | none => false

theorem readsPage_of_rgn {u : State} (h : u.rgn = s.rgn) : u.readsPage p = s.readsPage p := by
  funext t
  rw [State.readsPage, State.readsPage, version_of_rgn h]

/-- The page leaves its move where it is, and counts there as failed. -/
def State.pageFails (s : State) (p : Nat) (v : PageMv) : State :=
  (((s.dropTray p).modPage p (fun g => { g with mv := none })).modMove v.job (fun m =>
    { m with todo := m.todo.filter (· ≠ p), failed := m.failed + 1 })).pumpMoves

/-- The page has its place in the move's target, and counts there as moved. -/
def State.pageMoved (s : State) (m : MoveJob) (p : Nat) (g : Page) (v : PageMv) : State :=
  (s.switchPage m p g v).modMove v.job (fun m => { m with todo := m.todo.filter (· ≠ p), moved := m.moved ++ [p] })

variable (hg : s.page p = some g) (hv : g.mv = some v) (hm : s.move? v.job = some m) (hauto : s.autoOff m = false)
include hg hv hm hauto

theorem moveSwitch_of_unverified : s.moveSwitch p false = s.pageFails p v := by
  simp only [State.moveSwitch, hg, hv, hm, hauto, Bool.false_and, Bool.not_false, Bool.true_or, if_true,
    Bool.false_eq_true, if_false]
  rfl

omit hauto in
theorem moveSwitch_of_not_next (hnext : m.next p = false) : s.moveSwitch p true = s := by
  simp [State.moveSwitch, hg, hv, hm, hnext]

theorem moveSwitch_of_next (hnext : m.next p = true) (hclosed : s.trayOpen p = false) :
    s.moveSwitch p true =
      if s.unreadable g then s.pageFails p v
      else if m.down && s.pagePinned p then (s.modPage p (fun g => { g with mv := none })).pumpMoves
      else if m.down && !(s.downOk p) then
        ((s.modPage p (fun g => { g with mv := none })).modMove v.job (fun m =>
          { m with todo := m.todo.filter (· ≠ p) })).pumpMoves
      else if m.up then
        (((s.pageMoved m p g v).boundsMet p).endStalls ((s.pageMoved m p g v).readsPage p) false).pumpMoves
      else (s.pageMoved m p g v).pumpMoves := by
  simp only [State.moveSwitch, hg, hv, hm, hauto, hnext, hclosed, Bool.and_false, Bool.not_true, Bool.false_or,
    Bool.false_eq_true, if_false]
  cases m.up <;> rfl

end

theorem inTime_rgn (s : State) (w pg : Nat) : (s.inTime w pg).rgn = s.rgn := by
  have hwith : ∀ (u : State) t c, ({ u with tier := t, slc := c } : State).rgn = u.rgn := fun _ _ _ => rfl
  unfold State.inTime
  extract_lets l u
  split
  · rfl
  · exact (hwith u _ _).trans (State.setFld_rgn s _ _ w _)

theorem boundsMet_rgn (s : State) (p : Nat) : (s.boundsMet p).rgn = s.rgn := by
  unfold State.boundsMet
  split
  · exact foldS_keeps State.rgn _ (fun s w => State.when_keeps State.rgn _ (fun s => inTime_rgn s ..) ..) ..
  · rfl

theorem moveSwitch_of_staged {s : State} {p : Nat} {g : Page} (hg : s.page p = some g) (hv : g.mv = none) :
    s.moveSwitch p false = (s.dropTray p).failCopy p ∧ (s.trayOpen p = false → s.moveSwitch p true = s.landCopy p) := by
  constructor
  · simp [State.moveSwitch, hg, hv]
  · intro hclosed
    simp [State.moveSwitch, hg, hv, hclosed]

/-! ### Move sub-parts for other modules (R97, R102, R106) -/

section
variable {s : State} {home tag : Nat} {q : MoveReq}

theorem moveSubpart_of_fenced (hfenced : s.ldg.fenced = true) :
    s.moveSubpart home tag q = s.emit (.moveAns home tag false false 0) := by
  rw [State.moveSubpart, if_pos hfenced]

theorem moveSubpart_of_unknown (hfenced : s.ldg.fenced = false)
    (hnew : (s.tier.moves.any fun x => x.2.mover = .remote home tag) = false)
    (hv : (s.meet q.region q.version q.tenant).version q.region q.version = none) :
    s.moveSubpart home tag q = (s.meet q.region q.version q.tenant).emit (.moveAns home tag true false 0) := by
  rw [State.moveSubpart, hfenced, hnew]
  dsimp only
  rw [hv]
  cases (s.meet q.region q.version q.tenant).region q.region <;> rfl

/-- The move that a sub-part begins, of the pages and in the state it begins with. -/
def State.subpartMove (s : State) (q : MoveReq) (home tag owner : Nat) (todo : List Nat) : MoveJob :=
  { mover := .remote home tag, up := q.promote, asker := q.tenant, tenant := owner, region := q.region, version := q.version,
    target := q.tier, todo := todo,
    paced := if q.promote && q.paced then
        some (q.off / 65536, if q.paced then ((q.off + q.len) / 65536 - q.off / 65536) / q.layers else 0, q.job, q.first)
      else none,
    recode := if q.recode then some (q.tslot, (s.cslot q.tslot).ident) else none }

theorem moveSubpart_of_known {r : Region} {v : Version} (hfenced : s.ldg.fenced = false)
    (hnew : (s.tier.moves.any fun x => x.2.mover = .remote home tag) = false)
    (hr : (s.meet q.region q.version q.tenant).region q.region = some r)
    (hv : (s.meet q.region q.version q.tenant).version q.region q.version = some v) :
    let u := s.meet q.region q.version q.tenant
    let lo := q.off / 65536
    let hi := (q.off + q.len) / 65536
    let w := (u.takeUp q.region q.version lo hi).modVersion q.region q.version (fun v => { v with
      pins := v.pins ++ [{ pair := 2048, lsn := remotePin home tag, lo := lo, hi := hi }] })
    s.moveSubpart home tag q = if q.promote then
        w.addMove (w.subpartMove q home tag r.owner (w.belowTier q.region q.tier v
          (promoteOrder lo hi (if q.paced then (hi - lo) / q.layers else 0) q.first)))
      else u.addMove (u.subpartMove q home tag r.owner
        (v.idsAt ((rangeFrom lo (hi - lo)).filter (fun k => u.heldHere q.region k)))) := by
  intro u lo hi w
  rw [State.moveSubpart, hfenced, hnew]
  dsimp only
  rw [hr, hv]
  dsimp only [Bool.false_eq_true]
  rw [if_neg (by simp), if_neg (by simp)]
  cases hup : q.promote <;> simp [State.subpartMove, hup, u, lo, hi, w]

end

/-! ### The bound of a stall (R113, R142) -/

theorem execStallBoundExpiry_of_stalled {s : State} {k : Nat} {t : Stall} (ht : s.tier.stalls.look k = some t) :
    exec (.stallBoundExpiry k) s = .next (
      if t.gates.isEmpty then (s.waitTill (t.since + 1000 * s.fld F.tierCtlStallMax)).endStall k true
      else if t.gates.any s.instOpen then s
      else s.endStall k true) := by
  refine congrArg Host.Outcome.next ?_
  rw [ht]

/-- Settles O38: the outcomes of a switch, of a move sub-part and of a stall's bound. -/
theorem pagesSwitchAndStallsEnd : Obligations.PagesSwitchAndStallsEnd := by
  intro s
  refine ⟨fun p g v m hg hv hm hauto => ?switch, fun p g hg hv => ?staged, fun home tag q hq => ?subpart,
    fun k t ht => ?stall⟩
  case switch =>
    intro stays drop fails
    refine ⟨congrArg Host.Outcome.next (moveSwitch_of_unverified hg hv hm hauto),
      fun hopen => congrArg Host.Outcome.next (if_pos (by simpa using hopen)),
      fun hnext => congrArg Host.Outcome.next (moveSwitch_of_not_next hg hv hm hnext), fun hnext hclosed => ?_⟩
    have hswitch := moveSwitch_of_next hg hv hm hauto hnext hclosed
    refine ⟨fun hout => congrArg Host.Outcome.next (hswitch.trans (if_pos hout)), fun hin => ?_⟩
    replace hswitch := hswitch.trans (if_neg (by simp [hin]))
    refine ⟨fun hdown hpin => congrArg Host.Outcome.next (hswitch.trans (if_pos (by simp [hdown, hpin]))),
      fun hdown hpin hok => congrArg Host.Outcome.next
        ((hswitch.trans (if_neg (by simp [hpin]))).trans (if_pos (by simp [hdown, hok]))),
      fun hmay => ?_⟩
    intro u w
    obtain ⟨f, hf, hrgn⟩ := switchPage_rgn s m p g v
    have hpage : ∀ k, u.page k = if k = p then some (f g) else s.page k := fun k => by
      rw [page_of_rgn hrgn, page_modPage, hg, Option.map_some]
    have hstays : ¬ (m.down && s.pagePinned p) = true ∧ ¬ (m.down && !(s.downOk p)) = true := by
      cases hdown : m.down
      · simp
      · obtain ⟨hpin, hok⟩ := hmay hdown
        simp [hpin, hok]
    replace hswitch := (hswitch.trans (if_neg hstays.1)).trans (if_neg hstays.2)
    refine ⟨⟨f g, by rw [hpage, if_pos rfl], hf g⟩, fun k hk => by rw [hpage, if_neg hk],
      fun hup => congrArg Host.Outcome.next (hswitch.trans ?_),
      fun hup => congrArg Host.Outcome.next (hswitch.trans ?_)⟩
    · exact if_neg (by simp [hup])
    · rw [if_pos hup, ← readsPage_of_rgn (boundsMet_rgn _ p)]
      rfl
  case staged =>
    obtain ⟨hfail, hland⟩ := moveSwitch_of_staged hg hv
    exact ⟨congrArg Host.Outcome.next hfail, fun hclosed => congrArg Host.Outcome.next (hland hclosed)⟩
  case subpart =>
    have hexec : exec (.moveSubpartRequest home tag q) s = .next (s.moveSubpart home.toNat tag q) :=
      checked_of_wf (i := .moveSubpartRequest home tag q) hq ..
    refine ⟨fun hfenced => hexec.trans (congrArg Host.Outcome.next (moveSubpart_of_fenced hfenced)), fun hfenced hnew => ?_⟩
    intro u lo hi
    refine ⟨fun hnone => hexec.trans (congrArg Host.Outcome.next (moveSubpart_of_unknown hfenced hnew hnone)),
      fun r v hr hv => ?_⟩
    have hmove := moveSubpart_of_known hfenced hnew hr hv
    refine ⟨fun hdown => hexec.trans (congrArg Host.Outcome.next (hmove.trans ?_)),
      fun hup => hexec.trans (congrArg Host.Outcome.next (hmove.trans ?_))⟩
    · rw [if_neg (by simp [hdown])]
      simp [State.subpartMove, hdown, u, lo, hi]
    · rw [if_pos hup]
      simp [State.subpartMove, hup, u, lo, hi]
  case stall =>
    have hexec := execStallBoundExpiry_of_stalled ht
    refine ⟨fun hnone => hexec.trans (congrArg Host.Outcome.next (if_pos (by simp [hnone]))),
      fun hsome hshut => hexec.trans (congrArg Host.Outcome.next
        ((if_neg (by simpa using hsome)).trans (if_neg (by simp [hshut])))),
      fun hopen => hexec.trans (congrArg Host.Outcome.next ((if_neg ?_).trans (if_pos hopen)))⟩
    intro hnone
    rw [List.isEmpty_iff.mp hnone] at hopen
    cases hopen

end Sys2Proof.Machine
end

section
/-! SUPPORT. Weight windows, the placement scan and the lifetime of advice (O39; R110–R112, R119, R120, R300). -/

namespace Sys2Proof.Machine

theorem win_modWin_self (s : State) (w : Nat) (f : WinSt → WinSt) : (s.modWin w f).win w = f (s.win w) := Tbl.rd_upd_self ..

/-! ### Staging and landing (R110–R112, R300) -/

theorem winStage_of_due {s : State} {w j st l : Nat} (hslot : s.winSlot w = some j) (hon : (s.win w).on = true)
    (hidle : (s.win w).staging = none) (hgates : gatesAllow (s.winGates w) = true)
    (hdue : (s.winDue w j).find? (fun k => !((s.win w).landed.any (· = k))) = some (st, l))
    (hver : ((s.winTake w st).winVersion w st).isSome = true) :
    let u := (s.winTake w st).modWin w (fun x => { x with staging := some (st, l, []) })
    s.winStage w = foldS (fun s n => s.stageOne w st l n) u (u.blockPages w l) := by
  have hnone : ((s.winTake w st).winVersion w st).isNone = false := by simpa using hver
  simp only [State.winStage, hslot, hon, hidle, hgates, hdue, hnone]
  rfl

theorem winLanded_of_staging {s : State} {w st l : Nat} {left : List Nat} (hstaging : (s.win w).staging = some (st, l, left)) :
    let u := s.modWin w (fun x => { x with staging := none, landed := x.landed ++ [(st, l)] })
    s.winLanded w = if (s.win w).copies.any (fun c => c.1 = st && c.2.1 = l && s.trayOpen c.2.2.2) then s
      else ((foldS (fun s pg => s.inTime w pg) u left).endStalls
        (fun t => t.win = some w && left.any (· = t.page)) false).pushLayer w st l := by
  rw [State.winLanded, hstaging]

/-! ### The placement scan (R118, R119) -/

theorem foldS_of_fixed {α : Type} {f : State → α → State} {s : State} {l : List α} (h : ∀ a ∈ l, f s a = s) :
    foldS f s l = s := by
  induction l with
  | nil => rfl
  | cons a l ih =>
    rw [foldS_cons, h a List.mem_cons_self]
    exact ih fun b hb => h b (List.mem_cons_of_mem _ hb)

/-- The near tier's idle pages go to the region's tier, or to the tray where the partition has one. -/
theorem scanTenant_eq (s : State) (t : Nat) :
    let idle := 1000000000 * s.fld F.tierTenCtlIdleS t
    s.scanTenant t = foldS (fun x common =>
      ((x.scanTier t 0 idle common (fun r =>
        if r.tier ≠ 0 then some r.tier else if (x.partition 1 t common).isEmpty then none else some 1)).scanTier t 1
          (16 * idle) common (fun _ => some 2)).scanUp t common) s (if t = 0 then [false, true] else [false]) := by
  intro idle
  have htray : ∀ (b : Bool), (if (!b) = true then some 1 else none) = if b = true then none else some 1 := by decide
  simp only [State.scanTenant, htray]
  rfl

theorem execPlacementScan_eq (s : State) :
    let u := s.waitTill (s.tier.lastScan + 1000000 * s.fld F.tierCtlScanMs)
    exec .placementScan s = .next (foldS (fun s t => if s.fld F.tierTenCtlPlace t = 0 then s else s.scanTenant t)
      { u with tier := { u.tier with lastScan := u.now } } (List.range 256)) := by
  have hon : ∀ (s : State) t, s.when (s.fld F.tierTenCtlPlace t ≠ 0) (fun s => s.scanTenant t) =
      if s.fld F.tierTenCtlPlace t = 0 then s else s.scanTenant t := fun s t => by
    by_cases h : s.fld F.tierTenCtlPlace t = 0 <;> simp [State.when, h]
  refine congrArg Host.Outcome.next ?_
  simp only [hon]

/-! ### Advice (R120) -/

theorem execAdviceExpiry_of_kept {s : State} {t : Tenant} {a : W64 × W64 × Nat} {rest : List (W64 × W64 × Nat)}
    (h : (s.ten t.val).advice = a :: rest) :
    exec (.adviceExpiry t) s = .next ((s.waitTill (a.2.2 + 1000000000 * s.fld F.tierCtlAdviceS)).modTen t.val
      (fun x => { x with advice := rest })) := by
  refine congrArg Host.Outcome.next ?_
  rw [h]

/-- Settles O39: a window's due layer and its landing, the scan tenant by tenant, and the oldest proposal. -/
theorem windowsStageAndScansRun : Obligations.WindowsStageAndScansRun := by
  intro s
  refine ⟨fun w j st l hslot hon hidle hgates hdue hver => ?stage, fun w st l left hstaging => ?landed, ?scan,
    fun t a rest h => ⟨_, rfl, execAdviceExpiry_of_kept h⟩⟩
  case stage =>
    exact ⟨congrArg Host.Outcome.next (winStage_of_due hslot hon hidle hgates hdue hver), by rw [win_modWin_self]⟩
  case landed =>
    intro waits u
    have hland := winLanded_of_staging hstaging
    refine ⟨fun hwaits => congrArg Host.Outcome.next (hland.trans (if_pos hwaits)),
      fun hdone => congrArg Host.Outcome.next (hland.trans (if_neg (ne_true_of_eq_false hdone))), ?_, ?_⟩ <;>
    rw [win_modWin_self]
  case scan =>
    intro u w pools idle scan
    have hscan := execPlacementScan_eq s
    refine ⟨hscan.trans ?_, fun hoff => hscan.trans (congrArg Host.Outcome.next (foldS_of_fixed fun t ht => ?_))⟩
    · simp only [scanTenant_eq]
      rfl
    · exact if_pos (hoff t (List.mem_range.mp ht))

end Sys2Proof.Machine
end

section
/-! SUPPORT. Jobs, estimates, windows and gate entries as their registers set them (O47; R7, R109, R127, R128, R137, R140, R143,
R442, R450). -/

namespace Sys2Proof.Machine

/-! ### Words and fields (R1, R7) -/

theorem bits_mod {hi lo : Nat} (h : lo ≤ hi + 1) (w : Nat) : bits (w % 2 ^ (hi + 1)) hi lo = bits w hi lo := by
  rw [bits, bits, show 2 ^ (hi + 1) = 2 ^ lo * 2 ^ (hi + 1 - lo) by rw [← pow_add, Nat.add_sub_cancel' h],
    Nat.mod_mul_right_div_self, Nat.mod_mod]

/-- A written word: what lies below the field, and above it the field and the rest. -/
theorem insBits_eq (w hi lo v : Nat) : insBits w hi lo v =
    w % 2 ^ lo + 2 ^ lo * (2 ^ (hi + 1 - lo) * (w / 2 ^ lo / 2 ^ (hi + 1 - lo)) + v % 2 ^ (hi + 1 - lo)) := by
  have hw := Nat.mod_add_div w (2 ^ lo)
  have hq := Nat.mod_add_div (w / 2 ^ lo) (2 ^ (hi + 1 - lo))
  rw [← hq, mul_add] at hw
  rw [insBits, bits, mul_add, mul_comm _ (2 ^ lo), mul_comm _ (2 ^ lo)]
  omega

/-- A field keeps what lies below it. -/
theorem insBits_mod_of_le {k lo : Nat} (h : k ≤ lo) (w hi v : Nat) : insBits w hi lo v % 2 ^ k = w % 2 ^ k := by
  rw [insBits_eq, ← Nat.add_sub_of_le h, pow_add, mul_assoc (2 ^ k), Nat.add_mul_mod_self_left, Nat.mod_mul_right_mod]

theorem bits_insBits_of_lt {hi lo hi' lo' : Nat} (h : hi < lo') (hlo : lo ≤ hi + 1) (w v : Nat) :
    bits (insBits w hi' lo' v) hi lo = bits w hi lo := by
  rw [← bits_mod hlo, insBits_mod_of_le (Nat.succ_le_of_lt h), bits_mod hlo]

/-- A field holds what is written into it. -/
theorem bits_insBits_self (w hi lo v : Nat) : bits (insBits w hi lo v) hi lo = v % 2 ^ (hi + 1 - lo) := by
  have hpos : 0 < 2 ^ lo := Nat.two_pow_pos lo
  rw [insBits_eq, bits, Nat.add_mul_div_left _ _ hpos, Nat.div_eq_of_lt (Nat.mod_lt _ hpos), zero_add, Nat.mul_add_mod_self_left,
    Nat.mod_mod]

theorem bits_mod_self (w hi lo : Nat) : bits w hi lo % 2 ^ (hi + 1 - lo) = bits w hi lo := Nat.mod_mod ..

theorem bit_of_bits {w v n : Nat} (h : bits w n n = bits v n n) : bit w n = bit v n := by
  have hone : n + 1 - n = 1 := by omega
  simp only [bits, hone, pow_one] at h
  rw [bit, bit, h]

/-- The lowest field of a write, where it is read-write and taken, is set to the value's. -/
theorem sortWrite_first {s : State} {l : Loc} {sec : Bool} {f : Fld} {fs : List Fld} (hflds : l.reg.flds = f :: fs)
    (hf : f.acc = .rw) (hyes : s.takes l sec f = .yes) (hlo : f.lo ≤ f.hi + 1) (hrest : ∀ g ∈ fs, f.hi < g.lo) (v : Nat) :
    bits (s.sortWrite l sec v).w f.hi f.lo = bits v f.hi f.lo ∧ (s.sortWrite l sec v).any = true := by
  unfold State.sortWrite
  extract_lets held step
  have hstep : ∀ (x : Wr) g, f.hi < g.lo → bits (step x g).w f.hi f.lo = bits x.w f.hi f.lo ∧
      (x.any = true → (step x g).any = true) := by
    intro x g hg
    simp only [step]
    split
    · exact ⟨rfl, id⟩
    · split
      · exact ⟨rfl, fun _ => rfl⟩
      · exact ⟨bits_insBits_of_lt hg hlo .., fun _ => rfl⟩
      · exact ⟨bits_insBits_of_lt hg hlo .., fun _ => rfl⟩
  have hfold : ∀ (gs : List Fld) (x : Wr), (∀ g ∈ gs, f.hi < g.lo) → bits x.w f.hi f.lo = bits v f.hi f.lo →
      x.any = true → bits (gs.foldl step x).w f.hi f.lo = bits v f.hi f.lo ∧ (gs.foldl step x).any = true := by
    intro gs
    induction gs with
    | nil => exact fun x _ hw hany => ⟨hw, hany⟩
    | cons g gs ih =>
      intro x hgs hw hany
      obtain ⟨hkeep, hstill⟩ := hstep x g (hgs g List.mem_cons_self)
      exact ih (step x g) (fun y hy => hgs y (List.mem_cons_of_mem _ hy)) (hkeep.trans hw) (hstill hany)
  rw [hflds, List.foldl_cons]
  refine hfold fs _ hrest ?_ ?_
  · simp only [step, hyes, hf, ne_eq, not_true_eq_false, if_false]
    rw [bits_insBits_self, bits_mod_self]
  · simp [step, hyes, hf]

/-! ### Writes of registers without a LOCK (R7, R442, R450) -/

/-- A register of read-write and read-only fields whose first is read-write and lies below the others. -/
structure PlainFields (r : Reg) (f : Fld) (fs : List Fld) : Prop where
  flds : r.flds = f :: fs
  first : f.acc = .rw
  order : f.lo ≤ f.hi + 1
  rest : ∀ g ∈ fs, (g.acc = .rw ∨ g.acc = .ro) ∧ f.hi < g.lo

section
variable {s : State} {path : Path} {r : Reg} {i : Nat}

theorem takes_of_rw {f : Fld} (h : Accepts s path r i) (hf : f.acc = .rw) : s.takes ⟨r, i, 0⟩ (pathSecure path) f = .yes := by
  have hblock : blockAt (⟨r, i, 0⟩ : Loc).addr = blockAt (addrOf r i) := rfl
  rcases h.world with hw | hw <;> simp [State.takes, secureOnly, hf, hblock, hw]

theorem takes_of_ro {f : Fld} (l : Loc) (sec : Bool) (hf : f.acc = .ro) : s.takes l sec f = .no := by
  simp [State.takes, hf]

/-- An accepted write of such a register acts, with the first field as the value has it. -/
theorem writeBy_of_plain {f : Fld} {fs : List Fld} (h : Accepts s path r i) (hr : PlainFields r f fs)
    (hloc : locate (addrOf r i) = some ⟨r, i, 0⟩) (halign : addrOf r i % 8 = 0) (hctl : ∀ b n, ctlOf b n ≠ ⟨r, i, 0⟩)
    (v : W64) :
    let x := s.sortWrite ⟨r, i, 0⟩ (pathSecure path) v.toNat
    s.writeBy path (addrOf r i) v = s.effect ⟨r, i, 0⟩ (pathSecure path) x ∧
      bits x.w f.hi f.lo = bits v.toNat f.hi f.lo := by
  intro x
  obtain ⟨hw, hany⟩ : bits x.w f.hi f.lo = bits v.toNat f.hi f.lo ∧ x.any = true :=
    sortWrite_first hr.flds hr.first (takes_of_rw h hr.first) hr.order (fun g hg => (hr.rest g hg).2) v.toNat
  have hreach : s.reach (addrOf r i) = .ok ⟨r, i, 0⟩ := by simp [State.reach, halign, hloc, h.served]
  have hyes : ∀ g ∈ r.flds, s.takes ⟨r, i, 0⟩ (pathSecure path) g = .yes ∨
      s.takes ⟨r, i, 0⟩ (pathSecure path) g = .no := by
    intro g hg
    rw [hr.flds, List.mem_cons] at hg
    rcases hg with rfl | hg
    · exact .inl (takes_of_rw h hr.first)
    · exact (hr.rest g hg).1.imp (takes_of_rw h) (takes_of_ro _ _)
  have hnone : ∀ t, t ≠ .yes → t ≠ .no → (r.flds.any fun g => s.takes ⟨r, i, 0⟩ (pathSecure path) g = t &&
      g.changes (s.heldWord ⟨r, i, 0⟩) v.toNat) = false := fun t hty htn =>
    List.any_eq_false.mpr fun g hg => by rcases hyes g hg with hg | hg <;> simp [hg, Ne.symm hty, Ne.symm htn]
  have hcause : s.writeCause ⟨r, i, 0⟩ (pathSecure path) v.toNat = none := by
    simp [State.writeCause, hnone]
  refine ⟨?_, hw⟩
  simp [State.writeBy, h.opened, regWrite_of_reach hreach, State.writeLoc, hcause, lockStays_of_ne hctl, State.when, x, hany]

end

/-- The registers of jobs, estimates, windows and gate entries are no block's control registers. -/
theorem ctlOf_ne_job {l : Loc} (h : l.reg ∈ [.timeJobCtl, .timeJobEst, .tierWinCtl, .timeGateW0, .timeGateW1]) (b n : Nat) :
    ctlOf b n ≠ l := by
  rintro rfl
  unfold ctlOf at h
  dsimp only at h
  split at h <;> simp at h

/-- Where no register before it covers an address, the register that covers it is found. -/
theorem locate_of_split {a i : Nat} {r : Reg} {l m : List Reg} (hall : Reg.all = l ++ r :: m)
    (hnone : ∀ q ∈ l, q.place.at? a = none) (hself : r.place.at? a = some (i, 0)) : locate a = some ⟨r, i, 0⟩ := by
  rw [locate, hall, locateIn_append hnone, locateIn, hself]

/-- Registers that end by an address do not cover what lies past it. -/
theorem at?_of_ends {a b : Nat} {l : List Reg} (h : b ≤ a)
    (hends : ∀ q ∈ l, 0 < q.place.s1 ∧ q.place.base + q.place.n1 * q.place.s1 ≤ b) : ∀ q ∈ l, q.place.at? a = none :=
  fun q hq => Place.at?_of_end_le (hends q hq).1 ((hends q hq).2.trans h)

theorem locate_timeJobCtl {j : Nat} (hj : j < 64) : locate (addrOf .timeJobCtl j) = some ⟨.timeJobCtl, j, 0⟩ := by
  have haddr : addrOf .timeJobCtl j = 0xA01000 + 0x40 * j := by simp [addrOf, Loc.addr, Reg.place]; omega
  have hbefore := at?_of_ends (l := Reg.all.take 104) (Nat.le_add_right 0xA01000 (0x40 * j)) (by decide)
  rw [haddr]
  exact locate_of_split (m := Reg.all.drop 105) rfl hbefore (by simp [Place.at?, Reg.place, hj])

/-- TIME_JOB_EST of a slot lies past every register before it but TIME_JOB_CTL, whose words stand between. -/
theorem locate_timeJobEst {j : Nat} (hj : j < 64) : locate (addrOf .timeJobEst j) = some ⟨.timeJobEst, j, 0⟩ := by
  have haddr : addrOf .timeJobEst j = 0xA01008 + 0x40 * j := by simp [addrOf, Loc.addr, Reg.place]; omega
  have hpast : 0xA01000 ≤ 0xA01008 + 0x40 * j := by omega
  have hctl : Reg.timeJobCtl.place.at? (0xA01008 + 0x40 * j) = none := by
    have hrest : (0xA01008 + 0x40 * j - 0xA01000) % 0x40 = 8 := by omega
    simp [Place.at?, Reg.place, hrest]
  rw [haddr]
  refine locate_of_split (l := Reg.all.take 104 ++ [.timeJobCtl]) (m := Reg.all.drop 106) rfl (fun q hq => ?_)
    (by simp [Place.at?, Reg.place, hj])
  rcases List.mem_append.mp hq with hq | hq
  · exact at?_of_ends (l := Reg.all.take 104) hpast (by decide) q hq
  · rw [List.mem_singleton.mp hq, hctl]

theorem locate_tierWinCtl {w : Nat} (hw : w < 16) : locate (addrOf .tierWinCtl w) = some ⟨.tierWinCtl, w, 0⟩ := by
  have haddr : addrOf .tierWinCtl w = 0x820000 + 0x40 * w := by simp [addrOf, Loc.addr, Reg.place]; omega
  have hbefore := at?_of_ends (l := Reg.all.take 79) (Nat.le_add_right 0x820000 (0x40 * w)) (by decide)
  rw [haddr]
  exact locate_of_split (m := Reg.all.drop 80) rfl hbefore (by simp [Place.at?, Reg.place, hw])

theorem locate_timeGateW0 : locate (addrOf .timeGateW0) = some ⟨.timeGateW0, 0, 0⟩ := rfl
theorem locate_timeGateW1 : locate (addrOf .timeGateW1) = some ⟨.timeGateW1, 0, 0⟩ := rfl

/-! ### The five registers -/

section
variable {s : State} {path : Path}

/-- A write of TIME_JOB_CTL that is accepted (R127, R128). -/
theorem writeBy_timeJobCtl {j : JobSlot} (h : Accepts s path .timeJobCtl j.val) (v : W64) :
    let x := s.sortWrite ⟨.timeJobCtl, j.val, 0⟩ (pathSecure path) v.toNat
    s.writeBy path (addrOf .timeJobCtl j.val) v = s.writeJob ⟨.timeJobCtl, j.val, 0⟩ x ∧ bit x.w 0 = bit v.toNat 0 := by
  have hr : PlainFields .timeJobCtl _ _ := ⟨rfl, rfl, by decide, by decide⟩
  have halign : addrOf .timeJobCtl j.val % 8 = 0 := by simp [addrOf, Loc.addr, Reg.place]; omega
  obtain ⟨hwrite, hw⟩ := writeBy_of_plain h hr (locate_timeJobCtl j.isLt) halign (ctlOf_ne_job (by simp)) v
  exact ⟨hwrite, bit_of_bits hw⟩

/-- A write of TIME_JOB_EST that is accepted (R137, R143). -/
theorem writeBy_timeJobEst {j : JobSlot} (h : Accepts s path .timeJobEst j.val) (v : W64) :
    let x := s.sortWrite ⟨.timeJobEst, j.val, 0⟩ (pathSecure path) v.toNat
    s.writeBy path (addrOf .timeJobEst j.val) v = s.writeEstReg ⟨.timeJobEst, j.val, 0⟩ x ∧
      bits x.w 31 0 = bits v.toNat 31 0 := by
  have hr : PlainFields .timeJobEst _ _ := ⟨rfl, rfl, by decide, by decide⟩
  have halign : addrOf .timeJobEst j.val % 8 = 0 := by simp [addrOf, Loc.addr, Reg.place]; omega
  exact writeBy_of_plain h hr (locate_timeJobEst j.isLt) halign (ctlOf_ne_job (by simp)) v

/-- A write of TIER_WIN_CTL that is accepted (R109). -/
theorem writeBy_tierWinCtl {w : Win} (h : Accepts s path .tierWinCtl w.val) (v : W64) :
    let x := s.sortWrite ⟨.tierWinCtl, w.val, 0⟩ (pathSecure path) v.toNat
    s.writeBy path (addrOf .tierWinCtl w.val) v = s.writeWin ⟨.tierWinCtl, w.val, 0⟩ x ∧ bit x.w 0 = bit v.toNat 0 := by
  have hr : PlainFields .tierWinCtl _ _ := ⟨rfl, rfl, by decide, by decide⟩
  have halign : addrOf .tierWinCtl w.val % 8 = 0 := by simp [addrOf, Loc.addr, Reg.place]; omega
  obtain ⟨hwrite, hw⟩ := writeBy_of_plain h hr (locate_tierWinCtl w.isLt) halign (ctlOf_ne_job (by simp)) v
  exact ⟨hwrite, bit_of_bits hw⟩

/-- A word whose only field spans it is the value. -/
theorem ofNat_of_bits {w : Nat} {v : W64} (h : bits w 63 0 = bits v.toNat 63 0) : BitVec.ofNat 64 w = v := by
  apply BitVec.eq_of_toNat_eq
  have hv := v.isLt
  simp only [bits] at h
  rw [BitVec.toNat_ofNat]
  omega

/-- A write of TIME_GATE_W0 that is accepted stages the word (R140). -/
theorem writeBy_timeGateW0 (h : Accepts s path .timeGateW0 0) (v : W64) :
    s.writeBy path (addrOf .timeGateW0) v = { s with time := { s.time with w0 := v } } := by
  have hr : PlainFields .timeGateW0 _ _ := ⟨rfl, rfl, by decide, by decide⟩
  obtain ⟨hwrite, hw⟩ := writeBy_of_plain h hr locate_timeGateW0 rfl (ctlOf_ne_job (by simp)) v
  rw [hwrite]
  exact congrArg (fun w0 => ({ s with time := { s.time with w0 := w0 } } : State)) (ofNat_of_bits hw)

/-- A write of TIME_GATE_W1 that is accepted commits the entry, or names its fault (R140). -/
theorem writeBy_timeGateW1 (h : Accepts s path .timeGateW1 0) (v : W64) :
    s.writeBy path (addrOf .timeGateW1) v = s.gateWrite v := by
  have hr : PlainFields .timeGateW1 _ _ := ⟨rfl, rfl, by decide, by decide⟩
  obtain ⟨hwrite, hw⟩ := writeBy_of_plain h hr locate_timeGateW1 rfl (ctlOf_ne_job (by simp)) v
  rw [hwrite]
  exact congrArg s.gateWrite (ofNat_of_bits hw)

end

/-! ### What they do (R109, R127, R128, R137, R140) -/

section
variable {s : State} {l : Loc} {x : Wr}

theorem writeJob_enables (hoff : (s.job l.i).live = false) (hon : bit x.w 0 = true) :
    s.writeJob l x = ((s.setWord l (insBits x.w 0 0 0)).jobOn l.i).goOn := by
  simp [State.writeJob, hoff, hon]

theorem writeJob_disables (hlive : (s.job l.i).live = true) (hoff : bit x.w 0 = false) :
    s.writeJob l x = (s.jobOff l.i).goOn := by
  simp [State.writeJob, hlive, hoff]

theorem writeWin_enables (hoff : (s.win l.i).on = false) (hon : bit x.w 0 = true) :
    s.writeWin l x = (s.setWord l (insBits x.w 0 0 0)).winOn l.i := by
  simp [State.writeWin, hoff, hon]

theorem writeWin_disables (hlive : (s.win l.i).on = true) (hoff : bit x.w 0 = false) :
    s.writeWin l x = (s.winOff l.i 0).goOn := by
  simp [State.writeWin, hlive, hoff]

/-- The value JOB_DISABLE writes clears ENABLE. -/
theorem withField_enable_off (s : State) (r : Reg) (i : Nat) : bit (s.withField r i 0 0 0).toNat 0 = false := by
  have hclear := bits_insBits_self (s.rwWord ⟨r, i, 0⟩) 0 0 0
  simp only [bits] at hclear
  rw [← Bool.not_eq_true, bit_iff, State.withField, BitVec.toNat_ofNat]
  omega

/-- A gate entry that is not open is committed and evaluated, and what waited on its target looks again. -/
theorem gateWrite_of_good {v : W64} {j k : Nat} (hj : s.fld F.timeGateSelSlot = j) (hk : s.fld F.timeGateSelEntry = k)
    (hgood : gateCheck (s.jobC j) (s.jobP j) s.time.w0.toNat v.toNat = 0) (hshut : (Tbl.rd {} (s.job j).gates k).inst = none) :
    let u := ((s.modJob j (fun x => { x with gates := Tbl.put {} k { w0 := s.time.w0, w1 := v } x.gates })).evalGate
      j k).gatesMoved j false
    s.gateWrite v = if u.flag F.timeGateSelAutoinc then u.setFld F.timeGateSelEntry ((k + 1) % 1024) else u := by
  subst hj hk
  rw [State.gateWrite, hgood]
  simp only [hshut]
  rfl

theorem gateWrite_of_bad {v : W64} {e : Nat}
    (hbad : gateCheck (s.jobC (s.fld F.timeGateSelSlot)) (s.jobP (s.fld F.timeGateSelSlot)) s.time.w0.toNat v.toNat = e + 1) :
    s.gateWrite v = (s.setFld F.timeStsGateErr 1).setFld F.timeStsGateErrCode (e + 1) := by
  rw [State.gateWrite, hbad]

end

/-- Settles O47: each register's write acts as `writeBy_of_plain` says, and what the act does by its checks. -/
theorem jobsWindowsAndGatesAreSet : Obligations.JobsWindowsAndGatesAreSet := by
  intro s path v
  refine ⟨fun j h => ?job, fun j h => ?est, fun w h => ?win, fun h => congrArg Host.Outcome.next (writeBy_timeGateW0 h v),
    fun h => ?gate⟩
  case job =>
    intro l u
    refine ⟨fun hoff hon => ?_, fun hlive => ?_⟩
    · obtain ⟨hwrite, hbit⟩ := writeBy_timeJobCtl h v
      have hexec : exec (.jobEnable path j v) s = .next (u.jobOn j.val).goOn :=
        congrArg Host.Outcome.next (hwrite.trans (writeJob_enables hoff (hbit.trans hon)))
      rw [hexec, State.jobOn]
      exact ⟨fun hgood => by rw [hgood]; rfl, fun e hbad => by rw [hbad]⟩
    · obtain ⟨hwrite, hbit⟩ := writeBy_timeJobCtl h (s.withField .timeJobCtl j.val 0 0 0)
      exact congrArg Host.Outcome.next (hwrite.trans (writeJob_disables hlive (hbit.trans (withField_enable_off ..))))
  case est =>
    intro l u
    obtain ⟨hwrite, hbits⟩ := writeBy_timeJobEst h v
    refine congrArg Host.Outcome.next (hwrite.trans ?_)
    rw [State.writeEstReg, hbits]
    rfl
  case win =>
    intro l u
    obtain ⟨hwrite, hbit⟩ := writeBy_tierWinCtl h v
    refine ⟨fun hoff hon => ?_, fun hlive hoff =>
      congrArg Host.Outcome.next (hwrite.trans (writeWin_disables hlive (hbit.trans hoff)))⟩
    have hexec : exec (.windowEnable path w v) s = .next (u.winOn w.val) :=
      congrArg Host.Outcome.next (hwrite.trans (writeWin_enables hoff (hbit.trans hon)))
    rw [hexec, State.winOn]
    exact ⟨fun hgood => by rw [hgood], fun e hbad => by rw [hbad]⟩
  case gate =>
    intro j k code
    have hexec : exec (.gateCommit path v) s = .next (s.gateWrite v) := congrArg Host.Outcome.next (writeBy_timeGateW1 h v)
    rw [hexec]
    refine ⟨fun hbad => ?_, fun hgood hshut => congrArg Host.Outcome.next (gateWrite_of_good rfl rfl hgood hshut)⟩
    obtain ⟨e, he⟩ := Nat.exists_eq_succ_of_ne_zero hbad
    rw [gateWrite_of_bad he, he]

end Sys2Proof.Machine
end

section
/-! SUPPORT. LOAD_RECIPE, INVOKE with its completion, and work runs (O41; R114, R199, R218–R223, R255, R355–R357). -/

namespace Sys2Proof.Machine

/-! ### LOAD_RECIPE (R221, R222) -/

theorem loadRecipe_of_fail {s : State} {lsn st d : Nat} {e : Entry} (hw : Working s lsn opLoadRecipe e) (hnote : e.note = [])
    (hfail : s.recipeFail e.tenant (bits (e.w 2) 7 0) = some (st, d)) :
    s.loadRecipe lsn = s.fixResult lsn (Res.fail st d) := by
  rw [State.loadRecipe, onOp_of_working hw, hnote]
  dsimp only
  rw [hfail]

/-- A LOAD_RECIPE takes its slot. -/
def State.takeRecipe (s : State) (e : Entry) (slot : Nat) : State :=
  let r := s.slc.slots.rd {} slot
  let a := s.setNote e.lsn [slot, if r.st = SlotState.empty then 0 else 1, s.now]
  { a with slc := { a.slc with slots := Tbl.put {} slot { r with st := .loading, owner := e.tenant } a.slc.slots } }

theorem loadRecipe_of_free {s : State} {lsn : Nat} {e : Entry} (hw : Working s lsn opLoadRecipe e) (hnote : e.note = [])
    (hfree : s.recipeFail e.tenant (bits (e.w 2) 7 0) = none) (hlo : 80 ≤ bits (e.w 4) 31 0) (hhi : bits (e.w 4) 31 0 ≤ 1088)
    (hsize : bits (e.w 4) 31 0 % 16 = 0)
    (hgood : ∀ st d, ((s.takeRecipe e (bits (e.w 2) 7 0)).readEp e.tenant (e.w 3) (bits (e.w 4) 31 0) (.image lsn)).fetchOf
      (.image lsn) ≠ some (.failed st d)) :
    s.loadRecipe lsn = (s.takeRecipe e (bits (e.w 2) 7 0)).readEp e.tenant (e.w 3) (bits (e.w 4) 31 0) (.image lsn) := by
  obtain rfl := entry_lsn hw.entry
  rw [State.loadRecipe, onOp_of_working hw, hnote]
  dsimp only
  rw [hfree]
  refine (if_neg (by simp; omega)).trans ?_
  change (match ((s.takeRecipe e (bits (e.w 2) 7 0)).readEp e.tenant (e.w 3) (bits (e.w 4) 31 0) (.image e.lsn)).fetchOf _ with
    | some (.failed st d) => _ | _ => _) = _
  split
  next st d h => exact absurd h (hgood st d)
  · rfl

/-- The slot with an image that has come. -/
def State.recipeLoaded (s : State) (e : Entry) (slot : Nat) (i : Image) : State :=
  { s with slc := { s.slc with slots := Tbl.put {} slot { st := .loaded, owner := e.tenant, img := some i } s.slc.slots } }

theorem slot_recipeLoaded (s : State) (e : Entry) (slot : Nat) (i : Image) :
    (s.recipeLoaded e slot i).slc.slots.rd {} slot = { st := .loaded, owner := e.tenant, img := some i } := by
  rw [State.recipeLoaded, Tbl.rd_put_self]

theorem loadRecipe_of_image {s : State} {lsn slot old at_ : Nat} {e : Entry} {b : List Byte} (hw : Working s lsn opLoadRecipe e)
    (hnote : e.note = [slot, old, at_]) (hgot : s.fetchOf (.image lsn) = some (.got b)) :
    (∀ i, goodImage b = some i → s.loadRecipe lsn = (s.recipeLoaded e slot i).fixResult lsn Res.ok) ∧
      (goodImage b = none → s.loadRecipe lsn = s.fixResult lsn (Res.fail St.malformed 0x0003)) := by
  rw [State.loadRecipe, onOp_of_working hw, hnote]
  dsimp only
  rw [hgot]
  dsimp only
  exact ⟨fun i hi => by rw [hi]; rfl, fun hbad => by rw [hbad]⟩

/-! ### INVOKE (R199, R223) -/

/-- The parameters of an INVOKE have come, or stand in its words. -/
def State.hasParams (s : State) (e : Entry) (p : List Byte) : Prop :=
  (bit (e.w 2) 8 = false ∧ p = (((e.words.drop 3).take 5).map (fun w => leBytes 8 w.toNat)).flatten) ∨
    (bit (e.w 2) 8 = true ∧ s.fetchOf (.params e.lsn) = some (.got p))

theorem invoke_of_params {s : State} {lsn : Nat} {e : Entry} {p : List Byte} (hw : Working s lsn opInvoke e)
    (hnew : s.inv lsn = none) (hp : s.hasParams e p) :
    (∀ v, s.invokeCheck e p = .ok v → s.invoke lsn = s.invokeBegin e v) ∧
      (∀ st d, s.invokeCheck e p = .error (st, d) → s.invoke lsn = s.fixResult lsn (Res.fail st d)) := by
  obtain rfl := entry_lsn hw.entry
  have hnone : ¬ (s.inv e.lsn).isSome = true := by simp [hnew]
  rw [State.invoke, onOp_of_working hw, if_neg hnone]
  rcases hp with ⟨hin, rfl⟩ | ⟨hout, hgot⟩
  · have hinline : ¬ bit (e.w 2) 8 = true := by simp [hin]
    simp only [if_neg hinline]
    exact ⟨fun v hv => by rw [hv], fun st d hf => by rw [hf]⟩
  · simp only [if_pos hout, hgot]
    exact ⟨fun v hv => by rw [hv], fun st d hf => by rw [hf]⟩

theorem invoke_of_fetch {s : State} {lsn : Nat} {e : Entry} (hw : Working s lsn opInvoke e)
    (hnew : s.inv lsn = none) (hout : bit (e.w 2) 8 = true) (hnone : s.fetchOf (.params lsn) = none)
    (hgood : ∀ st d, (s.readEp e.tenant (e.w 3) (bits (e.w 2) 28 16) (.params lsn)).fetchOf (.params lsn) ≠
      some (.failed st d)) :
    s.invoke lsn = s.readEp e.tenant (e.w 3) (bits (e.w 2) 28 16) (.params lsn) := by
  rw [State.invoke, onOp_of_working hw, if_neg (by simp [hnew])]
  refine (if_pos hout).trans ?_
  rw [hnone]
  dsimp only
  split
  next st d h => exact absurd h (hgood st d)
  · rfl

/-! ### The completion of an invocation (R114, R218, R219, R255) -/

section
variable {s : State} {lsn : Nat} {e : Entry} {v : Inv}

/-- The parts of an invocation that have not ended well. -/
def State.badEnds (s : State) (lsn : Nat) (v : Inv) : List (Nat × Nat × Nat) :=
  (s.endsOf lsn v).filter (fun x => !(statusGood x.2.1))

/-- Every part of an invocation has ended well. -/
def State.allGood (s : State) (lsn : Nat) (v : Inv) : Bool := (s.endsOf lsn v).all (fun x => statusGood x.2.1)

theorem badEnds_of_good (hgood : s.allGood lsn v = true) : s.badEnds lsn v = [] := by
  rw [State.allGood, List.all_eq_true] at hgood
  exact List.filter_eq_nil_iff.mpr fun x hx => by simp [hgood x hx]

theorem invokeResult_of_good (hgood : s.allGood e.lsn v = true) : s.invokeResult e v = s.goodResult e v := by
  have hnone : (s.endsOf e.lsn v).filter (fun x => !(statusGood x.2.1)) = [] := badEnds_of_good hgood
  rw [State.invokeResult, hnone]

theorem finishInvoke_eq (s : State) (e : Entry) (v : Inv) (r : Res) :
    s.finishInvoke e v r = (s.modEntry e.lsn (fun x =>
      { x with used := v.used, failedParts := (s.badEnds e.lsn v).map (fun x => x.1) })).fixResult e.lsn r := rfl

section
variable (hw : Working s lsn opInvoke e) (hv : s.inv lsn = some v) (hover : s.invokeOver lsn v = true)
include hw hv hover

theorem execInvokeComplete_of_good (hgood : s.allGood lsn v = true) (hplain : e.workId = 0) :
    execInvokeComplete lsn s =
      .next ((s.modEntry lsn (fun x => { x with used := v.used, failedParts := [] })).fixResult lsn (s.goodResult e v)) := by
  obtain rfl := entry_lsn hw.entry
  have hany : ((s.endsOf e.lsn v).any fun x => !(statusGood x.2.1)) = false := by
    rw [List.any_eq_false]
    simpa [State.allGood] using hgood
  have hfinish : s.finishInvoke e v (s.invokeResult e v) =
      (s.modEntry e.lsn (fun x => { x with used := v.used, failedParts := [] })).fixResult e.lsn (s.goodResult e v) := by
    rw [finishInvoke_eq, badEnds_of_good hgood, invokeResult_of_good hgood]
    rfl
  rw [execInvokeComplete, onOp_of_working hw, hv]
  simp only [hany, hover, hplain]
  exact congrArg Host.Outcome.next hfinish

/-- The gather lines that a failed invocation lacks go out poisoned before its result is fixed. -/
theorem execInvokeComplete_of_failed {x : Nat × Nat × Nat} {rest : List (Nat × Nat × Nat)} 
    (hbad : s.badEnds lsn v = x :: rest) :
    let u := if v.poisoned then s else s.poisonGather e v
    execInvokeComplete lsn s =
      .next (if v.poisoned = false ∧ u.hasFabric lsn = true then u else u.finishInvoke e v (u.invokeResult e v)) := by
  intro u
  have hany : ((s.endsOf lsn v).any fun x => !(statusGood x.2.1)) = true := by
    have hx : x ∈ s.badEnds lsn v := by rw [hbad]; exact List.mem_cons_self
    obtain ⟨hmem, hfail⟩ := List.mem_filter.mp hx
    exact List.any_eq_true.mpr ⟨x, hmem, hfail⟩
  rw [execInvokeComplete, onOp_of_working hw, hv]
  simp only [hany, hover, u]
  cases hp : v.poisoned <;> simp

/-- A good work run wins where no run of its identity has won, and is superseded by one that has. -/
theorem commitWork_of_good {k : WorkKey} (hgood : s.allGood lsn v = true) (hrun : e.workId ≠ 0) (hk : s.workKey e = some k) :
    (k.winner = none → s.commitWork lsn = s.winWork e v) ∧
      (∀ l n, k.winner = some (l, n) → s.commitWork lsn = s.supersede lsn n) := by
  have hcommits : (e.workId ≠ 0 && s.invokeOver lsn v && (s.endsOf lsn v).all (fun x => statusGood x.2.1)) = true := by
    rw [State.allGood] at hgood
    rw [hover, hgood]
    simpa using hrun
  rw [State.commitWork, onOp_of_working hw, hv]
  dsimp only
  rw [if_pos hcommits, hk]
  obtain ⟨tenant, work, winner⟩ := k
  refine ⟨fun hopen => ?_, fun l n hwon => ?_⟩
  · obtain rfl : winner = none := hopen
    rfl
  · obtain rfl : winner = some (l, n) := hwon
    rfl

end

/-- The result of a failed invocation: a lone sub-part's own, NOT_READY where every failed part met that, otherwise PARTIAL. -/
theorem invokeResult_of_failed {k st d : Nat} {rest : List (Nat × Nat × Nat)} (hbad : s.badEnds e.lsn v = (k, st, d) :: rest) :
    (v.count = 1 → v.img.final = 0 → s.invokeResult e v = Res.fail st d) ∧
      (¬(v.count = 1 ∧ v.img.final = 0) → st = St.notReady → (∀ x ∈ rest, x.2.1 = St.notReady) →
        s.invokeResult e v = Res.fail st d) ∧
      (¬(v.count = 1 ∧ v.img.final = 0) → ¬(st = St.notReady ∧ ∀ x ∈ rest, x.2.1 = St.notReady) →
        s.invokeResult e v = { status := St.partialFail, detail := d, r0 := v.count,
                               r1 := partialBitmap (k :: rest.map (fun x => x.1)) }) := by
  have hfilter : (s.endsOf e.lsn v).filter (fun x => !(statusGood x.2.1)) = (k, st, d) :: rest := hbad
  rw [State.invokeResult, hfilter]
  dsimp only
  exact ⟨fun hcount hfinal => if_pos (by simp [hcount, hfinal]),
    fun hmany hst hrest => (if_neg (by simpa using hmany)).trans (if_pos (by simpa [hst] using hrest)),
    fun hmany hmixed => (if_neg (by simpa using hmany)).trans (if_neg (by simpa using hmixed))⟩

end

/-! ### Work runs (R355–R357) -/

theorem mem_of_mem_insOn {α : Type} {key : α → Nat} {a b : α} {l : List α} (h : b ∈ insOn key a l) :
    b = a ∨ b ∈ l := by
  induction l with
  | nil => exact .inl (List.mem_singleton.mp h)
  | cons c l ih =>
    rw [insOn] at h
    split at h
    · exact List.mem_cons.mp h
    · rcases List.mem_cons.mp h with rfl | h
      · exact .inr List.mem_cons_self
      · exact (ih h).imp_right (List.mem_cons_of_mem _)

theorem mem_of_mem_sortOn {α : Type} {key : α → Nat} {b : α} {l : List α} (h : b ∈ sortOn key l) : b ∈ l := by
  have hfold : ∀ (l acc : List α), b ∈ l.foldl (fun acc a => insOn key a acc) acc → b ∈ acc ∨ b ∈ l := by
    intro l
    induction l with
    | nil => exact fun acc h => .inl h
    | cons a l ih =>
      intro acc h
      rcases ih _ h with h | h
      · rcases mem_of_mem_insOn h with rfl | h
        · exact .inr List.mem_cons_self
        · exact .inl h
      · exact .inr (List.mem_cons_of_mem _ h)
  exact (hfold l [] h).resolve_left List.not_mem_nil

/-- Where no lower run of its identity commits, a run commits alone. -/
theorem execWorkCommit_of_alone {s : State} {lsn : Nat} (h : ∀ l ∈ s.rivals lsn, s.commitWork l = s) :
    exec (.workCommit lsn) s = .next (s.commitWork lsn) := by
  refine congrArg Host.Outcome.next ?_
  rw [foldS_of_fixed fun l hl => h l (mem_of_mem_sortOn hl)]

/-- One lower run of its identity commits first. -/
theorem execWorkCommit_of_rival {s : State} {lsn l : Nat} (h : s.rivals lsn = [l]) :
    exec (.workCommit lsn) s = .next ((s.commitWork l).commitWork lsn) := by
  refine congrArg Host.Outcome.next ?_
  rw [h]
  rfl

theorem execWorkKeyExpiry_of_kept {s : State} {t : Tenant} {w : W64} {k : WorkKey}
    (h : s.ldg.works.find? (fun k => k.tenant = t.val && k.work = w && k.winner.isSome && !k.writes) = some k) :
    let u := s.waitTill (k.wonAt + 1000000 * s.fld F.ldgCtlWorkHoldMs)
    exec (.workKeyExpiry t w) s = .next (u.setWorks
      (u.ldg.works.filter (fun k => !(k.tenant = t.val && k.work = w && k.winner.isSome && !k.writes)))) := by
  refine congrArg Host.Outcome.next ?_
  rw [h]

/-- Settles O41: each clause is the case of LOAD_RECIPE, INVOKE, its completion or a work run that it speaks of. -/
theorem recipesLoadRunAndComplete : Obligations.RecipesLoadRunAndComplete := by
  intro s lsn e
  refine ⟨fun hw => ⟨?load, fun slot old at_ b hnote hgot => ?image⟩,
    fun hw => ⟨fun hnew => ?invoke, fun v hv hover hgood => ?good, fun v k st d rest hv hover hbad => ?failed,
      fun l x v k hrival hw' hv hrun hover hgood hk hopen => ?rival⟩,
    fun t w k h => ⟨_, rfl, execWorkKeyExpiry_of_kept h⟩⟩
  case load =>
    intro slot len hnote
    refine ⟨fun st d hfail => congrArg Host.Outcome.next (loadRecipe_of_fail hw hnote hfail), fun hfree hlo hhi hsize => ?_⟩
    intro r a b u hgood
    obtain rfl := entry_lsn hw.entry
    exact congrArg Host.Outcome.next (loadRecipe_of_free hw hnote hfree hlo hhi hsize hgood)
  case image =>
    obtain ⟨hload, hrefuse⟩ := loadRecipe_of_image hw hnote hgot
    exact ⟨fun i hi => ⟨s.recipeLoaded e slot i, congrArg Host.Outcome.next (hload i hi), slot_recipeLoaded .., rfl, rfl⟩,
      fun hbad => congrArg Host.Outcome.next (hrefuse hbad)⟩
  case invoke =>
    refine ⟨fun p hp => ?_, fun hout hnone => ?_⟩
    · obtain rfl := entry_lsn hw.entry
      obtain ⟨hbegin, hfail⟩ := invoke_of_params hw hnew hp
      exact ⟨fun v hv => congrArg Host.Outcome.next (hbegin v hv), fun st d hf => congrArg Host.Outcome.next (hfail st d hf)⟩
    · intro u hgood
      exact congrArg Host.Outcome.next (invoke_of_fetch hw hnew hout hnone hgood)
  case good =>
    refine ⟨fun hplain => execInvokeComplete_of_good hw hv hover hgood hplain, fun k hrun hrivals hk hopen => ?_,
      fun k l n hrun hrivals hk hwon => ?_⟩
    · exact (execWorkCommit_of_alone hrivals).trans
        (congrArg Host.Outcome.next ((commitWork_of_good hw hv hover hgood hrun hk).1 hopen))
    · exact (execWorkCommit_of_alone hrivals).trans
        (congrArg Host.Outcome.next ((commitWork_of_good hw hv hover hgood hrun hk).2 l n hwon))
  case failed =>
    intro u
    have hexec := execInvokeComplete_of_failed hw hv hover hbad
    obtain rfl := entry_lsn hw.entry
    obtain ⟨hlone, hnotReady, hpartial⟩ := invokeResult_of_failed hbad
    refine ⟨fun hp hfab => hexec.trans (congrArg Host.Outcome.next (if_pos ⟨hp, hfab⟩)),
      fun hdone => hexec.trans (congrArg Host.Outcome.next (if_neg ?_)), hlone, hnotReady, hpartial⟩
    rintro ⟨hp, hfab⟩
    rcases hdone with hdone | hdone
    · exact Bool.false_ne_true (hp.symm.trans hdone)
    · exact Bool.false_ne_true (hdone.symm.trans hfab)
  case rival =>
    rw [execWorkCommit_of_rival hrival, (commitWork_of_good hw' hv hover hgood hrun hk).1 hopen]

end Sys2Proof.Machine
end

section
/-! SUPPORT. WAIT_MARK (O23; R129, R136, R211, R217): what it finds when it looks at its job, and how it retires, waits and expires. -/

namespace Sys2Proof.Machine

/-! ### Steps of a waiting context -/

/-- A context whose wait the primitive allows runs its step as its meaning says. -/
theorem onStep_of_waits {s : State} {cx : Nat} {r : Run} {p : Step → Bool} {w : CtxStatus → Bool} (hr : s.runOf cx = some r)
    (hp : p r.st = true) (hw : w r.c.status = true) (f : Run → StepOut) : s.onStep cx p f w = r.finish (f r) := by
  simp [State.onStep, hr, hp, hw]

theorem modCtx_of_ctx {s : State} {cx : Nat} {c : Ctx} (h : s.ctx cx = some c) (f : Ctx → Ctx) :
    s.modCtx cx f = s.withCtx cx (f c) := by
  have hlook : Tbl.look s.slc.ctxs cx = some c := h
  simp [State.modCtx, Tbl.alter, hlook, State.withCtx]

@[simp] theorem Run.logged_pc (r : Run) (c : Ctx) (d : List Byte) : (r.logged c d).pc = c.pc := by
  unfold Run.logged
  split
  · rfl
  · split <;> rfl

/-! ### What a WAIT_MARK finds (R129, R136) -/

section

variable {s : State} {r : Run} (hown : r.c.shadowOf = none)
include hown

theorem lookMark_of_live {j : Nat} (hlive : r.e.jobLive = true) (hj : s.jobSlot r.e.job = some j) :
    s.lookMark r = if posLater r.markTarget (s.jobPos j) then none else some (.next s (r.logged r.c [])) := by
  simp [State.lookMark, hown, hlive, hj]

theorem lookMark_of_dead (hdead : r.e.jobLive = false ∨ s.jobSlot r.e.job = none) :
    s.lookMark r = some (.fault s St.aborted 0x0807) := by
  have hslot : (if r.e.jobLive then s.jobSlot r.e.job else none) = none := by
    rcases hdead with hlive | hnone
    · rw [hlive]
      rfl
    · rw [hnone, ite_self]
  simp only [State.lookMark, hown, hslot]
  rfl

end

/-! ### The step and its timeout (R211, R217) -/

section

variable {s : State} {cx : Nat} {r : Run} (h : Stands s cx 0x14 r)
include h

/-- What a WAIT_MARK finds ends its step at once. -/
theorem execWaitMark_of_found {o : StepOut} (ho : s.lookMark r = some o) : exec (.waitMark cx) s = .next (r.finish o) := by
  refine congrArg Host.Outcome.next ?_
  rw [onStep_of_stands h _ _ _ (by simp [h.prim]), ho]

/-- A position that is still earlier makes the context wait for its target. -/
theorem execWaitMark_of_earlier (hnone : s.lookMark r = none) :
    exec (.waitMark cx) s = .next (s.withCtx cx { r.c with
      status := .markWait (BitVec.ofNat 64 r.markTarget)
        (s.now + 1000 * (if r.st.i 31 0 = 0 then s.fld F.slcCtlWaitTmo else r.st.i 31 0)) }) := by
  refine congrArg Host.Outcome.next ?_
  rw [onStep_of_stands h _ _ _ (by simp [h.prim]), hnone]
  simp only [Run.finish_hold]
  rw [modCtx_of_ctx h.context, if_pos h.ready]

end

/-- At its deadline a WAIT_MARK looks once more: what it finds counts, and its sub-part ends with TIMEOUT when it finds nothing. -/
theorem execWaitMarkTimeout_of_waits {s : State} {cx t : Nat} {c : Ctx} {w : W64} {r : Run} (hc : s.ctx cx = some c)
    (hst : c.status = .markWait w t) (hr : (s.waitTill t).runOf cx = some r) (hrc : r.c = c) (hop : r.st.op = 0x14) :
    exec (.waitMarkTimeout cx) s =
      .next (r.finish (((s.waitTill t).lookMark r).getD (.fault (s.waitTill t) St.timeout 0x0809))) := by
  refine congrArg Host.Outcome.next ?_
  rw [hc]
  dsimp only
  rw [hst]
  exact onStep_of_waits hr (by simp [hop]) (by rw [hrc, hst]; rfl) _

/-- Settles O23: a WAIT_MARK ends by what it finds at its job, and waits for a position that is still earlier. -/
theorem waitMarkSteps : Obligations.WaitMarkSteps := by
  intro s cx r target
  refine ⟨fun j h hown hlive hj => ?look, fun h hown hdead => ?dead,
    fun c w t j hc hst hown hr hcx hop hlive hj hlater => ?timeout⟩
  case look =>
    have hlook := lookMark_of_live hown hlive hj
    refine ⟨fun hreached => ?_, fun hlater => execWaitMark_of_earlier h (hlook.trans (if_pos hlater))⟩
    rw [execWaitMark_of_found h (hlook.trans (if_neg (ne_true_of_eq_false hreached))), Run.finish_next, Run.logged_pc, retire_eq h]
  case dead =>
    rw [execWaitMark_of_found h (lookMark_of_dead hown hdead), Run.finish_fault _ _ _ _ (by decide), h.isCx]
  case timeout =>
    have hlook : (s.waitTill t).lookMark { r with c := c } = none :=
      (lookMark_of_live (r := { r with c := c }) hown hlive hj).trans (if_pos hlater)
    rw [execWaitMarkTimeout_of_waits hc hst hr rfl hop, hlook, Option.getD_none, Run.finish_fault _ _ _ _ (by decide), hcx]

end Sys2Proof.Machine
end

section
/-! SUPPORT. The time base: MARK and STEP_IN candidates, the tick that resolves them, guard bands, and wall time (O50; R132, R134,
R135, R143, R146, R431). -/

namespace Sys2Proof.Machine

/-! ### Candidates (R129, R132, R134) -/

/-- A position's step, layer and phase fill 48 bits. -/
theorem posWord_lt (step layer phase : Nat) : posWord step layer phase < 2 ^ 48 := by
  unfold posWord
  omega

theorem candidate_posWord (s : State) (j step layer phase : Nat) :
    s.candidate j (posWord step layer phase) =
      s.modJob j (fun x => { x with cands := x.cands ++ [BitVec.ofNat 64 (posWord step layer phase)] }) := by
  rw [State.candidate, Nat.mod_eq_of_lt (posWord_lt ..)]

section

variable {s : State} {lsn : Nat} {e : Entry} (hw : Working s lsn opMark e) (hnew : e.note = [])
include hw hnew

theorem execMark_of_refused {st d : Nat} (h : s.markFail e.job e.tenant (e.w 2) = some (st, d)) :
    exec (.mark lsn) s = .next (s.fixResult lsn (Res.fail st d)) := by
  refine congrArg Host.Outcome.next ?_
  rw [onOp_of_working hw, hnew, h]
  rfl

theorem execMark_of_taken {j : Nat} (h : s.markFail e.job e.tenant (e.w 2) = none) (hj : s.jobSlot e.job = some j) :
    exec (.mark lsn) s = .next ((s.candidate j (e.w 2)).setNote lsn [j + 1]) := by
  refine congrArg Host.Outcome.next ?_
  rw [onOp_of_working hw, hnew, h, hj]
  rfl

end

/-- The state once a STEP_IN edge has been counted at the present time (R134). -/
def State.edgeCounted (s : State) : State :=
  { s with time := { s.time with lastEdge := some s.now } }.bump F.timeStepCtlEdges

theorem job_edgeCounted (s : State) (j : Nat) : s.edgeCounted.job j = s.job j := by
  rw [State.job, State.edgeCounted, State.bump_time, State.job]

section

variable {s : State} (hon : s.flag F.timeStepCtlEnable = true)
include hon

theorem execStepInEdge_of_close {t : Nat} (ht : s.time.lastEdge = some t) (hclose : s.now < t + 100) :
    exec .stepInEdge s = .next (s.setFld F.timeStepCtlStepOverrun 1) := by
  refine congrArg Host.Outcome.next ?_
  simp [hon, ht, hclose]

/-- An edge at least 100 ns after the last counted one is counted, and gives a live job the first position of its next step. -/
theorem execStepInEdge_of_far (hfar : ∀ t, s.time.lastEdge = some t → t + 100 ≤ s.now) :
    exec .stepInEdge s = .next (let j := s.fld F.timeStepCtlSlot
      if (s.edgeCounted.job j).live then s.edgeCounted.candidate j (posWord ((s.edgeCounted.job j).step + 1) 0 0)
      else s.edgeCounted) := by
  refine congrArg Host.Outcome.next ?_
  rw [hon, if_neg (by decide)]
  refine if_neg ?_
  cases ht : s.time.lastEdge with
  | none => exact Bool.false_ne_true
  | some t => simpa using hfar t ht

end

/-! ### The tick (R135) -/

theorem resolve_of_no_candidates {s : State} {j : Nat} (h : ((s.takeEst j).job j).cands = []) :
    s.resolve j = ((s.takeEst j).modJob j (fun x => { x with cands := [] })).finishMarks j := by
  simp only [State.resolve, h]

/-- Of a tick's candidates the latest stands, the rest are counted as coalesced; it moves the job or counts as BACK. -/
theorem resolve_of_candidates {s : State} {j : Nat} {c : W64} {rest : List W64} (h : ((s.takeEst j).job j).cands = c :: rest) :
    let u := (s.takeEst j).modJob j (fun x => { x with cands := [] })
    let x := if rest.isEmpty then u
      else (u.bump F.timeJobCnt1Coalesced j 0 rest.length).setFld F.timeJobStsMarkOverrun 1 j
    s.resolve j = (if posLater (highest c rest) (x.jobPos j)
      then (x.bump F.timeJobCnt0Marks j).moveTo j (highest c rest) else x.bump F.timeJobCnt0Back j).finishMarks j := by
  simp only [State.resolve, h]
  cases rest <;> rfl

/-! ### Guard bands (R143) -/

section

variable {s : State} {slot : JobSlot} {entry : Nat} {g : Gate} (hentry : entry < 1024)
  (hg : (s.job slot.val).gates.look entry = some g) (hopen : g.inst.isSome = true) (hfree : s.gateHeld g = false)
include hentry hg hopen hfree

theorem execGuardBandStart_of_unguarded (hguard : g.guard = false) (hspent : g.spent = false) :
    exec (.guardBandStart slot entry) s = .next ((s.waitTill (s.guardFrom slot.val g)).modJob slot.val (fun x =>
      { x with gates := Tbl.ins entry { g with guard := true } x.gates })) := by
  refine (checked_of_wf (i := .guardBandStart slot entry) (decide_eq_true hentry) ..).trans (congrArg Host.Outcome.next ?_)
  rw [hg]
  exact if_pos (by simp [hopen, hguard, hspent, hfree])

theorem execGuardBandExpire_of_guarded (hguard : g.guard = true) :
    exec (.guardBandExpire slot entry) s = .next ((((s.waitTill (s.guardTo slot.val g)).modJob slot.val (fun x =>
      { x with gates := Tbl.ins entry { g with guard := false, spent := true } x.gates })).bump
        F.timeJobCnt1GuardExpired slot.val).gatesMoved slot.val false) := by
  refine (checked_of_wf (i := .guardBandExpire slot entry) (decide_eq_true hentry) ..).trans (congrArg Host.Outcome.next ?_)
  rw [hg]
  exact if_pos (by simp [hopen, hguard, hfree])

end

/-! ### Wall time (R431) -/

/-- A time within 10 µs after a second belongs to it by its remainder, one within 10 µs before it by what it lacks. -/
theorem execPpsEdge_of_near {s : State} (hon : s.flag F.timePtpStsPpsEn = true) (hptp : s.time.ptp ≠ 0) {k : Nat}
    (hlate : s.time.wall ≤ 1000000000 * k + 10000) (hearly : 1000000000 * k ≤ s.time.wall + 10000) :
    exec .ppsEdge s = .next { s with time := { s.time with wall := 1000000000 * k, ptp := 2 } } := by
  refine congrArg Host.Outcome.next ?_
  dsimp only
  rw [if_neg (by simp [hon, hptp])]
  by_cases hafter : s.time.wall % 1000000000 ≤ 10000
  · have hsecond : s.time.wall - s.time.wall % 1000000000 = 1000000000 * k := by omega
    rw [if_pos hafter, hsecond]
  · have hbefore : 1000000000 - s.time.wall % 1000000000 ≤ 10000 := by omega
    have hsecond : s.time.wall + (1000000000 - s.time.wall % 1000000000) = 1000000000 * k := by omega
    rw [if_neg hafter, if_pos hbefore, hsecond]

/-- Settles O50: each command of the time base in the case its clause speaks of. -/
theorem timeBaseCommands : Obligations.TimeBaseCommands := by
  intro s
  refine ⟨fun lsn e hw hnew => ?mark, fun hon => ?edge, fun slot => ?tick,
    fun slot entry g hentry hg hopen hfree => ?guard, fun master offset => rfl,
    fun hon hptp k hlate hearly => execPpsEdge_of_near hon hptp hlate hearly⟩
  case mark =>
    exact ⟨fun st d h => execMark_of_refused hw hnew h, fun j h hj => execMark_of_taken hw hnew h hj⟩
  case edge =>
    refine ⟨fun t ht hclose => execStepInEdge_of_close hon ht hclose, fun hfar j hj hlive => ?_⟩
    subst hj
    rw [execStepInEdge_of_far hon hfar]
    dsimp only
    rw [job_edgeCounted, if_pos hlive, candidate_posWord]
    rfl
  case tick =>
    intro j u
    refine ⟨fun h => congrArg Host.Outcome.next (resolve_of_no_candidates h), fun c rest h => ?_⟩
    intro x
    have hresolve := resolve_of_candidates h
    refine ⟨fun hback => congrArg Host.Outcome.next (hresolve.trans ?_),
      fun hlater => congrArg Host.Outcome.next (hresolve.trans ?_)⟩
    · exact congrArg (State.finishMarks · j) (if_neg (ne_true_of_eq_false hback))
    · exact congrArg (State.finishMarks · j) (if_pos hlater)
  case guard =>
    exact ⟨execGuardBandStart_of_unguarded hentry hg hopen hfree, execGuardBandExpire_of_guarded hentry hg hopen hfree⟩

end Sys2Proof.Machine
end

section
/-! SUPPORT. DECODE and ENCODE (O11; R150, R157, R169, R171, R180, R211): what their operands read and write, and how each
step retires or fails. -/

namespace Sys2Proof.Machine

/-! ### Operands of a step (R198, R211, R217) -/

@[simp] theorem andThen_ok {α β : Type} (a : α) (f : α → Except (Nat × Nat) β) : andThen (.ok a) f = f a := rfl

/-- A step whose operands are in range goes on. -/
theorem require_of_true {α : Type} {b : Bool} (h : b = true) (x : Except (Nat × Nat) α) : require b x = x := if_pos h

theorem require_of_false {α : Type} {b : Bool} (h : b = false) (x : Except (Nat × Nat) α) : require b x = .error badOp :=
  if_neg (ne_true_of_eq_false h)

section

variable {r : Run} {t : Nat}

theorem Run.rdTile_of_tileOk {n : Nat} (h : r.tileOk t n = true) :
    r.rdTile t 0 n = .ok (Bytes.rd r.c.scratch (tileSize * t) n) := by
  rw [Run.rdTile, Nat.zero_add, Nat.add_zero, if_pos h]

theorem Run.rd32_of_tileOk {n : Nat} (h : r.tileOk t (4 * n) = true) : r.rd32 t n = .ok (r.elems t n) := by
  rw [Run.rd32, Run.rdTile_of_tileOk h, andThen_ok, Run.elems]

theorem Run.wrTile_of_tileOk {data : List Byte} (h : r.tileOk t data.length = true) :
    r.wrTile r.c t data = .ok { r.c with scratch := r.tileWith t data } := if_pos h

end

/-! ### What the codec makes of its operands (R150, R157, R180, R211) -/

/-- Bytes of the source units of a DECODE. -/
def Run.unitBytes (r : Run) : Nat := r.st.i 15 0 / (unitOf (r.st.m 7 0)).1 * (unitOf (r.st.m 7 0)).2

/-- The elements of source units, each rounded once to the element format of a DECODE. -/
def Run.rounded (r : Run) (kc : KcTable) (units : List Byte) : List Byte :=
  ((rangeDec kc (r.st.m 7 0) units).map (fun x => leBytes (unitOf (r.st.m 15 8)).2 (elemEnc (r.st.m 15 8) x))).flatten

/-- The source units of a DECODE, as they stand in tile B, in its element format. -/
def Run.decoded (r : Run) (kc : KcTable) : List Byte :=
  r.rounded kc (Bytes.rd r.c.scratch (tileSize * r.st.b) r.unitBytes)

/-- The FP32 elements of an ENCODE, as they stand in tile B, in its block format, and the number of blocks written as NaN. -/
def Run.encoded (r : Run) (kc : KcTable) : List Byte × Nat :=
  rangeEnc kc (r.st.m 15 8) ((r.elems r.st.b (r.st.i 15 0)).map f32.dec)

section

variable {r : Run} {kc : KcTable}

theorem Run.decode_eq :
    r.decode kc =
      require (fmtBlock (r.st.m 7 0) && fmtElem (r.st.m 15 8) && r.st.i 15 0 % (unitOf (r.st.m 7 0)).1 = 0 &&
          r.st.i 15 0 * (unitOf (r.st.m 15 8)).2 ≤ tileSize)
        (andThen (r.rdTile r.st.b 0 r.unitBytes) (fun units => r.wrTile r.c r.st.a (r.rounded kc units))) := rfl

/-- Whole source units become elements of the element format in tile A. -/
theorem Run.decode_of_whole (hblock : fmtBlock (r.st.m 7 0) = true) (helem : fmtElem (r.st.m 15 8) = true)
    (hwhole : r.st.i 15 0 % (unitOf (r.st.m 7 0)).1 = 0) (hfit : r.st.i 15 0 * (unitOf (r.st.m 15 8)).2 ≤ tileSize)
    (hread : r.tileOk r.st.b r.unitBytes = true) (hwrite : r.tileOk r.st.a (r.decoded kc).length = true) :
    r.decode kc = .ok { r.c with scratch := r.tileWith r.st.a (r.decoded kc) } := by
  rw [Run.decode_eq, require_of_true (by simp [hblock, helem, hwhole, hfit]), Run.rdTile_of_tileOk hread, andThen_ok]
  exact Run.wrTile_of_tileOk hwrite

theorem Run.decode_of_broken (hbroken : r.st.i 15 0 % (unitOf (r.st.m 7 0)).1 ≠ 0) : r.decode kc = .error badOp := by
  rw [Run.decode_eq, decide_eq_false hbroken, Bool.and_false, Bool.false_and, require_of_false rfl]

/-- FP32 elements that fill whole target units become those units in tile A. -/
theorem Run.encode_of_whole (hblock : fmtBlock (r.st.m 15 8) = true)
    (hwhole : r.st.i 15 0 % (unitOf (r.st.m 15 8)).1 = 0) (hread : r.tileOk r.st.b (4 * r.st.i 15 0) = true)
    (hwrite : r.tileOk r.st.a (r.encoded kc).1.length = true) :
    r.encode kc = .ok ({ r.c with scratch := r.tileWith r.st.a (r.encoded kc).1 }, (r.encoded kc).2) := by
  rw [Run.encode, require_of_true (by simp [hblock, hwhole]), Run.rd32_of_tileOk hread, andThen_ok]
  exact congrArg (andThen · _) (Run.wrTile_of_tileOk hwrite)

theorem Run.encode_of_broken (hbroken : r.st.i 15 0 % (unitOf (r.st.m 15 8)).1 ≠ 0) : r.encode kc = .error badOp := by
  rw [Run.encode, decide_eq_false hbroken, Bool.and_false, require_of_false rfl]

end

/-- Only UZ-KC records a slot (R169, R171). -/
theorem encodeSlot_of_ne_kc {s : State} {r : Run} (h : r.st.m 15 8 ≠ fmtKc) : s.encodeSlot r = (s, none) := if_pos h

/-! ### The steps (R206, R211, R217) -/

section

variable {s : State} {cx : Nat} {r : Run} {kc : KcTable} (h : Stands s cx 0x03 r)
  (hkc : s.kcFor r (r.st.m 7 0) r.st.d = .ok kc)
include h hkc

/-- A DECODE whose code books are there ends as its operands decode. -/
theorem execDecode_of_table : exec (.decode cx) s = .next (r.finish (.ofDecode s (r.decode kc))) := by
  refine congrArg Host.Outcome.next ?_
  rw [onStep_of_stands h _ _ _ (by simp [h.prim]), hkc, andThen_ok]

theorem execDecode_of_ok {c : Ctx} (hok : r.decode kc = .ok c) :
    exec (.decode cx) s = .next (s.withCtx cx (r.retired c (c.pc + 1))) := by
  rw [execDecode_of_table h hkc, hok, StepOut.ofDecode, Run.finish_next, retire_eq h]

theorem execDecode_of_badOp (hbad : r.decode kc = .error badOp) :
    exec (.decode cx) s = .next (s.faultSub cx St.malformed 0x0801) := by
  have hout : StepOut.ofDecode s (.error badOp) = .fault s St.malformed 0x0801 := rfl
  rw [execDecode_of_table h hkc, hbad, hout, Run.finish_fault _ _ _ _ (by decide), h.isCx]

end

section

variable {s : State} {cx : Nat} {r : Run} (h : Stands s cx 0x04 r)
include h

theorem execEncode_of_slot_refused {t : State} {st d : Nat} (hslot : s.encodeSlot r = (t, some (st, d))) (hd : d ≠ 0x080D) :
    exec (.encode cx) s = .next (s.faultSub cx st d) := by
  refine congrArg Host.Outcome.next ?_
  rw [onStep_of_stands h _ _ _ (by simp [h.prim]), hslot, Run.finish_fault _ _ _ _ hd, h.isCx]

variable {t : State} (hslot : s.encodeSlot r = (t, none))
include hslot

/-- An ENCODE that may use its slot retires in the state in which the slot is recorded, with its NaN blocks counted. -/
theorem execEncode_of_ok {c : Ctx} {nans : Nat} (hok : r.encode (s.kcOf (r.st.i 19 16)) = .ok (c, nans)) :
    exec (.encode cx) s = .next ((t.bump F.codecCnt0NanBlocks 0 0 nans).retire r c (c.pc + 1)) := by
  refine congrArg Host.Outcome.next ?_
  rw [onStep_of_stands h _ _ _ (by simp [h.prim]), hslot]
  dsimp only
  rw [hok, Run.finish_next]

/-- One whose operands are refused records no slot. -/
theorem execEncode_of_badOp (hbad : r.encode (s.kcOf (r.st.i 19 16)) = .error badOp) :
    exec (.encode cx) s = .next (s.faultSub cx St.malformed 0x0801) := by
  refine congrArg Host.Outcome.next ?_
  rw [onStep_of_stands h _ _ _ (by simp [h.prim]), hslot]
  dsimp only
  rw [hbad, badOp, Run.finish_fault _ _ _ _ (by decide), h.isCx]

end

/-- Settles O11: whole units decode and encode into tile A, broken units and refused slots fail the sub-part. -/
theorem decodeAndEncodeSteps : Obligations.DecodeAndEncodeSteps := by
  intro s cx r kc n sf tf
  refine ⟨fun h hkc => ⟨?decoded, ?decodeBroken⟩, fun h t hslot => ⟨?encoded, ?encodeBroken⟩,
    fun h t st d hslot hd => execEncode_of_slot_refused h hslot hd⟩
  case decoded =>
    intro hblock helem hwhole hfit hread src out hwrite
    exact execDecode_of_ok h hkc (Run.decode_of_whole hblock helem hwhole hfit hread hwrite)
  case decodeBroken =>
    exact fun hbroken => execDecode_of_badOp h hkc (Run.decode_of_broken hbroken)
  case encoded =>
    intro hblock hwhole hread enc hwrite
    refine ⟨execEncode_of_ok h hslot (Run.encode_of_whole hblock hwhole hread hwrite), fun hplain => ?_⟩
    exact (Prod.mk.inj (hslot.symm.trans (encodeSlot_of_ne_kc hplain))).1
  case encodeBroken =>
    exact fun hbroken => execEncode_of_badOp h hslot (Run.encode_of_broken hbroken)

end Sys2Proof.Machine
end


section
/-! SUPPORT. Tiles of elements: a tile read as FP32 elements, a list cut into rows, and a list of rows put together (R198, R211,
R457). -/

namespace Sys2Proof.Machine

/-! ### Rows put together -/

section

variable {α : Type} {n : Nat} {ls : List (List α)} (hls : ∀ l ∈ ls, l.length = n)
include hls

theorem length_flatten_of_rows : ls.flatten.length = ls.length * n := by
  rw [List.length_flatten, List.eq_replicate_of_mem (List.forall_mem_map.2 hls), List.sum_replicate, List.length_map,
    smul_eq_mul]

/-- Element j of row i stands at i × n + j. -/
theorem getD_flatten_of_rows (d : α) (i : Nat) {j : Nat} (hj : j < n) :
    ls.flatten.getD (i * n + j) d = (ls.getD i []).getD j d := by
  induction ls generalizing i with
  | nil => simp
  | cons l ls ih =>
    obtain ⟨hl, hrest⟩ := List.forall_mem_cons.1 hls
    cases i with
    | zero =>
      rw [Nat.zero_mul, Nat.zero_add, List.flatten_cons, List.getD_append _ _ _ _ (hl ▸ hj), List.getD_cons_zero]
    | succ i =>
      have hpast : l.length ≤ (i + 1) * n + j := by rw [hl, Nat.succ_mul]; omega
      have hleft : (i + 1) * n + j - l.length = i * n + j := by rw [hl, Nat.succ_mul]; omega
      rw [List.flatten_cons, List.getD_append_right _ _ _ _ hpast, hleft, ih hrest, List.getD_cons_succ]

end

/-! ### A list cut into rows -/

/-- A list of whole pieces is cut into these. -/
theorem chunks_of_whole {α : Type} {n k : Nat} {l : List α} (hn : 0 < n) (hl : l.length = n * k) :
    chunks n l = (List.range k).map (fun i => (l.drop (n * i)).take n) := by
  have hpieces : ceilDiv l.length n = k := by
    rw [ceilDiv, hl, Nat.add_sub_assoc hn, Nat.mul_add_div hn, Nat.div_eq_of_lt (Nat.sub_lt hn Nat.one_pos), Nat.add_zero]
  rw [chunks, hpieces]

theorem chunks_length_of_whole {α : Type} {n k : Nat} {l : List α} (hn : 0 < n) (hl : l.length = n * k) :
    (chunks n l).length = k := by
  rw [chunks_of_whole hn hl, List.length_map, List.length_range]

/-! ### FP32 elements of a tile (R198, R211) -/

@[simp] theorem Bytes.rd_length (m : Bytes) (a n : Nat) : (Bytes.rd m a n).length = n := by simp [Bytes.rd, rangeFrom]

@[simp] theorem Run.elems_length (r : Run) (t n : Nat) : (r.elems t n).length = n := by
  rw [Run.elems, wordsOf, List.length_map, chunks_length_of_whole (k := n) (by decide) (Bytes.rd_length ..)]

@[simp] theorem bytes32_length (l : List Nat) : (bytes32 l).length = 4 * l.length := by
  rw [bytes32, length_flatten_of_rows (List.forall_mem_map.2 fun v _ => leBytes_length 4 v), List.length_map, Nat.mul_comm]

theorem Run.wr32_of_tileOk {r : Run} {t : Nat} {l : List Nat} (h : r.tileOk t (4 * l.length) = true) (c : Ctx) :
    r.wr32 c t l = .ok { c with scratch := Bytes.wr c.scratch (tileSize * t) (bytes32 l) } :=
  if_pos (by rw [bytes32_length, h])

end Sys2Proof.Machine
end


section
/-! SUPPORT. The vector forms of VEC_ALU (O9, O10; R184, R198, R211, R212): what each form makes of the elements it reads, and
how its step retires or fails. -/

namespace Sys2Proof.Machine

/-! ### Element-wise forms (R212) -/

/-- The i-th elements of three tiles give the i-th result. -/
theorem zip_fma32_eq {bs cs ds : List Nat} {n : Nat} (hb : bs.length = n) (hc : cs.length = n) (hd : ds.length = n) :
    (bs.zip (cs.zip ds)).map (fun x => fma32 x.1 x.2.1 x.2.2) =
      (List.range n).map (fun i => fma32 (bs.getD i 0) (cs.getD i 0) (ds.getD i 0)) := by
  refine List.ext_getElem (by simp [hb, hc, hd]) fun i _ hi => ?_
  have hin : i < n := by simpa using hi
  simp [hb, hc, hd, hin]

section

variable {r : Run} (ha : r.tileOk r.st.a (4 * r.st.n) = true) (hb : r.tileOk r.st.b (4 * r.st.n) = true)
include ha hb

theorem Run.vec1_of_tileOk (f : Nat → Nat) :
    r.vec1 f = .ok { r.c with scratch := r.tileWith r.st.a (bytes32 ((r.elems r.st.b r.st.n).map f)) } := by
  rw [Run.vec1, Run.rd32_of_tileOk hb, andThen_ok]
  exact Run.wr32_of_tileOk (by simpa using ha) r.c

variable (hc : r.tileOk r.st.c (4 * r.st.n) = true)
include hc

theorem Run.vec2_of_tileOk (f : Nat → Nat → Nat) :
    r.vec2 f = .ok { r.c with
      scratch := r.tileWith r.st.a (bytes32 (List.zipWith f (r.elems r.st.b r.st.n) (r.elems r.st.c r.st.n))) } := by
  rw [Run.vec2, Run.rd32_of_tileOk hb, andThen_ok, Run.rd32_of_tileOk hc, andThen_ok]
  exact Run.wr32_of_tileOk (by simpa using ha) r.c

theorem Run.vecFma_of_tileOk (hd : r.tileOk r.st.d (4 * r.st.n) = true) :
    r.vecFma = .ok { r.c with
      scratch := r.tileWith r.st.a (bytes32 ((List.range r.st.n).map (fun i => fma32 ((r.elems r.st.b r.st.n).getD i 0)
        ((r.elems r.st.c r.st.n).getD i 0) ((r.elems r.st.d r.st.n).getD i 0)))) } := by
  rw [Run.vecFma, Run.rd32_of_tileOk hb, andThen_ok, Run.rd32_of_tileOk hc, andThen_ok, Run.rd32_of_tileOk hd, andThen_ok,
    zip_fma32_eq (r.elems_length ..) (r.elems_length ..) (r.elems_length ..)]
  exact Run.wr32_of_tileOk (by simpa using ha) r.c

end

/-! ### Row forms (R212) -/

/-- Each element of B meets the element of C of its own row. -/
theorem zipIdx_mul32_eq {bs cs : List Nat} {n w : Nat} (hb : bs.length = n) :
    bs.zipIdx.map (fun x => mul32 x.1 (cs.getD (x.2 / w) 0)) =
      (List.range n).map (fun i => mul32 (bs.getD i 0) (cs.getD (i / w) 0)) := by
  refine List.ext_getElem (by simp [hb]) fun i _ hi => ?_
  have hin : i < n := by simpa using hi
  simp [hb, hin]

section

variable {r : Run} (hw : r.st.i 31 16 ≠ 0) (hdvd : r.st.n % r.st.i 31 16 = 0) (hb : r.tileOk r.st.b (4 * r.st.n) = true)
include hw hdvd hb

/-- Whole rows are worked on as the form says. -/
theorem Run.vecRows_of_whole {f : List Nat → Except (Nat × Nat) (List Nat)} {out : List Nat}
    (hf : f (r.elems r.st.b r.st.n) = .ok out) (ha : r.tileOk r.st.a (4 * out.length) = true) :
    r.vecRows f = .ok { r.c with scratch := r.tileWith r.st.a (bytes32 out) } := by
  rw [Run.vecRows, require_of_true (by simp [hw, hdvd]), Run.rd32_of_tileOk hb, andThen_ok, hf, andThen_ok]
  exact Run.wr32_of_tileOk ha r.c

theorem Run.vecMulRow_of_whole (hc : r.tileOk r.st.c (4 * (r.st.n / r.st.i 31 16)) = true)
    (ha : r.tileOk r.st.a (4 * r.st.n) = true) :
    r.vecMulRow = .ok { r.c with
      scratch := r.tileWith r.st.a (bytes32 ((List.range r.st.n).map (fun i => mul32 ((r.elems r.st.b r.st.n).getD i 0)
        ((r.elems r.st.c (r.st.n / r.st.i 31 16)).getD (i / r.st.i 31 16) 0)))) } :=
  Run.vecRows_of_whole hw hdvd hb (by rw [Run.rd32_of_tileOk hc, andThen_ok, zipIdx_mul32_eq (r.elems_length ..)])
    (by simpa using ha)

/-- A form that combines each row into one element. -/
theorem Run.vecRows_fold_of_whole (f : List Nat → Nat) (ha : r.tileOk r.st.a (4 * (r.st.n / r.st.i 31 16)) = true) :
    r.vecRows (fun b => .ok ((chunks (r.st.i 31 16) b).map f)) = .ok { r.c with
      scratch := r.tileWith r.st.a (bytes32 ((List.range (r.st.n / r.st.i 31 16)).map (fun j =>
        f (((r.elems r.st.b r.st.n).drop (r.st.i 31 16 * j)).take (r.st.i 31 16))))) } := by
  have hrows : (r.elems r.st.b r.st.n).length = r.st.i 31 16 * (r.st.n / r.st.i 31 16) := by
    rw [Run.elems_length, Nat.mul_div_cancel' (Nat.dvd_of_mod_eq_zero hdvd)]
  refine Run.vecRows_of_whole hw hdvd hb ?_ (by simpa using ha)
  rw [chunks_of_whole (Nat.pos_of_ne_zero hw) hrows, List.map_map, Function.comp_def]

end

/-- Rows of no elements, and rows that n does not fill, are refused (log entry 200). -/
theorem Run.vecRows_of_broken {r : Run} (h : ¬(r.st.i 31 16 ≠ 0 ∧ r.st.n % r.st.i 31 16 = 0))
    (f : List Nat → Except (Nat × Nat) (List Nat)) : r.vecRows f = .error badOp :=
  require_of_false (by simpa using h) _

/-! ### The steps (R211, R212) -/

/-- Settles O9: each form writes what its operation makes of the elements its step reads. -/
theorem vectorElementForms : Obligations.VectorElementForms := by
  intro s cx r h n bs cs ds ends ha hb
  refine ⟨fun p hp hcode => ?one, fun hc => ⟨fun p hp hcode => ?two, fun hd hcode => ?three⟩⟩
  case one =>
    have hf := Run.vec1_of_tileOk ha hb p.2.2
    simp only [List.mem_cons, List.not_mem_nil, or_false] at hp
    obtain rfl | rfl | rfl | rfl | rfl | rfl := hp <;> exact congrArg _ (vec_ok h _ _ _ hcode hf)
  case two =>
    have hf := Run.vec2_of_tileOk ha hb hc p.2.2
    simp only [List.mem_cons, List.not_mem_nil, or_false] at hp
    obtain rfl | rfl | rfl | rfl | rfl | rfl := hp <;> exact congrArg _ (vec_ok h _ _ _ hcode hf)
  case three => exact congrArg _ (vec_ok h _ _ _ hcode (Run.vecFma_of_tileOk ha hb hc hd))

/-- Settles O10: whole rows give a result per element or per row, broken rows fail the sub-part. -/
theorem vectorRowForms : Obligations.VectorRowForms := by
  intro s cx r h n w bs ends row
  refine ⟨fun ⟨hw, hdvd, hb⟩ => ⟨fun hcode hc ha => ?mul, fun hcode ha => ?sum, fun hcode ha => ?max⟩,
    fun hbroken p hp hcode => ?broken⟩
  case mul => exact congrArg _ (vec_ok h _ _ _ hcode (Run.vecMulRow_of_whole hw hdvd hb hc ha))
  case sum => exact congrArg _ (vec_ok h _ _ _ hcode (Run.vecRows_fold_of_whole hw hdvd hb _ ha))
  case max => exact congrArg _ (vec_ok h _ _ _ hcode (Run.vecRows_fold_of_whole hw hdvd hb _ ha))
  case broken =>
    simp only [List.mem_cons, List.not_mem_nil, or_false] at hp
    obtain rfl | rfl | rfl := hp <;> exact congrArg _ (vec_err h _ _ hcode (Run.vecRows_of_broken hbroken _))

end Sys2Proof.Machine
end


section
/-! SUPPORT. Steps on registers and scratch alone, and steps that decode (O12, O13, O14; R206, R211, R217): how a step whose operands
are good retires. -/

namespace Sys2Proof.Machine

section

variable {s : State} {cx op : Nat} {r : Run} (h : Stands s cx op r) {c : Ctx}
include h

theorem onStep_ofExcept_of_ok {f : Run → Except (Nat × Nat) Ctx} (hf : f r = .ok c) :
    s.onStep cx (fun st => st.op = op) (fun r => .ofExcept s (f r)) = s.withCtx cx (r.retired c (c.pc + 1)) := by
  rw [onStep_of_stands h _ _ _ (by simp [h.prim]), hf, StepOut.ofExcept, Run.finish_next, retire_eq h]

theorem onStep_ofDecode_of_ok {f : Run → Except (Nat × Nat) Ctx} (hf : f r = .ok c) :
    s.onStep cx (fun st => st.op = op) (fun r => .ofDecode s (f r)) = s.withCtx cx (r.retired c (c.pc + 1)) := by
  rw [onStep_of_stands h _ _ _ (by simp [h.prim]), hf, StepOut.ofDecode, Run.finish_next, retire_eq h]

/-- A refusal that is no mismatch of tables and no hardware fault fails the sub-part and counts nothing else. -/
theorem onStep_ofDecode_of_error {f : Run → Except (Nat × Nat) Ctx} {st d : Nat} (hf : f r = .error (st, d))
    (hident : d ≠ 0x0605) (hslice : d ≠ 0x080D) :
    s.onStep cx (fun st => st.op = op) (fun r => .ofDecode s (f r)) = s.faultSub cx st d := by
  rw [onStep_of_stands h _ _ _ (by simp [h.prim]), hf, StepOut.ofDecode, State.when, if_neg (by simpa using hident),
    Run.finish_fault _ _ _ _ hslice, h.isCx]

end

end Sys2Proof.Machine
end


section
/-! SUPPORT. MAC_TILE (O12; R156, R182, R183, R211, R457): the size of the matrices it reads, and the table of its results. -/

namespace Sys2Proof.Machine

/-! ### Operands that are read (R198, R217) -/

theorem andThen_eq_ok {α β : Type} {x : Except (Nat × Nat) α} {f : α → Except (Nat × Nat) β} {b : β} :
    andThen x f = .ok b ↔ ∃ a, x = .ok a ∧ f a = .ok b := by
  cases x <;> simp [andThen]

theorem require_eq_ok {α : Type} {p : Bool} {x : Except (Nat × Nat) α} {a : α} :
    require p x = .ok a ↔ p = true ∧ x = .ok a := by
  cases p <;> simp [require, badOp]

theorem Run.rdTile_length {r : Run} {t off n : Nat} {l : List Byte} (h : r.rdTile t off n = .ok l) : l.length = n := by
  unfold Run.rdTile at h
  split at h
  · rw [← Except.ok.inj h, Bytes.rd_length]
  · cases h

/-! ### Matrices (R156, R457) -/

/-- A UZ-W4 tile is 120 rows of 256 elements. -/
theorem w4Dec_length (bytes : List Byte) : (w4Dec bytes).length = 256 * 120 := by
  have hblock (scale codes : Nat) : (mxDec e2m1 scale (unpackCodes 4 32 codes)).length = 32 := by
    simp [mxDec, unpackCodes]
  have hrow (row : Nat) : ((List.range 8).map (fun b =>
      mxDec e2m1 (leAt bytes (15360 + 8 * row + b) 1) (unpackCodes 4 32 (leAt bytes (128 * row + 16 * b) 16)))).flatten.length =
        256 := by
    rw [length_flatten_of_rows (List.forall_mem_map.2 fun b _ => hblock _ _), List.length_map, List.length_range]
  rw [w4Dec, length_flatten_of_rows (List.forall_mem_map.2 fun row _ => hrow row), List.length_map, List.length_range]

theorem unitOf_pos (c : Nat) : 0 < (unitOf c).1 ∧ 0 < (unitOf c).2 := by
  unfold unitOf fmtUnit
  split <;> decide

/-- Bytes of a row of a matrix in a format other than UZ-W4. -/
def rowBytes (fmt cols : Nat) : Nat := cols / (unitOf fmt).1 * (unitOf fmt).2

/-- A row of whole units that holds an element takes up bytes. -/
theorem rowBytes_pos {fmt cols : Nat} (hcols : 0 < cols) (hwhole : cols % (unitOf fmt).1 = 0) : 0 < rowBytes fmt cols := by
  obtain ⟨hunit, hbytes⟩ := unitOf_pos fmt
  have hle : (unitOf fmt).1 ≤ cols := Nat.le_of_dvd hcols (Nat.dvd_of_mod_eq_zero hwhole)
  exact Nat.mul_pos (Nat.div_pos hle hunit) hbytes

section

variable (r : Run) (kc : KcTable) (t off rows cols : Nat)

theorem Run.matrix_w4_eq :
    r.matrix kc t off 0x23 rows cols =
      require (off = 0 && rows ≤ 120 && cols ≤ 256) (andThen (r.rdTile t 0 tileSize) (fun b =>
        .ok (((chunks 256 (w4Dec b)).take rows).map (fun l => l.take cols)))) := rfl

theorem Run.matrix_of_ne_w4 {fmt : Nat} (h : fmt ≠ 0x23) :
    r.matrix kc t off fmt rows cols =
      require (cols % (unitOf fmt).1 = 0 && off + rowBytes fmt cols * rows ≤ tileSize)
        (andThen (r.rdTile t off (rowBytes fmt cols * rows)) (fun b =>
          .ok ((chunks (rowBytes fmt cols) b).map (rangeDec kc fmt)))) := if_neg h

end

/-- A matrix that a step reads has the rows it asks for. -/
theorem Run.matrix_length {r : Run} {kc : KcTable} {t off fmt rows cols : Nat} {m : List (List Num)} (hcols : 0 < cols)
    (h : r.matrix kc t off fmt rows cols = .ok m) : m.length = rows := by
  by_cases hfmt : fmt = 0x23
  · subst hfmt
    rw [Run.matrix_w4_eq] at h
    obtain ⟨hfit, h⟩ := require_eq_ok.1 h
    obtain ⟨bytes, -, h⟩ := andThen_eq_ok.1 h
    have hrows : rows ≤ 120 := by
      simp only [Bool.and_eq_true, decide_eq_true_eq] at hfit
      exact hfit.1.2
    rw [← Except.ok.inj h, List.length_map, List.length_take, chunks_length_of_whole (by decide) (w4Dec_length bytes),
      Nat.min_eq_left hrows]
  · rw [Run.matrix_of_ne_w4 _ _ _ _ _ _ hfmt] at h
    obtain ⟨hfit, h⟩ := require_eq_ok.1 h
    obtain ⟨bytes, hread, h⟩ := andThen_eq_ok.1 h
    have hwhole : cols % (unitOf fmt).1 = 0 := of_decide_eq_true (Bool.and_eq_true_iff.1 hfit).1
    rw [← Except.ok.inj h, List.length_map, chunks_length_of_whole (rowBytes_pos hcols hwhole) (Run.rdTile_length hread)]

/-! ### The table of results (R211, R457) -/

/-- The results of MAC_TILE, row after row: each row of A with each column, added to C0's element. -/
def macTable (fa g n : Nat) (c0 : List Nat) (am cols : List (List Num)) : List Nat :=
  (am.zipIdx.map (fun row => cols.zipIdx.map (fun col =>
    macOut fa g (c0.getD (row.2 * n + col.2) 0) row.1 col.1))).flatten

section

variable {fa g n : Nat} {c0 : List Nat} {am cols : List (List Num)} (hcols : cols.length = n)
include hcols

theorem macTable_length : (macTable fa g n c0 am cols).length = am.length * n := by
  rw [macTable, length_flatten_of_rows (n := n) (List.forall_mem_map.2 fun row _ => by simp [hcols]), List.length_map,
    List.length_zipIdx]

theorem macTable_getD {i j : Nat} (hi : i < am.length) (hj : j < n) :
    (macTable fa g n c0 am cols).getD (i * n + j) 0 =
      macOut fa g (c0.getD (i * n + j) 0) (am.getD i []) (cols.getD j []) := by
  rw [macTable, getD_flatten_of_rows (List.forall_mem_map.2 fun row _ => by simp [hcols]) _ _ hj]
  simp [hi, hcols, hj]

end

/-- C0 as a step takes it: zero, or what stands in tile C. -/
def Run.macAddends (r : Run) (size : Nat) : List Nat :=
  if r.st.i 41 41 = 1 then List.replicate size 0 else r.elems r.st.c size

/-- The columns of B, which under BT are the rows read. -/
def Run.macCols (r : Run) (n : Nat) (bm : List (List Num)) : List (List Num) :=
  if r.st.i 40 40 = 1 then bm else (List.range n).map (column bm)

theorem Run.macAddends_getD (r : Run) (size k : Nat) :
    (r.macAddends size).getD k 0 = if r.st.i 41 41 = 1 then 0 else (r.elems r.st.c size).getD k 0 := by
  unfold Run.macAddends
  split
  · rw [List.getD_eq_getElem?_getD, List.getElem?_replicate]
    split <;> rfl
  · rfl

theorem Run.macCols_getD (r : Run) {n j : Nat} (bm : List (List Num)) (hj : j < n) :
    (r.macCols n bm).getD j [] = if r.st.i 40 40 = 1 then bm.getD j [] else column bm j := by
  unfold Run.macCols
  split
  · rfl
  · simp [hj]

/-- There are n columns, whichever way B is laid out. -/
theorem Run.macCols_length {r : Run} {kc : KcTable} {off fmt n k : Nat} {bm : List (List Num)} (hk : 0 < k)
    (h : (if r.st.i 40 40 = 1 then r.matrix kc r.st.b off fmt n k else r.matrix kc r.st.b off fmt k n) = .ok bm) :
    (r.macCols n bm).length = n := by
  unfold Run.macCols
  split at h
  · rw [if_pos ‹_›, Run.matrix_length hk h]
  · rw [if_neg ‹_›, List.length_map, List.length_range]

/-! ### The step (R211, R457) -/

/-- C0 is read from tile C where the table of results fits. -/
theorem Run.rdAddends_of_tileOk {r : Run} {size : Nat} (h : r.tileOk r.st.c (4 * size) = true) :
    (if r.st.i 41 41 = 1 then .ok (List.replicate size 0) else r.rd32 r.st.c size) = .ok (r.macAddends size) := by
  rw [Run.macAddends, Run.rd32_of_tileOk h]
  split <;> rfl

/-- The operands that R211 and R457 let a MAC_TILE take. -/
def Run.macTakes (r : Run) (g k size : Nat) : Bool :=
  8 ≤ k && k ≤ 4096 && k % g = 0 && size ≤ 4096 && (r.st.i 15 8 ≠ 0x23 || r.st.i 40 40 = 1)

theorem Run.macTakes_of_allowed {r : Run} {g k size : Nat} (hk : 8 ≤ k) (hk' : k ≤ 4096) (hgroups : k % g = 0) (hsize : size ≤ 4096)
    (hbt : r.st.i 15 8 = 0x23 → r.st.i 40 40 = 1) : r.macTakes g k size = true := by
  simp only [Run.macTakes, Bool.and_eq_true, Bool.or_eq_true, decide_eq_true_eq]
  exact ⟨⟨⟨⟨hk, hk'⟩, hgroups⟩, hsize⟩, not_or_of_imp hbt⟩

section

variable {r : Run} {kc : KcTable} {g k m n : Nat} (hg : macGroupOf (r.st.i 7 0) (r.st.i 15 8) = some g)
  (hk : r.st.i 28 16 = k) (hm : 8 * (r.st.i 35 32 + 1) = m) (hn : 8 * (r.st.i 39 36 + 1) = n)
include hg hk hm hn

/-- MAC_TILE of an allowed pairing takes its operands in order and writes the table of results. -/
theorem Run.mac_of_group :
    r.mac kc = require (r.macTakes g k (m * n)) (andThen (r.matrix kc r.st.a 0 (r.st.i 7 0) m k) (fun am =>
      andThen (if r.st.i 40 40 = 1 then r.matrix kc r.st.b (r.st.m 13 0) (r.st.i 15 8) n k
        else r.matrix kc r.st.b (r.st.m 13 0) (r.st.i 15 8) k n) (fun bm =>
          andThen (if r.st.i 41 41 = 1 then .ok (List.replicate (m * n) 0) else r.rd32 r.st.c (m * n)) (fun c0 =>
            r.wr32 r.c r.st.c (macTable (r.st.i 7 0) g n c0 am (r.macCols n bm)))))) := by
  subst hk hm hn
  unfold Run.mac
  dsimp only
  rw [hg]
  rfl

end

/-- Settles O12: the results are `macTable` of the matrices read, which has an element for each row and column. -/
theorem macTileWritesProducts : Obligations.MacTileWritesProducts := by
  intro s cx r g kc am bm h fa fb k m n bt hg hk hk' hgroups hsize hbt hkc ham hbm hc
  have hcols : (r.macCols n bm).length = n := Run.macCols_length (Nat.lt_of_lt_of_le (by decide) hk) hbm
  have hrows : am.length = m := Run.matrix_length (Nat.lt_of_lt_of_le (by decide) hk) ham
  have hsizeC : (macTable fa g n (r.macAddends (m * n)) am (r.macCols n bm)).length = m * n := by
    rw [macTable_length hcols, hrows]
  refine ⟨_, hsizeC, fun i j hi hj => ?element, congrArg Host.Outcome.next (onStep_ofDecode_of_ok h ?step)⟩
  case element =>
    rw [macTable_getD hcols (hrows ▸ hi) hj, Run.macAddends_getD, Run.macCols_getD _ _ hj]
  case step =>
    rw [hkc, andThen_ok, Run.mac_of_group hg rfl rfl rfl,
      require_of_true (Run.macTakes_of_allowed hk hk' hgroups hsize hbt), ham, andThen_ok, hbm, andThen_ok,
      Run.rdAddends_of_tileOk hc, andThen_ok]
    exact Run.wr32_of_tileOk (by rw [hsizeC, hc]) r.c

end Sys2Proof.Machine
end


section
/-! SUPPORT. SOFTMAX_STEP (O13; R184, R211, R213): the update of one row by its parts, and the rows and states it reads. -/

namespace Sys2Proof.Machine

/-! ### One row (R213) -/

section

variable (m l : Nat) (row : List Nat)

/-- The new maximum: that of the row's state and its scores, in order. -/
def softMax : Nat := row.foldl max32 m

/-- The factor the sum is scaled by. -/
def softScale : Nat :=
  if f32.dec (softMax m row) = .inf true then f32.enc (.ofInt 1) else exp232 (sub32 m (softMax m row))

/-- The probabilities before they are rounded. -/
def softProbs : List Nat :=
  row.map (fun x => if f32.dec (softMax m row) = .inf true then 0 else exp232 (sub32 x (softMax m row)))

/-- The new sum: the old one scaled, and the probabilities in ascending order. -/
def softSum : Nat := add32 (mul32 l (softScale m row)) (foldRow add32 (softProbs m row))

theorem softmaxRow_eq :
    softmaxRow m l row = (softMax m row, softSum m l row, softScale m row, softProbs m row) := by
  unfold softmaxRow softSum softScale softProbs
  by_cases hmin : f32.dec (softMax m row) = .inf true
  · simp only [if_pos hmin]
    exact if_pos hmin
  · simp only [if_neg hmin]
    exact if_neg hmin

end

/-! ### Rows and states that are read (R211, R213) -/

/-- An element of a piece of a list is the list's own. -/
theorem getD_take_drop {α : Type} {n k : Nat} (hk : k < n) (l : List α) (a : Nat) (d : α) :
    ((l.drop a).take n).getD k d = l.getD (a + k) d := by
  simp only [List.getD_eq_getElem?_getD, List.getElem?_take_of_lt hk, List.getElem?_drop]

/-- The scores of row i in tile B. -/
def Run.scores (r : Run) (i : Nat) : List Nat :=
  ((r.elems r.st.b (r.st.i 7 0 * r.st.i 23 8)).drop (r.st.i 23 8 * i)).take (r.st.i 23 8)

/-- Word k of the state of row i in tile C: the maximum, the sum and the factor. -/
def Run.rowState (r : Run) (i k : Nat) : Nat := (r.elems r.st.c (3 * r.st.i 7 0)).getD (3 * i + k) 0

/-- The probabilities of all rows in the format of the step. -/
def Run.probBytes (r : Run) : List Byte :=
  ((List.range (r.st.i 7 0)).map (fun i =>
    ((softProbs (r.rowState i 0) (r.scores i)).map (fun x =>
      leBytes (unitOf (r.st.m 7 0)).2 (elemEnc (r.st.m 7 0) (f32.dec x)))).flatten)).flatten

/-- The new states of all rows. -/
def Run.newStates (r : Run) : List Nat :=
  ((List.range (r.st.i 7 0)).map (fun i =>
    [softMax (r.rowState i 0) (r.scores i), softSum (r.rowState i 0) (r.rowState i 1) (r.scores i),
      softScale (r.rowState i 0) (r.scores i)])).flatten

theorem Run.newStates_length (r : Run) : r.newStates.length = 3 * r.st.i 7 0 := by
  rw [Run.newStates, length_flatten_of_rows (n := 3) (List.forall_mem_map.2 fun _ _ => rfl), List.length_map, List.length_range,
    Nat.mul_comm]

/-- Each row of scores meets its own state. -/
theorem Run.softmaxRows_eq {r : Run} (hcols : 0 < r.st.i 23 8) :
    ((chunks (r.st.i 23 8) (r.elems r.st.b (r.st.i 7 0 * r.st.i 23 8))).zip (chunks 3 (r.elems r.st.c (3 * r.st.i 7 0)))).map
        (fun x => softmaxRow (x.2.getD 0 0) (x.2.getD 1 0) x.1) =
      (List.range (r.st.i 7 0)).map (fun i => softmaxRow (r.rowState i 0) (r.rowState i 1) (r.scores i)) := by
  rw [chunks_of_whole (k := r.st.i 7 0) hcols (by rw [Run.elems_length, Nat.mul_comm]),
    chunks_of_whole (k := r.st.i 7 0) (by decide) (Run.elems_length ..), List.zip_map', List.map_map]
  refine List.map_congr_left fun i _ => ?_
  simp only [Function.comp_apply, getD_take_drop (show 0 < 3 by decide), getD_take_drop (show 1 < 3 by decide)]
  rfl

/-! ### The step (R211, R213) -/

section

variable {r : Run} (hf : r.st.m 7 0 = 1 ∨ r.st.m 7 0 = 2 ∨ r.st.m 7 0 = 4) (hrows : 1 ≤ r.st.i 7 0) (hrows' : r.st.i 7 0 ≤ 64)
  (hcols : 1 ≤ r.st.i 23 8) (hcols' : r.st.i 23 8 ≤ 4096)
include hf hrows hrows' hcols hcols'

theorem Run.softmax_of_tileOk (hb : r.tileOk r.st.b (4 * (r.st.i 7 0 * r.st.i 23 8)) = true)
    (hc : r.tileOk r.st.c (4 * (3 * r.st.i 7 0)) = true) (ha : r.tileOk r.st.a r.probBytes.length = true) :
    r.softmax = .ok { r.c with
      scratch := Bytes.wr (r.tileWith r.st.a r.probBytes) (tileSize * r.st.c) (bytes32 r.newStates) } := by
  have hfit : r.tileOk r.st.c (4 * r.newStates.length) = true := by rw [Run.newStates_length, hc]
  rw [Run.softmax, require_of_true (by simp [hf, hrows, hrows', hcols, hcols', or_assoc]), Run.rd32_of_tileOk hb, andThen_ok,
    Run.rd32_of_tileOk hc, andThen_ok]
  dsimp only
  rw [Run.softmaxRows_eq hcols]
  simp only [softmaxRow_eq, List.map_map, Function.comp_def]
  exact (congrArg (andThen · _) (Run.wrTile_of_tileOk ha)).trans (Run.wr32_of_tileOk hfit _)

end

/-- Settles O13: the step writes the probabilities and states that the update of each row gives. -/
theorem softmaxStepUpdatesRows : Obligations.SoftmaxStepUpdatesRows := by
  intro s cx r h f rows cols enc one rowOf st m2 isMin cOf pOf lOf ps ss hf hrows hrows' hcols hcols' hb hc ha
  exact congrArg Host.Outcome.next
    (onStep_ofExcept_of_ok h (Run.softmax_of_tileOk hf hrows hrows' hcols hcols' hb hc ha))

end Sys2Proof.Machine
end


section
/-! SUPPORT. EXACT_ACC and EXACT_ROUND (O14; R157, R185–R189, R211): what they make of their bank, and how each step retires or
fails. -/

namespace Sys2Proof.Machine

/-- A step that retires changes its context alone, whatever else the step has changed before. -/
theorem retire_of_ctx {s : State} {r : Run} {c₀ : Ctx} (h : s.ctx r.cx = some c₀) (c : Ctx) (pc : Nat) :
    s.retire r c pc = s.withCtx r.cx (r.retired c pc) := by
  have hlook : Tbl.look s.slc.ctxs r.cx = some c₀ := h
  simp [State.retire, State.modCtx, Tbl.alter, hlook, State.withCtx, Run.retired]

/-! ### What the steps read and leave (R185–R188) -/

/-- Bytes of the rows of an EXACT_ACC. -/
def Run.rowsBytes (r : Run) : Nat :=
  r.st.i 15 0 * r.st.i 22 16 / (unitOf (r.st.m 7 0)).1 * (unitOf (r.st.m 7 0)).2

/-- The rows of addends of an EXACT_ACC. -/
def Run.rowsRead (r : Run) (kc : KcTable) : List (List Addend) :=
  chunks (r.st.i 22 16) (addends kc (r.st.m 7 0) (Bytes.rd r.c.scratch (tileSize * r.st.a) r.rowsBytes))

/-- The bank of an EXACT_ACC, cleared first where the step says so. -/
def Run.bankBefore (r : Run) (bank : List Lane) : List Lane := if r.st.m 10 10 = 1 then clearBank else bank

/-- The banks after an EXACT_ROUND. -/
def Run.banksAfter (r : Run) : List (List Lane) :=
  if r.st.m 10 10 = 1 then r.c.quern.set (r.st.m 9 8) clearBank else r.c.quern

section

variable {r : Run} {bank : List Lane} (hbank : r.c.quern[r.st.m 9 8]? = some bank)
include hbank

theorem Run.bank_of_declared : r.bank = .ok bank := by rw [Run.bank, hbank]

variable (hlanes : 1 ≤ r.st.i 22 16) (hlanes' : r.st.i 22 16 ≤ 64)
include hlanes hlanes'

/-! ### EXACT_ACC (R186, R187) -/

section

variable {kc : KcTable} (hformat : accFormat (r.st.m 7 0) = true) (hrows : r.st.i 15 0 ≤ 4096)
  (hwhole : r.st.i 15 0 * r.st.i 22 16 % (unitOf (r.st.m 7 0)).1 = 0) (hread : r.tileOk r.st.a r.rowsBytes = true)
include hformat hrows hwhole hread

/-- The rows are added to the bank, unless a lane's N would pass its bound. -/
theorem Run.exactAcc_of_read :
    r.exactAcc kc = (addRows (r.bankBefore bank) (r.rowsRead kc)).elim (.error (St.malformed, 0x0804))
      (fun l => .ok { r.c with quern := r.c.quern.set (r.st.m 9 8) l }) := by
  rw [Run.exactAcc]
  dsimp only
  rw [Run.bank_of_declared hbank, andThen_ok, require_of_true (by simp [hformat, hrows, hlanes, hlanes', hwhole])]
  refine (congrArg (andThen · _) (Run.rdTile_of_tileOk hread)).trans ?_
  rw [andThen_ok]
  split
  · next hsum => rw [show addRows (r.bankBefore bank) (r.rowsRead kc) = none from hsum, Option.elim_none]
  · next l hsum => rw [show addRows (r.bankBefore bank) (r.rowsRead kc) = some l from hsum, Option.elim_some, listMod_set]

end

/-! ### EXACT_ROUND (R188, R189) -/

theorem Run.exactRound_of_lanes {out : List Byte} {nans : Nat}
    (hround : roundLanes (r.st.m 7 0) (bank.take (r.st.i 22 16)) = some (out, nans))
    (hwrite : r.tileOk r.st.a out.length = true) :
    r.exactRound = .ok ({ r.c with scratch := r.tileWith r.st.a out, quern := r.banksAfter }, nans) := by
  rw [Run.exactRound, Run.bank_of_declared hbank, andThen_ok, require_of_true (by simp [hlanes, hlanes']), hround]
  dsimp only
  rw [Run.wrTile_of_tileOk hwrite, andThen_ok, Run.banksAfter]
  split <;> simp [listMod_set]

/-! ### The steps (R206, R211) -/

variable {s : State} {cx : Nat}

theorem execExactRound_of_lanes (h : Stands s cx 0x09 r) {out : List Byte} {nans : Nat}
    (hround : roundLanes (r.st.m 7 0) (bank.take (r.st.i 22 16)) = some (out, nans))
    (hwrite : r.tileOk r.st.a out.length = true) :
    exec (.exactRound cx) s = .next ((s.bump F.codecCnt0NanBlocks 0 0 nans).withCtx cx
      (r.retired { r.c with scratch := r.tileWith r.st.a out, quern := r.banksAfter } (r.c.pc + 1))) := by
  have hcx : (s.bump F.codecCnt0NanBlocks 0 0 nans).ctx r.cx = some r.c := by
    rw [State.ctx, State.bump_slc, h.isCx]
    exact h.context
  refine congrArg Host.Outcome.next ?_
  rw [onStep_of_stands h _ _ _ (by simp [h.prim]), Run.exactRound_of_lanes hbank hlanes hlanes' hround hwrite]
  dsimp only
  rw [Run.finish_next, retire_of_ctx hcx, h.isCx]

end

/-- Settles O14: EXACT_ACC by whether its sum passes the bound of N, EXACT_ROUND by what its lanes round to. -/
theorem quernSteps : Obligations.QuernSteps := by
  intro s cx r bank kc f b clears rows lanes hbank hlanes hlanes'
  refine ⟨?acc, fun h out nans hround hwrite => execExactRound_of_lanes hbank hlanes hlanes' h hround hwrite⟩
  intro h hformat hkc hrows hwhole size hread data sum
  have hacc : andThen (s.kcFor r f r.st.d) (fun kc => r.exactAcc kc) = sum.elim (.error (St.malformed, 0x0804))
      (fun l => .ok { r.c with quern := r.c.quern.set b l }) := by
    rw [hkc, andThen_ok]
    exact Run.exactAcc_of_read hbank hlanes hlanes' hformat hrows hwhole hread
  refine ⟨fun l hsum => ?fits, fun hsum => ?overflows⟩
  case fits =>
    rw [hsum] at hacc
    exact congrArg Host.Outcome.next (onStep_ofDecode_of_ok h hacc)
  case overflows =>
    rw [hsum] at hacc
    exact congrArg Host.Outcome.next (onStep_ofDecode_of_error h hacc (by decide) (by decide))

end Sys2Proof.Machine
end


section
/-! SUPPORT. Quern lanes do not see the order of their addends (O15; R185, R186, R190, R192). -/

namespace Sys2Proof.Machine

/-! ### V (R185) -/

/-- Taking V modulo 2^320 is the balanced remainder. -/
theorem wrap320_eq_bmod (v : Int) : wrap320 v = v.bmod (2 ^ 320) := by
  have hdouble : 2 ^ 320 = 2 * 2 ^ 319 := by rw [show 320 = 319 + 1 from rfl, pow_succ']
  have hhalf : (((2 ^ 320 : Nat) : Int) + 1) / 2 = (2 ^ 319 : Nat) := by
    rw [hdouble]
    generalize 2 ^ 319 = half
    omega
  rw [wrap320, Int.bmod, hhalf]

/-- Two numbers added to V one after the other may change places. -/
theorem wrap320_add_right_comm (v a b : Int) : wrap320 (wrap320 (v + a) + b) = wrap320 (wrap320 (v + b) + a) := by
  rw [wrap320_eq_bmod, wrap320_eq_bmod, wrap320_eq_bmod, wrap320_eq_bmod, Int.bmod_add_bmod, Int.bmod_add_bmod,
    Int.add_right_comm]

/-! ### Addends (R186, R190) -/

/-- What an addend adds to V: a NaN or an infinity nothing. -/
def Addend.part : Addend → Option Int
  | .num (.fin neg m e) => some (toV neg m e)
  | .num _ => none
  | .qw b => some (qwDec b).v

/-- V with an addend's part added; where there is none, V stays as it is. -/
def addPart (v : Int) : Option Int → Int
  | none => v
  | some d => wrap320 (v + d)

theorem addPart_right_comm (v : Int) : ∀ p q : Option Int, addPart (addPart v p) q = addPart (addPart v q) p
  | none, _ => rfl
  | some _, none => rfl
  | some a, some b => wrap320_add_right_comm v a b

/-- The addend makes a lane NaN. -/
def Addend.isNan : Addend → Bool
  | .num x => x.isNan
  | .qw b => (qwDec b).nan

/-- The addend brings an infinity of the sign `neg`. -/
def Addend.isInf (neg : Bool) : Addend → Bool
  | .num x => x = .inf neg
  | .qw b => if neg then (qwDec b).ninf else (qwDec b).pinf

/-- An addend adds its part to V, raises its flags, and is counted. -/
theorem Lane.addOne_eq (l : Lane) (a : Addend) :
    l.addOne a = { v := addPart l.v a.part, nan := l.nan || a.isNan, pinf := l.pinf || a.isInf false,
                   ninf := l.ninf || a.isInf true, n := l.n + 1 } := by
  obtain (_ | ⟨_ | _⟩ | _) | _ := a <;>
    simp [Lane.addOne, Lane.addNum, Lane.addQw, Addend.part, addPart, Addend.isNan, Addend.isInf, Num.isNan]

theorem Lane.addOne_right_comm (l : Lane) (a b : Addend) : (l.addOne a).addOne b = (l.addOne b).addOne a := by
  simp only [Lane.addOne_eq, addPart_right_comm l.v a.part, Bool.or_right_comm]

/-- Settles O15: numbers and QW40 partials are both addends, and any two addends may change places. -/
theorem quernSumIgnoresOrder : Obligations.QuernSumIgnoresOrder :=
  ⟨fun l _ _ h => h.foldl_eq' (fun x _ y _ l => l.addOne_right_comm (.num x) (.num y)) l,
    fun l _ _ h => h.foldl_eq' (fun x _ y _ l => l.addOne_right_comm (.qw x) (.qw y)) l,
    fun l _ _ h => h.foldl_eq' (fun a _ b _ l => l.addOne_right_comm a b) l⟩

end Sys2Proof.Machine
end


section
/-! SUPPORT. Byte memories: a written range reads back, and a range that is read is cut into the ranges of its pieces (O6; R196, R206,
R343). -/

namespace Sys2Proof.Machine

/-- A written range reads as what was written, every other byte as before. -/
theorem Bytes.get_wr (m : Bytes) (a : Nat) (d : List Byte) (k : Nat) :
    (Bytes.wr m a d).get k = if a ≤ k ∧ k < a + d.length then d.getD (k - a) 0 else m.get k := by
  induction d generalizing m a with
  | nil => exact (if_neg fun h => Nat.not_lt.2 h.1 h.2).symm
  | cons b d ih =>
    rw [Bytes.wr, ih, Bytes.get_set, List.length_cons]
    rcases Nat.lt_trichotomy k a with hbefore | rfl | hafter
    · rw [if_neg (by omega), if_neg (by omega), if_neg (by omega)]
    · rw [if_neg (by omega), if_pos rfl, if_pos (by omega), Nat.sub_self, List.getD_cons_zero]
    · have hback : k - a = k - (a + 1) + 1 := by omega
      rw [if_neg (show k ≠ a by omega), hback, List.getD_cons_succ]
      exact if_congr (by omega) rfl rfl

theorem Bytes.get_wr_inside {m : Bytes} {a k : Nat} {d : List Byte} (hk : k < d.length) : (Bytes.wr m a d).get (a + k) = d[k] := by
  rw [Bytes.get_wr, if_pos (by omega), Nat.add_sub_cancel_left, List.getD_eq_getElem _ _ hk]

theorem Bytes.get_wr_outside {m : Bytes} {a k : Nat} {d : List Byte} (hk : k < a ∨ a + d.length ≤ k) :
    (Bytes.wr m a d).get k = m.get k := by
  rw [Bytes.get_wr, if_neg (by omega)]

/-! ### Ranges that are read -/

theorem Bytes.rd_eq_map (m : Bytes) (a n : Nat) : Bytes.rd m a n = (List.range n).map (fun i => m.get (a + i)) := by
  rw [Bytes.rd, rangeFrom, List.map_map, Function.comp_def]

@[simp] theorem Bytes.getElem_rd (m : Bytes) (a n : Nat) {i : Nat} (hi : i < (Bytes.rd m a n).length) :
    (Bytes.rd m a n)[i] = m.get (a + i) := by
  simp [Bytes.rd_eq_map]

theorem Bytes.rd_wr (m : Bytes) (a : Nat) (d : List Byte) : Bytes.rd (Bytes.wr m a d) a d.length = d :=
  List.ext_getElem (Bytes.rd_length ..) fun i _ hi => by rw [Bytes.getElem_rd, Bytes.get_wr_inside hi]

/-- A piece of a range is a range. -/
theorem Bytes.take_drop_rd (m : Bytes) (a : Nat) {n i k : Nat} (h : i + k ≤ n) :
    ((Bytes.rd m a n).drop i).take k = Bytes.rd m (a + i) k := by
  refine List.ext_getElem ?_ fun j _ _ => ?_
  · rw [List.length_take, List.length_drop, Bytes.rd_length, Bytes.rd_length]
    omega
  · simp [Nat.add_assoc]

/-- A range of whole pieces is cut into their ranges. -/
theorem chunks_rd (m : Bytes) (a : Nat) {b : Nat} (hb : 0 < b) (n : Nat) :
    chunks b (Bytes.rd m a (b * n)) = (List.range n).map (fun i => Bytes.rd m (a + b * i) b) := by
  rw [chunks_of_whole hb (Bytes.rd_length ..)]
  refine List.map_congr_left fun i hi => Bytes.take_drop_rd m a ?_
  rw [← Nat.mul_succ]
  exact Nat.mul_le_mul_left b (List.mem_range.1 hi)

theorem wordsOf_rd (m : Bytes) (a : Nat) {b : Nat} (hb : 0 < b) (n : Nat) :
    wordsOf b (Bytes.rd m a (b * n)) = (List.range n).map (fun i => leNat (Bytes.rd m (a + b * i) b)) := by
  rw [wordsOf, chunks_rd m a hb, List.map_map, Function.comp_def]

/-- Settles O6: the bytes written, the range read back, and the canonical form, by induction on the bytes written. -/
theorem bytesReadBack : Obligations.BytesReadBack := fun m a d =>
  ⟨Bytes.get_wr m a d, Bytes.rd_wr m a d, fun h => Memory.wf_wr m a d h⟩

end Sys2Proof.Machine
end


section
/-! SUPPORT. The scalar forms of VEC_ALU (O7, O8; R198, R200, R212): the word each leaves in register GA, and the scratch address of
LD and ST. -/

namespace Sys2Proof.Machine

/-- A word is what its number, or one equal to it modulo 2^64, makes. -/
theorem ofNat_eq_word {v : Nat} {w : W64} (h : v = w.toNat) : BitVec.ofNat 64 v = w := by
  rw [h, BitVec.ofNat_toNat, BitVec.setWidth_eq]

theorem Ctx.setG_word (c : Ctx) (x : Nat) {v : Nat} {w : W64} (h : BitVec.ofNat 64 v = w) :
    c.setG x v = { c with regs := c.regs.set (x % 32) w } := by
  rw [Ctx.setG_eq, h]

/-! ### Register forms (R212) -/

/-- A form whose number is the word `w` modulo 2^64 leaves `w` in register GA. -/
theorem vec_setA {s : State} {cx code : Nat} {r : Run} (h : Stands s cx 0x06 r) (hcode : r.st.m 7 0 = code) {f : Run → Nat}
    {w : W64} (hw : BitVec.ofNat 64 (f r) = w) :
    s.vec cx code (fun r => r.setA (f r)) =
      s.withCtx cx (r.retired { r.c with regs := r.c.regs.set (r.st.a % 32) w } (r.c.pc + 1)) :=
  vec_ok h code _ _ hcode (congrArg Except.ok (r.c.setG_word r.st.a hw))

/-- Settles O7: modulo 2^64 each form's number is the 64-bit result of R212. -/
theorem scalarRegisterFormsWriteGA : Obligations.ScalarRegisterFormsWriteGA := by
  intro s cx r h gb gc ends
  refine ⟨fun hcode => ?movi, fun hcode => ?add, fun hcode => ?addi, fun hcode => ?sub, fun hcode => ?mul, fun hcode => ?shl,
    fun hcode => ?shr, fun hcode => ?and, fun hcode => ?or, fun hcode => ?xor⟩ <;>
    refine congrArg Host.Outcome.next (vec_setA h hcode ?_)
  case movi => exact ofNat_eq_word rfl
  case add => exact (BitVec.ofNat_add ..).trans (congrArg₂ _ (ofNat_eq_word rfl) (ofNat_eq_word rfl))
  case addi => exact (BitVec.ofNat_add ..).trans (congrArg₂ _ (ofNat_eq_word rfl) (ofNat_eq_word rfl))
  case sub =>
    have hgc : r.gc < 2 ^ 64 := gc.isLt
    have hsum : r.gb + 2 ^ 64 - r.gc = 2 ^ 64 - r.gc + r.gb := by omega
    rw [hsum]
    exact BitVec.eq_of_toNat_eq ((BitVec.toNat_ofNat ..).trans (BitVec.toNat_sub gb gc).symm)
  case mul => exact (BitVec.ofNat_mul ..).trans (congrArg₂ _ (ofNat_eq_word rfl) (ofNat_eq_word rfl))
  case shl =>
    have hshift : (gb <<< (gc.toNat % 64)).toNat = r.gb * 2 ^ (r.gc % 64) % 2 ^ 64 := by
      rw [BitVec.toNat_shiftLeft, Nat.shiftLeft_eq]
      rfl
    exact BitVec.eq_of_toNat_eq ((BitVec.toNat_ofNat ..).trans hshift.symm)
  case shr => exact ofNat_eq_word (Nat.shiftRight_eq_div_pow ..).symm
  case and => exact ofNat_eq_word (BitVec.toNat_and gb gc).symm
  case or => exact ofNat_eq_word (BitVec.toNat_or gb gc).symm
  case xor => exact ofNat_eq_word (BitVec.toNat_xor gb gc).symm

/-! ### LD and ST (R198, R212) -/

/-- Byte k of a number, least significant first. -/
theorem getElem_leBytes {n k : Nat} (v : Nat) (hk : k < (leBytes n v).length) :
    (leBytes n v)[k] = BitVec.ofNat 8 (v / 256 ^ k) := by
  induction n generalizing v k with
  | zero => exact absurd hk (Nat.not_lt_zero k)
  | succ n ih =>
    cases k with
    | zero => simp [leBytes]
    | succ k =>
      simp only [leBytes, List.getElem_cons_succ]
      rw [ih, Nat.div_div_eq_div_mul, pow_succ']

/-- The bytes of a word are its own. -/
theorem ofNat_byte_of_word (w : W64) (k : Nat) : BitVec.ofNat 8 (w.toNat / 256 ^ k) = w.extractLsb' (8 * k) 8 := by
  have hpow : 256 ^ k = 2 ^ (8 * k) := (pow_mul 2 8 k).symm
  refine BitVec.eq_of_toNat_eq ?_
  rw [BitVec.toNat_ofNat, BitVec.extractLsb'_toNat, Nat.shiftRight_eq_div_pow, hpow]

section

variable {r : Run} {a : Nat} (ha : (r.c.regs.getD (r.st.b % 32) 0 + r.st.imm).toNat = a)
include ha

theorem Run.scalarAddr_eq :
    r.scalarAddr = require (a % 8 = 0 && a + 8 ≤ tileSize * r.v.img.scratch) (.ok a) := by
  rw [← ha, BitVec.toNat_add]
  rfl

theorem Run.scalarAddr_of_inside (h : a % 8 = 0 ∧ a + 8 ≤ tileSize * r.v.img.scratch) : r.scalarAddr = .ok a := by
  rw [Run.scalarAddr_eq ha, require_of_true (by simp [h])]

theorem Run.scalarAddr_of_outside (h : ¬(a % 8 = 0 ∧ a + 8 ≤ tileSize * r.v.img.scratch)) : r.scalarAddr = .error badOp := by
  rw [Run.scalarAddr_eq ha, require_of_false (by simpa using h)]

end

/-- Settles O8: an address inside the tiles gives its eight bytes to GA or takes GC's, any other fails the sub-part. -/
theorem scalarScratchForms : Obligations.ScalarScratchForms := by
  intro s cx r h a gc
  refine ⟨fun hinside => ⟨fun hcode => ?load, fun hcode => ?store⟩,
    fun houtside => ⟨fun hcode => ?badLoad, fun hcode => ?badStore⟩⟩
  case load =>
    refine congrArg Host.Outcome.next (vec_ok h _ _ _ hcode ?_)
    rw [Run.scalarAddr_of_inside rfl hinside, andThen_ok, Run.setA, Ctx.setG_eq]
  case store =>
    refine ⟨Bytes.wr r.c.scratch a (leBytes 8 r.gc), congrArg Host.Outcome.next (vec_ok h _ _ _ hcode ?_), fun k hk => ?inside,
      fun x hx => Bytes.get_wr_outside (by rwa [leBytes_length])⟩
    · rw [Run.scalarAddr_of_inside rfl hinside, andThen_ok]
    · rw [Bytes.get_wr_inside (by rwa [leBytes_length]), getElem_leBytes]
      exact ofNat_byte_of_word gc k
  case badLoad =>
    exact congrArg Host.Outcome.next (vec_err h _ _ hcode (by rw [Run.scalarAddr_of_outside rfl houtside]; rfl))
  case badStore =>
    exact congrArg Host.Outcome.next (vec_err h _ _ hcode (by rw [Run.scalarAddr_of_outside rfl houtside]; rfl))

end Sys2Proof.Machine
end


section
/-! SUPPORT. XOR_POPCOUNT, HEAP_INSERT and HEAP_DRAIN (O16; R198, R211): the distances, the heap and the entries they leave. -/

namespace Sys2Proof.Machine

/-- The distance of candidate j of tile C to the query of tile B. -/
def Run.distance (r : Run) (j : Nat) : Nat :=
  popcount (r.st.i 15 0) (Nat.xor (leNat (Bytes.rd r.c.scratch (tileSize * r.st.b) (r.st.i 15 0 / 8)))
    (leNat (Bytes.rd r.c.scratch (tileSize * r.st.c + r.st.i 15 0 / 8 * j) (r.st.i 15 0 / 8))))

/-- The distances of all candidates, 2 bytes each. -/
def Run.distances (r : Run) : List Byte := ((List.range (r.st.i 31 16)).map (fun j => leBytes 2 (r.distance j))).flatten

theorem Run.distances_length (r : Run) : r.distances.length = 2 * r.st.i 31 16 := by
  rw [Run.distances, length_flatten_of_rows (List.forall_mem_map.2 fun _ _ => leBytes_length ..), List.length_map,
    List.length_range, Nat.mul_comm]

/-- Words of 64 to 4,096 bits, whole words of 64, are compared. -/
theorem Run.xorPopcount_of_tileOk {r : Run} (hmin : 64 ≤ r.st.i 15 0) (hmax : r.st.i 15 0 ≤ 4096) (hwhole : r.st.i 15 0 % 64 = 0)
    (hb : r.tileOk r.st.b (r.st.i 15 0 / 8) = true) (hc : r.tileOk r.st.c (r.st.i 15 0 / 8 * r.st.i 31 16) = true)
    (ha : r.tileOk r.st.a (2 * r.st.i 31 16) = true) :
    r.xorPopcount = .ok { r.c with scratch := r.tileWith r.st.a r.distances } := by
  have hbytes : 0 < r.st.i 15 0 / 8 := by omega
  rw [Run.xorPopcount, require_of_true (by simp [hmin, hmax, hwhole]), Run.rdTile_of_tileOk hb, andThen_ok,
    Run.rdTile_of_tileOk hc, andThen_ok, wordsOf_rd _ _ hbytes, List.map_map]
  exact Run.wrTile_of_tileOk (data := r.distances) (by rwa [Run.distances_length])

/-! ### The heap -/

/-- The worst key of a heap of capacity `cap`, or all ones while it is not full (log entry 57). -/
def worstKey (cap : Nat) (heap : List (Nat × W64)) : Nat :=
  if cap = 0 ∨ heap.length < cap then 2 ^ 64 - 1 else (heap.getLast?.map Prod.fst).getD 0

theorem worstKey_eq (cap : Nat) (heap : List (Nat × W64)) :
    (if cap = 0 || heap.length < cap then 2 ^ 64 - 1 else (match heap.getLast? with | some x => x.1 | none => 0)) =
      worstKey cap heap := by
  refine if_congr (by simp) rfl ?_
  cases heap.getLast? <;> rfl

/-- Bytes of a key of HEAP_INSERT: FP32, or 16 bits. -/
def Run.keyBytes (r : Run) : Nat := if r.st.m 0 0 = 1 then 4 else 2

theorem Run.keyBytes_pos (r : Run) : 0 < r.keyBytes := by unfold Run.keyBytes; split <;> decide

/-- The keys of tile A with the payloads of tile B, without NaN keys. -/
def Run.heapReads (r : Run) : List (Nat × Nat) :=
  ((wordsOf r.keyBytes (Bytes.rd r.c.scratch (tileSize * r.st.a) (r.keyBytes * r.st.i 15 0))).zip
    (wordsOf 8 (Bytes.rd r.c.scratch (tileSize * r.st.b) (8 * r.st.i 15 0)))).filter
      (fun x => !(decide (r.st.m 0 0 = 1) && (f32.dec x.1).isNan))

/-- The heap once the entries read have gone in, in order, the best of them kept. -/
def Run.heapAfter (r : Run) : List (Nat × W64) :=
  r.heapReads.foldl (fun h x =>
    (heapIns (heapBefore (r.st.m 0 0 = 1) (r.st.m 1 1 = 1)) (x.1, BitVec.ofNat 64 x.2) h).take r.v.img.heap) r.c.heap

theorem Run.heapInsert_of_tileOk {r : Run} (ha : r.tileOk r.st.a (r.keyBytes * r.st.i 15 0) = true)
    (hb : r.tileOk r.st.b (8 * r.st.i 15 0) = true) :
    r.heapInsert = .ok { r.c with
      heap := r.heapAfter, regs := r.c.regs.set (r.st.d % 32) (BitVec.ofNat 64 (worstKey r.v.img.heap r.heapAfter)) } := by
  rw [Run.heapInsert]
  refine (congrArg (andThen · _) (Run.rdTile_of_tileOk ha)).trans ?_
  rw [andThen_ok, Run.rdTile_of_tileOk hb, andThen_ok]
  exact congrArg Except.ok ((Ctx.setG_eq ..).trans (congrArg (fun w => { r.c with
    heap := r.heapAfter, regs := r.c.regs.set (r.st.d % 32) (BitVec.ofNat 64 w) }) (worstKey_eq _ _)))

/-- The entries of the heap, best first, 16 bytes each. -/
def Run.heapBytes (r : Run) : List Byte := (r.c.heap.map (fun x => leBytes 8 x.1 ++ leBytes 8 x.2.toNat)).flatten

theorem Run.heapDrain_of_tileOk {r : Run} (ha : r.tileOk r.st.a r.heapBytes.length = true) :
    r.heapDrain = .ok { r.c with
      scratch := r.tileWith r.st.a r.heapBytes, heap := [],
      regs := r.c.regs.set (r.st.b % 32) (BitVec.ofNat 64 r.c.heap.length) } := by
  rw [Run.heapDrain]
  refine (congrArg (andThen · _) (Run.wrTile_of_tileOk ha)).trans ?_
  rw [andThen_ok, Ctx.setG_eq]

/-- Settles O16: each step leaves what its operands give, on its own context alone. -/
theorem sieveSteps : Obligations.SieveSteps := by
  intro s cx r
  refine ⟨fun h => ?distances, fun h => ?insert, fun h => ?drain⟩
  case distances =>
    intro w n hmin hmax hwhole hb hc ha q cand out
    exact congrArg Host.Outcome.next (onStep_ofExcept_of_ok h (Run.xorPopcount_of_tileOk hmin hmax hwhole hb hc ha))
  case insert =>
    intro fp n ks cap ha hb keys pays ins heap worst
    exact congrArg Host.Outcome.next (onStep_ofExcept_of_ok h (Run.heapInsert_of_tileOk ha hb))
  case drain =>
    intro out ha
    exact congrArg Host.Outcome.next (onStep_ofExcept_of_ok h (Run.heapDrain_of_tileOk ha))

end Sys2Proof.Machine
end


section
/-! SUPPORT. COMPARE_SELECT and COMPACT (O17; R198, R211): the mask and the rows they leave, and the numbers of these. -/

namespace Sys2Proof.Machine

/-- Bytes for tile A, and their number of items for register D. -/
def Run.writeCounted (r : Run) (data : List Byte) (count : Nat) : Except (Nat × Nat) Ctx :=
  andThen (r.wrTile r.c r.st.a data) (fun c => .ok (c.setG r.st.d count))

theorem Run.writeCounted_of_tileOk {r : Run} {data : List Byte} (h : r.tileOk r.st.a data.length = true) (count : Nat) :
    r.writeCounted data count = .ok { r.c with
      scratch := r.tileWith r.st.a data, regs := r.c.regs.set (r.st.d % 32) (BitVec.ofNat 64 count) } := by
  rw [Run.writeCounted, Run.wrTile_of_tileOk h, andThen_ok, Ctx.setG_eq]

/-! ### COMPARE_SELECT -/

/-- Bytes of an element of a COMPARE_SELECT. -/
def Run.elemBytes (r : Run) : Nat := (unitOf (r.st.m 7 0)).2

theorem Run.elemBytes_pos (r : Run) : 0 < r.elemBytes := (unitOf_pos _).2

/-- An element satisfies the predicate between the bounds of a COMPARE_SELECT. -/
def Run.hit (r : Run) (x : Nat) : Bool :=
  predHolds (r.st.m 11 8) (elemDec (r.st.m 7 0) x) (f32.dec (r.st.i 31 0)) (f32.dec (r.st.i 63 32))

/-- Which of the elements of tile B satisfy the predicate, in order. -/
def Run.hits (r : Run) : List Bool :=
  (List.range r.gc).map (fun i => r.hit (leNat (Bytes.rd r.c.scratch (tileSize * r.st.b + r.elemBytes * i) r.elemBytes)))

theorem Run.compareSelect_eq (r : Run) :
    r.compareSelect =
      require ((r.st.m 7 0 = 1 || r.st.m 7 0 = 2 || r.st.m 7 0 = 3 || r.st.m 7 0 = 6 || r.st.m 7 0 = 7) && r.st.m 11 8 ≤ 6)
        (andThen (r.rdTile r.st.b 0 (r.gc * r.elemBytes)) (fun m =>
          r.writeCounted (bitsToBytes ((wordsOf r.elemBytes m).map r.hit)) (((wordsOf r.elemBytes m).map r.hit).filter id).length)) :=
  rfl

theorem Run.compareSelect_of_tileOk {r : Run}
    (hf : r.st.m 7 0 = 1 ∨ r.st.m 7 0 = 2 ∨ r.st.m 7 0 = 3 ∨ r.st.m 7 0 = 6 ∨ r.st.m 7 0 = 7) (hp : r.st.m 11 8 ≤ 6)
    (hb : r.tileOk r.st.b (r.gc * r.elemBytes) = true) (ha : r.tileOk r.st.a (bitsToBytes r.hits).length = true) :
    r.compareSelect = .ok { r.c with
      scratch := r.tileWith r.st.a (bitsToBytes r.hits),
      regs := r.c.regs.set (r.st.d % 32) (BitVec.ofNat 64 (r.hits.filter id).length) } := by
  have hhits : (wordsOf r.elemBytes (Bytes.rd r.c.scratch (tileSize * r.st.b) (r.gc * r.elemBytes))).map r.hit = r.hits := by
    rw [Nat.mul_comm r.gc, wordsOf_rd _ _ r.elemBytes_pos, List.map_map]
    rfl
  rw [Run.compareSelect_eq, require_of_true (by simp [hf, hp, or_assoc]), Run.rdTile_of_tileOk hb, andThen_ok, hhits,
    Run.writeCounted_of_tileOk ha]

/-! ### COMPACT -/

/-- Bit j of a byte list. -/
theorem bytesToBits_getElem? {l : List Byte} {j : Nat} (hj : j < 8 * l.length) :
    (bytesToBits l)[j]? = some (bit (l.getD (j / 8) 0).toNat (j % 8)) := by
  have hrows : ∀ bs ∈ l.map (fun b => (List.range 8).map (fun i => bit b.toNat i)), bs.length = 8 :=
    List.forall_mem_map.2 fun _ _ => by simp
  have hlength : (bytesToBits l).length = 8 * l.length := by
    rw [bytesToBits, length_flatten_of_rows hrows, List.length_map, Nat.mul_comm]
  have hrow : j / 8 < l.length := Nat.div_lt_of_lt_mul hj
  have hcol : j % 8 < 8 := Nat.mod_lt _ (by decide)
  have hget := getD_flatten_of_rows hrows false (j / 8) hcol
  rw [Nat.div_add_mod'] at hget
  rw [List.getElem?_eq_getElem (hlength ▸ hj), ← List.getD_eq_getElem (d := false), bytesToBits, hget]
  simp [hrow, hcol]

/-- The items whose bit is set are kept, in order. -/
theorem filterMap_zip_bits {α : Type} {n : Nat} (item : Nat → α) {bs : List Bool} {p : Nat → Bool}
    (hp : ∀ j < n, bs[j]? = some (p j)) :
    (((List.range n).map item).zip bs).filterMap (fun x => if x.2 then some x.1 else none) = ((List.range n).filter p).map item := by
  have hpairs : ((List.range n).map item).zip bs = (List.range n).map (fun j => (item j, p j)) := by
    refine List.ext_getElem? fun j => ?_
    by_cases hj : j < n
    · simp [List.zip, List.getElem?_zipWith, hj, hp j hj]
    · simp [List.zip, hj]
  rw [hpairs, List.filterMap_map, ← List.filterMap_eq_filter, List.map_filterMap]
  refine List.filterMap_congr fun j _ => ?_
  cases hj : p j <;> simp [hj]

/-- The rows of a COMPACT that a mask selects. -/
def Run.selected (r : Run) (rows mask : List Byte) : List (List Byte) :=
  ((chunks (r.st.i 15 0) rows).zip (bytesToBits mask)).filterMap (fun x => if x.2 then some x.1 else none)

theorem Run.compact_eq (r : Run) :
    r.compact = require (r.st.i 15 0 % 8 = 0) (andThen (r.rdTile r.st.b 0 (r.st.i 15 0 * r.st.i 31 16)) (fun m =>
      andThen (r.rdTile r.st.c 0 ((r.st.i 31 16 + 7) / 8)) (fun k =>
        r.writeCounted (r.selected m k).flatten (r.selected m k).length))) := rfl

/-- The rows of tile B whose bit in tile C is set, in order. -/
def Run.kept (r : Run) : List (List Byte) :=
  ((List.range (r.st.i 31 16)).filter (fun j => bit (Bytes.get r.c.scratch (tileSize * r.st.c + j / 8)).toNat (j % 8))).map
    (fun j => Bytes.rd r.c.scratch (tileSize * r.st.b + r.st.i 15 0 * j) (r.st.i 15 0))

theorem Run.selected_rd (r : Run) (hrow : 0 < r.st.i 15 0) :
    r.selected (Bytes.rd r.c.scratch (tileSize * r.st.b) (r.st.i 15 0 * r.st.i 31 16))
      (Bytes.rd r.c.scratch (tileSize * r.st.c) ((r.st.i 31 16 + 7) / 8)) = r.kept := by
  rw [Run.selected, chunks_rd _ _ hrow, Run.kept]
  refine filterMap_zip_bits _ fun j hj => ?_
  have hbyte : j / 8 < (r.st.i 31 16 + 7) / 8 := by omega
  rw [bytesToBits_getElem? (by rw [Bytes.rd_length]; omega)]
  simp [hbyte]

theorem Run.compact_of_tileOk {r : Run} (hrow : 0 < r.st.i 15 0) (hwhole : r.st.i 15 0 % 8 = 0)
    (hb : r.tileOk r.st.b (r.st.i 15 0 * r.st.i 31 16) = true) (hc : r.tileOk r.st.c ((r.st.i 31 16 + 7) / 8) = true)
    (ha : r.tileOk r.st.a r.kept.flatten.length = true) :
    r.compact = .ok { r.c with
      scratch := r.tileWith r.st.a r.kept.flatten,
      regs := r.c.regs.set (r.st.d % 32) (BitVec.ofNat 64 r.kept.length) } := by
  rw [Run.compact_eq, require_of_true (by simp [hwhole]), Run.rdTile_of_tileOk hb, andThen_ok, Run.rdTile_of_tileOk hc, andThen_ok,
    Run.selected_rd r hrow, Run.writeCounted_of_tileOk ha]

/-- Settles O17: the mask of the elements that satisfy the predicate, and the rows that a mask keeps. -/
theorem selectionSteps : Obligations.SelectionSteps := by
  intro s cx r
  refine ⟨fun h => ?select, fun h => ?compact⟩
  case select =>
    intro f p n b hf hp hb elem hit ha
    exact congrArg Host.Outcome.next (onStep_ofExcept_of_ok h (Run.compareSelect_of_tileOk hf hp hb ha))
  case compact =>
    intro rb rows hrow hwhole hb hc row chosen sel ha
    exact congrArg Host.Outcome.next (onStep_ofExcept_of_ok h (Run.compact_of_tileOk (Nat.pos_of_ne_zero hrow) hwhole hb hc ha))

end Sys2Proof.Machine
end


section
/-! SUPPORT. LOOP, BRANCH_IF and PREFETCH (O18; R200, R211, R217): where control goes, and the two's-complement readings that
BRANCH_IF compares. -/

namespace Sys2Proof.Machine

/-! ### Operands out of range (R217) -/

section

variable {s : State} {cx op : Nat} {r : Run} (h : Stands s cx op r)
include h

/-- A step that refuses its operands fails its sub-part. -/
theorem finish_badOp : r.finish (.fault s badOp.1 badOp.2) = s.faultSub cx St.malformed 0x0801 := by
  rw [badOp, Run.finish_fault _ _ _ _ (by decide), h.isCx]

theorem onStep_ofExcept_of_badOp {f : Run → Except (Nat × Nat) Ctx} (hf : f r = .error badOp) :
    s.onStep cx (fun st => st.op = op) (fun r => .ofExcept s (f r)) = s.faultSub cx St.malformed 0x0801 := by
  rw [onStep_of_stands h _ _ _ (by simp [h.prim]), hf]
  exact finish_badOp h

end

/-! ### Two's complement (R1) -/

/-- A signed reading of a number's low bits is that of the word they make. -/
theorem sext_eq_toInt {n : Nat} (hn : 0 < n) (v : Nat) : sext n v = (BitVec.ofNat n v).toInt := by
  obtain ⟨k, rfl⟩ : ∃ k, n = k + 1 := ⟨n - 1, by omega⟩
  rw [BitVec.toInt_eq_toNat_cond, BitVec.toNat_ofNat, sext]
  refine if_congr ?_ rfl rfl
  rw [Nat.add_sub_cancel, pow_succ]
  omega

theorem sext_word (w : W64) : sext 64 w.toNat = w.toInt := by
  rw [sext_eq_toInt (by decide), ofNat_eq_word rfl]

theorem toTwos_sext (v : Nat) : toTwos 64 (sext 32 v) = ((BitVec.ofNat 32 v).signExtend 64).toNat := by
  rw [sext_eq_toInt (by decide), BitVec.signExtend, BitVec.toNat_ofInt]
  rfl

/-! ### BRANCH_IF -/

theorem branchTaken_of_unknown {cond : Nat} (h : 5 < cond) (x y : Nat) : branchTaken cond x y = none := by
  obtain ⟨k, rfl⟩ : ∃ k, cond = k + 6 := ⟨cond - 6, by omega⟩
  rfl

/-- What a BRANCH_IF compares register A with. -/
def Run.branchWord (r : Run) : W64 :=
  if r.st.m 4 4 = 1 then (BitVec.ofNat 32 (r.st.i 63 32)).signExtend 64 else r.c.regs.getD (r.st.b % 32) 0

theorem Run.branchWord_toNat (r : Run) :
    (if r.st.m 4 4 = 1 then toTwos 64 (sext 32 (r.st.i 63 32)) else r.gb) = r.branchWord.toNat := by
  rw [Run.branchWord, toTwos_sext]
  split <;> rfl

section

variable {s : State} {cx : Nat} {r : Run} (h : Stands s cx 0x17 r)
include h

/-- A BRANCH_IF whose condition is in the table goes to its target when it holds, and to the next step otherwise. -/
theorem execBranchIf_of_taken {taken : Bool}
    (htaken : branchTaken (r.st.m 3 0) (r.c.g r.st.a) r.branchWord.toNat = some taken) :
    exec (.branchIf cx) s = .next (s.withCtx cx (r.retired r.c (if taken then r.st.i 7 0 else r.c.pc + 1))) := by
  refine congrArg Host.Outcome.next ?_
  rw [onStep_of_stands h _ _ _ (by simp [h.prim])]
  dsimp only
  rw [Run.branchWord_toNat, htaken]
  cases taken
  · exact retire_eq h ..
  · exact retire_eq h ..

theorem execBranchIf_of_unknown (hcode : branchTaken (r.st.m 3 0) (r.c.g r.st.a) r.branchWord.toNat = none) :
    exec (.branchIf cx) s = .next (s.faultSub cx St.malformed 0x0801) := by
  refine congrArg Host.Outcome.next ?_
  rw [onStep_of_stands h _ _ _ (by simp [h.prim])]
  dsimp only
  rw [Run.branchWord_toNat, hcode]
  exact finish_badOp h

end

/-! ### LOOP -/

section

variable {s : State} {cx : Nat} {r : Run} (h : Stands s cx 0x16 r)
include h

/-- The count of a LOOP. -/
def Run.loopCount (r : Run) : Nat := if r.st.m 0 0 = 1 then r.st.i 47 16 else r.c.g r.st.a

theorem execLoop_of_none (hcount : r.loopCount = 0) :
    exec (.loop cx) s = .next (s.withCtx cx (r.retired r.c (r.st.i 7 0 + 1))) := by
  refine congrArg Host.Outcome.next ?_
  rw [onStep_of_stands h _ _ _ (by simp [h.prim])]
  refine (congrArg r.finish (if_pos hcount)).trans ?_
  rw [Run.finish_goto, retire_eq h]

theorem execLoop_of_some (hcount : 0 < r.loopCount) :
    exec (.loop cx) s = .next (s.withCtx cx (r.retired { r.c with
      loops := { first := r.c.pc + 1, last := r.st.i 7 0, reg := r.st.b % 32, idx := 0, count := r.loopCount } :: r.c.loops,
      regs := r.c.regs.set (r.st.b % 32) 0 } (r.c.pc + 1))) := by
  refine congrArg Host.Outcome.next ?_
  rw [onStep_of_stands h _ _ _ (by simp [h.prim])]
  refine (congrArg r.finish (if_neg (Nat.ne_of_gt hcount))).trans ?_
  rw [Run.finish_next, Ctx.setG_eq, retire_eq h]
  rfl

end

/-- Settles O18: LOOP by its count, BRANCH_IF by its condition on the words it compares; PREFETCH retires. -/
theorem controlSteps : Obligations.ControlSteps := by
  intro s cx r
  refine ⟨fun h => ⟨execLoop_of_none h, execLoop_of_some h⟩, fun h => ?branch, fun h => ?prefetch⟩
  case branch =>
    intro x y goes
    have hgoes {cond : Nat} {taken : Bool} (hx : branchTaken cond x.toNat y.toNat = some taken) (hcond : r.st.m 3 0 = cond) :
        goes taken := execBranchIf_of_taken h (hcond ▸ hx)
    refine ⟨hgoes ?eq, hgoes ?ne, hgoes ?slt, hgoes ?sge, hgoes rfl, hgoes rfl,
      fun hcode => execBranchIf_of_unknown h (branchTaken_of_unknown hcode ..)⟩
    case eq => exact congrArg some (decide_eq_decide.2 BitVec.toNat_inj)
    case ne => exact congrArg some (decide_eq_decide.2 (not_congr BitVec.toNat_inj))
    case slt => exact congrArg some (by rw [sext_word, sext_word]; rfl)
    case sge => exact congrArg some (by rw [sext_word, sext_word]; rfl)
  case prefetch =>
    refine congrArg Host.Outcome.next ?_
    rw [onStep_of_stands h _ _ _ (by simp [h.prim]), Run.finish_next, retire_eq h]

end Sys2Proof.Machine
end


section
/-! SUPPORT. Steps whose effect waits for the commit of the phase (O24; R206, R211, R217): EMIT, and the exhausted budget. -/

namespace Sys2Proof.Machine

section

variable {s : State} {cx : Nat} {r : Run} (h : Stands s cx 0x18 r)
include h

/-- An EMIT of kind 0 holds its bytes, of a length and a class that R211 allows. -/
theorem execEmitStore_of_tileOk (hkind : r.st.m 0 0 = 0) (hmin : 1 ≤ r.st.i 15 0) (hmax : r.st.i 15 0 ≤ 16384)
    (hclass : r.st.m 2 1 ≠ 3) (ha : r.tileOk r.st.a (r.st.i 15 0) = true) :
    exec (.emitStore cx) s = .next (s.withCtx cx (r.retired
      { r.c with emits := r.c.emits ++ [{ ptr := r.c.regs.getD (r.st.b % 32) 0, tc := r.st.m 2 1,
                                          bytes := Bytes.rd r.c.scratch (tileSize * r.st.a) (r.st.i 15 0) }] } (r.c.pc + 1))) := by
  have hword : BitVec.ofNat 64 r.gb = r.c.regs.getD (r.st.b % 32) 0 := ofNat_eq_word rfl
  refine congrArg Host.Outcome.next ?_
  rw [onStep_of_stands h _ _ _ (by simp [h.prim, hkind])]
  dsimp only
  rw [require_of_true (by simp [hmin, hmax, hclass, tileSize]), Run.rdTile_of_tileOk ha, andThen_ok, hword, StepOut.ofExcept,
    Run.finish_next, retire_eq h]

/-- An EMIT of kind 1 outside the sub-parts of a split leaves its registers as the result. -/
theorem execEmitResult_of_allowed (hkind : r.st.m 0 0 = 1) (hplace : r.c.sub = finalSub ∨ r.v.img.stride = false) :
    exec (.emitResult cx) s = .next (s.withCtx cx (r.retired
      { r.c with result := some (r.c.regs.getD (r.st.a % 32) 0, r.c.regs.getD (r.st.b % 32) 0) } (r.c.pc + 1))) := by
  have hwords : (BitVec.ofNat 64 (r.c.g r.st.a), BitVec.ofNat 64 r.gb) =
      (r.c.regs.getD (r.st.a % 32) 0, r.c.regs.getD (r.st.b % 32) 0) := Prod.ext (ofNat_eq_word rfl) (ofNat_eq_word rfl)
  refine congrArg Host.Outcome.next ?_
  rw [onStep_of_stands h _ _ _ (by simp [h.prim, hkind]), if_neg (by rcases hplace with hplace | hplace <;> simp [hplace]),
    Run.finish_next, hwords, retire_eq h]

theorem execEmitResult_of_split (hkind : r.st.m 0 0 = 1) (hsub : r.c.sub ≠ finalSub) (hsplit : r.v.img.stride = true) :
    exec (.emitResult cx) s = .next (s.faultSub cx St.malformed 0x0801) := by
  refine congrArg Host.Outcome.next ?_
  rw [onStep_of_stands h _ _ _ (by simp [h.prim, hkind]), if_pos (by simp [hsub, hsplit]), finish_badOp h]

end

/-- A ready context of a running descriptor that has no step of its budget left ends its sub-part. -/
theorem execBudgetExhausted_of_spent {s : State} {cx : Nat} {c : Ctx} {v : Inv} {e : Entry} (hc : s.ctx cx = some c)
    (hv : s.inv c.lsn = some v) (he : s.entry c.lsn = some e) (hrun : e.running = true) (hfence : s.ldg.fenced = false)
    (hready : c.status = .ready) (hspent : v.img.budget ≤ c.used) :
    exec (.budgetExhausted cx) s = .next (s.faultSub cx St.timeout 0x0806) := by
  refine congrArg Host.Outcome.next ?_
  rw [hc]
  dsimp only
  rw [hv, he]
  exact if_pos (by simp [hrun, hfence, hready, hspent])

/-- Settles O24: each kind of EMIT holds what it emits, and a spent budget ends the sub-part. -/
theorem emitAndBudget : Obligations.EmitAndBudget := by
  intro s cx r n tc g
  exact ⟨fun h => execEmitStore_of_tileOk h,
    fun h hkind => ⟨execEmitResult_of_allowed h hkind, fun ⟨hsub, hsplit⟩ => execEmitResult_of_split h hkind hsub hsplit⟩,
    fun c v e hc hv he hrun hfence hready hspent => execBudgetExhausted_of_spent hc hv he hrun hfence hready hspent⟩

end Sys2Proof.Machine
end


section
/-! SUPPORT. STORE_TILE and SCATTER (O20; R198, R206, R211, R214): the entries that join the stage. -/

namespace Sys2Proof.Machine

theorem sumOf_eq_sum (l : List Nat) : sumOf l = l.sum := List.sum_eq_foldl.symm

/-- Stage entries of a binding and a mode, from their offsets and bytes. -/
def stageEntries (k mode : Nat) (l : List (Nat × List Byte)) : List StageEnt :=
  l.map (fun x => { bind := k, off := x.1, mode := mode, bytes := x.2 })

/-- Entries whose ranges may be written join the stage in order where it has room for all their bytes. -/
theorem stageAll_of_room {s : State} {r : Run} {k mode : Nat} {l : List (Nat × List Byte)}
    (hbind : ∀ x ∈ l, ∃ b, s.bindFor r k x.1 x.2.length true = .ok b) {c : Ctx}
    (hroom : sumOf (c.stage.map (fun e => e.bytes.length)) + sumOf (l.map (fun x => x.2.length)) ≤ r.v.img.stage * tileSize) :
    s.stageAll r k mode c l = .ok { c with stage := c.stage ++ stageEntries k mode l } := by
  induction l generalizing c with
  | nil => rw [State.stageAll, stageEntries, List.map_nil, List.append_nil]
  | cons x l ih =>
    obtain ⟨off, data⟩ := x
    obtain ⟨⟨b, hb⟩, hrest⟩ := List.forall_mem_cons.1 hbind
    simp only [sumOf_eq_sum, List.map_cons, List.sum_cons] at hroom
    rw [State.stageAll, hb, andThen_ok, if_neg (by rw [sumOf_eq_sum]; omega), ih hrest]
    · rw [List.append_assoc]
      rfl
    · simp only [sumOf_eq_sum, List.map_append, List.sum_append, List.map_cons, List.map_nil, List.sum_cons, List.sum_nil]
      omega

section

variable {s : State} {cx : Nat} {r : Run}

/-- A STORE_TILE of an allowed length adds one plain entry. -/
theorem execStoreTile_of_room (h : Stands s cx 0x02 r) (hlen : tileLen (r.st.i 15 0) = true)
    (ha : r.tileOk r.st.a (r.st.i 15 0) = true) (hbind : ∃ b, s.bindFor r (r.st.m 2 0) r.gb (r.st.i 15 0) true = .ok b)
    (hroom : sumOf (r.c.stage.map (fun e => e.bytes.length)) + r.st.i 15 0 ≤ r.v.img.stage * tileSize) :
    exec (.storeTile cx) s = .next (s.withCtx cx (r.retired
      { r.c with
        stage := r.c.stage ++ stageEntries (r.st.m 2 0) 0 [(r.gb, Bytes.rd r.c.scratch (tileSize * r.st.a) (r.st.i 15 0))] }
      (r.c.pc + 1))) := by
  refine congrArg Host.Outcome.next (onStep_ofExcept_of_ok h ?_)
  rw [require_of_true hlen, Run.rdTile_of_tileOk ha, andThen_ok]
  exact stageAll_of_room (List.forall_mem_singleton.2 (by rwa [Bytes.rd_length])) (by simpa [sumOf_eq_sum] using hroom)

end

/-! ### SCATTER -/

/-- The offset of row j of a SCATTER or GATHER: base + index × row bytes. -/
def Run.rowOffset (r : Run) (rows rb j : Nat) : Nat := r.gc + (r.elems r.st.b rows).getD j 0 * rb

theorem Run.rowOffsets_of_tileOk {r : Run} {rows : Nat} (h : r.tileOk r.st.b (4 * rows) = true) (rb : Nat) :
    r.rowOffsets rows rb = .ok ((r.elems r.st.b rows).map (fun i => r.gc + i * rb)) := by
  rw [Run.rowOffsets, Run.rdTile_of_tileOk h, andThen_ok, Run.elems]

/-- The rows of tile A with their offsets. -/
def Run.scatterRows (r : Run) (rows rb : Nat) : List (Nat × List Byte) :=
  (List.range rows).map (fun j => (r.rowOffset rows rb j, Bytes.rd r.c.scratch (tileSize * r.st.a + rb * j) rb))

theorem Run.zip_rows_eq (r : Run) (rows : Nat) {rb : Nat} (hrb : 0 < rb) :
    ((r.elems r.st.b rows).map (fun i => r.gc + i * rb)).zip (chunks rb (Bytes.rd r.c.scratch (tileSize * r.st.a) (rows * rb))) =
      r.scatterRows rows rb := by
  rw [Nat.mul_comm rows, chunks_rd _ _ hrb]
  refine List.ext_getElem (by simp [Run.scatterRows]) fun j hj _ => ?_
  have hrow : j < rows := by simpa using hj
  simp [Run.scatterRows, Run.rowOffset, hrow]

theorem Run.scatterRows_bytes (r : Run) (rows rb : Nat) : sumOf ((r.scatterRows rows rb).map (fun x => x.2.length)) = rows * rb := by
  simp [sumOf_eq_sum, Run.scatterRows, Function.comp_def]

/-- The modes of a SCATTER, with rows of whole elements in the ADD modes (R214). -/
def Run.scatterTakes (r : Run) : Bool :=
  r.st.m 5 4 ≠ 3 && (r.st.m 5 4 ≠ 1 || r.st.i 15 0 % 4 = 0) && (r.st.m 5 4 ≠ 2 || r.st.i 15 0 % 40 = 0)

theorem Run.scatterTakes_iff (r : Run) : r.scatterTakes = true ↔
    r.st.m 5 4 ≠ 3 ∧ (r.st.m 5 4 = 1 → r.st.i 15 0 % 4 = 0) ∧ (r.st.m 5 4 = 2 → r.st.i 15 0 % 40 = 0) := by
  simp [Run.scatterTakes, and_assoc, imp_iff_not_or]

section

variable {s : State} {cx : Nat} {r : Run} (h : Stands s cx 0x0B r)
include h

/-- A SCATTER of an allowed mode adds one entry for each row. -/
theorem execScatter_of_room (hrow : 0 < r.st.i 15 0) (hmode : r.scatterTakes = true)
    (ha : r.tileOk r.st.a (r.c.g r.st.d * r.st.i 15 0) = true) (hb : r.tileOk r.st.b (4 * r.c.g r.st.d) = true)
    (hbind : ∀ i ∈ r.elems r.st.b (r.c.g r.st.d), ∃ b,
      s.bindFor r (r.st.m 2 0) (r.gc + i * r.st.i 15 0) (r.st.i 15 0) true = .ok b)
    (hroom : sumOf (r.c.stage.map (fun e => e.bytes.length)) + r.c.g r.st.d * r.st.i 15 0 ≤ r.v.img.stage * tileSize) :
    exec (.scatter cx) s = .next (s.withCtx cx (r.retired
      { r.c with
        stage := r.c.stage ++ stageEntries (r.st.m 2 0) (r.st.m 5 4) (r.scatterRows (r.c.g r.st.d) (r.st.i 15 0)) }
      (r.c.pc + 1))) := by
  have hrows : ∀ x ∈ r.scatterRows (r.c.g r.st.d) (r.st.i 15 0), ∃ b,
      s.bindFor r (r.st.m 2 0) x.1 x.2.length true = .ok b := by
    refine List.forall_mem_map.2 fun j hj => ?_
    have hj : j < (r.elems r.st.b (r.c.g r.st.d)).length := by simpa using hj
    rw [Bytes.rd_length, Run.rowOffset, List.getD_eq_getElem _ _ hj]
    exact hbind _ (List.getElem_mem hj)
  refine congrArg Host.Outcome.next (onStep_ofExcept_of_ok h ((require_of_true hmode _).trans ?_))
  rw [Run.rdTile_of_tileOk ha, andThen_ok, Run.rowOffsets_of_tileOk hb, andThen_ok, Run.zip_rows_eq _ _ hrow]
  exact stageAll_of_room hrows (by rwa [Run.scatterRows_bytes])

theorem execScatter_of_refused (hmode : r.scatterTakes = false) :
    exec (.scatter cx) s = .next (s.faultSub cx St.malformed 0x0801) :=
  congrArg Host.Outcome.next (onStep_ofExcept_of_badOp h (require_of_false hmode _))

end

theorem execStoreTile_of_refused {s : State} {cx : Nat} {r : Run} (h : Stands s cx 0x02 r) (hlen : tileLen (r.st.i 15 0) = false) :
    exec (.storeTile cx) s = .next (s.faultSub cx St.malformed 0x0801) :=
  congrArg Host.Outcome.next (onStep_ofExcept_of_badOp h (require_of_false hlen _))

/-- Settles O20: one plain entry of a tile, or an entry per row, where the stage has room. -/
theorem storesEnterTheStage : Obligations.StoresEnterTheStage := by
  intro s cx r n k gb gc rows mode held
  refine ⟨fun h hlen ha hbind hroom => execStoreTile_of_room h hlen ha hbind hroom, execStoreTile_of_refused,
    fun h hrow hplain hadd hquern ha hb hbind hroom => ?scatter, fun h hmode => execScatter_of_refused h ?refused⟩
  case scatter =>
    rw [execScatter_of_room h (Nat.pos_of_ne_zero hrow) ((Run.scatterTakes_iff r).2 ⟨hplain, hadd, hquern⟩) ha hb hbind hroom,
      stageEntries, Run.scatterRows, List.map_map]
    rfl
  case refused => exact Bool.eq_false_iff.2 (mt (Run.scatterTakes_iff r).1 hmode)

end Sys2Proof.Machine
end


section
/-! SUPPORT. SEND and RECV, the timeout of a RECV, and the arrival and expiry of messages (O22; R206, R211, R215, R217). -/

namespace Sys2Proof.Machine

/-- What is logged for a shadow changes the log alone (R408). -/
theorem Run.logged_keeps {β : Type} (g : Ctx → β) (hlog : ∀ (c : Ctx) log, g { c with log := log } = g c)
    (htaken : ∀ (c : Ctx) n, g { c with taken := n } = g c) (r : Run) (c : Ctx) (d : List Byte) : g (r.logged c d) = g c := by
  unfold Run.logged
  split
  · exact htaken ..
  · split
    · exact hlog ..
    · rfl

/-- Fewer bytes of a tile lie in the context's tiles too. -/
theorem Run.tileOk_of_le {r : Run} {t m n : Nat} (hle : m ≤ n) (h : r.tileOk t n = true) : r.tileOk t m = true := by
  simp only [Run.tileOk, Bool.and_eq_true, decide_eq_true_eq] at h ⊢
  omega

/-- Bytes a step has read, logged, reach their tile. -/
theorem Run.wrTile_logged {r : Run} {t : Nat} {d data : List Byte} (h : r.tileOk t data.length = true) :
    r.wrTile (r.logged r.c d) t data = .ok { r.logged r.c d with scratch := r.tileWith t data } := by
  have hscratch : (r.logged r.c d).scratch = r.c.scratch := Run.logged_keeps Ctx.scratch (fun _ _ => rfl) (fun _ _ => rfl) ..
  rw [Run.wrTile, if_pos h, hscratch, Run.tileWith]

/-! ### SEND -/

/-- The message of a SEND. -/
def Run.message (r : Run) (self : Nat) (data : List Byte) : RMsg :=
  { tenant := r.e.tenant, lsn := r.c.lsn, key := r.c.regs.getD (r.st.d % 32) 0, srcMod := BitVec.ofNat 12 self,
    srcSub := r.c.sub, dstSub := r.gb, chan := r.st.m 3 0, tc := Fin.ofNat 4 (r.st.m 5 4), data := data }

theorem execSend_of_tileOk {s : State} {cx : Nat} {r : Run} (h : Stands s cx 0x12 r) (hmin : 1 ≤ r.st.i 15 0)
    (hmax : r.st.i 15 0 ≤ 16384) (hclass : r.st.m 5 4 ≠ 3) (ha : r.tileOk r.st.a (r.st.i 15 0) = true) :
    exec (.send cx) s = .next (s.withCtx cx (r.retired
      { r.c with
        sends := r.c.sends ++ [(r.gc, r.message s.self (Bytes.rd r.c.scratch (tileSize * r.st.a) (r.st.i 15 0)))] }
      (r.c.pc + 1))) := by
  have hkey : BitVec.ofNat 64 (r.c.g r.st.d) = r.c.regs.getD (r.st.d % 32) 0 := ofNat_eq_word rfl
  refine congrArg Host.Outcome.next (onStep_ofExcept_of_ok h ?_)
  rw [require_of_true (by simp [hmin, hmax, hclass, tileSize]), Run.rdTile_of_tileOk ha, andThen_ok]
  dsimp only
  rw [hkey, Run.message]

/-! ### RECV -/

/-- The state once the first held message that a RECV wants has left the held list. -/
def State.dropWanted (s : State) (r : Run) : State :=
  { s with slc := { s.slc with held := listDrop1 (fun x => r.wants x.1) s.slc.held } }

/-- The context of a RECV with its message in tile A and the count in its register. -/
def Run.received (r : Run) (m : RMsg) : Ctx :=
  { r.logged r.c m.data with
    scratch := r.tileWith r.st.a m.data, recvd := r.c.recvd ++ [m],
    regs := r.c.regs.set (r.st.m 12 8 % 32) (BitVec.ofNat 64 m.data.length) }

theorem takeMessage_of_none {s : State} {r : Run} (hnone : s.slc.held.find? (fun h => r.wants h.1) = none) :
    s.takeMessage r = none := by
  rw [State.takeMessage, hnone]

theorem takeMessage_of_some {s : State} {r : Run} {h : RMsg × Nat} (hfind : s.slc.held.find? (fun h => r.wants h.1) = some h)
    (hlen : h.1.data.length ≤ r.st.i 15 0) (ha : r.tileOk r.st.a (r.st.i 15 0) = true) :
    s.takeMessage r = some (.next (s.dropWanted r) (r.received h.1)) := by
  have hregs : (r.logged r.c h.1.data).regs = r.c.regs := Run.logged_keeps Ctx.regs (fun _ _ => rfl) (fun _ _ => rfl) ..
  have hrecvd : (r.logged r.c h.1.data).recvd = r.c.recvd := Run.logged_keeps Ctx.recvd (fun _ _ => rfl) (fun _ _ => rfl) ..
  rw [State.takeMessage, hfind]
  dsimp only
  rw [if_neg (Nat.not_lt.2 hlen), Run.wrTile_logged (Run.tileOk_of_le hlen ha)]
  dsimp only
  rw [Ctx.setG_eq, hregs, hrecvd]
  rfl

section

variable {s : State} {cx : Nat} {r : Run} (h : Stands s cx 0x13 r) (hown : r.c.shadowOf = none)
  (ha : r.tileOk r.st.a (r.st.i 15 0) = true)
include h hown ha

/-- A RECV that is no shadow's takes its message, or waits for it. -/
theorem execRecv_eq : exec (.recv cx) s = .next (r.finish ((s.takeMessage r).getD (.hold (s.modCtx cx (fun c =>
    if c.status = .ready then
      { c with status := .recv (s.now + 1000 * (if r.st.i 47 16 = 0 then s.fld F.slcCtlRecvTmo else r.st.i 47 16)) }
    else c))))) := by
  refine congrArg Host.Outcome.next ?_
  rw [onStep_of_stands h _ _ _ (by simp [h.prim])]
  dsimp only
  rw [if_neg (by simp [ha]), if_neg (by simp [hown])]
  cases s.takeMessage r <;> rfl

theorem execRecv_of_some {m : RMsg × Nat} (hfind : s.slc.held.find? (fun h => r.wants h.1) = some m)
    (hlen : m.1.data.length ≤ r.st.i 15 0) :
    exec (.recv cx) s = .next ((s.dropWanted r).withCtx cx (r.retired (r.received m.1) (r.c.pc + 1))) := by
  have hcx : (s.dropWanted r).ctx r.cx = some r.c := h.isCx ▸ h.context
  have hpc : (r.received m.1).pc = r.c.pc := Run.logged_pc ..
  rw [execRecv_eq h hown ha, takeMessage_of_some hfind hlen ha, Option.getD_some, Run.finish_next, retire_of_ctx hcx, h.isCx, hpc]

theorem execRecv_of_none (hnone : s.slc.held.find? (fun h => r.wants h.1) = none) :
    exec (.recv cx) s = .next (s.withCtx cx { r.c with
      status := .recv (s.now + 1000 * (if r.st.i 47 16 = 0 then s.fld F.slcCtlRecvTmo else r.st.i 47 16)) }) := by
  rw [execRecv_eq h hown ha, takeMessage_of_none hnone, Option.getD_none, Run.finish_hold, modCtx_of_ctx h.context, if_pos h.ready]

end

/-- A RECV whose message has not come by its deadline ends its sub-part, and the message is noted as late. -/
theorem execRecvTimeout_of_none {s : State} {cx t : Nat} {r : Run} (hc : s.ctx cx = some r.c) (hst : r.c.status = .recv t)
    (hr : (s.waitTill t).runOf cx = some r) (hop : r.st.op = 0x13)
    (hnone : (s.waitTill t).slc.held.find? (fun h => r.wants h.1) = none) :
    exec (.recvTimeout cx) s = .next (((s.waitTill t).noteLate r.e.tenant r.c.lsn (r.c.regs.getD (r.st.d % 32) 0) r.gc r.gb
      r.c.sub (r.st.m 3 0)).faultSub cx St.timeout 0x0808) := by
  have hkey : BitVec.ofNat 64 (r.c.g r.st.d) = r.c.regs.getD (r.st.d % 32) 0 := ofNat_eq_word rfl
  obtain ⟨hcx, -, -, -, -, -, -, hlib⟩ := runOf_eq_some hr
  refine congrArg Host.Outcome.next ?_
  rw [hc]
  dsimp only
  rw [hst]
  dsimp only
  rw [if_neg (by simp [hlib]), onStep_of_waits hr (by simp [hop]) (by rw [hst]; rfl), takeMessage_of_none hnone]
  dsimp only
  rw [Run.finish_fault _ _ _ _ (by decide), hcx, hkey]

/-! ### Messages that arrive and expire -/

section

variable {s : State} {m : RMsg} (hm : m.wf = true)
include hm

theorem execMessageArrive_of_wf : exec (.messageArrive m) s = .next (s.arrive m) :=
  checked_of_wf (i := .messageArrive m) hm ..

/-- A message that somebody may still take is held. -/
theorem execMessageArrive_of_live (hlive : m.key = 0 → (s.inv m.lsn).isSome = true)
    (hlate : s.slc.late.any (fun x => x.is m) = false) :
    exec (.messageArrive m) s = .next { s with slc := { s.slc with held := s.slc.held ++ [(m, s.now)] } } := by
  have hinv : (m.key = 0 && (s.inv m.lsn).isNone) = false := by simpa using hlive
  rw [execMessageArrive_of_wf hm, State.arrive, if_neg (ne_true_of_eq_false hlate), if_neg (ne_true_of_eq_false hinv)]

theorem execMessageArrive_of_late (hlate : s.slc.late.any (fun x => x.is m) = true) :
    exec (.messageArrive m) s = .next (({ s with slc := { s.slc with
      late := listDrop1 (fun x => x.is m) s.slc.late } } : State).bump F.slcCnt1LateRecv) := by
  rw [execMessageArrive_of_wf hm, State.arrive, if_pos hlate]

end

/-- A held message that no invocation takes leaves the held list at its expiry, and is counted. -/
theorem execMessageHoldExpiry_of_unwanted {s : State} {k : Nat} {h : RMsg × Nat} (hk : s.slc.held[k]? = some h)
    (hun : s.hasTaker h.1 = false) {u : State} (hu : u = s.waitTill (h.2 + 1000 * s.fld F.slcCtlRecvTmo)) :
    exec (.messageHoldExpiry k) s =
      .next (({ u with slc := { u.slc with held := u.slc.held.eraseIdx k } } : State).bump F.slcCnt1LateRecv) := by
  subst hu
  refine congrArg Host.Outcome.next ?_
  rw [hk]
  dsimp only
  rw [if_neg (ne_true_of_eq_false hun), List.eraseIdx_eq_take_drop_succ]

/-- Settles O22: a SEND is held, a RECV takes its message or waits for it until its deadline, and messages arrive and expire. -/
theorem messageSteps : Obligations.MessageSteps := by
  intro s cx r n tc g
  refine ⟨fun h hmin hmax hclass ha => execSend_of_tileOk h hmin hmax hclass ha, fun h hown ha => ?recv,
    fun t c hc hst hr hcx hop hnone => execRecvTimeout_of_none (r := { r with c := c }) hc hst hr hop hnone,
    fun m hm hlive hlate => execMessageArrive_of_live hm hlive hlate, fun m hm hlate => execMessageArrive_of_late hm hlate,
    fun k h hk hun => ⟨_, rfl, execMessageHoldExpiry_of_unwanted hk hun rfl⟩⟩
  case recv =>
    exact ⟨fun m hfind hlen => execRecv_of_some h hown ha hfind hlen, fun hnone => execRecv_of_none h hown ha hnone⟩

end Sys2Proof.Machine
end


section
/-! SUPPORT. LOAD_TILE and GATHER (O19; R199, R206, R211, R217, R261, R300; log entry 192): the tray reads a load makes, and how it
fills its tile. -/

namespace Sys2Proof.Machine

/-! ### Tray reads (R300) -/

/-- A fold whose every step leaves the state alone does so too. -/
theorem foldS_fixed {α : Type} {f : State → α → State} {s : State} {l : List α} (h : ∀ a ∈ l, f s a = s) : foldS f s l = s := by
  induction l with
  | nil => rfl
  | cons a l ih =>
    obtain ⟨ha, hl⟩ := List.forall_mem_cons.1 h
    rw [foldS_cons, ha, ih hl]

/-- A tray read sends and waits, and leaves the slices alone. -/
theorem trayRead_slc (s : State) (id n off len : Nat) : (s.trayRead id n off len).slc = s.slc := by
  unfold State.trayRead
  split
  · rfl
  · refine foldS_keeps State.slc _ (fun s q => ?_) ..
    split
    · split
      · rfl
      · split
        · rfl
        · refine foldS_keeps State.slc _ (fun _ _ => ?_) ..
          rfl
    · rfl

/-- The pages of a version that a byte range touches lie in the near tier. -/
def State.nearRange (s : State) (id n off len : Nat) : Prop :=
  ∀ v, s.version id n = some v → ∀ q ∈ pageSpans off len, ∀ p g, v.pages.look q.1 = some (.page p) → s.page p = some g →
    s.trayPort g.tier g.shelf = none

theorem trayRead_of_near {s : State} {id n off len : Nat} (h : s.nearRange id n off len) : s.trayRead id n off len = s := by
  unfold State.trayRead
  split
  · rfl
  · next v hv =>
    refine foldS_fixed fun q hq => ?_
    split
    · next p hp =>
      split
      · rfl
      · next g hg => rw [h v hv q hq p g hp hg]
    · rfl

/-- The tray reads of several ranges of a binding, one after another. -/
def State.trayReads (s : State) (b : Bind) (len : Nat) (offs : List Nat) : State :=
  offs.foldl (fun t o => t.trayRead b.region b.version o len) s

theorem trayReads_of_near {s : State} {b : Bind} {len : Nat} {offs : List Nat}
    (h : ∀ o ∈ offs, s.nearRange b.region b.version o len) : s.trayReads b len offs = s :=
  foldS_fixed fun o ho => trayRead_of_near (h o ho)

/-! ### Port sieves (R261) -/

theorem libIdent_of_slc {s t : State} (h : t.slc = s.slc) (e : Entry) : t.libIdent e = s.libIdent e := by
  rw [State.libIdent, State.libIdent, h]

/-- Only the sieve search reads through the port sieves. -/
theorem sieveRead_of_other {s : State} {r : Run} (h : s.libIdent r.e ≠ 0x4B500401) (b : Bind) (off : Nat) (data : List Byte) :
    s.sieveRead r b off data = s := by
  have hoff : s.sieveOn r off data.length = false := by simp [State.sieveOn, h]
  rw [State.sieveRead, hoff]
  rfl

/-- What any other recipe reads makes its tray reads alone. -/
theorem foldl_reads_of_other {s : State} {r : Run} {b : Bind} {len : Nat} (data : Nat × Nat → List Byte) (l : List (Nat × Nat))
    (h : s.libIdent r.e ≠ 0x4B500401) :
    l.foldl (fun t o => (t.sieveRead r b o.1 (data o)).trayRead b.region b.version o.1 len) s = s.trayReads b len (l.map Prod.fst) := by
  induction l generalizing s with
  | nil => rfl
  | cons o l ih =>
    have hlater : (s.trayRead b.region b.version o.1 len).libIdent r.e ≠ 0x4B500401 := by
      rwa [libIdent_of_slc (trayRead_slc ..)]
    rw [List.foldl_cons, sieveRead_of_other h, ih hlater]
    rfl

/-! ### Loads (R211) -/

/-- A read that has passed, or finds no page late, goes on at once (R113). -/
theorem stallCheck_of_go {s : State} {r : Run} {b : Bind} {pages : List Nat}
    (h : r.c.pass = true ∨ s.tryStall (.ctx r.cx) r.e.tenant b.region b.version pages = (s, .go)) :
    (if r.c.pass then (s, ReadWait.go) else s.tryStall (.ctx r.cx) r.e.tenant b.region b.version pages) = (s, .go) := by
  split
  · rfl
  · next hpass => exact h.resolve_left hpass

/-- The pages that ranges of one length touch. -/
def pagesOf (len : Nat) (offs : List Nat) : List Nat := (offs.map (fun o => (pageSpans o len).map (fun q => q.1))).flatten

theorem Run.overlay_length (r : Run) (b : Bind) (off : Nat) (data : List Byte) : (r.overlay b off data).length = data.length := by
  unfold Run.overlay
  refine List.foldlRecOn (motive := fun d : List Byte => d.length = data.length) _ _ rfl fun d hd e _ => ?_
  split
  · rw [List.length_map, List.length_zipIdx, hd]
  · exact hd

section

variable {s : State} {cx : Nat} {r : Run} {b : Bind} {d : List Byte} (hown : r.c.shadowOf = none)
  (hbind : r.v.binds.getD (r.st.m 2 0) none = some b) (hother : s.libIdent r.e ≠ 0x4B500401)
include hown hbind hother

/-- A load whose ranges are checked, not late and readable fills its tile. -/
theorem loadRanges_of_read {offs : List Nat} (hcheck : s.checkLoads r (r.st.m 2 0) (r.st.i 15 0) offs = .ok ())
    (hgo : r.c.pass = true ∨
      s.tryStall (.ctx r.cx) r.e.tenant b.region b.version (pagesOf (r.st.i 15 0) offs) = (s, .go))
    (hread : s.runReads r (r.st.m 2 0) (r.st.i 15 0) b offs = .ok d) (ha : r.tileOk r.st.a d.length = true) :
    s.loadRanges r (r.st.m 2 0) (r.st.i 15 0) offs =
      .next (s.trayReads b (r.st.i 15 0) offs) { r.logged r.c d with scratch := r.tileWith r.st.a d } := by
  have hgo := stallCheck_of_go hgo
  rw [pagesOf] at hgo
  rw [State.loadRanges, if_neg (by simp [hown]), hcheck, hbind]
  dsimp only
  rw [hgo]
  dsimp only
  rw [hread]
  dsimp only
  rw [Run.wrTile_logged ha, foldl_reads_of_other _ _ hother, List.zipIdx_map_fst]

/-- The step of such a load retires. -/
theorem finish_load_of_read (hcx : r.cx = cx) {offs : List Nat}
    (hcheck : s.checkLoads r (r.st.m 2 0) (r.st.i 15 0) offs = .ok ())
    (hgo : r.c.pass = true ∨
      s.tryStall (.ctx cx) r.e.tenant b.region b.version (pagesOf (r.st.i 15 0) offs) = (s, .go))
    (hread : s.runReads r (r.st.m 2 0) (r.st.i 15 0) b offs = .ok d) (ha : r.tileOk r.st.a d.length = true) :
    r.finish (s.loadRanges r (r.st.m 2 0) (r.st.i 15 0) offs) = (s.trayReads b (r.st.i 15 0) offs).retire r
      { r.logged r.c d with scratch := r.tileWith r.st.a d } (r.c.pc + 1) := by
  subst hcx
  rw [loadRanges_of_read hown hbind hother hcheck hgo hread ha, Run.finish_next, Run.logged_pc]

theorem execLoadTile_of_read (h : Stands s cx 0x01 r) (hlen : tileLen (r.st.i 15 0) = true) (haligned : r.gb % 64 = 0)
    (ha : r.tileOk r.st.a (r.st.i 15 0) = true)
    (hcheck : s.checkLoads r (r.st.m 2 0) (r.st.i 15 0) [r.gb] = .ok ())
    (hgo : r.c.pass = true ∨
      s.tryStall (.ctx cx) r.e.tenant b.region b.version (pagesOf (r.st.i 15 0) [r.gb]) = (s, .go))
    (hread : s.runRead r.v (r.st.m 2 0) b r.gb (r.st.i 15 0) = .ok d) (hd : d.length = r.st.i 15 0) :
    exec (.loadTile cx) s = .next ((s.trayReads b (r.st.i 15 0) [r.gb]).retire r
      { r.logged r.c (r.overlay b r.gb d) with scratch := r.tileWith r.st.a (r.overlay b r.gb d) } (r.c.pc + 1)) := by
  have hreads : s.runReads r (r.st.m 2 0) (r.st.i 15 0) b [r.gb] = .ok (r.overlay b r.gb d) := by
    rw [State.runReads, hread, andThen_ok, State.runReads, andThen_ok, List.append_nil]
  refine congrArg Host.Outcome.next ?_
  rw [onStep_of_stands h _ _ _ (by simp [h.prim])]
  dsimp only
  rw [if_neg (by simp [hlen, haligned]), if_neg (by simp [ha])]
  exact finish_load_of_read hown hbind hother h.isCx hcheck hgo hreads (by rwa [Run.overlay_length, hd])

theorem execGather_of_read (h : Stands s cx 0x0A r) (hwhole : r.st.i 15 0 % 8 = 0)
    (hfit : r.c.g r.st.d * r.st.i 15 0 ≤ 16384) (ha : r.tileOk r.st.a (r.c.g r.st.d * r.st.i 15 0) = true)
    (hb : r.tileOk r.st.b (4 * r.c.g r.st.d) = true) {offs : List Nat}
    (hoffs : (r.elems r.st.b (r.c.g r.st.d)).map (fun i => r.gc + i * r.st.i 15 0) = offs)
    (hcheck : s.checkLoads r (r.st.m 2 0) (r.st.i 15 0) offs = .ok ())
    (hgo : r.c.pass = true ∨
      s.tryStall (.ctx cx) r.e.tenant b.region b.version (pagesOf (r.st.i 15 0) offs) = (s, .go))
    (hread : s.runReads r (r.st.m 2 0) (r.st.i 15 0) b offs = .ok d) (hd : r.tileOk r.st.a d.length = true) :
    exec (.gather cx) s = .next ((s.trayReads b (r.st.i 15 0) offs).retire r
      { r.logged r.c d with scratch := r.tileWith r.st.a d } (r.c.pc + 1)) := by
  refine congrArg Host.Outcome.next ?_
  rw [onStep_of_stands h _ _ _ (by simp [h.prim])]
  dsimp only
  rw [if_neg (by simp [hwhole, tileSize, hfit]), if_neg (by simp [ha]), Run.rowOffsets_of_tileOk hb, hoffs]
  exact finish_load_of_read hown hbind hother h.isCx hcheck hgo hread hd

end

section

variable {s : State} {cx : Nat} {r : Run}

theorem execLoadTile_of_badOp (h : Stands s cx 0x01 r) (hbad : ¬(tileLen (r.st.i 15 0) = true ∧ r.gb % 64 = 0)) :
    exec (.loadTile cx) s = .next (s.faultSub cx St.malformed 0x0801) := by
  refine congrArg Host.Outcome.next ?_
  rw [onStep_of_stands h _ _ _ (by simp [h.prim])]
  dsimp only
  rw [if_pos (by simpa [imp_iff_not_or] using hbad), finish_badOp h]

theorem execGather_of_badOp (h : Stands s cx 0x0A r)
    (hbad : ¬(r.st.i 15 0 % 8 = 0 ∧ r.c.g r.st.d * r.st.i 15 0 ≤ 16384)) :
    exec (.gather cx) s = .next (s.faultSub cx St.malformed 0x0801) := by
  refine congrArg Host.Outcome.next ?_
  rw [onStep_of_stands h _ _ _ (by simp [h.prim])]
  dsimp only
  rw [if_pos (by simpa [imp_iff_not_or, tileSize] using hbad), finish_badOp h]

end

/-- Settles O19: one range or one per row, read where it is checked and not late; what R211 refuses fails the sub-part. -/
theorem loadsFillTheTile : Obligations.LoadsFillTheTile := by
  intro s cx r b d n k gb gc rows offs pages open_ after ends near
  refine ⟨fun l hnear => trayReads_of_near fun o ho v hv q hq => hnear v hv q.1 ?page, fun hown hbind hother => ⟨?load,
    execLoadTile_of_badOp, ?gather, execGather_of_badOp⟩⟩
  case page =>
    exact List.mem_flatten.2 ⟨_, List.mem_map_of_mem ho, List.mem_map_of_mem hq⟩
  case load =>
    intro h hlen haligned ha hcheck hopen hread hd
    exact execLoadTile_of_read hown hbind hother h hlen haligned ha hcheck hopen hread hd
  case gather =>
    intro h _ hwhole hfit ha hb hcheck hopen hread hd
    exact execGather_of_read hown hbind hother h hwhole hfit ha hb rfl hcheck hopen hread hd

end Sys2Proof.Machine
end


section
/-! SUPPORT. ATOMIC (O21; R203, R216, R343, R346, R352–R354): the record of its ordinal, the line it gains, and how it retires. -/

namespace Sys2Proof.Machine

/-! ### Lines (R203) -/

/-- An eviction takes a free number and a line of the directory. -/
theorem evict_keeps {β : Type} (g : State → β) (hslc : ∀ (s : State) slc n, g { s with slc := slc, freeIdx := n } = g s) (s : State)
    (slice : Nat) : g (s.evict slice) = g s := by
  unfold State.evict
  extract_lets mine
  split
  · rfl
  · split
    · exact hslc s _ _
    · rfl

/-- Gaining a line changes the directory alone, and takes a free number when a line is evicted. -/
theorem gainLine_keeps {β : Type} (g : State → β) (hslc : ∀ (s : State) slc n, g { s with slc := slc, freeIdx := n } = g s)
    (s : State) (region version off slice : Nat) : g (s.gainLine region version off slice) = g s :=
  (hslc ((s.dropOwners region version off 8).evict slice) _ _).trans
    ((evict_keeps g hslc ..).trans (hslc s _ s.freeIdx))

theorem gainLine_ldg (s : State) (region version off slice : Nat) : (s.gainLine region version off slice).ldg = s.ldg :=
  gainLine_keeps State.ldg (fun _ _ _ => rfl) ..

theorem gainLine_now (s : State) (region version off slice : Nat) : (s.gainLine region version off slice).now = s.now :=
  gainLine_keeps State.now (fun _ _ _ => rfl) ..

/-! ### Records (R343, R346, R352) -/

theorem addAtom_atoms (s : State) (a : AtomRec) :
    ∃ k n, (s.addAtom a).ldg.atoms = s.ldg.atoms ++ [{ a with slot := k, till := n }] := by
  have hatoms : (s.ownWrite (0x09000000 + 32 * s.freeAtom) a.bytes).ldg.atoms = s.ldg.atoms :=
    ownWrite_keeps (fun s => s.ldg.atoms) (fun _ _ _ _ => rfl) (fun _ _ => rfl) ..
  exact ⟨_, _, congrArg (· ++ _) hatoms⟩

/-- Outside MIRRORED mode, with no answer of a former buddy owed, every write is durable at once. -/
theorem durable_of_unmirrored {s : State} (hmode : s.ldg.mode ≠ .mirrored) (hbound : s.ldg.bound = none) (n : Nat) :
    s.durable n = true := by
  simp [State.durable, hmode, hbound]

theorem addAtom_durable {s : State} (hmode : s.ldg.mode ≠ .mirrored) (hbound : s.ldg.bound = none) (a : AtomRec) (n : Nat) :
    (s.addAtom a).durable n = true := by
  refine durable_of_unmirrored ?_ ?_ n
  · exact (ownWrite_keeps (fun s => s.ldg.mode) (fun _ _ _ _ => rfl) (fun _ _ => rfl) ..).trans_ne hmode
  · exact (ownWrite_keeps (fun s => s.ldg.bound) (fun _ _ _ _ => rfl) (fun _ _ => rfl) ..).trans hbound

/-- The context with its ordinal counted on and the old value in register GA. -/
def Run.atomicDone (r : Run) (old : W64) : Ctx :=
  { r.c with ordinal := r.c.ordinal + 1, regs := r.c.regs.set (r.st.a % 32) old }

theorem atomDone_of_durable {s : State} {r : Run} {a : AtomRec} (hdurable : s.durable a.till = true) (hok : a.status = St.ok) :
    s.atomDone r a = .next s (r.atomicDone a.old) := by
  rw [State.atomDone, if_neg (by simp [hdurable]), if_neg (not_not.2 hok), Ctx.setG_word _ _ (ofNat_eq_word rfl), Run.atomicDone]

/-- The record of a run's next atomic with its old value, at a time. -/
def Run.atomRecord (r : Run) (old : W64) (stamp : Nat) : AtomRec :=
  { recipe := true, k0 := r.c.lsn % 2 ^ 31, k1 := r.c.sub, k2 := r.c.ordinal, old := old, stamp := stamp }

/-- A record added for the next atomic is found, and the atomic retires with it. -/
theorem atomDone_of_added {s : State} {r : Run} (hnone : s.recipeAtom r.c = none) (hmode : s.ldg.mode ≠ .mirrored)
    (hbound : s.ldg.bound = none) (old : W64) (stamp : Nat) :
    ∃ a, (s.addAtom (r.atomRecord old stamp)).recipeAtom r.c = some a ∧
      (s.addAtom (r.atomRecord old stamp)).atomDone r a =
        .next (s.addAtom (r.atomRecord old stamp)) (r.atomicDone old) := by
  obtain ⟨k, n, hatoms⟩ := addAtom_atoms s (r.atomRecord old stamp)
  refine ⟨{ r.atomRecord old stamp with slot := k, till := n }, ?_, atomDone_of_durable (addAtom_durable hmode hbound ..) rfl⟩
  rw [State.recipeAtom, hatoms, List.find?_append]
  rw [State.recipeAtom] at hnone
  rw [hnone, Option.none_or]
  simp [Run.atomRecord]

/-! ### The step (R216) -/

theorem atomRoom_of_lt {s : State} (h : s.ldg.atoms.length < atomMax) : s.atomRoom = some s := if_pos h

/-- The state once the write of an ATOMIC has gained its line and its record is added. -/
def State.atomAdded (s : State) (r : Run) (b : Bind) (old : W64) : State :=
  (s.gainLine b.region b.version r.gb r.c.slice).addAtom (r.atomRecord old s.now)

/-- An ATOMIC whose word is read and written at once is recorded and retires with the old value. -/
theorem atomApply_of_written {s w : State} {r : Run} {b : Bind} {d : List Byte} (hroom : s.ldg.atoms.length < atomMax)
    (hread : s.runRead r.v (r.st.m 10 8) b r.gb 8 = .ok d)
    (hwrite : s.runWrite r.e r.v (r.st.m 10 8) r.gb (leBytes 8 (atomOp (r.st.m 3 0) (leNat d) r.gc (r.c.g r.st.d))) = (w, none))
    (hnone : w.recipeAtom r.c = none) (hmode : w.ldg.mode ≠ .mirrored) (hbound : w.ldg.bound = none) :
    s.atomApply r b = .next (w.atomAdded r b (BitVec.ofNat 64 (leNat d))) (r.atomicDone (BitVec.ofNat 64 (leNat d))) := by
  have hldg := gainLine_ldg w b.region b.version r.gb r.c.slice
  have hnow := gainLine_now w b.region b.version r.gb r.c.slice
  obtain ⟨a, hfind, hdone⟩ := atomDone_of_added (s := w.gainLine b.region b.version r.gb r.c.slice) (r := r)
    (by rwa [State.recipeAtom, hldg]) (by rwa [hldg]) (by rwa [hldg]) (BitVec.ofNat 64 (leNat d)) w.now
  rw [State.atomApply, atomRoom_of_lt hroom]
  dsimp only
  rw [hread]
  dsimp only
  rw [hwrite]
  dsimp only
  rw [hnow]
  rw [Run.atomRecord] at hfind hdone
  rw [hfind]
  dsimp only
  rw [hdone, State.atomAdded, Run.atomRecord]

section

variable {s : State} {cx : Nat} {r : Run} (h : Stands s cx 0x15 r)
include h

/-- A recorded ordinal is not applied again. -/
theorem execAtomic_of_recorded {a : AtomRec} (hfind : s.recipeAtom r.c = some a) (hdurable : s.durable a.till = true)
    (hok : a.status = St.ok) :
    exec (.atomic cx) s = .next (s.withCtx cx (r.retired (r.atomicDone a.old) (r.c.pc + 1))) := by
  refine congrArg Host.Outcome.next ?_
  rw [onStep_of_stands h _ _ _ (by simp [h.prim]), hfind]
  dsimp only
  rw [atomDone_of_durable hdurable hok, Run.finish_next, retire_eq h]
  rfl

/-- One without a record whose word is aligned and may be written, with no hazard and no stall, is applied at once. -/
theorem execAtomic_of_applied {b : Bind} {t : State} {c : Ctx} (hnone : s.recipeAtom r.c = none) (hown : r.c.shadowOf = none)
    (haligned : r.gb % 8 = 0) (hop : r.st.m 3 0 ≤ 9) (hbind : s.bindFor r (r.st.m 10 8) r.gb 8 true = .ok b)
    (hhazard : r.hazard b r.gb 8 true = false)
    (hgo : r.c.pass = true ∨ s.tryStall (.ctx cx) r.e.tenant b.region b.version [r.gb / 65536] = (s, .go))
    (happly : s.atomApply r b = .next t c) :
    exec (.atomic cx) s = .next (t.retire r c (c.pc + 1)) := by
  have hgo := stallCheck_of_go (h.isCx ▸ hgo)
  refine congrArg Host.Outcome.next ?_
  rw [onStep_of_stands h _ _ _ (by simp [h.prim]), hnone]
  dsimp only
  rw [if_neg (by simp [hown]), if_neg (by simp [haligned, hop]), hbind]
  dsimp only
  rw [if_neg (by simp [hhazard]), hgo]
  dsimp only
  rw [happly, Run.finish_next]

end

/-- Settles O21: a recorded ordinal gives its recorded value again, a new one is applied, recorded and retires at once. -/
theorem atomicAppliesOnce : Obligations.AtomicAppliesOnce := by
  intro s cx r h k gb gc gd done
  refine ⟨fun a hfind hdurable hok => execAtomic_of_recorded h hfind hdurable hok, ?applied⟩
  intro b d w hnone hown haligned hop hbind hhazard hgo hroom hread hwrite hatoms hmode hbound
  have hnone' : w.recipeAtom r.c = none := by rwa [State.recipeAtom, hatoms]
  exact ⟨w.atomAdded r b (BitVec.ofNat 64 (leNat d)), rfl, execAtomic_of_applied h hnone hown haligned hop hbind hhazard hgo
    (atomApply_of_written hroom hread hwrite hnone' hmode hbound)⟩

end Sys2Proof.Machine
end

section
/-! SUPPORT. Commands that write one register: holds, shapers and meters, step aborts, resets, the watchdog, frequencies, the return
to service and the sticky area (O49; R7, R306, R331, R358, R385, R390, R392, R399, R410, R411, R442, R450–R452). -/

namespace Sys2Proof.Machine

/-! ### The register at an address (R442) -/

/-- Registers in rows of one stride: one whose word lies before another's in each row does not cover that. -/
theorem Place.at?_of_later_in_row {p q : Place} (hs : p.s1 = q.s1) (hn : p.n2 = 1) (hpos : 0 < p.s2) (hlo : p.base + p.s2 ≤ q.base)
    (hhi : q.base < p.base + p.s1) (i : Nat) : p.at? (q.base + i * q.s1) = none := by
  have hoff : q.base + i * q.s1 - p.base = q.base - p.base + p.s1 * i := by rw [hs, mul_comm]; omega
  have hrest : (q.base + i * q.s1 - p.base) % p.s1 = q.base - p.base := by
    rw [hoff, Nat.add_mul_mod_self_left, Nat.mod_eq_of_lt (by omega)]
  have hpast : 1 ≤ (q.base - p.base) / p.s2 := (Nat.one_le_div_iff hpos).mpr (by omega)
  unfold Place.at?
  split
  · rfl
  · refine if_neg fun h => ?_
    have hin := h.2.2
    rw [hrest, hn] at hin
    omega

/-- A register is found at its address where the registers before it end there or lie before it in its own rows. -/
theorem locate_of_row {r : Reg} {i : Nat} (l g m : List Reg) (hall : Reg.all = (l ++ g) ++ r :: m)
    (hends : ∀ q ∈ l, 0 < q.place.s1 ∧ q.place.base + q.place.n1 * q.place.s1 ≤ r.place.base)
    (hrow : ∀ q ∈ g, q.place.s1 = r.place.s1 ∧ q.place.n2 = 1 ∧ 0 < q.place.s2 ∧ q.place.base + q.place.s2 ≤ r.place.base ∧
      r.place.base < q.place.base + q.place.s1)
    (hself : 0 < r.place.s1 ∧ 0 < r.place.n2) (hi : i < r.place.n1) : locate (addrOf r i) = some ⟨r, i, 0⟩ := by
  have haddr : addrOf r i = r.place.base + i * r.place.s1 := by simp [addrOf, Loc.addr]
  rw [haddr]
  refine locate_of_split hall (fun q hq => ?_) ?_
  · rcases List.mem_append.mp hq with hq | hq
    · exact at?_of_ends (Nat.le_add_right ..) hends q hq
    · obtain ⟨hs, hn, hpos, hlo, hhi⟩ := hrow q hq
      exact Place.at?_of_later_in_row hs hn hpos hlo hhi i
  · simp [Place.at?, Nat.mul_div_cancel _ hself.1, hi, hself.2]

theorem addrOf_aligned {r : Reg} (h : r.place.base % 8 = 0 ∧ r.place.s1 % 8 = 0) (i : Nat) : addrOf r i % 8 = 0 := by
  simp [addrOf, Loc.addr, Nat.add_mod, Nat.mul_mod, h.1, h.2]

/-! ### A write none of whose fields is refused (R450–R452) -/

/-- The control registers of the blocks, which carry their LOCKs. -/
def ctlRegs : List Reg :=
  [.genCtl, .rstCtl, .clkCtl, .pwrCtl, .secCtl, .tqCtl, .mapCtl, .rgnCtl, .tierCtl, .codecCtl, .timeCtl, .slcCtl, .swCtl, .schCtl,
    .ldgCtl, .hltCtl, .bbxCtl, .tollCtl, .portCtl, .hbmCtl]

theorem ctlOf_ne_of_not_mem {l : Loc} (h : l.reg ∉ ctlRegs) (b n : Nat) : ctlOf b n ≠ l := by
  rintro rfl
  refine h ?_
  unfold ctlOf
  dsimp only
  split <;> decide

/-- A write as a field that is not refused sees it: a read-only one leaves it, a write-only one gives its bits, another its value. -/
def Wr.write (v : Nat) (x : Wr) (f : Fld) : Wr :=
  match f.acc with
  | .ro => x
  | .wo => { x with act := insBits x.act f.hi f.lo (bits v f.hi f.lo), any := true }
  | _ => { x with w := insBits x.w f.hi f.lo (bits v f.hi f.lo), any := true }

/-- A written value sorted by fields none of which is refused. -/
def State.written (s : State) (l : Loc) (v : Nat) : Wr := l.reg.flds.foldl (Wr.write v) { w := s.heldWord l, act := 0, any := false }

/-- The fields of a register refuse no write of a path: they are read-only, write-only or read-write, or the block's LOCK that they heed
is open. -/
def State.opens (s : State) (path : Path) (l : Loc) : Prop :=
  (l.reg = .bbxCtl → pathSecure path = true) ∧ ∀ f ∈ l.reg.flds, f.acc = .ro ∨ f.acc = .wo ∨ f.acc = .rw ∨
    f.acc = .rwl ∧ s.blockLocked (blockAt l.addr).1 (blockAt l.addr).2 = false

section
variable {s : State} {path : Path} {r : Reg} {i : Nat} (h : Accepts s path r i) (ho : s.opens path ⟨r, i, 0⟩)
include h ho

theorem takes_of_opens : ∀ f ∈ r.flds, f.acc ≠ .w1c ∧
    s.takes ⟨r, i, 0⟩ (pathSecure path) f = if f.acc = .ro then .no else .yes := by
  intro f hf
  obtain ⟨hbbx, hacc⟩ := ho
  have hworld : pathSecure path = true ∨ s.blockSecure (blockAt (⟨r, i, 0⟩ : Loc).addr).1 (blockAt (⟨r, i, 0⟩ : Loc).addr).2 = false :=
    h.world
  have hsecret : pathSecure path = true ∨ secureOnly r f = false := by
    by_cases hr : r = .bbxCtl
    · exact .inl (hbbx hr)
    · exact .inr (by simp [secureOnly, hr])
  rcases hacc f hf with ha | ha | ha | ⟨ha, hlock⟩
  · simp [State.takes, ha]
  · rcases hworld with hw | hw <;> rcases hsecret with hs | hs <;> simp [State.takes, ha, hw, hs]
  · rcases hworld with hw | hw <;> rcases hsecret with hs | hs <;> simp [State.takes, ha, hw, hs]
  · rcases hworld with hw | hw <;> rcases hsecret with hs | hs <;> simp [State.takes, ha, hw, hs, hlock]

theorem sortWrite_of_opens (v : Nat) : s.sortWrite ⟨r, i, 0⟩ (pathSecure path) v = s.written ⟨r, i, 0⟩ v := by
  unfold State.sortWrite State.written
  refine List.foldl_ext _ _ _ fun x f hf => ?_
  obtain ⟨hacc, htakes⟩ := takes_of_opens h ho f hf
  rw [htakes, Wr.write]
  cases ha : f.acc <;> simp_all

/-- An accepted write that no field refuses does what the register does with the fields of the value. -/
theorem writeBy_of_opens (hloc : locate (addrOf r i) = some ⟨r, i, 0⟩) (halign : addrOf r i % 8 = 0) {v : W64} {x : Wr}
    (hx : lockStays ⟨r, i, 0⟩ (s.heldWord ⟨r, i, 0⟩) (s.written ⟨r, i, 0⟩ v.toNat) = x) (hany : x.any = true) :
    s.writeBy path (addrOf r i) v = s.effect ⟨r, i, 0⟩ (pathSecure path) x := by
  have hreach : s.reach (addrOf r i) = .ok ⟨r, i, 0⟩ := by simp [State.reach, halign, hloc, h.served]
  have hnone : ∀ t, t ≠ .yes → t ≠ .no → (r.flds.any fun f => s.takes ⟨r, i, 0⟩ (pathSecure path) f = t &&
      f.changes (s.heldWord ⟨r, i, 0⟩) v.toNat) = false := fun t hty htn =>
    List.any_eq_false.mpr fun f hf => by
      rw [(takes_of_opens h ho f hf).2]
      split <;> simp [Ne.symm hty, Ne.symm htn]
  have hcause : s.writeCause ⟨r, i, 0⟩ (pathSecure path) v.toNat = none := by simp [State.writeCause, hnone]
  simp [State.writeBy, h.opened, regWrite_of_reach hreach, State.writeLoc, hcause, State.when, sortWrite_of_opens h ho, hx, hany]

/-- The same of a register without a LOCK. -/
theorem writeBy_of_opens_lockless (hctl : r ∉ ctlRegs) (hloc : locate (addrOf r i) = some ⟨r, i, 0⟩)
    (halign : addrOf r i % 8 = 0) {v : W64} {x : Wr} (hx : s.written ⟨r, i, 0⟩ v.toNat = x) (hany : x.any = true) :
    s.writeBy path (addrOf r i) v = s.effect ⟨r, i, 0⟩ (pathSecure path) x :=
  writeBy_of_opens h ho hloc halign ((lockStays_of_ne (ctlOf_ne_of_not_mem hctl) ..).trans hx) hany

end

theorem opens_of_plain {r : Reg} (hr : r ≠ .bbxCtl) (hacc : ∀ f ∈ r.flds, f.acc = .ro ∨ f.acc = .wo ∨ f.acc = .rw) (s : State)
    (path : Path) (i : Nat) : s.opens path ⟨r, i, 0⟩ :=
  ⟨fun h => absurd h hr, fun f hf => (hacc f hf).imp_right (Or.imp_right .inl)⟩

theorem bits_mod_of_lt {k hi : Nat} (h : hi < k) (v lo : Nat) : bits (v % 2 ^ k) hi lo = bits v hi lo := by
  by_cases hlo : lo ≤ hi + 1
  · rw [← bits_mod hlo, Nat.mod_mod_of_dvd _ (pow_dvd_pow 2 (Nat.succ_le_of_lt h)), bits_mod hlo]
  · rw [bits, bits, Nat.sub_eq_zero_of_le (by omega), pow_zero, Nat.mod_one, Nat.mod_one]

theorem bit_mod_of_lt {k n : Nat} (h : n < k) (v : Nat) : bit (v % 2 ^ k) n = bit v n := bit_of_bits (bits_mod_of_lt h v n)

/-! ### Commands whose fields are write-only (R306, R358, R385, R392, R410) -/

section
variable {s : State} {path : Path}

theorem writeBy_portHold {p : Port} (h : Accepts s path .portHold p.val) (v : W64) :
    s.writeBy path (addrOf .portHold p.val) v = s.writeHold p.val (v.toNat % 4) := by
  have hloc := locate_of_row (r := .portHold) (i := p.val) (Reg.all.take 177) [.portCtl, .portSts] (Reg.all.drop 180)
    (by decide +kernel) (by decide +kernel) (by decide) (by decide) p.isLt
  have hx : s.written ⟨.portHold, p.val, 0⟩ v.toNat = { w := s.heldWord ⟨.portHold, p.val, 0⟩, act := v.toNat % 4, any := true } := by
    simp only [State.written, Reg.flds, Wr.write, List.foldl_cons, List.foldl_nil, insBits, bits]
    congr 1
    omega
  exact writeBy_of_opens_lockless h (opens_of_plain (by decide) (by decide) ..) (by decide) hloc (addrOf_aligned (by decide) _) hx rfl

theorem writeBy_ldgJobAbort (h : Accepts s path .ldgJobAbort 0) {v : W64} (hgo : bit v.toNat 31 = true) :
    s.writeBy path (addrOf .ldgJobAbort) v = (s.requestAbort (bits v.toNat 23 16) (bits v.toNat 15 0)).goOn := by
  obtain ⟨a, hx, hbit, htenant, hjob⟩ : ∃ a, s.written ⟨.ldgJobAbort, 0, 0⟩ v.toNat =
      { w := s.heldWord ⟨.ldgJobAbort, 0, 0⟩, act := a, any := true } ∧
      bit a 31 = bit v.toNat 31 ∧ bits a 23 16 = bits v.toNat 23 16 ∧ bits a 15 0 = bits v.toNat 15 0 := by
    refine ⟨_, rfl, bit_of_bits ?_, ?_, ?_⟩ <;> simp only [Wr.write, insBits, bits] <;> omega
  rw [writeBy_of_opens_lockless h (opens_of_plain (by decide) (by decide) ..) (by decide) rfl rfl hx rfl, ← htenant, ← hjob]
  exact if_pos (hbit.trans hgo)

theorem writeBy_rstCmd (h : Accepts s path .rstCmd 0) (v : W64) :
    s.writeBy path (addrOf .rstCmd) v = s.writeRstCmd (v.toNat % 4) := by
  have hx : s.written ⟨.rstCmd, 0, 0⟩ v.toNat = { w := s.heldWord ⟨.rstCmd, 0, 0⟩, act := v.toNat % 4, any := true } := by
    simp only [State.written, Reg.flds, Wr.write, List.foldl_cons, List.foldl_nil, insBits, bits]
    congr 1
    omega
  exact writeBy_of_opens_lockless h (opens_of_plain (by decide) (by decide) ..) (by decide) rfl rfl hx rfl

theorem writeBy_rstWdtKick (h : Accepts s path .rstWdtKick 0) (v : W64) :
    s.writeBy path (addrOf .rstWdtKick) v = s.kick (v.toNat % 2 ^ 16) := by
  have hx : s.written ⟨.rstWdtKick, 0, 0⟩ v.toNat =
      { w := s.heldWord ⟨.rstWdtKick, 0, 0⟩, act := v.toNat % 2 ^ 16, any := true } := by
    simp only [State.written, Reg.flds, Wr.write, List.foldl_cons, List.foldl_nil, insBits, bits]
    congr 1
    omega
  exact writeBy_of_opens_lockless h (opens_of_plain (by decide) (by decide) ..) (by decide) rfl rfl hx rfl

/-- The start of a sequence reads CLASS, INDEX and GO alone. -/
theorem rtsStart_congr {a v : Nat} (hcls : bits a 2 0 = bits v 2 0) (hindex : bits a 15 8 = bits v 15 8) (hgo : bit a 31 = bit v 31) :
    s.rtsStart a = s.rtsStart v := by
  rw [State.rtsStart, State.rtsStart, hcls, hindex, hgo]

theorem writeBy_hltRts (h : Accepts s path .hltRts 0) (v : W64) : s.writeBy path (addrOf .hltRts) v = s.rtsStart v.toNat := by
  obtain ⟨a, hx, hcls, hindex, hgo⟩ : ∃ a, s.written ⟨.hltRts, 0, 0⟩ v.toNat =
      { w := s.heldWord ⟨.hltRts, 0, 0⟩, act := a, any := true } ∧
      bits a 2 0 = bits v.toNat 2 0 ∧ bits a 15 8 = bits v.toNat 15 8 ∧ bit a 31 = bit v.toNat 31 := by
    refine ⟨_, rfl, ?_, ?_, bit_of_bits ?_⟩ <;> simp only [Wr.write, insBits, bits] <;> omega
  rw [writeBy_of_opens_lockless h (opens_of_plain (by decide) (by decide) ..) (by decide) rfl rfl hx rfl]
  exact rtsStart_congr hcls hindex hgo

end

/-! ### Settings of shapers and meters (R331) -/

section
variable {s : State} {path : Path}

/-- What the selected queue holds fills the fields of SCH_SHP_CFG. -/
theorem heldWord_schShpCfg_lt (s : State) : s.heldWord ⟨.schShpCfg, 0, 0⟩ < 2 ^ 57 := by
  have := b2n_lt s.shpQueue.on
  simp only [State.heldWord, put, putB]
  omega

theorem writeBy_schShpCfg (h : Accepts s path .schShpCfg 0) (v : W64) :
    s.writeBy path (addrOf .schShpCfg) v = s.shaperCommit (v.toNat % 2 ^ 58) := by
  obtain ⟨w, a, hx, hsum⟩ : ∃ w a, s.written ⟨.schShpCfg, 0, 0⟩ v.toNat = { w := w, act := a, any := true } ∧
      w + a = v.toNat % 2 ^ 58 := by
    have hheld := heldWord_schShpCfg_lt s
    refine ⟨_, _, rfl, ?_⟩
    simp only [Wr.write, insBits, bits]
    omega
  rw [writeBy_of_opens_lockless h (opens_of_plain (by decide) (by decide) ..) (by decide) rfl rfl hx rfl, ← hsum]
  rfl

/-- A setting is committed from the fields of SCH_SHP_CFG alone. -/
theorem shaperCommit_mod (s : State) (v : Nat) : s.shaperCommit (v % 2 ^ 58) = s.shaperCommit v := by
  simp only [State.shaperCommit, bits_mod_of_lt (show 55 < 58 by decide), bits_mod_of_lt (show 31 < 58 by decide),
    bit_mod_of_lt (show 56 < 58 by decide), bit_mod_of_lt (show 57 < 58 by decide)]

theorem meterCommit_mod (s : State) (t m v : Nat) : s.meterCommit t m (v % 2 ^ 3) = s.meterCommit t m v := by
  simp only [State.meterCommit, bits_mod_of_lt (show 1 < 3 by decide), bit_mod_of_lt (show 2 < 3 by decide)]

theorem writeBy_schMtr0Ctl {t : Tenant} (h : Accepts s path .schMtr0Ctl t.val) (v : W64) :
    s.writeBy path (addrOf .schMtr0Ctl t.val) v = s.meterCommit t.val 0 v.toNat := by
  have hloc := locate_of_row (r := .schMtr0Ctl) (i := t.val) (Reg.all.take 136) [.schTenCtl] (Reg.all.drop 138)
    rfl (by decide +kernel) (by decide) (by decide) t.isLt
  obtain ⟨w, a, hx, hsum⟩ : ∃ w a, s.written ⟨.schMtr0Ctl, t.val, 0⟩ v.toNat = { w := w, act := a, any := true } ∧
      w + a = v.toNat % 2 ^ 3 := by
    refine ⟨_, _, rfl, ?_⟩
    simp only [Wr.write, State.heldWord, put, insBits, bits]
    omega
  rw [writeBy_of_opens_lockless h (opens_of_plain (by decide) (by decide) ..) (by decide) hloc (addrOf_aligned (by decide) _) hx rfl,
    ← meterCommit_mod, ← hsum]
  rfl

theorem writeBy_schMtr1Ctl {t : Tenant} (h : Accepts s path .schMtr1Ctl t.val) (v : W64) :
    s.writeBy path (addrOf .schMtr1Ctl t.val) v = s.meterCommit t.val 1 v.toNat := by
  have hloc := locate_of_row (r := .schMtr1Ctl) (i := t.val) (Reg.all.take 136)
    [.schTenCtl, .schMtr0Ctl, .schMtr0Rate, .schMtr0Burst] (Reg.all.drop 141) rfl (by decide +kernel) (by decide) (by decide) t.isLt
  obtain ⟨w, a, hx, hsum⟩ : ∃ w a, s.written ⟨.schMtr1Ctl, t.val, 0⟩ v.toNat = { w := w, act := a, any := true } ∧
      w + a = v.toNat % 2 ^ 3 := by
    refine ⟨_, _, rfl, ?_⟩
    simp only [Wr.write, State.heldWord, put, insBits, bits]
    omega
  rw [writeBy_of_opens_lockless h (opens_of_plain (by decide) (by decide) ..) (by decide) hloc (addrOf_aligned (by decide) _) hx rfl,
    ← meterCommit_mod, ← hsum]
  rfl

end

/-! ### Block resets (R390) -/

section
variable {s : State} {path : Path}

theorem word_lt (s : State) (l : Loc) (hreset : l.resetWord < 2 ^ 64) : s.word l < 2 ^ 64 := by
  unfold State.word
  split
  · exact BitVec.isLt _
  · exact hreset

theorem writeBy_rstBlkPort (h : Accepts s path .rstBlkPort 0) (v : W64) :
    s.writeBy path (addrOf .rstBlkPort) v = s.writeBlkPort ⟨.rstBlkPort, 0, 0⟩ { w := v.toNat, act := 0, any := true } := by
  have hx : s.written ⟨.rstBlkPort, 0, 0⟩ v.toNat = { w := v.toNat, act := 0, any := true } := by
    have hheld : s.heldWord ⟨.rstBlkPort, 0, 0⟩ < 2 ^ 64 := word_lt s _ (by decide)
    have hv := v.isLt
    simp only [State.written, Reg.flds, Wr.write, List.foldl_cons, List.foldl_nil, insBits, bits]
    congr 1
    omega
  exact writeBy_of_opens_lockless h (opens_of_plain (by decide) (by decide) ..) (by decide) rfl rfl hx rfl

theorem writeBy_rstBlkHbm (h : Accepts s path .rstBlkHbm 0) (v : W64) :
    s.writeBy path (addrOf .rstBlkHbm) v =
      s.writeBlkHbm ⟨.rstBlkHbm, 0, 0⟩ (s.written ⟨.rstBlkHbm, 0, 0⟩ v.toNat) ∧
    s.newWord path ⟨.rstBlkHbm, 0, 0⟩ v = (s.written ⟨.rstBlkHbm, 0, 0⟩ v.toNat).w ∧
    ∀ k, k < 12 → bit (s.written ⟨.rstBlkHbm, 0, 0⟩ v.toNat).w k = bit v.toNat k := by
  have ho : s.opens path ⟨.rstBlkHbm, 0, 0⟩ := opens_of_plain (by decide) (by decide) ..
  refine ⟨writeBy_of_opens_lockless h ho (by decide) rfl rfl rfl rfl, congrArg Wr.w (sortWrite_of_opens h ho _), fun k hk => ?_⟩
  have hlow : bits (s.written ⟨.rstBlkHbm, 0, 0⟩ v.toNat).w 11 0 = bits v.toNat 11 0 :=
    (bits_insBits_self _ 11 0 _).trans (bits_mod_self ..)
  rw [bits, bits, pow_zero, Nat.div_one, Nat.div_one] at hlow
  rw [← bit_mod_of_lt hk, ← bit_mod_of_lt hk v.toNat]
  exact congrArg (bit · k) hlow

theorem rising_congr {old a v n : Nat} (h : ∀ k, k < n → bit a k = bit v k) : rising old a n = rising old v n :=
  List.filter_congr fun k hk => by rw [h k (List.mem_range.mp hk)]

theorem falling_congr {old a v n : Nat} (h : ∀ k, k < n → bit a k = bit v k) : falling old a n = falling old v n :=
  List.filter_congr fun k hk => by rw [h k (List.mem_range.mp hk)]

end

/-! ### Frequencies and the sticky area (R399, R403, R411, R420) -/

section
variable {s : State} {path : Path}

/-- A write of CLK_Qn_CTL that is accepted while the block is not locked. -/
theorem writeBy_clkQCtl {q : Quad} (h : Accepts s path .clkQCtl q.val) (hopen : s.blockLocked 2 0 = false) (v : W64) :
    ∃ x : Wr, s.writeBy path (addrOf .clkQCtl q.val) v = s.writeFreq ⟨.clkQCtl, q.val, 0⟩ x ∧ bits x.w 11 0 = bits v.toNat 11 0 ∧
      x.w < 2 ^ 64 := by
  have hblock : blockAt (⟨.clkQCtl, q.val, 0⟩ : Loc).addr = (2, 0) := by
    have hq := q.isLt
    have haddr : (⟨.clkQCtl, q.val, 0⟩ : Loc).addr = 0x200010 + q.val * 8 := by simp [Loc.addr, Reg.place]
    rw [haddr, blockAt, if_pos (by omega), show (0x200010 + q.val * 8) / 0x100000 = 2 by omega]
  have ho : s.opens path ⟨.clkQCtl, q.val, 0⟩ :=
    ⟨(nomatch ·), fun f hf => .inr (.inr (.inr ⟨by rw [List.mem_singleton.mp hf], by rwa [hblock]⟩))⟩
  have hloc := locate_of_row (r := .clkQCtl) (i := q.val) (Reg.all.take 19) [] (Reg.all.drop 20) rfl (by decide) (by decide)
    (by decide) q.isLt
  have hheld : s.heldWord ⟨.clkQCtl, q.val, 0⟩ < 2 ^ 64 := word_lt s _ (by simp [Loc.resetWord, Reg.flds])
  refine ⟨s.written ⟨.clkQCtl, q.val, 0⟩ v.toNat, writeBy_of_opens_lockless h ho (by decide) hloc (addrOf_aligned (by decide) _) rfl rfl,
    (bits_insBits_self _ 11 0 _).trans (bits_mod_self ..), ?_⟩
  simp only [State.written, Reg.flds, Wr.write, List.foldl_cons, List.foldl_nil, insBits, bits]
  omega

theorem quadrantFreq_sets {q : Quad} {x : Wr} (hlo : 1530 ≤ bits x.w 11 0) (hhi : bits x.w 11 0 ≤ 2070)
    (hnear : ((List.range 4).any fun k => decide (k ≠ q.val) &&
      decide (((s.fld F.clkQCtlFreqMhz k : Int) - bits x.w 11 0).natAbs > 270)) = false) :
    s.writeFreq ⟨.clkQCtl, q.val, 0⟩ x = s.setWord ⟨.clkQCtl, q.val, 0⟩ x.w := by
  rw [State.writeFreq, if_neg (by simp; omega), if_neg (by rw [hnear]; exact Bool.false_ne_true)]

/-- The setting of a quadrant reads as the low bits of the word stored. -/
theorem fld_setWord_clkQCtl (s : State) (q : Nat) {w : Nat} (hw : w < 2 ^ 64) :
    (s.setWord ⟨.clkQCtl, q, 0⟩ w).fld F.clkQCtlFreqMhz q = bits w 11 0 := by
  have hword : (s.setWord ⟨.clkQCtl, q, 0⟩ w).word ⟨.clkQCtl, q, 0⟩ = w := by
    rw [State.word_setWord_self _ _ _ (by simp [Loc.resetWord, Reg.flds]), Nat.mod_eq_of_lt hw]
  exact congrArg (bits · 11 0) hword

/-- CLEAR_STICKY written by a secure path empties the sticky area, and leaves every other register. -/
theorem writeBy_clearSticky (h : Accepts s path .bbxCtl 0) (hsecure : pathSecure path = true) :
    ∃ w, s.writeBy path (addrOf .bbxCtl) (s.withField .bbxCtl 0 1 1 1) = (s.setWord ⟨.bbxCtl, 0, 0⟩ w).clearSticky := by
  have hacc : ∀ f ∈ Reg.bbxCtl.flds, f.acc = .ro ∨ f.acc = .wo ∨ f.acc = .rw := by decide
  have ho : s.opens path ⟨.bbxCtl, 0, 0⟩ := ⟨fun _ => hsecure, fun f hf => (hacc f hf).imp_right (Or.imp_right .inl)⟩
  obtain ⟨w, hx⟩ : ∃ w, lockStays ⟨.bbxCtl, 0, 0⟩ (s.heldWord ⟨.bbxCtl, 0, 0⟩)
      (s.written ⟨.bbxCtl, 0, 0⟩ (s.withField .bbxCtl 0 1 1 1).toNat) = { w := w, act := 2, any := true } := by
    have hact : (s.written ⟨.bbxCtl, 0, 0⟩ (s.withField .bbxCtl 0 1 1 1).toNat).act = 2 := by
      simp [State.written, Reg.flds, Wr.write, State.withField, State.rwWord, sumOf, put, insBits, bits]
      omega
    unfold lockStays
    dsimp only
    split
    · exact ⟨_, by rw [hact]; rfl⟩
    · exact ⟨_, by rw [← hact]; rfl⟩
  refine ⟨w, ?_⟩
  rw [writeBy_of_opens h ho rfl rfl hx rfl]
  simp [State.effect, State.when, bit]

end

/-- Settles O49: each register's write sorts into the fields its command reads, and does what they say. -/
theorem controlWritesAct : Obligations.ControlWritesAct := by
  intro s path v
  refine ⟨fun p h => ⟨?hold, ?release⟩, fun h => ?shaper, fun t m h hmode => ?meter, fun h hgo =>
    congrArg Host.Outcome.next (writeBy_ldgJobAbort h hgo), fun h => ?port, fun h => ?hbm, fun h => ⟨?warm, ?cold⟩, fun h => ?kick,
    fun q h hopen => ?freq, fun h => congrArg Host.Outcome.next (writeBy_hltRts h v), fun h hsecure => ?sticky⟩
  case hold => exact congrArg Host.Outcome.next (writeBy_portHold h 1)
  case release => exact congrArg Host.Outcome.next (writeBy_portHold h 2)
  case shaper => exact congrArg Host.Outcome.next ((writeBy_schShpCfg h v).trans (shaperCommit_mod s _))
  case meter =>
    have hcommit : s.writeBy path (addrOf (if m = 0 then .schMtr0Ctl else .schMtr1Ctl) t.val) v = s.meterCommit t.val m.val v.toNat := by
      fin_cases m
      · exact writeBy_schMtr0Ctl h v
      · exact writeBy_schMtr1Ctl h v
    refine congrArg Host.Outcome.next (hcommit.trans ?_)
    rw [State.meterCommit, if_neg hmode]
    fin_cases m <;> rfl
  case port => exact congrArg Host.Outcome.next (writeBy_rstBlkPort h v)
  case hbm =>
    obtain ⟨hwrite, hnew, hbits⟩ := writeBy_rstBlkHbm h v
    intro l u
    refine congrArg Host.Outcome.next (hwrite.trans ?_)
    rw [State.writeBlkHbm, rising_congr hbits, falling_congr hbits]
    simp only [u, l, hnew]
  case warm => exact congrArg Host.Outcome.next (writeBy_rstCmd h 1)
  case cold => exact congrArg Host.Outcome.next (writeBy_rstCmd h 2)
  case kick =>
    refine congrArg Host.Outcome.next ((writeBy_rstWdtKick h v).trans ?_)
    rw [State.kick, bits_mod_of_lt (by decide)]
  case freq =>
    intro f l far
    obtain ⟨x, hwrite, hf, hx⟩ := writeBy_clkQCtl h hopen v
    have hexec : exec (.quadrantFreqWrite path q v) s = .next (s.writeFreq l x) := congrArg Host.Outcome.next hwrite
    have hfreq : bits x.w 11 0 = f := hf
    rw [hexec]
    refine ⟨fun hout => ?_, fun hlo hhi hfar => ?_, fun hlo hhi hnear => ?_⟩
    · rw [State.writeFreq, hfreq, if_pos (by simpa using hout)]
    · rw [State.writeFreq, hfreq, if_neg (by simp; omega), if_pos hfar]
    · have hset := quadrantFreq_sets (q := q) (by rw [hfreq]; exact hlo) (by rw [hfreq]; exact hhi) (by rw [hfreq]; exact hnear)
      exact ⟨_, congrArg Host.Outcome.next hset, rfl, (fld_setWord_clkQCtl s q.val hx).trans hfreq,
        fun k hk => State.word_setWord_ne s l k x.w hk⟩
  case sticky =>
    obtain ⟨w, hwrite⟩ := writeBy_clearSticky h hsecure
    exact ⟨_, congrArg Host.Outcome.next hwrite, rfl, rfl, fun k hk => State.word_setWord_ne s ⟨.bbxCtl, 0, 0⟩ k w hk⟩

end Sys2Proof.Machine
end

section
/-! SUPPORT. Third runs, the retention of atomic records, liveness, RESYNC and the timers of streams (O51; R279, R290, R292, R305,
R321, R347, R353, R359, R409). -/

namespace Sys2Proof.Machine

/-! ### Waiting -/

theorem waitTill_ldg (s : State) (t : Nat) : (s.waitTill t).ldg = s.ldg := advance_ldg ..

/-- Waiting for a tick that has not passed ends at it. -/
theorem waitTill_now_of_tick {s : State} {t : Nat} (ht : t % 8 = 0) (hle : s.now ≤ t) : (s.waitTill t).now = t := by
  have hceil : 8 * ceilDiv t 8 = t := by unfold ceilDiv; omega
  have hmono : s.time.mono ≤ t := hle
  rw [State.waitTill, advance_now, hceil]
  exact Nat.add_sub_cancel' hmono

/-! ### The third run of a shadowed phase (R409) -/

/-- What the third run of a phase that stands at a comparison decides. -/
theorem thirdRun_of_compares {s : State} {cx third k : Nat} {c sh : Ctx} {e : Entry} {v : Inv} (hctx : s.ctx cx = some c)
    (hshadow : s.shadowCx cx = some (k, sh)) (hmay : s.mayCommit c = some (e, v)) (hc : c.compares = true)
    (hsh : sh.compares = true ∨ ∃ r d, sh.status = .ended r d) (hthird : s.thirdOk c.slice sh.slice third = true) :
    let u : State := if c.status = .mismatch then s else s.bump F.hltCnt0Mismatches
    let quar := fun (s : State) (n : Nat) => s.quarantine n 2 c.pc e.ident e.tenant e.job
    s.thirdRun cx third .placed = ((quar (({ u with slc := { u.slc with ctxs := Tbl.del k u.slc.ctxs } } : State).modCtx cx
      (fun c => { c with status := .commit 0 })) sh.slice).phaseCommit cx) ∧
    s.thirdRun cx third .shadow = ((quar (({ u with slc := { u.slc with ctxs := Tbl.del k u.slc.ctxs } } : State).modCtx cx
      (fun _ => { sh with shadowOf := none, slot := c.slot, recvd := c.recvd, startAt := c.startAt, record := c.record, log := [],
                          taken := 0, status := .commit 0 })) c.slice).phaseCommit cx) ∧
    s.thirdRun cx third .neither = quar (quar (quar (u.hwFault cx) c.slice) sh.slice) third := by
  have hgo : (!(c.compares && (sh.compares || (match sh.status with | .ended _ _ => true | _ => false)) &&
      s.thirdOk c.slice sh.slice third)) = false := by
    rcases hsh with h | ⟨r, d, h⟩
    · simp [hc, h, hthird]
    · simp [hc, h, hthird]
  intro u quar
  have hu : s.when (decide (c.status ≠ .mismatch)) (fun s => s.bump F.hltCnt0Mismatches) = u := by
    by_cases h : c.status = .mismatch
    · simp [u, h]
    · simp [u, h]
  unfold State.thirdRun
  simp only [hctx, hshadow, hmay]
  have hgo := ne_true_of_eq_false hgo
  refine ⟨(if_neg hgo).trans ?_, (if_neg hgo).trans ?_, (if_neg hgo).trans ?_⟩
  · rw [hu]
  · rw [hu]
  · rw [hu]

/-! ### Records of atomics (R353) -/

theorem dropAtoms_atoms (s : State) (p : AtomRec → Bool) : (s.dropAtoms p).ldg.atoms = s.ldg.atoms.filter (fun a => !(p a)) :=
  foldS_keeps (fun s => s.ldg.atoms) _ (fun _ _ => ownWrite_keeps (fun s => s.ldg.atoms) (fun _ _ _ _ => rfl) (fun _ _ => rfl) ..) ..

theorem dropAtoms_now (s : State) (p : AtomRec → Bool) : (s.dropAtoms p).now = s.now :=
  foldS_keeps State.now _ (fun _ _ => ownWrite_keeps State.now (fun _ _ _ _ => rfl) (fun _ _ => rfl) ..) ..

/-- The record of a remote atomic whose retention ends is gone, and it alone. -/
theorem atomicRecordExpiry_of_found {s : State} {ep : Ep} {tag : Nat} {seq : W32} {a : AtomRec}
    (ha : s.ldg.atoms.find? (fun a => !a.recipe && decide (a.k0 = ep.toNat) && decide (a.k1 = tag) && decide (a.k2 = seq.toNat)) =
      some a) :
    exec (.atomicRecordExpiry ep tag seq) s =
      .next ((s.waitTill (a.stamp + 1000000 * s.fld F.ldgAtomCtlRetainMs)).dropAtoms (fun x => x = a)) := by
  rw [show exec (.atomicRecordExpiry ep tag seq) s = execAtomicRecordExpiry ep tag seq s from rfl, execAtomicRecordExpiry, ha]

/-! ### Peers (R347, R359) -/

theorem peerSuspect_of_watched {s : State} {peer : ModId} (hw : s.watches peer.toNat = true)
    (hs : (s.ldg.peers.rd {} peer.toNat).suspect = false) :
    let p := s.ldg.peers.rd {} peer.toNat
    let u := s.waitTill (p.heard + 1000 * s.fld F.ldgLiveCtlTmoUs)
    let probes := (u.tx peer.toNat 2).fence.filter (fun f => f.purpose = .probe)
    let x := if probes.length = 0 then u else u.modTx peer.toNat 2 (fun t =>
      { t with fence := t.fence.filter (fun f => f.purpose ≠ .probe) })
    let doubt : Peer → Peer := fun p => { p with suspect := true, probed := p.probed + probes.length }
    let y : State := { x with ldg := { x.ldg with peers := Tbl.upd {} peer.toNat doubt x.ldg.peers } }
    exec (.peerSuspect peer) s = .next (y.bbxLog 0x0B 0 0 (leBytes 2 peer.toNat ++ leBytes 4 ((x.now - p.heard) / 1000))) := by
  intro p u probes x doubt y
  have hx : u.when (decide (probes.length ≠ 0)) (fun s => s.modTx peer.toNat 2 (fun t =>
      { t with fence := t.fence.filter (fun f => f.purpose ≠ .probe) })) = x := by
    by_cases h : probes.length = 0
    · simp [x, h]
    · simp [x, h]
  refine congrArg Host.Outcome.next ((if_pos (by simp [hw, hs])).trans ?_)
  dsimp only
  rw [hx]
  rfl

/-! ### Timers of streams (R279, R290, R292, R305, R321) -/

theorem retxTimerExpiry_of_due {s : State} {ep : Ep} {tc : Tc} {t : Nat} (ht : s.retxAt ep.toNat tc.val = some t) :
    exec (.retxTimerExpiry ep tc) s =
      (let u := s.waitTill t
       let x := foldS (fun s f => s.retxFence ep.toNat tc.val f) (u.retxStream ep.toNat tc.val) (u.tx ep.toNat tc.val).fence
       .next ((foldS (fun s w => s.retxWait w) x (u.ulpWaits ep.toNat tc.val)).goOn)) := by
  rw [show exec (.retxTimerExpiry ep tc) s = execRetxTimerExpiry ep tc s from rfl, execRetxTimerExpiry, ht]

theorem streamGapExpiry_of_gap {s : State} {ep : Ep} {tc : Tc} {t : Nat} (ht : (s.rx ep.toNat tc.val).gapAt = some t) :
    exec (.streamGapExpiry ep tc) s =
      (let u := s.waitTill (t + 1000 * s.fld F.swRsqCtlStreamGapUs)
       .next (((u.modRx ep.toNat tc.val (fun r => { r with gapAt := some u.now })).bump F.swCnt1Resends).askResend
         ep.toNat tc.val)) := by
  rw [show exec (.streamGapExpiry ep tc) s = execStreamGapExpiry ep tc s from rfl, execStreamGapExpiry, ht]

/-- A load held for a later epoch fails with EPOCH. -/
theorem epochAdoptTimeout_of_load {s : State} {n t : Nat} {q : RxReq} (hq : s.fab.later.look n = some (q, t)) (hk : q.kind = .load) :
    exec (.epochAdoptTimeout n) s =
      (let u := s.waitTill (t + 1000 * s.fld F.mapTmoAdoptUs)
       .next ({ u with fab := { u.fab with later := Tbl.del n u.fab.later } }.loadFail q.port q.h St.epoch 0x0B11)) := by
  rw [show exec (.epochAdoptTimeout n) s = execEpochAdoptTimeout n s from rfl, execEpochAdoptTimeout, hq]
  exact congrArg Host.Outcome.next (if_pos hk)

/-- Another request takes that failure in its stream, if its epoch is still later. -/
theorem epochAdoptTimeout_of_request {s : State} {n t : Nat} {q : RxReq} (hq : s.fab.later.look n = some (q, t))
    (hk : q.kind ≠ .load) :
    exec (.epochAdoptTimeout n) s =
      (let u := s.waitTill (t + 1000 * s.fld F.mapTmoAdoptUs)
       let w : State := { u with fab := { u.fab with later := Tbl.del n u.fab.later } }
       .next ((w.modRx (w.rxSrc q.h) q.h.tc.val (fun r => { r with held := r.held.map (fun (x : RxReq) =>
         if x.h.seq = q.h.seq && x.deny.isNone && w.epochAt x.h = .later then { x with deny := some (St.epoch, 0x0B11) } else x)
         })).pumpStream (w.rxSrc q.h) q.h.tc.val)) := by
  rw [show exec (.epochAdoptTimeout n) s = execEpochAdoptTimeout n s from rfl, execEpochAdoptTimeout, hq]
  exact congrArg Host.Outcome.next (if_neg hk)

/-- The violation counts of every port at zero. -/
def State.clearVsec (s : State) : State :=
  { s with fab := { s.fab with ports := s.fab.ports.mapV (fun _ (p : PortSt) => { p with vsec := 0 }) } }

theorem clearVsec_now (s : State) : s.clearVsec.now = s.now := rfl

theorem clearVsec_vsec (s : State) : ∀ x ∈ s.clearVsec.fab.ports, x.2.vsec = 0 := by
  intro x hx
  obtain ⟨y, -, rfl⟩ := List.mem_map.mp hx
  rfl

/-- At a whole second no port counts violations of the second before. -/
theorem violationSecondRollover_clears (s : State) :
    ∃ t : State, exec .violationSecondRollover s = .next t ∧ t.now = (s.now / 1000000000 + 1) * 1000000000 ∧
      ∀ x ∈ t.fab.ports, x.2.vsec = 0 := by
  have htick : (s.now / 1000000000 + 1) * 1000000000 % 8 = 0 := by omega
  have hle : s.now ≤ (s.now / 1000000000 + 1) * 1000000000 := by omega
  exact ⟨_, rfl, (clearVsec_now _).trans (waitTill_now_of_tick htick hle), clearVsec_vsec _⟩

/-- Settles O51: each timer's definition, past its guard, is what the statement says of it. -/
theorem timersAndRecovery : Obligations.TimersAndRecovery := by
  intro s
  refine ⟨?third, ?atom, fun peer hw => ⟨congrArg Host.Outcome.next (if_pos hw), fun hs => peerSuspect_of_watched hw hs⟩,
    fun hmode hbuddy hfenced hsynced => congrArg Host.Outcome.next (if_pos (by simp [hmode, hbuddy, hfenced, hsynced])),
    fun ep tc => ⟨fun hdue => congrArg Host.Outcome.next (if_pos hdue), fun t ht => streamGapExpiry_of_gap ht,
      fun t ht => retxTimerExpiry_of_due ht⟩,
    fun n q t hq hk => epochAdoptTimeout_of_load hq hk, fun n q t hq hk => epochAdoptTimeout_of_request hq hk,
    violationSecondRollover_clears s⟩
  case third =>
    intro s0 cx third c k sh e v hctx hshadow hmay hc hsh hthird
    obtain ⟨hplaced, hshadowed, hneither⟩ := thirdRun_of_compares hctx hshadow hmay hc hsh hthird
    exact ⟨congrArg Host.Outcome.next hplaced, congrArg Host.Outcome.next hshadowed, congrArg Host.Outcome.next hneither⟩
  case atom =>
    intro ep tag seq a ha
    have hkept := dropAtoms_atoms (s.waitTill (a.stamp + 1000000 * s.fld F.ldgAtomCtlRetainMs)) (fun x => x = a)
    rw [waitTill_ldg] at hkept
    refine ⟨_, atomicRecordExpiry_of_found ha, by simp [hkept], fun x hx hne => by simp [hkept, hx, hne], ?_⟩
    rw [dropAtoms_now]
    exact le_waitTill_now ..

end Sys2Proof.Machine
end

section
/-! SUPPORT. Requests of a stream: they apply in the order of their numbers, copies are discarded (O53; R273, R277, R279, R281,
R286, R288, R289, R343, R353). -/

namespace Sys2Proof.Machine

/-! ### Streams -/

@[simp] theorem State.rx_modRx (s : State) (src tc : Nat) (f : RxStream → RxStream) :
    (s.modRx src tc f).rx src tc = f (s.rx src tc) := by
  simp [State.rx, State.modRx]

/-- What a change makes of the stream that stands is all that counts. -/
theorem State.modRx_congr {s : State} {src tc : Nat} {f g : RxStream → RxStream} (h : f (s.rx src tc) = g (s.rx src tc)) :
    s.modRx src tc f = s.modRx src tc g := by
  have hput : Tbl.upd {} (streamKey src tc) f s.fab.rx = Tbl.upd {} (streamKey src tc) g s.fab.rx :=
    congrArg (fun r => Tbl.put ({} : RxStream) (streamKey src tc) r s.fab.rx) h
  rw [State.modRx, State.modRx, hput]

/-- The number behind the contiguous one is one ahead of it (R129, R273). -/
theorem serDiff_succ (a : W32) : serDiff (a + 1) a = 1 := by
  rw [serDiff, show a + 1 - a = 1#32 by rw [add_comm, add_sub_cancel_right]; rfl]
  decide

/-- A stream that is known opens only by SYNC. -/
theorem openStream_of_known {s : State} {src tc : Nat} {q : RxReq} (hknown : (s.rx src tc).known = true) (hsync : q.h.sync = false) :
    s.openStream src tc q = s := by
  simp [State.openStream, hknown, hsync]

theorem head_of_next {r : RxStream} {q : RxReq} (hknown : r.known = true) (hheld : r.held = [q]) (hseq : q.h.seq = r.contig + 1) :
    r.head = some q := by
  simp [RxStream.head, hknown, hheld, hseq]

theorem head_of_gap {r : RxStream} {q : RxReq} (hheld : r.held = [q]) (hseq : q.h.seq ≠ r.contig + 1) : r.head = none := by
  simpa [RxStream.head, hheld] using fun _ => hseq

/-- The stream with a request held that came when it held none, and its acknowledgement timer started if it stood. -/
def State.holding (s : State) (src tc : Nat) (q : RxReq) : State :=
  s.modRx src tc (fun r => { r with
    held := [q], port := q.port, tag := q.h.tag,
    ackAt := if r.sinceAck = 0 && !r.ackDue && decide (r.ackAt = 0) then s.now else r.ackAt })

/-- A stream that held nothing and now holds one request goes on with it. -/
theorem pumpStream_of_held {s : State} {src tc : Nat} {q : RxReq} (hheld : (s.rx src tc).held = [q]) :
    s.pumpStream src tc = (((State.applyGo src tc 1 s).setGap src tc).pumpFences src tc).pumpDeps src tc := by
  simp only [State.pumpStream, hheld, List.length_singleton]

theorem applyGo_of_done {s w : State} {src tc st d : Nat} {q : RxReq} (hhead : (s.rx src tc).head = some q)
    (happly : s.applyReq q = (w, .done st d)) : State.applyGo src tc 1 s = w.consume src tc q st d := by
  simp [State.applyGo, hhead, happly]

theorem applyGo_of_wait {s w : State} {src tc : Nat} {q : RxReq} (hhead : (s.rx src tc).head = some q)
    (happly : s.applyReq q = (w, .wait)) : State.applyGo src tc 1 s = w := by
  simp [State.applyGo, hhead, happly]

theorem applyGo_of_none {s : State} {src tc : Nat} (hhead : (s.rx src tc).head = none) (n : Nat) : State.applyGo src tc n s = s := by
  cases n <;> simp [State.applyGo, hhead]

/-! ### A request that arrives -/

/-- A request with the time and the moves its arrival gives it. -/
def State.stamped (s : State) (q : RxReq) : RxReq := { q with at_ := s.now, drains := s.shelvesOf q.h.xRegion }

@[simp] theorem stamped_h (s : State) (q : RxReq) : (s.stamped q).h = q.h := rfl

/-- The stream of a request is known, holds nothing and is not begun anew by the request. -/
structure Idle (s : State) (q : RxReq) : Prop where
  known : (s.rx (s.rxSrc q.h) q.h.tc.val).known = true
  empty : (s.rx (s.rxSrc q.h) q.h.tc.val).held = []
  noSync : q.h.sync = false

/-- A later number than the stream has had is held, where it may be, and the stream goes on. -/
theorem arriveReq_of_later {s : State} {q : RxReq} (hidle : Idle s q)
    (hnew : 0 < serDiff q.h.seq (s.rx (s.rxSrc q.h) q.h.tc.val).contig) (hepoch : s.epochAt q.h ≠ .later)
    (hroom : q.h.seq = (s.rx (s.rxSrc q.h) q.h.tc.val).contig + 1 ∨ 0 < s.fld F.swRsqCtlHoldMsgs) :
    s.arriveReq q = (s.holding (s.rxSrc q.h) q.h.tc.val (s.stamped q)).pumpStream (s.rxSrc q.h) q.h.tc.val := by
  obtain ⟨hknown, hempty, hsync⟩ := hidle
  have hopen : s.openStream (s.rxSrc q.h) q.h.tc.val (s.stamped q) = s := openStream_of_known hknown hsync
  have hfree : (decide (q.h.seq ≠ (s.rx (s.rxSrc q.h) q.h.tc.val).contig + 1) && decide (0 ≥ s.fld F.swRsqCtlHoldMsgs)) = false := by
    rcases hroom with h | h
    · simp [h]
    · simp [Nat.not_le.mpr h]
  have hnow : (decide (s.epochAt q.h = .later) && q.deny.isNone) = false := by simp [hepoch]
  unfold State.arriveReq
  dsimp only
  rw [show s.openStream (s.rxSrc q.h) q.h.tc.val { q with at_ := s.now, drains := s.shelvesOf q.h.xRegion } = s from hopen,
    if_neg (by simp [hempty, hnew]), hempty, if_neg (by rw [List.length_nil, hfree]; exact Bool.false_ne_true)]
  have hheld : s.modRx (s.rxSrc q.h) q.h.tc.val (fun r => { r with
      held := r.held ++ [s.stamped q], port := q.port, tag := q.h.tag,
      ackAt := if r.sinceAck = 0 && !r.ackDue && decide (r.ackAt = 0) then s.now else r.ackAt }) =
      s.holding (s.rxSrc q.h) q.h.tc.val (s.stamped q) := State.modRx_congr (by rw [hempty]; rfl)
  refine congrArg (fun t : State => t.pumpStream _ _) (Eq.trans ?_ hheld)
  exact congrArg (fun c => State.when _ c _) hnow

/-- The number the stream awaits, applied to its end, is consumed, and the stream goes on. -/
theorem arriveReq_of_done {s w : State} {q : RxReq} {st d : Nat} (hidle : Idle s q)
    (hseq : q.h.seq = (s.rx (s.rxSrc q.h) q.h.tc.val).contig + 1) (hepoch : s.epochAt q.h ≠ .later)
    (happly : (s.holding (s.rxSrc q.h) q.h.tc.val (s.stamped q)).applyReq (s.stamped q) = (w, .done st d)) :
    s.arriveReq q = (((w.consume (s.rxSrc q.h) q.h.tc.val (s.stamped q) st d).setGap (s.rxSrc q.h) q.h.tc.val).pumpFences
      (s.rxSrc q.h) q.h.tc.val).pumpDeps (s.rxSrc q.h) q.h.tc.val := by
  have hnew : 0 < serDiff q.h.seq (s.rx (s.rxSrc q.h) q.h.tc.val).contig := by rw [hseq, serDiff_succ]; decide
  rw [arriveReq_of_later hidle hnew hepoch (.inl hseq), pumpStream_of_held (q := s.stamped q) (by simp [State.holding]),
    applyGo_of_done (head_of_next (by simpa [State.holding] using hidle.known) (by simp [State.holding])
      (by simpa [State.holding] using hseq)) happly]

/-- The number the stream awaits, waiting to be applied, leaves the stream's fences and dependent loads to go on. -/
theorem arriveReq_of_wait {s w : State} {q : RxReq} (hidle : Idle s q)
    (hseq : q.h.seq = (s.rx (s.rxSrc q.h) q.h.tc.val).contig + 1) (hepoch : s.epochAt q.h ≠ .later)
    (happly : (s.holding (s.rxSrc q.h) q.h.tc.val (s.stamped q)).applyReq (s.stamped q) = (w, .wait)) :
    s.arriveReq q = ((w.setGap (s.rxSrc q.h) q.h.tc.val).pumpFences (s.rxSrc q.h) q.h.tc.val).pumpDeps
      (s.rxSrc q.h) q.h.tc.val := by
  have hnew : 0 < serDiff q.h.seq (s.rx (s.rxSrc q.h) q.h.tc.val).contig := by rw [hseq, serDiff_succ]; decide
  rw [arriveReq_of_later hidle hnew hepoch (.inl hseq), pumpStream_of_held (q := s.stamped q) (by simp [State.holding]),
    applyGo_of_wait (head_of_next (by simpa [State.holding] using hidle.known) (by simp [State.holding])
      (by simpa [State.holding] using hseq)) happly]

/-- A number beyond a gap is held. -/
theorem arriveReq_of_gap {s : State} {q : RxReq} (hidle : Idle s q)
    (hseq : q.h.seq ≠ (s.rx (s.rxSrc q.h) q.h.tc.val).contig + 1)
    (hnew : 0 < serDiff q.h.seq (s.rx (s.rxSrc q.h) q.h.tc.val).contig) (hepoch : s.epochAt q.h ≠ .later)
    (hroom : 0 < s.fld F.swRsqCtlHoldMsgs) :
    s.arriveReq q = (((s.holding (s.rxSrc q.h) q.h.tc.val (s.stamped q)).setGap (s.rxSrc q.h) q.h.tc.val).pumpFences
      (s.rxSrc q.h) q.h.tc.val).pumpDeps (s.rxSrc q.h) q.h.tc.val := by
  rw [arriveReq_of_later hidle hnew hepoch (.inr hroom), pumpStream_of_held (q := s.stamped q) (by simp [State.holding]),
    applyGo_of_none (head_of_gap (q := s.stamped q) (by simp [State.holding]) (by simpa [State.holding] using hseq))]

/-! ### A copy of a request received before (R289, R353) -/

/-- A number at or below the contiguous one is that of a copy. -/
theorem arriveReq_of_copied {s : State} {q : RxReq} (hidle : Idle s q)
    (hold : serDiff q.h.seq (s.rx (s.rxSrc q.h) q.h.tc.val).contig ≤ 0) :
    s.arriveReq q = s.duplicate (s.rxSrc q.h) q.h.tc.val (s.stamped q) := by
  have hopen : s.openStream (s.rxSrc q.h) q.h.tc.val (s.stamped q) = s := openStream_of_known hidle.known hidle.noSync
  unfold State.arriveReq
  dsimp only
  rw [show s.openStream (s.rxSrc q.h) q.h.tc.val { q with at_ := s.now, drains := s.shelvesOf q.h.xRegion } = s from hopen,
    if_pos (by simp [hold])]
  rfl

theorem duplicate_of_ne_atomic {s : State} {src tc : Nat} {q : RxReq} (hk : q.kind ≠ .atomic) :
    s.duplicate src tc q = s.bump F.portEcntDup q.port := by
  simp [State.duplicate, hk]

theorem State.bump_rx (s : State) (f : FRef) (i src tc : Nat) : (s.bump f i).rx src tc = s.rx src tc := by
  unfold State.rx
  rw [State.bump_fab]

theorem State.bump_remoteAtom (s : State) (f : FRef) (i : Nat) (h : Hdr) : (s.bump f i).remoteAtom h = s.remoteAtom h := by
  unfold State.remoteAtom
  rw [State.bump_ldg]

/-- A copy of an atomic whose record is kept has its answer again. -/
theorem duplicate_of_recorded {s : State} {src tc : Nat} {q : RxReq} {a : AtomRec} (hk : q.kind = .atomic)
    (hold : serDiff q.h.seq (s.rx src tc).contig ≤ 0) (ha : s.remoteAtom q.h = some a) :
    s.duplicate src tc q = (s.bump F.portEcntDup q.port).atomAnswer q.port q.h a := by
  rw [State.duplicate, if_pos (by simp [hk, State.bump_rx, hold]), State.bump_remoteAtom, ha]

/-- A copy of an atomic whose record is gone is STALE. -/
theorem duplicate_of_stale {s : State} {src tc : Nat} {q : RxReq} (hk : q.kind = .atomic)
    (hold : serDiff q.h.seq (s.rx src tc).contig ≤ 0) (ha : s.remoteAtom q.h = none) :
    s.duplicate src tc q =
      ((s.bump F.portEcntDup q.port).bump F.ldgCnt0Stale).failAnswer q.port tyAtomicRsp q.h St.stale 0x0D03 := by
  rw [State.duplicate, if_pos (by simp [hk, State.bump_rx, hold]), State.bump_remoteAtom, ha]

theorem arriveReq_of_copy {s : State} {q : RxReq} (hidle : Idle s q)
    (hold : serDiff q.h.seq (s.rx (s.rxSrc q.h) q.h.tc.val).contig ≤ 0) (hk : q.kind ≠ .atomic) :
    s.arriveReq q = s.bump F.portEcntDup q.port :=
  (arriveReq_of_copied hidle hold).trans (duplicate_of_ne_atomic (q := s.stamped q) hk)

theorem arriveReq_of_recorded {s : State} {q : RxReq} {a : AtomRec} (hidle : Idle s q)
    (hold : serDiff q.h.seq (s.rx (s.rxSrc q.h) q.h.tc.val).contig ≤ 0) (hk : q.kind = .atomic) (ha : s.remoteAtom q.h = some a) :
    s.arriveReq q = (s.bump F.portEcntDup q.port).atomAnswer q.port q.h a :=
  (arriveReq_of_copied hidle hold).trans (duplicate_of_recorded (q := s.stamped q) hk hold ha)

theorem arriveReq_of_stale {s : State} {q : RxReq} (hidle : Idle s q)
    (hold : serDiff q.h.seq (s.rx (s.rxSrc q.h) q.h.tc.val).contig ≤ 0) (hk : q.kind = .atomic) (ha : s.remoteAtom q.h = none) :
    s.arriveReq q =
      ((s.bump F.portEcntDup q.port).bump F.ldgCnt0Stale).failAnswer q.port tyAtomicRsp q.h St.stale 0x0D03 :=
  (arriveReq_of_copied hidle hold).trans (duplicate_of_stale (q := s.stamped q) hk hold ha)

/-! ### A request that comes in by a port (R285) -/

/-- A request that its stream consumes, by its command: the message's type, and the kind it is applied as. -/
inductive StreamReq (port : Port) (h : Hdr) (data : List Byte) (g : Hdr) : Instr → Nat → ReqKind → Prop where
  | store : StreamReq port h data g (.ulpStore port h data) tyStore (storeKind g)
  | mirror : StreamReq port h data g (.mirrorStore port h data) tyStore (storeKind g)
  | flag : StreamReq port h data g (.ulpWriteFlag port h data) tyFlag .flag
  | atomic : StreamReq port h data g (.ulpAtomic port h data) tyAtomic .atomic

theorem passReq_of_serves {s : State} {h : Hdr} (hs : s.serves h.dst = true) (n ty : Nat) (k : ReqKind) (data : List Byte)
    (deny : Option (Nat × Nat)) :
    s.passReq n ty k data h deny = s.arriveReq { kind := k, port := n, h := h, data := data, deny := deny } :=
  if_pos hs

/-- A request for this module arrives at its stream as the edge passes it. -/
theorem exec_of_streamReq {s u : State} {port : Port} {h g : Hdr} {deny : Option (Nat × Nat)} {data : List Byte} {c : Instr}
    {ty : Nat} {k : ReqKind} (hc : StreamReq port h data g c ty k) (hwf : c.wf = true) (hcomes : Comes s port.val ty h data)
    (hpass : Passes (s.hear h.src.toNat) port.val ty h g deny u) (hserves : u.serves g.dst = true) :
    exec c s = .next (u.arriveReq { kind := k, port := port.val, h := g, data := data, deny := deny }) := by
  cases hc with
  | store | mirror | flag | atomic =>
    exact (checked_of_wf hwf s _).trans (by rw [enter_of_passes hcomes hpass, passReq_of_serves hserves])

/-! ### What consuming a number leaves (R279) -/

/-- The stream once a number is consumed: the contiguous number is the request's, an ACK is due, a failure is counted and the
first is kept. -/
def RxStream.consumed (r : RxStream) (q : RxReq) (st d : Nat) : RxStream :=
  { r with
    contig := q.h.seq, held := r.held.filter (fun x => decide (x.h.seq ≠ q.h.seq)), sinceAck := r.sinceAck + 1, ackDue := true,
    failCount := if statusGood st then r.failCount else r.failCount + 1,
    first := if !(statusGood st) && r.first.isNone then some (st, d, q.h.seq) else r.first, port := q.port, tag := q.h.tag }

/-- A number consumed on a ULP port owes an ACK, which 64 of them, or a mirror store, send. -/
theorem consume_of_ulp {s x : State} {src tc st d : Nat} {q : RxReq}
    (hx : x = let w := s.modRx src tc (fun r => r.consumed q st d); if q.kind = .mirror then w else w.noteStream src tc)
    (hrole : (x.port q.port).role ≠ roleUp) :
    s.consume src tc q st d = if (x.rx src tc).sinceAck ≥ 64 ∨ q.kind = .mirror then x.sendAck src tc else x := by
  have hcount : ∀ n : Nat, (if !(statusGood st) then n + 1 else n) = if statusGood st then n else n + 1 := fun n => by
    cases statusGood st <;> rfl
  have hnote : State.when (s.modRx src tc (fun r => r.consumed q st d)) (q.kind ≠ .mirror) (fun s => s.noteStream src tc) = x := by
    rw [hx]
    by_cases hk : q.kind = .mirror
    · simp [hk]
    · simp [hk]
  have htaken : s.modRx src tc (fun r => { r with
      contig := q.h.seq, held := r.held.filter (fun x => x.h.seq ≠ q.h.seq), sinceAck := r.sinceAck + 1, ackDue := true,
      failCount := if !(statusGood st) then r.failCount + 1 else r.failCount,
      first := if !(statusGood st) && r.first.isNone then some (st, d, q.h.seq) else r.first, port := q.port, tag := q.h.tag }) =
      s.modRx src tc (fun r => r.consumed q st d) := State.modRx_congr (by rw [hcount]; rfl)
  unfold State.consume
  dsimp only
  rw [htaken, hnote, if_neg hrole]
  simp

/-! ### What each kind of request does (R216, R277, R286, R288, R343) -/

theorem fwdEnd_of_none {s : State} {q : RxReq} (h : s.fetchOf (.fwd q.port q.h) = none) : s.fwdEnd q = none := by
  simp [State.fwdEnd, h]

/-- A request but an atomic that is refused ends with the refusal. -/
theorem applyReq_of_refused {s : State} {q : RxReq} {st d : Nat} (hk : q.kind ≠ .atomic)
    (hf : s.fetchOf (.fwd q.port q.h) = none) (hr : s.refuse q = some (st, d)) :
    s.applyReq q = (s.countEpoch q.port st, .done st d) := by
  simp [State.applyReq, hk, fwdEnd_of_none hf, hr]

/-- A request that is not refused, for an epoch that has come, is applied by its kind. -/
theorem applyReq_store {s : State} {q : RxReq} (hk : q.kind = .store ∨ q.kind = .flag) (hf : s.fetchOf (.fwd q.port q.h) = none)
    (hr : s.refuse q = none) (he : s.epochAt q.h ≠ .later) : s.applyReq q = s.applyStore q := by
  rcases hk with hk | hk
  · simp [State.applyReq, hk, fwdEnd_of_none hf, hr, he]
  · simp [State.applyReq, hk, fwdEnd_of_none hf, hr, he]

theorem applyReq_mirror {s : State} {q : RxReq} (hk : q.kind = .mirror) (hf : s.fetchOf (.fwd q.port q.h) = none)
    (hr : s.refuse q = none) (he : s.epochAt q.h ≠ .later) : s.applyReq q = s.applyMirror q := by
  simp [State.applyReq, hk, fwdEnd_of_none hf, hr, he]

theorem applyReq_atomic {s : State} {q : RxReq} (hk : q.kind = .atomic) (ha : s.remoteAtom q.h = none) (hr : s.refuse q = none)
    (he : s.epochAt q.h ≠ .later) : s.applyReq q = s.applyAtomic q := by
  simp [State.applyReq, hk, ha, hr, he]

/-! ### Stores -/

/-- A store to a version whose bytes this module holds writes them, and takes the lines from their cached owners. -/
theorem applyStore_of_written {s w : State} {q : RxReq} (hc : hdrControl q.h = false)
    (hv : ((s.meet q.h.xRegion q.h.xVersion q.h.xTenant).version q.h.xRegion q.h.xVersion).isSome = true)
    (hcopy : (s.meet q.h.xRegion q.h.xVersion q.h.xTenant).isCopy q.h = false)
    (hw : (s.meet q.h.xRegion q.h.xVersion q.h.xTenant).writeVersion q.h.xRegion q.h.xVersion (addrOff q.h.addr.toNat) q.bytes
      q.h.poison q.at_ 0xFFFF (.fwd q.port q.h) = (w, none))
    (hout : (w.dropOwners q.h.xRegion q.h.xVersion (addrOff q.h.addr.toNat) q.bytes.length).outstanding
      (fun x => x = .fwd q.port q.h) = 0) :
    s.applyStore q =
      (w.dropOwners q.h.xRegion q.h.xVersion (addrOff q.h.addr.toNat) q.bytes.length, .done St.ok 0) := by
  obtain ⟨v, hv⟩ := Option.isSome_iff_exists.mp hv
  simp [State.applyStore, hc, hv, hcopy, hw, hout]

/-- A store of the buddy to pages it mirrors writes the copies held here. -/
theorem applyStore_of_copied {s w : State} {q : RxReq} (hc : hdrControl q.h = false)
    (hv : ((s.meet q.h.xRegion q.h.xVersion q.h.xTenant).version q.h.xRegion q.h.xVersion).isSome = true)
    (hcopy : (s.meet q.h.xRegion q.h.xVersion q.h.xTenant).isCopy q.h = true)
    (hw : (s.meet q.h.xRegion q.h.xVersion q.h.xTenant).writeCopy q.h.xRegion q.h.xVersion (addrOff q.h.addr.toNat) q.bytes
      q.h.poison q.at_ = (w, none)) :
    s.applyStore q = (w, .done St.ok 0) := by
  obtain ⟨v, hv⟩ := Option.isSome_iff_exists.mp hv
  simp [State.applyStore, hc, hv, hcopy, hw]

/-- A store to control space below the doorbells is refused. -/
theorem applyStore_below_doorbells {s : State} {q : RxReq} (hc : hdrControl q.h = true) (hb : q.h.addr.toNat < s.dbBase) :
    s.applyStore q = (s, .done St.denied 0x0B02) := by
  simp [State.applyStore, hc, hb]

/-- An endpoint's store to control space is a doorbell write. -/
theorem applyStore_doorbell {s : State} {q : RxReq} (hc : hdrControl q.h = true) (hb : s.dbBase ≤ q.h.addr.toNat)
    (hx : q.h.ext = false) :
    s.applyStore q = (s.doorbell { port := Fin.ofNat 64 q.port, ep := q.h.src } (q.h.addr.toNat - s.dbBase) q.bytes.length
      (BitVec.ofNat 64 (leNat q.bytes)), .done St.ok 0) := by
  simp [State.applyStore, hc, Nat.not_lt.mpr hb, hx]

/-! ### Atomics -/

/-- An atomic on a word held here writes R216's result, and its outcome is recorded. -/
theorem applyAtomic_of_written {s a w : State} {q : RxReq} {v : Version} {b : List Byte}
    (hf : s.fetchOf (.fwd q.port q.h) = none) (ha : s.remoteAtom q.h = none)
    (hv : (s.meet q.h.xRegion q.h.xVersion q.h.xTenant).version q.h.xRegion q.h.xVersion = some v) (hwr : v.writable = true)
    (hheld : (s.meet q.h.xRegion q.h.xVersion q.h.xTenant).heldHere q.h.xRegion (addrOff q.h.addr.toNat / 65536) = true)
    (hroom : (s.meet q.h.xRegion q.h.xVersion q.h.xTenant).atomRoom = some a)
    (hread : a.readVersion q.h.xRegion q.h.xVersion (addrOff q.h.addr.toNat) 8 q.at_ = .ok (b, []))
    (hw : (a.countRead (.ok (b, [])) q.h.xRegion q.h.xVersion (addrOff q.h.addr.toNat) 8).writeVersion q.h.xRegion q.h.xVersion
      (addrOff q.h.addr.toNat) (leBytes 8 (atomOp q.h.op.toNat (leNat b) (leAt q.bytes 0 8) (leAt q.bytes 8 8))) false
      q.at_ 0xFFFF (.fwd q.port q.h) = (w, none))
    (hout : ((w.gainLine q.h.xRegion q.h.xVersion (addrOff q.h.addr.toNat) (w.free % 32)).tickFree).outstanding
      (fun y => y = .fwd q.port q.h) = 0) :
    s.applyAtomic q = (((w.gainLine q.h.xRegion q.h.xVersion (addrOff q.h.addr.toNat) (w.free % 32)).tickFree).recordAtom q.h
      (BitVec.ofNat 64 (leNat b)) St.ok 0).settleAtom q := by
  have hfault : ∀ t : State, t.readFault q.h.xRegion q.h.xVersion (.ok (b, [])) = none := fun _ => rfl
  simp [State.applyAtomic, ha, hf, hv, hwr, hheld, hroom, hread, hfault, hw, hout]

/-- Settles O53: a stream that holds nothing applies, holds or discards a request by its number, and each kind's application
goes by the branches of its definition. -/
theorem streamRequestsApplyInOrder : Obligations.StreamRequestsApplyInOrder := by
  refine ⟨fun s u port h g deny data k c ty hkind hwf hcomes hpass hserves hsync => ?arrives, ?consumes,
    fun s q st d hk hf hr => applyReq_of_refused hk hf hr, fun s q hf hr he =>
    ⟨fun hk hc hv hcopy w hw hout => ?store, fun hk hc hv hcopy w hw => ?copy, fun hk hc hb => ?below, fun hk hc hb hx => ?bell,
      fun hk hb => ?mirror, fun hk hb => ?denied, fun hk ha v hv hwr hheld a hroom b hread w hw hout => ?atomic⟩⟩
  case arrives =>
    intro src tc r q hknown hempty
    have hreq : StreamReq port h data g c ty k := by
      rcases hkind with ⟨rfl, rfl, rfl⟩ | ⟨rfl, rfl, rfl⟩ | ⟨rfl, rfl, rfl⟩ | ⟨rfl, rfl, rfl⟩
      · exact .store
      · exact .mirror
      · exact .flag
      · exact .atomic
    have hexec := exec_of_streamReq hreq hwf hcomes hpass hserves
    have hidle : Idle u { kind := k, port := port.val, h := g, data := data, deny := deny } := ⟨hknown, hempty, hsync⟩
    refine ⟨fun hseq he => ⟨fun w st d happly => ?_, fun w happly => ?_⟩, fun hseq hnew he hroom => ?_, fun hold =>
      ⟨fun hk => ?_, fun hk => ⟨fun a ha => ?_, fun ha => ?_⟩⟩⟩
    · rw [hexec, arriveReq_of_done hidle hseq he happly]
      rfl
    · rw [hexec, arriveReq_of_wait hidle hseq he happly]
    · rw [hexec, arriveReq_of_gap hidle hseq hnew he hroom]
      rfl
    · rw [hexec, arriveReq_of_copy hidle hold hk]
    · rw [hexec, arriveReq_of_recorded hidle hold hk ha]
    · rw [hexec, arriveReq_of_stale hidle hold hk ha]
  case consumes =>
    intro s src tc q st d _ w x hrole
    exact consume_of_ulp (x := x) rfl hrole
  case store => exact (applyReq_store hk hf hr he).trans (applyStore_of_written hc hv hcopy hw hout)
  case copy => exact (applyReq_store hk hf hr he).trans (applyStore_of_copied hc hv hcopy hw)
  case below => exact (applyReq_store hk hf hr he).trans (applyStore_below_doorbells hc hb)
  case bell => exact (applyReq_store hk hf hr he).trans (applyStore_doorbell hc hb hx)
  case mirror => exact (applyReq_mirror hk hf hr he).trans (if_pos hb)
  case denied => exact (applyReq_mirror hk hf hr he).trans (if_neg hb)
  case atomic => exact (applyReq_atomic hk ha hr he).trans (applyAtomic_of_written hf ha hv hwr hheld hroom hread hw hout)

end Sys2Proof.Machine
end

section
/-! SUPPORT. Answers to the module's own requests (O54; R276, R279, R280, R287, R289, R296, R300, R302). -/

namespace Sys2Proof.Machine

/-! ### Streams that the module sends -/

@[simp] theorem State.tx_modTx (s : State) (ep tc : Nat) (f : TxStream → TxStream) :
    (s.modTx ep tc f).tx ep tc = f (s.tx ep tc) := by
  simp [State.tx, State.modTx]

theorem State.bump_tx (s : State) (f : FRef) (i ep tc : Nat) : (s.bump f i).tx ep tc = s.tx ep tc := by
  unfold State.tx
  rw [State.bump_fab]

/-! ### How an answer comes in -/

section Answers

variable {s : State} {port : Port} {h : Hdr} {data : List Byte} {ty : Nat} {c : Instr} {f : State → State}

/-- An answer for this module is taken, and what waited goes on. -/
theorem takeAnswer_of_comes (hc : Comes s port.val ty h data) (hs : (s.hear h.src.toNat).serves h.dst = true) (f : State → State) :
    s.takeAnswer port.val ty h data f = (f (s.hear h.src.toNat)).goOn :=
  (takeMsg_of_comes hc _).trans (if_pos hs)

/-- A command that takes an answer for this module in good form does what the answer says. -/
theorem answered (he : exec c s = checked s c (s.takeAnswer port.val ty h data f)) (hwf : c.wf = true)
    (hc : Comes s port.val ty h data) (hs : (s.hear h.src.toNat).serves h.dst = true) {t : State}
    (ht : f (s.hear h.src.toNat) = t) : exec c s = .next t.goOn := by
  rw [he, checked_of_wf hwf, takeAnswer_of_comes hc hs, ht]

end Answers

/-! ### Acknowledgements (R279) -/

/-- Counting an acknowledgement that comes too late leaves the stream's requests and fences. -/
theorem lateMirrors_keeps (s : State) (ep tc : Nat) (seq : W32) :
    ((s.lateMirrors ep tc seq).tx ep tc).una = (s.tx ep tc).una ∧ ((s.lateMirrors ep tc seq).tx ep tc).fence = (s.tx ep tc).fence := by
  unfold State.lateMirrors
  split
  · simp [State.bump_tx]
  · exact ⟨rfl, rfl⟩

theorem lateStream_keeps (s : State) (ep tc : Nat) (p : W32 → Bool) :
    ((((s.lateStream ep tc p).getD s).tx ep tc).una = (s.tx ep tc).una) ∧
      (((s.lateStream ep tc p).getD s).tx ep tc).fence = (s.tx ep tc).fence := by
  unfold State.lateStream
  split
  · simp [State.bump_tx]
  · exact ⟨rfl, rfl⟩

/-- The state in which an ACK of a sent number is taken: late answers it settles are counted. -/
def State.ackTaken (s : State) (ep tc : Nat) (seq : W32) : State :=
  let x := s.lateMirrors ep tc seq
  if (s.tx ep tc).covered seq = [] then (x.lateStream ep tc (upTo seq)).getD x else x

theorem ackTaken_keeps (s : State) (ep tc : Nat) (seq : W32) :
    ((s.ackTaken ep tc seq).tx ep tc).covered seq = (s.tx ep tc).covered seq ∧
      ((s.ackTaken ep tc seq).tx ep tc).fence = (s.tx ep tc).fence := by
  obtain ⟨huna, hfence⟩ := lateMirrors_keeps s ep tc seq
  have hboth : ((s.ackTaken ep tc seq).tx ep tc).una = (s.tx ep tc).una ∧
      ((s.ackTaken ep tc seq).tx ep tc).fence = (s.tx ep tc).fence := by
    unfold State.ackTaken
    dsimp only
    split
    · obtain ⟨huna', hfence'⟩ := lateStream_keeps (s.lateMirrors ep tc seq) ep tc (upTo seq)
      exact ⟨huna'.trans huna, hfence'.trans hfence⟩
    · exact ⟨huna, hfence⟩
  exact ⟨congrArg _ hboth.1, hboth.2⟩

/-- An ACK without failures settles every request it covers. -/
theorem tookAck_of_good (s : State) (port ep tc : Nat) (seq : W32) :
    s.tookAck port ep tc seq 0 =
      foldS (fun s r => s.settleReq r none) (s.coverTx ep tc seq) ((s.tx ep tc).covered seq) := by
  simp [State.tookAck]

/-- One with failures asks by a FENCE which failed, unless one is out. -/
theorem tookAck_of_bad (s : State) (port ep tc : Nat) (seq : W32) {n : Nat} (hn : n ≠ 0) :
    s.tookAck port ep tc seq n =
      (let z := (s.coverTx ep tc seq).modTx ep tc (fun t => { t with doubt := t.doubt ++ (s.tx ep tc).covered seq })
       if (s.tx ep tc).fence = [] then z.sendFence port ep tc .notify else z) := by
  have hfence : (((s.coverTx ep tc seq).modTx ep tc (fun t => { t with doubt := t.doubt ++ (s.tx ep tc).covered seq })).tx ep tc).fence =
      (s.tx ep tc).fence := by simp [State.coverTx]
  simp only [State.tookAck, if_neg hn, hfence, State.when, List.isEmpty_iff]

section Taken

variable {s : State} {port : Port} {h : Hdr} {data : List Byte}

/-- An ACK of a number that was sent is taken once the late answers it settles are counted. -/
theorem exec_ack_of_sent (hc : Comes s port.val tyAck h data) (hwf : (Instr.ack port h data).wf = true)
    (hs : (s.hear h.src.toNat).serves h.dst = true) :
    let u := s.hear h.src.toNat
    let ep := u.txEp port.val h.src h.tc.val
    (u.tx ep h.tc.val).sent h.seq = true →
    exec (.ack port h data) s =
      .next ((u.ackTaken ep h.tc.val h.seq).tookAck port.val ep h.tc.val h.seq (leAt data 0 4)).goOn := by
  intro u ep hsent
  simp only [u, ep] at hsent
  refine answered rfl hwf hc hs ?_
  dsimp only
  rw [if_neg (by simp [hsent])]
  simp only [List.isEmpty_iff]
  rfl

/-! ### Loads (R287) -/

/-- A LOAD_RSP of an awaited load ends it, unless its length is another. -/
theorem exec_loadRsp_of_awaited (hc : Comes s port.val tyLoadRsp h data) (hwf : (Instr.loadRsp port h data).wf = true)
    (hs : (s.hear h.src.toNat).serves h.dst = true) {w : Wait} (hw : (s.hear h.src.toNat).waitFor port.val h.src h.tag.toNat = some w) :
    exec (.loadRsp port h data) s = .next (if h.status.toNat = St.ok && h.len ≠ w.len
      then (s.hear h.src.toNat).violate port.val 0x03 tyLoadRsp h else (s.hear h.src.toNat).tookLoad w h data).goOn :=
  answered rfl hwf hc hs (by rw [hw])

/-- One that nothing awaits is late, or a violation. -/
theorem exec_loadRsp_of_unmatched (hc : Comes s port.val tyLoadRsp h data) (hwf : (Instr.loadRsp port h data).wf = true)
    (hs : (s.hear h.src.toNat).serves h.dst = true) (hw : (s.hear h.src.toNat).waitFor port.val h.src h.tag.toNat = none) :
    exec (.loadRsp port h data) s = .next ((s.hear h.src.toNat).unmatched port.val tyLoadRsp h
      ((s.hear h.src.toNat).lateTag port.val h.src h.tag.toNat)).goOn :=
  answered rfl hwf hc hs (by rw [hw])

/-! ### Atomics, fences, windows (R276, R280, R283, R288) -/

theorem exec_atomicRsp_of_awaited (hc : Comes s port.val tyAtomicRsp h data) (hwf : (Instr.atomicRsp port h data).wf = true)
    (hs : (s.hear h.src.toNat).serves h.dst = true) {r : TxReq} :
    let u := s.hear h.src.toNat
    let ep := u.txEp port.val h.src h.tc.val
    (u.tx ep h.tc.val).una.find? (fun (r : TxReq) => decide (r.kind = .atomic) && decide (r.seq = h.seq) && decide (r.tag = h.tag)) =
      some r →
    exec (.atomicRsp port h data) s = .next (u.tookAtomic ep h.tc.val r h data).goOn := by
  intro u ep hr
  simp only [u, ep] at hr
  refine answered rfl hwf hc hs ?_
  dsimp only
  rw [hr]

theorem exec_fenceAck_of_reached (hc : Comes s port.val tyFenceAck h data) (hwf : (Instr.fenceAck port h data).wf = true)
    (hs : (s.hear h.src.toNat).serves h.dst = true) {f : TxFence} {rest : List TxFence} :
    let u := s.hear h.src.toNat
    let ep := u.txEp port.val h.src h.tc.val
    (u.tx ep h.tc.val).fence = f :: rest → (serDiff f.seq h.seq ≤ 0 ∨ h.status.toNat = St.fenced) →
    exec (.fenceAck port h data) s = .next (u.tookFence ep h.tc.val h.seq data f).goOn := by
  intro u ep hf hreach
  simp only [u, ep] at hf
  refine answered rfl hwf hc hs ?_
  dsimp only
  rw [hf]
  exact if_pos (by simpa using hreach)

/-- An ATTACH_RSP goes to the ATTACH or DETACH it answers; one that answers none is a violation. -/
theorem exec_attachRsp (hc : Comes s port.val tyAttachRsp h data) (hwf : (Instr.attachRsp port h data).wf = true)
    (hs : (s.hear h.src.toNat).serves h.dst = true) :
    exec (.attachRsp port h data) s = .next (((s.hear h.src.toNat).askFor h).elim
      ((s.hear h.src.toNat).violate port.val 0x09 tyAttachRsp h) (fun a => (s.hear h.src.toNat).tookAttach a h data)) := by
  refine (checked_of_wf hwf s _).trans (congrArg _ ((takeMsg_of_comes hc _).trans ?_))
  cases (s.hear h.src.toNat).askFor h with
  | none => exact if_pos hs
  | some a => rfl

/-! ### What the partner dropped, or asks for (R289, R296, R302) -/

theorem exec_nak_of_load (hc : Comes s port.val tyNak h []) (hwf : (Instr.nak port h).wf = true)
    (hs : (s.hear h.src.toNat).serves h.dst = true) {w : Wait} (hw : (s.hear h.src.toNat).waitFor port.val h.src h.tag.toNat = some w) :
    exec (.nak port h) s = .next (((s.hear h.src.toNat).dropWait w).failWait w St.denied 0x0B13).goOn :=
  answered rfl hwf hc hs (by rw [hw])

/-- A request or FENCE that the partner dropped stays for retransmission. -/
theorem exec_nak_of_stream (hc : Comes s port.val tyNak h []) (hwf : (Instr.nak port h).wf = true)
    (hs : (s.hear h.src.toNat).serves h.dst = true) (hw : (s.hear h.src.toNat).waitFor port.val h.src h.tag.toNat = none) :
    let u := s.hear h.src.toNat
    let t := u.tx (u.txEp port.val h.src h.tc.val) h.tc.val
    ((∃ r ∈ t.una, r.seq = h.seq) ∨ ∃ f ∈ t.fence, f.seq = h.seq) → exec (.nak port h) s = .next u.goOn := by
  intro u t hkept
  refine answered rfl hwf hc hs ?_
  rw [hw]
  by_cases huna : t.una.any (fun (r : TxReq) => r.seq = h.seq) = true
  · exact if_pos huna
  · have hfence : t.fence.any (fun f => f.seq = h.seq) = true := by
      rcases hkept with hr | hf
      · exact absurd (by simpa using hr) huna
      · simpa using hf
    exact (if_neg huna).trans (if_pos hfence)

end Taken

/-! ### Completions on CXL ports (R300, R301) -/

section Completions

variable {s : State} {n tag : Nat} {res : EpRes} {w : Wait} (hup : s.linkUp n = true)
include hup

theorem cxlCompletion_of_tray (hrole : (s.port n).role = roleDown)
    (hw : s.fab.waits.find? (fun (w : Wait) => decide (w.tag.toNat = tag) && decide (w.port = n)) = some w)
    (hlen : ∀ b, res = .data b → b.length = w.len) : s.cxlCompletion n tag res = (s.trayDone w res).goOn := by
  cases res with
  | data b => simp [State.cxlCompletion, hup, hrole, hw, hlen b rfl, roleDown, roleUp]
  | poisoned | error | noAnswer => simp [State.cxlCompletion, hup, hrole, hw, roleDown, roleUp]

theorem cxlCompletion_of_host (hrole : (s.port n).role = roleUp)
    (hw : s.fab.waits.find? (fun (w : Wait) => decide (w.tag.toNat = tag) && decide (w.port = n)) = some w)
    (hlen : ∀ b, res = .data b → b.length = w.len) : s.cxlCompletion n tag res = (s.hostDone w res).goOn := by
  cases res with
  | data b => simp [State.cxlCompletion, hup, hrole, hw, hlen b rfl]
  | poisoned | error | noAnswer => simp [State.cxlCompletion, hup, hrole, hw]

theorem cxlCompletion_of_unmatched (hrole : (s.port n).role = roleDown)
    (hw : s.fab.waits.find? (fun (w : Wait) => decide (w.tag.toNat = tag) && decide (w.port = n)) = none)
    (hlate : s.lateTag n 0xFFFF tag = none) : s.cxlCompletion n tag res = s.violateCxl n false := by
  rw [State.cxlCompletion, if_neg (by simp [hup]), if_neg (by simp [hrole, roleDown, roleUp]), if_pos hrole, hw, hlate]

end Completions

/-- Settles O54: each answer goes to what it names, and what its definition does with it is what the statement says. -/
theorem answersSettleRequests : Obligations.AnswersSettleRequests := by
  intro s port h data n u ep t hs
  refine ⟨fun hc hwf w hw => ⟨fun hlen => ?load, fun hok hlen => ?short⟩, fun hc hwf hw => ?late,
    fun hc hwf r hr => ?atomic, fun hc hwf hsent => ?ack, fun hc hwf f rest hf hreach => exec_fenceAck_of_reached hc hwf hs hf hreach,
    fun hc hwf => ⟨fun a ha => ?ask, fun ha => ?noAsk⟩, fun hc hwf => answered rfl hwf hc hs rfl,
    fun hc hwf => ⟨fun w hw => exec_nak_of_load hc hwf hs hw, fun hw hkept => exec_nak_of_stream hc hwf hs hw hkept⟩,
    fun hc hwf => answered rfl hwf hc hs rfl, fun hc hwf => ?drain,
    fun tag res hup hrole hwf => ⟨fun w hw hlen => ?tray, fun hw hlate => ?noTray⟩, fun tag res hup hrole hwf w hw hlen => ?host⟩
  case load =>
    rw [exec_loadRsp_of_awaited hc hwf hs hw, if_neg (by simpa using hlen)]
  case short =>
    rw [exec_loadRsp_of_awaited hc hwf hs hw, if_pos (by simp [hok, hlen])]
  case late => exact exec_loadRsp_of_unmatched hc hwf hs hw
  case atomic =>
    have hexec := exec_atomicRsp_of_awaited hc hwf hs hr
    exact ⟨fun hok => hexec.trans (congrArg (fun x : State => Host.Outcome.next x.goOn) (if_pos hok)),
      fun hbad => hexec.trans (congrArg (fun x : State => Host.Outcome.next x.goOn) (if_neg hbad))⟩
  case ack =>
    intro x y
    obtain ⟨hcovered, hfence⟩ := ackTaken_keeps u ep h.tc.val h.seq
    have hexec := exec_ack_of_sent hc hwf hs hsent
    refine ⟨fun hgood => ?_, fun hbad => ?_⟩
    · rw [hexec, hgood, tookAck_of_good, hcovered]
      rfl
    · rw [hexec, tookAck_of_bad _ _ _ _ _ hbad, hcovered, hfence]
      rfl
  case ask => rw [exec_attachRsp hc hwf hs, ha]; rfl
  case noAsk => rw [exec_attachRsp hc hwf hs, ha]; rfl
  case drain =>
    refine (answered rfl hwf hc hs rfl).trans (congrArg Host.Outcome.next ?_)
    exact apply_ite State.goOn _ _ _
  case tray => exact (checked_of_wf hwf s _).trans (congrArg _ (cxlCompletion_of_tray hup hrole hw hlen))
  case noTray => exact (checked_of_wf hwf s _).trans (congrArg _ (cxlCompletion_of_unmatched hup hrole hw hlate))
  case host => exact (checked_of_wf hwf s _).trans (congrArg _ (cxlCompletion_of_host hup hrole hw hlen))

end Sys2Proof.Machine
end

section
/-! SUPPORT. Composition maps, and the link of a port: its frames, retries, training, counters and IDE (O55; R274, R276, R291,
R295, R303, R360, R363, R378, R379, R424). -/

namespace Sys2Proof.Machine

/-! ### Maps (R276, R291, R363) -/

/-- The entries of an update that names no certificate leave an unfenced module as it is: it is refused or adopted as a whole. -/
theorem mapUpdate_of_no_cert {s : State} {up : MapUpd} (hf : s.ldg.fenced = false) (hc : ∀ e ∈ up.entries, ∀ c, e ≠ .cert c)
    (n : Nat) (h : Hdr) :
    s.mapUpdate n h up = (s.updRefusal up).elim ((s.adopt (s.newMap up)).answer n tyMapAck h St.ok 0 false 0 [])
      (fun x => s.tickFree.answer n tyMapAck h x.1 x.2 false 0 []) := by
  simp only [State.mapUpdate, hf, Bool.false_eq_true, if_false]
  rw [foldS_of_fixed (s := s) (l := up.entries) ?fixed, hf]
  · cases s.updRefusal up with
    | none => rfl
    | some x => rfl
  case fixed =>
    intro e he
    cases e with
    | cert c => exact absurd rfl (hc _ he c)
    | member | remove | region | route | group => rfl

theorem exec_mapUpdate_of_comes {s : State} {port : Port} {h : Hdr} {up : MapUpd} (hc : Comes s port.val tyMapUpdate h (updWire up))
    (hwf : (Instr.mapUpdate port h up).wf = true) (hs : (s.hear h.src.toNat).serves h.dst = true) :
    exec (.mapUpdate port h up) s = .next ((s.hear h.src.toNat).mapUpdate port.val h up) :=
  (checked_of_wf hwf s _).trans (congrArg _ ((takeMsg_of_comes hc _).trans (if_pos hs)))

theorem exec_mapGet_of_comes {s : State} {port : Port} {h : Hdr} (hc : Comes s port.val tyMapGet h [])
    (hwf : (Instr.mapGet port h).wf = true) (hs : (s.hear h.src.toNat).serves h.dst = true) :
    let u := s.hear h.src.toNat
    exec (.mapGet port h) s = .next (if u.ldg.fenced then u.answer port.val tyMapUpdate h St.fenced 0x0D01 false 0 []
      else u.sendBy port.val (.fullMap port.val { u.hdr h.tc.val h.src.toNat with seq := h.seq, tag := h.tag } u.fab.map)) :=
  (checked_of_wf hwf s _).trans (congrArg _ ((takeMsg_of_comes hc _).trans (if_neg (by simp [hs]))))

/-! ### Frames (R274, R303, R378, R379) -/

section Frames

variable {s : State} {n : Nat} {f : Frame} (hrole : (s.port n).role = roleUlp) (hup : s.linkUp n = true)
include hrole hup

theorem frame_of_bad (h : f.crcOk = false ∨ 4160 < f.len) : s.frame n f = s.badFrame n false := by
  have hbad : (!f.crcOk || decide (f.len > 4160)) = true := by
    rcases h with h | h
    · simp [h]
    · simp [h]
  simp [State.frame, hrole, hup, hbad]

/-- A frame whose tag fails is asked for again. -/
theorem frame_of_tagFail (hcrc : f.crcOk = true) (hlen : f.len ≤ 4160) (htag : s.tagOk n f = false) :
    s.frame n f = s.badFrame n true := by
  simp [State.frame, hrole, hup, hcrc, Nat.not_lt.mpr hlen, htag]

/-- A good frame in its number's place that carries no message is acknowledged. -/
theorem frame_of_good (hcrc : f.crcOk = true) (hlen : f.len ≤ 4160) (htag : s.tagOk n f = true) (hmsg : f.msg = none)
    (hseq : (((s.when (s.port n).enc (fun s => s.countFrame n (2 + f.key.val))).frameBack n f).port n).rxNext = f.seq) :
    s.frame n f = ((((s.when (s.port n).enc (fun s => s.countFrame n (2 + f.key.val))).frameBack n f).modPort n
      (fun p => { p with rxNext := p.rxNext + 1, retries := 0 })).emit (.linkAck n f.seq)).goOn := by
  simp [State.frame, hrole, hup, hcrc, Nat.not_lt.mpr hlen, htag, hseq, State.frameMsg, hmsg]

/-- A retry request for a frame that is not kept is a violation. -/
theorem retryAsked_of_not_kept {q : BitVec 12} (h : ∀ x ∈ (s.port n).kept, x.1 ≠ q) :
    s.retryAsked n q = s.violate n 0x0A 0 { tc := 0, src := 0, dst := 0 } := by
  have hany : (s.port n).kept.any (fun x => x.1 = q) = false := by simpa using h
  simp [State.retryAsked, hrole, hup, hany]

/-- The first retry request for a kept frame has the kept frames sent again from it on. -/
theorem retryAsked_of_kept {q : BitVec 12} (h : ∃ x ∈ (s.port n).kept, x.1 = q) (hasked : (s.port n).asked = none) :
    s.retryAsked n q =
      (let again := ((s.port n).kept.dropWhile (fun x => decide (x.1 ≠ q))).map Prod.fst
       foldS (fun s _ => if (s.port n).enc then s.sealFrame n else s)
        ((s.modPort n (fun p => { p with asked := some (q, 1) })).emit (.linkResend n again)) again) := by
  have hany : (s.port n).kept.any (fun x => x.1 = q) = true := by simpa using h
  simp only [State.retryAsked, hrole, hup, hany, hasked]
  rfl

end Frames

/-- A frame of a CXL link matters only when it fails the check of an active IDE stream. -/
theorem frame_of_cxl {s : State} {n : Nat} {f : Frame} (hrole : (s.port n).role ≠ roleUlp) (hup : s.linkUp n = true) :
    s.frame n f = if (s.port n).ide.isSome = true ∧ f.tagOk = false
      then ((s.bump F.secCntIdeFail).addScore clsPort n 10).loseLink n else s := by
  simp [State.frame, State.ideFrame, hrole, hup]

/-! ### Loss and training (R295, R424) -/

theorem loseLink_of_up {s : State} {n : Nat} (h : (s.port n).st = .up ∨ ((s.port n).st = .held ∧ (s.port n).noLink = false)) :
    s.loseLink n = ((s.dropLink n .training).addScore clsPort n 50).goOn :=
  if_pos (by simpa using h)

/-- The port that trains, once the loss its frame counter caused has been dealt with. -/
def State.trainsAnew (s : State) (n : Nat) : State :=
  if (s.port n).spent then ((s.dropLink n .training).addScore clsPort n 50).goOn else s

/-- The port with what its training found of the lanes. -/
def State.lanesFound (s : State) (n : Nat) (locked : BitVec 8) (reversed : Bool) : State :=
  s.modPort n (fun p => { p with locked := locked, reversed := reversed && decide (p.role ≠ roleUlp) })

@[simp] theorem lanesFound_role (s : State) (n : Nat) (locked : BitVec 8) (reversed : Bool) :
    ((s.lanesFound n locked reversed).port n).role = (s.port n).role := by
  simp [State.lanesFound, State.port, State.modPort]

/-- Training ends by the role the port has once the loss of a spent link has been dealt with. -/
theorem linkTrained_of_trains {s : State} {n : Nat} (h : s.trains n = true) (locked : BitVec 8) (full reversed : Bool) :
    s.linkTrained n locked full reversed =
      (let t := s.trainsAnew n
       let u := t.lanesFound n locked reversed
       if (t.port n).role = roleUlp then if locked = 0xFF then u.linkReady n else u
       else if full && locked = 0xFF then if u.ideWaits n then u else u.linkReady n
       else (u.modPort n (fun p => { p with retrainAt := some (u.now + 1000000000), locked := 0 })).addScore clsPort n 50) := by
  have hrole : ∀ u : State, ((u.lanesFound n locked reversed).port n).role = (u.port n).role := fun u => by simp
  unfold State.linkTrained
  rw [if_neg (by simp [h])]
  simp only [← hrole (s.trainsAnew n)]
  rfl

section Training

variable {s : State} {n : Nat} (h : s.trains n = true)
include h

/-- A ULP port with every lane locked is up. -/
theorem linkTrained_of_ulp (hrole : ((s.trainsAnew n).port n).role = roleUlp) (full reversed : Bool) :
    s.linkTrained n 0xFF full reversed = ((s.trainsAnew n).lanesFound n 0xFF reversed).linkReady n :=
  (linkTrained_of_trains h ..).trans (if_pos hrole)

/-- A CXL port short of its rate or width trains again. -/
theorem linkTrained_of_short (hrole : ((s.trainsAnew n).port n).role ≠ roleUlp) (locked : BitVec 8) (reversed : Bool) :
    let u := (s.trainsAnew n).lanesFound n locked reversed
    s.linkTrained n locked false reversed =
      (u.modPort n (fun p => { p with retrainAt := some (u.now + 1000000000), locked := 0 })).addScore clsPort n 50 :=
  (linkTrained_of_trains h ..).trans (if_neg hrole)

/-- A CXL port at full rate and width is up, unless IDE is still to start. -/
theorem linkTrained_of_cxl (hrole : ((s.trainsAnew n).port n).role ≠ roleUlp) (reversed : Bool) :
    let u := (s.trainsAnew n).lanesFound n 0xFF reversed
    s.linkTrained n 0xFF true reversed = if u.ideWaits n then u else u.linkReady n :=
  (linkTrained_of_trains h ..).trans (if_neg hrole)

end Training

/-! ### Counters and IDE (R378, R379) -/

/-- The frame counter of an encrypted link at its limit sets REKEY. -/
theorem linkCounterLimit_of_below {s : State} {port : Port} {rx : Bool} {k : Fin 2} (henc : (s.port port.val).enc = true)
    (hup : s.linkUp port.val = true) (h : (s.port port.val).ctr.getD (2 * b2n rx + k.val) 0 < 2 ^ 47) :
    exec (.linkCounterLimit port rx k) s = .next ((s.modPort port.val (fun p => { p with
      ctr := listMod p.ctr (2 * b2n rx + k.val) (fun _ => 2 ^ 47) })).setFld F.secStsRekey 1) :=
  congrArg Host.Outcome.next ((if_neg (by simp [henc, hup])).trans (if_pos h))

/-- At its last number it takes the link down. -/
theorem linkCounterLimit_of_last {s : State} {port : Port} {rx : Bool} {k : Fin 2} (henc : (s.port port.val).enc = true)
    (hup : s.linkUp port.val = true) (h : 2 ^ 47 ≤ (s.port port.val).ctr.getD (2 * b2n rx + k.val) 0) :
    exec (.linkCounterLimit port rx k) s = .next (s.loseLink port.val) :=
  congrArg Host.Outcome.next ((if_neg (by simp [henc, hup])).trans (if_neg (Nat.not_lt.mpr h)))

theorem cxlRetrainDelayExpiry_of_pending {s : State} {port : Port} {t : Nat} (h : (s.port port.val).retrainAt = some t) :
    exec (.cxlRetrainDelayExpiry port) s =
      .next ((s.waitTill t).modPort port.val (fun p => { p with retrainAt := none })) := by
  rw [show exec (.cxlRetrainDelayExpiry port) s = execCxlRetrainDelayExpiry port s from rfl, execCxlRetrainDelayExpiry, h]

theorem ideKeyExchange_of_cxl {s : State} {port : Port}
    (hrole : (s.port port.val).role = roleUp ∨ (s.port port.val).role = roleDown) (hlocked : (s.port port.val).locked = 0xFF)
    (a b : BitVec 256) :
    let u := s.modPort port.val (fun p => { p with ide := some (a, b) })
    let x := if (s.port port.val).role = roleDown then u.emit (.ide port.val 64) else u
    exec (.ideKeyExchange port a b) s =
      .next (if s.ideWaits port.val && x.trains port.val then x.linkReady port.val else x) := by
  have hgo : (!(decide ((s.port port.val).role = roleDown) || decide ((s.port port.val).role = roleUp)) ||
      decide ((s.port port.val).locked ≠ 0xFF)) = false := by
    rcases hrole with h | h
    · simp [h, hlocked]
    · simp [h, hlocked]
  intro u x
  have hwhen : u.when (decide ((s.port port.val).role = roleDown)) (fun s => s.emit (.ide port.val 64)) = x := by
    simp only [State.when, decide_eq_true_eq, x]
  rw [show exec (.ideKeyExchange port a b) s = execIdeKeyExchange port a b s from rfl, execIdeKeyExchange]
  dsimp only
  rw [hgo, if_neg Bool.false_ne_true, hwhen]

/-- Settles O55: each message and event of a port goes by the one branch of its definition that its hypotheses select. -/
theorem mapsAndLinks : Obligations.MapsAndLinks := by
  intro s port n
  refine ⟨fun h up hcomes hwf => ?update, fun h hcomes hwf => ?get, fun hrole hup f hwf => ?frame, fun hrole hup f hwf => ?cxl,
    fun hrole hup q => ?retry, fun h => congrArg Host.Outcome.next (loseLink_of_up h), fun h => ?trained, fun henc hup rx k => ?counter,
    fun t ht => ?delay, fun hrole hlocked a b => ?ide⟩
  case update =>
    intro u hserves hfenced hcert
    rw [exec_mapUpdate_of_comes hcomes hwf hserves, mapUpdate_of_no_cert hfenced hcert]
    exact ⟨fun st d hr => by rw [hr]; rfl, fun hr => by rw [hr]; rfl⟩
  case get =>
    intro u hserves
    have hexec := exec_mapGet_of_comes hcomes hwf hserves
    exact ⟨fun hf => hexec.trans (congrArg _ (if_neg (by simp [u, hf]))), fun hf => hexec.trans (congrArg _ (if_pos hf))⟩
  case frame =>
    have hexec : exec (.linkFrame port f) s = .next (s.frame n f) := checked_of_wf hwf s _
    exact ⟨fun hbad => hexec.trans (congrArg _ (frame_of_bad hrole hup hbad)),
      fun hcrc hlen htag hmsg hseq => hexec.trans (congrArg _ (frame_of_good hrole hup hcrc hlen htag hmsg hseq)),
      fun hcrc hlen htag => hexec.trans (congrArg _ (frame_of_tagFail hrole hup hcrc hlen htag))⟩
  case cxl => exact (checked_of_wf hwf s _).trans (congrArg _ (frame_of_cxl hrole hup))
  case retry =>
    exact ⟨fun h => congrArg Host.Outcome.next (retryAsked_of_not_kept hrole hup h),
      fun h hasked => congrArg Host.Outcome.next (retryAsked_of_kept hrole hup h hasked)⟩
  case trained =>
    refine ⟨fun hrole full reversed => ?_, fun hrole locked reversed => ⟨?_, fun hlocked hide => ?_, fun hlocked hide => ?_⟩⟩
    · exact congrArg Host.Outcome.next (linkTrained_of_ulp h hrole full reversed)
    · exact congrArg Host.Outcome.next (linkTrained_of_short h hrole locked reversed)
    · subst hlocked
      exact congrArg Host.Outcome.next ((linkTrained_of_cxl h hrole reversed).trans (if_neg (ne_true_of_eq_false hide)))
    · subst hlocked
      exact congrArg Host.Outcome.next ((linkTrained_of_cxl h hrole reversed).trans (if_pos hide))
  case counter => exact ⟨linkCounterLimit_of_below henc hup, linkCounterLimit_of_last henc hup⟩
  case delay => exact cxlRetrainDelayExpiry_of_pending ht
  case ide => exact ideKeyExchange_of_cxl hrole hlocked a b

end Sys2Proof.Machine
end

section
/-! SUPPORT. The switch core: messages enter as cells, cells pass the stages and their resequencer, gaps end, and units start (O56;
R313, R315, R316, R319, R320, R322, R324, R325, R327, R329). -/

namespace Sys2Proof.Machine

/-! ### Messages that enter (R313, R318, R322, R329) -/

/-- Each copy is offered to the state in which the message's colour is counted. -/
theorem admitMsg_of_colour {s u : State} {m : SwMsg} {c : Colour} (h : s.colour (placeMsg m) = (c, u)) :
    let w := if c = .yellow then u.bump F.schMtrCntYellow m.tenant else if c = .red then u.bump F.schMtrCntRed m.tenant else u
    s.admitMsg m = foldS (fun s m => s.offer m c) w (w.copiesOf m) := by
  intro w
  have hw : (u.when (c = .yellow) (fun s => s.bump F.schMtrCntYellow m.tenant)).when (c = .red)
      (fun s => s.bump F.schMtrCntRed m.tenant) = w := by
    cases c with
    | green | yellow | red => simp [w]
  rw [State.admitMsg, h]
  dsimp only
  rw [hw]

theorem copiesOf_of_alone (s : State) {m : SwMsg} (h : m.group = none) : s.copiesOf m = [placeMsg m] := by
  rw [State.copiesOf, h]

theorem offer_of_dropped {s : State} {m : SwMsg} {c : Colour} (hred : c = .red) (hfull : s.congested m.out.val = true) :
    s.offer m c = s.bump F.swCnt2RedDrops :=
  if_pos (by simp [hred, hfull])

/-- A copy that is not dropped waits at its input or enters. -/
theorem offer_of_not_dropped {s : State} {m : SwMsg} {c : Colour} (h : c ≠ .red ∨ s.congested m.out.val = false) :
    s.offer m c = if s.mustWait m s.sw.waiting then { s with sw := { s.sw with waiting := s.sw.waiting ++ [m] } }
      else s.takeIn m := by
  refine if_neg ?_
  rcases h with h | h
  · simp [h]
  · simp [h]

@[simp] theorem msgCells_length (m : SwMsg) (cls seq msg : Nat) : (msgCells m cls seq msg).length = (m.bytes + 239) / 240 := by
  simp [msgCells, cellCount, ceilDiv]

/-- What a message brings into the switch core, the same whether or not link credits are returned for it. -/
theorem takeIn_sw (s : State) (m : SwMsg) :
    let k := flowKey m.inp.val m.out.val m.tc.val
    let x := s.sw.flows.rd (0, 0) k
    let cells := msgCells m (s.classOf m.tenant m.tc.val) x.1 x.2
    (s.takeIn m).sw = { s.sw with
      flows := Tbl.put (0, 0) k ((x.1 + cells.length) % 2 ^ 32, (x.2 + 1) % 65536) s.sw.flows,
      streams := Tbl.put (0, false) (65536 * k + x.2) (m.stream, m.here.isSome) s.sw.streams,
      inputs := Tbl.upd [] m.inp.val (fun l => l ++ cells) s.sw.inputs } :=
  State.when_keeps State.sw (fun s => s.emit (.linkCredit m.inp.val m.tc.val (ceilDiv m.bytes 256))) (fun _ => rfl) _ _

theorem takeIn_input_length (s : State) (m : SwMsg) : ((s.takeIn m).sw.inputs.rd [] m.inp.val).length =
    (s.sw.inputs.rd [] m.inp.val).length + (m.bytes + 239) / 240 := by
  rw [takeIn_sw, Tbl.rd_upd_self, List.length_append, msgCells_length]

theorem takeIn_flow_next (s : State) (m : SwMsg) : ((s.takeIn m).sw.flows.rd (0, 0) (flowKey m.inp.val m.out.val m.tc.val)).1 =
    ((s.sw.flows.rd (0, 0) (flowKey m.inp.val m.out.val m.tc.val)).1 + (m.bytes + 239) / 240) % 2 ^ 32 := by
  rw [takeIn_sw, Tbl.rd_put_self, msgCells_length]

/-! ### Cells that reach their output (R319, R320) -/

/-- The flow of a cell: its input, output and class. -/
abbrev cellFlow (c : Cell) : Nat := flowKey c.inp.val c.out.val c.tc.val

theorem cellIn_of_bad {s : State} {c : Cell} (h : c.check.toNat ≠ cellCrc c) : s.cellIn c = (s.bump F.swCnt0CellLost, true) :=
  if_pos h

section Checked

variable {s : State} {c : Cell} (hcheck : c.check.toNat = cellCrc c)
include hcheck

theorem cellIn_of_full (hfull : s.takesCell c = false) : s.cellIn c = (s, false) := by
  simp [State.cellIn, hcheck, hfull]

variable (htakes : s.takesCell c = true)
include htakes

/-- The awaited cell passes on, and the held ones whose turn has come follow it. -/
theorem cellIn_of_awaited (h : c.seq = (s.reseq (cellFlow c)).next) :
    s.cellIn c = (State.drainCells (cellFlow c) (s.reseq (cellFlow c)).held.length (s.passCell (cellFlow c) c), true) := by
  simp [State.cellIn, hcheck, htakes, h]

/-- A cell ahead of the awaited one is held, from now on. -/
theorem cellIn_of_ahead (h : seqAhead c.seq (s.reseq (cellFlow c)).next = true)
    (hnew : ∀ x ∈ (s.reseq (cellFlow c)).held, x.seq ≠ c.seq) :
    s.cellIn c = (s.modReseq (cellFlow c) (fun r => { r with held := r.held ++ [c], came := r.came.ins c.seq s.now }), true) := by
  have hne : c.seq ≠ (s.reseq (cellFlow c)).next := of_decide_eq_true (Bool.and_eq_true_iff.mp h).2
  have hany : (s.reseq (cellFlow c)).held.any (fun x => decide (x.seq = c.seq)) = false := by simpa using hnew
  simp [State.cellIn, hcheck, htakes, hne, h, hany]

section Passed

variable (hne : c.seq ≠ (s.reseq (cellFlow c)).next) (hback : seqAhead c.seq (s.reseq (cellFlow c)).next = false)
include hne hback

/-- An earlier cell that was declared lost comes late. -/
theorem cellIn_of_late (h : c.seq ∈ (s.reseq (cellFlow c)).lost) :
    s.cellIn c = ((s.modReseq (cellFlow c) (fun r =>
      { r with lost := r.lost.filter (fun x => decide (x ≠ c.seq)) })).bump F.swCnt0LateCells, true) := by
  simp [State.cellIn, hcheck, htakes, hne, hback, h]

/-- An earlier cell that was not lost is a copy of one that has passed. -/
theorem cellIn_of_passed (h : c.seq ∉ (s.reseq (cellFlow c)).lost) : s.cellIn c = (s, true) := by
  simp [State.cellIn, hcheck, htakes, hne, hback, h]

end Passed

end Checked

/-- After a cell that its output took, the waiting messages are looked at. -/
theorem exec_cellArrive_of_taken {s u : State} {c : Cell} (hwf : c.wf = true) (h : s.cellIn c = (u, true)) :
    exec (.cellArrive c) s = .next u.pumpWaiting :=
  (checked_of_wf (i := .cellArrive c) hwf s _).trans (by rw [h])

/-- A cell that its output did not take stands last in its intermediate's FIFO for that output. -/
theorem exec_cellArrive_of_not_taken {s u : State} {c : Cell} (hwf : c.wf = true) (h : s.cellIn c = (u, false)) :
    exec (.cellArrive c) s = .next { u with sw := { u.sw with
      mids := Tbl.upd [] (midKey c.mid c.out.val) (fun l => l ++ [c]) u.sw.mids } } :=
  (checked_of_wf (i := .cellArrive c) hwf s _).trans (by rw [h])

/-! ### Gaps (R320) -/

/-- Of two numbers the one ahead is not behind. -/
theorem seqAhead_asymm {a b : Nat} (ha : a < 2 ^ 32) (hb : b < 2 ^ 32) (h : seqAhead a b = true) : seqAhead b a = false := by
  simp only [seqAhead, Bool.and_eq_true, decide_eq_true_eq, Bool.and_eq_false_iff, decide_eq_false_iff_not] at h ⊢
  omega

/-- The earlier of the earliest cell so far and the next one. -/
def earlier (m : Option Cell) (c : Cell) : Option Cell :=
  match m with
  | some x => if seqAhead x.seq c.seq then some c else some x
  | none => some c

/-- The earliest so far stays so before cells that do not precede it. -/
theorem foldl_earlier_of_first {f : Cell} {l : List Cell} (h : ∀ x ∈ l, seqAhead f.seq x.seq = false) :
    l.foldl earlier (some f) = some f := by
  induction l with
  | nil => rfl
  | cons x l ih =>
    obtain ⟨hx, hl⟩ := List.forall_mem_cons.1 h
    rw [List.foldl_cons, show earlier (some f) x = some f from if_neg (by simp [hx]), ih hl]

/-- The earliest of cells that are all ahead of `f` gives way to `f`. -/
theorem earlier_foldl_of_ahead {f : Cell} {l : List Cell} (h : ∀ x ∈ l, seqAhead x.seq f.seq = true) (m : Option Cell)
    (hm : ∀ x ∈ m, seqAhead x.seq f.seq = true) : earlier (l.foldl earlier m) f = some f := by
  induction l generalizing m with
  | nil =>
    cases m with
    | none => rfl
    | some x => exact if_pos (hm x rfl)
  | cons y l ih =>
    obtain ⟨hy, hl⟩ := List.forall_mem_cons.1 h
    refine ih hl _ fun x hx => ?_
    cases m with
    | none => exact Option.some.inj hx ▸ hy
    | some z =>
      rw [Option.mem_def, earlier] at hx
      split at hx
      · exact Option.some.inj hx ▸ hy
      · exact Option.some.inj hx ▸ hm z rfl

/-- The fold finds the cell that every other is ahead of, wherever it stands. -/
theorem foldl_earlier_eq {a b : List Cell} {f : Cell} (hf : f.seq < 2 ^ 32)
    (h : ∀ x ∈ a ++ b, x.seq < 2 ^ 32 ∧ seqAhead x.seq f.seq = true) : (a ++ f :: b).foldl earlier none = some f := by
  have hbefore : earlier (a.foldl earlier none) f = some f :=
    earlier_foldl_of_ahead (fun x hx => (h x (List.mem_append_left b hx)).2) none nofun
  have hafter : ∀ x ∈ b, seqAhead f.seq x.seq = false := fun x hx => by
    obtain ⟨hx, hahead⟩ := h x (List.mem_append_right a hx)
    exact seqAhead_asymm hx hf hahead
  rw [List.foldl_append, List.foldl_cons, hbefore, foldl_earlier_of_first hafter]

/-- Time leaves the resequencers alone. -/
theorem reseq_waitTill (s : State) (t k : Nat) : (s.waitTill t).reseq k = s.reseq k := by
  rw [State.waitTill]
  by_cases hdt : 8 * ceilDiv t 8 - s.time.mono = 0
  · rw [hdt]
    rfl
  · obtain ⟨q, r, a, b, c, h⟩ := advance_eq s hdt
    rw [h]
    rfl

/-- What a change of a resequencer brings depends on what the resequencer held. -/
theorem modReseq_congr {s : State} {k : Nat} {f g : Reseq → Reseq} (h : f (s.reseq k) = g (s.reseq k)) :
    s.modReseq k f = s.modReseq k g := by
  rw [State.modReseq, Tbl.upd, show f (s.sw.reseqs.rd {} k) = g (s.sw.reseqs.rd {} k) from h]
  rfl

/-- A gap that ends before the held cell `f`: the numbers up to it are lost, and with them the message that was passing and what is
left of its own. -/
theorem cellGap_of_earliest {s : State} {k t : Nat} {f : Cell} (ht : s.gapTime k = some t)
    (hf : (s.reseq k).held.foldl earlier none = some f) :
    let n := (f.seq + 2 ^ 32 - (s.reseq k).next) % 2 ^ 32
    s.cellGap k = State.drainCells k (s.reseq k).held.length (((s.waitTill t).modReseq k (fun r => { r with
      next := f.seq, lost := r.lost ++ (List.range n).map (fun i => (r.next + i) % 2 ^ 32),
      dropMsg := if f.first then [] else [f.msg], open_ := [] })).bump F.swCnt0CellLost 0 0 n) := by
  intro n
  have hgap : s.cellGap k = ((s.reseq k).held.foldl earlier none).elim (s.waitTill t) (fun f =>
      let n := (f.seq + 2 ^ 32 - (s.reseq k).next) % 2 ^ 32
      State.drainCells k (s.reseq k).held.length (((s.waitTill t).modReseq k (fun r => { r with
        next := f.seq, lost := r.lost ++ (List.range n).map (fun i => ((s.reseq k).next + i) % 2 ^ 32),
        dropMsg := if f.first then [] else [f.msg], open_ := [] })).bump F.swCnt0CellLost 0 0 n)) := by
    simp only [State.cellGap, ht]
    change (match (s.reseq k).held.foldl earlier none with | none => _ | some f => _) = _
    cases (s.reseq k).held.foldl earlier none <;> rfl
  rw [hgap, hf]
  refine congrArg (fun u : State => State.drainCells k _ (u.bump F.swCnt0CellLost 0 0 n)) (modReseq_congr ?_)
  rw [reseq_waitTill]

/-! ### Units that start (R324, R325, R327) -/

/-- The state in which a port chooses its next unit: the one before has left, and waiting messages and heads have been looked at. -/
def State.chooses (s : State) (n : Nat) : State :=
  ((match s.sw.sending.look n with | some (_, t, _) => s.waitTill t | none => s).pumpWaiting).tagHeads n

/-- The queues of TC3 among those whose head may start. -/
def State.readyTc3 (u : State) (n : Nat) : List Nat := (u.readyQueues n).filter (fun k => decide (k % 4 = 3))

/-- The port's choice: a TC3 queue while those go first, else any ready one (R324). -/
theorem exec_unitStart_eq (out : Port) (s : State) :
    let u := s.chooses out.val
    exec (.unitStart out) s = .next (
      if !(u.readyTc3 out.val).isEmpty && u.tc3First out.val
      then (u.earliest (u.readyTc3 out.val)).elim u (fun k => u.startUnit out.val k true)
      else (u.earliest (u.readyQueues out.val)).elim u (fun k => u.startUnit out.val k false)) := by
  intro u
  change Host.Outcome.next (if !(u.readyTc3 out.val).isEmpty && u.tc3First out.val
    then (match u.earliest (u.readyTc3 out.val) with | some k => u.startUnit out.val k true | none => u)
    else (match u.earliest (u.readyQueues out.val) with | some k => u.startUnit out.val k false | none => u)) = _
  cases u.earliest (u.readyTc3 out.val) <;> cases u.earliest (u.readyQueues out.val) <;> rfl

theorem exec_unitStart_of_tc3 {out : Port} {s : State} {k : Nat} (hfirst : (s.chooses out.val).tc3First out.val = true)
    (hsome : (s.chooses out.val).readyTc3 out.val ≠ [])
    (hk : (s.chooses out.val).earliest ((s.chooses out.val).readyTc3 out.val) = some k) :
    exec (.unitStart out) s = .next ((s.chooses out.val).startUnit out.val k true) := by
  rw [exec_unitStart_eq, if_pos (by simp [hfirst, hsome]), hk]
  rfl

/-- Without a TC3 unit that goes first, the ready queue of the smallest tag is chosen. -/
theorem exec_unitStart_of_not_tc3 {out : Port} {s : State}
    (h : (s.chooses out.val).readyTc3 out.val = [] ∨ (s.chooses out.val).tc3First out.val = false) :
    let u := s.chooses out.val
    exec (.unitStart out) s =
      .next ((u.earliest (u.readyQueues out.val)).elim u (fun k => u.startUnit out.val k false)) := by
  rw [exec_unitStart_eq, if_neg]
  rcases h with h | h
  · simp [h]
  · simp [h]

/-- The state once the head `x` of queue `k` has left for port `n`, before it is sent: the queue's and the port's accounts. -/
def State.headLeaves (s : State) (n k : Nat) (prio : Bool) (x : SUnit) (rest : List SUnit) : State :=
  let tag := (s.queue k).headTag.getD 0
  let u := s.modQueue k (fun q => { q with
    units := rest, tag := tag, headTag := none, last := x.stream,
    began := (s.now, if q.began.1 = s.now then q.began.2 + x.bytes else x.bytes),
    credit := if q.on then q.credit - (1000 * x.bytes : Nat) else q.credit })
  let v := u.modPort n (fun p => if p.role = roleUlp && !x.here
    then { p with credTx := listMod p.credTx (k % 4) (· + ceilDiv x.len 256) } else p)
  let live := (v.sw.recent.rd [] n).filter (fun y => decide (v.now < y.1 + 10000))
  { v with sw := { v.sw with
    vt := if prio then v.sw.vt else Tbl.put 0 n tag v.sw.vt,
    recent := Tbl.put [] n (live ++ [(v.now, decide (k % 4 = 3), x.len)]) v.sw.recent,
    sending := Tbl.ins n (k, v.now + sendTime x.len, x) v.sw.sending } }

/-- The head is sent as the accesses of a tier copy or as itself; then heads and waiting messages are looked at again. -/
theorem startUnit_of_head {s : State} {n k : Nat} {prio : Bool} {x : SUnit} {rest : List SUnit}
    (h : (s.queue k).units = x :: rest) :
    let w := s.headLeaves n k prio x rest
    s.startUnit n k prio = ((x.copy.elim (w.emit (.unit n (k / 4 % 256) (k % 4) x)) (w.sendCopy n)).tagHeads n).pumpWaiting := by
  rw [State.startUnit, h]
  cases hc : x.copy <;> simp only [hc] <;> rfl

/-- Settles O56: each command of the switch core goes by the branch that its hypotheses select, a gap's by the cell that the fold
over the held ones finds. -/
theorem switchCoreMovesCells : Obligations.SwitchCoreMovesCells := by
  intro s
  refine ⟨fun m hwf c u hcolour => ?enter, fun m c => ?offer, fun cell hwf => ?arrive, rfl,
    fun inp out tc t f a b => ?gap, fun out => ?start, fun n k x rest prio hunits => ?leave⟩
  case enter =>
    exact ⟨(checked_of_wf (i := .messageAdmit m) hwf s _).trans (congrArg _ (admitMsg_of_colour hcolour)),
      copiesOf_of_alone _⟩
  case offer =>
    exact ⟨offer_of_dropped, fun h hwait => (offer_of_not_dropped h).trans (if_pos hwait),
      fun h hgo => ⟨(offer_of_not_dropped h).trans (if_neg (by simp [hgo])), takeIn_input_length s m, takeIn_flow_next s m⟩⟩
  case arrive =>
    exact ⟨fun hbad => exec_cellArrive_of_taken hwf (cellIn_of_bad hbad),
      fun hcheck hfull => exec_cellArrive_of_not_taken hwf (cellIn_of_full hcheck hfull),
      fun hcheck htakes => ⟨fun h => exec_cellArrive_of_taken hwf (cellIn_of_awaited hcheck htakes h),
        fun h hnew => exec_cellArrive_of_taken hwf (cellIn_of_ahead hcheck htakes h hnew),
        fun hne hback h => exec_cellArrive_of_taken hwf (cellIn_of_late hcheck htakes hne hback h),
        fun hne hback h => exec_cellArrive_of_taken hwf (cellIn_of_passed hcheck htakes hne hback h)⟩⟩
  case gap =>
    intro k ht hheld hf hahead
    have hgap := cellGap_of_earliest ht (hheld ▸ foldl_earlier_eq hf hahead)
    rw [hheld] at hgap
    exact congrArg (fun u : State => Host.Outcome.next u.pumpWaiting) hgap
  case start =>
    refine ⟨fun k hfirst hsome hk => exec_unitStart_of_tc3 hfirst hsome hk, fun hnot => ⟨fun hnone => ?_, fun k hk => ?_⟩⟩
    · exact (exec_unitStart_of_not_tc3 hnot).trans (by rw [show (s.chooses out.val).readyQueues out.val = [] from hnone]; rfl)
    · exact (exec_unitStart_of_not_tc3 hnot).trans
        (by rw [show (s.chooses out.val).earliest ((s.chooses out.val).readyQueues out.val) = some k from hk]; rfl)
  case leave =>
    exact ⟨fun hc => (startUnit_of_head hunits).trans (by rw [hc]; rfl),
      fun c hc => (startUnit_of_head hunits).trans (by rw [hc]; rfl)⟩

end Sys2Proof.Machine
end

section
/-! SUPPORT. The register space read both ways: the places of the registers lie apart, so that each address is that of at most one
register (O42; R442). -/

namespace Sys2Proof.Machine

/-! ### Rows of words -/

/-- The words of a place are aligned, lie in rows that hold them, and end within the register space. -/
structure Place.InSpace (p : Place) : Prop where
  aligned : p.base % 8 = 0 ∧ p.s1 % 8 = 0 ∧ p.s2 % 8 = 0
  row_pos : 0 < p.s1
  word_pos : 0 < p.s2
  row_holds : p.n2 * p.s2 ≤ p.s1
  ends : p.base + p.n1 * p.s1 ≤ 0x10000000

/-- A place lies before another: its last row's words end by where the other begins, or both have rows of one stride, in each of which
its words end by where the other's begin or the words of both take turns. -/
def Place.before (p q : Place) : Bool :=
  p.base + p.n1 * p.s1 + p.n2 * p.s2 ≤ q.base + p.s1 ||
    (p.s1 = q.s1 && p.base ≤ q.base && q.base + q.n2 * q.s2 ≤ p.base + p.s1 &&
      (p.base + p.n2 * p.s2 ≤ q.base || (p.s2 = q.s2 && (q.base - p.base) % p.s2 ≠ 0)))

theorem mem_allRegs (r : Reg) : r ∈ Reg.all := by
  cases r <;> decide

theorem place_inSpace (r : Reg) : r.place.InSpace := by
  have h : ∀ r ∈ Reg.all, (r.place.base % 8 = 0 ∧ r.place.s1 % 8 = 0 ∧ r.place.s2 % 8 = 0) ∧ 0 < r.place.s1 ∧
      0 < r.place.s2 ∧ r.place.n2 * r.place.s2 ≤ r.place.s1 ∧ r.place.base + r.place.n1 * r.place.s1 ≤ 0x10000000 := by
    decide +kernel
  obtain ⟨haligned, hrow, hword, hholds, hends⟩ := h r (mem_allRegs r)
  exact ⟨haligned, hrow, hword, hholds, hends⟩

/-- The registers are listed in the order in which their places lie. -/
theorem places_in_order : Reg.all.Pairwise fun r q => r.place.before q.place = true := by decide +kernel

section
variable {p q : Place} {i j : Nat}

/-- A word of a row lies inside the row. -/
theorem Place.InSpace.word_lt (h : p.InSpace) (hj : j < p.n2) : j * p.s2 + p.s2 ≤ p.s1 := by
  have hword : (j + 1) * p.s2 ≤ p.n2 * p.s2 := Nat.mul_le_mul_right _ hj
  rw [Nat.succ_mul] at hword
  exact hword.trans h.row_holds

/-- A place covers each of its own words, under its own indices. -/
theorem Place.InSpace.at?_self (h : p.InSpace) (hi : i < p.n1) (hj : j < p.n2) :
    p.at? (p.base + i * p.s1 + j * p.s2) = some (i, j) := by
  have hin := h.word_lt hj
  have hs1 := h.row_pos
  have hs2 := h.word_pos
  have hoff : p.base + i * p.s1 + j * p.s2 - p.base = j * p.s2 + p.s1 * i := by rw [mul_comm p.s1]; omega
  have hrow : (j * p.s2 + p.s1 * i) / p.s1 = i := by
    rw [Nat.add_mul_div_left _ _ hs1, Nat.div_eq_of_lt (by omega), zero_add]
  have hword : (j * p.s2 + p.s1 * i) % p.s1 = j * p.s2 := by
    rw [Nat.add_mul_mod_self_left, Nat.mod_eq_of_lt (by omega)]
  rw [Place.at?, if_neg (by omega), hoff]
  dsimp only
  rw [hrow, hword, Nat.mul_mod_left, Nat.mul_div_cancel _ hs2, if_pos ⟨hi, rfl, hj⟩]

/-- A place covers nothing past the words of its last row. -/
theorem Place.InSpace.at?_of_past (h : p.InSpace) {a : Nat} (ha : p.base + p.n1 * p.s1 + p.n2 * p.s2 ≤ a + p.s1) :
    p.at? a = none := by
  unfold Place.at?
  split
  · rfl
  · refine if_neg fun ⟨hi, _, hj⟩ => ?_
    have hrow := Nat.div_add_mod (a - p.base) p.s1
    have hrows : ((a - p.base) / p.s1 + 1) * p.s1 ≤ p.n1 * p.s1 := Nat.mul_le_mul_right _ hi
    rw [Nat.succ_mul, mul_comm _ p.s1] at hrows
    exact Nat.not_lt.mpr ((Nat.le_div_iff_mul_le h.word_pos).mpr (by omega)) hj

/-- A place covers no word of one that lies after it. -/
theorem Place.at?_of_before (hp : p.InSpace) (hq : q.InSpace) (h : p.before q = true) (hj : j < q.n2) :
    p.at? (q.base + i * q.s1 + j * q.s2) = none := by
  simp only [Place.before, Bool.or_eq_true, Bool.and_eq_true, decide_eq_true_eq] at h
  rcases h with hends | ⟨⟨⟨hstride, hbase⟩, hrow⟩, hwords⟩
  · exact hp.at?_of_past (by omega)
  · have hlast : (j + 1) * q.s2 ≤ q.n2 * q.s2 := Nat.mul_le_mul_right _ hj
    rw [Nat.succ_mul] at hlast
    have hqs2 := hq.word_pos
    have hoff : q.base + i * q.s1 + j * q.s2 - p.base = q.base - p.base + j * q.s2 + p.s1 * i := by
      rw [hstride, mul_comm q.s1]; omega
    have hrest : (q.base - p.base + j * q.s2 + p.s1 * i) % p.s1 = q.base - p.base + j * q.s2 := by
      rw [Nat.add_mul_mod_self_left, Nat.mod_eq_of_lt (by omega)]
    rw [Place.at?, if_neg (by omega), hoff]
    dsimp only
    rw [hrest]
    refine if_neg fun ⟨_, hword, hlt⟩ => ?_
    rcases hwords with hends | ⟨hturn, hbetween⟩
    · have hpast : p.n2 * p.s2 ≤ q.base - p.base + j * q.s2 := by omega
      exact Nat.not_lt.mpr ((Nat.le_div_iff_mul_le hp.word_pos).mpr hpast) hlt
    · rw [hturn, Nat.add_mul_mod_self_right, ← hturn] at hword
      exact hbetween hword

/-- What a place covers is one of its words. -/
theorem Place.of_at? {a : Nat} (hat : p.at? a = some (i, j)) :
    p.base + i * p.s1 + j * p.s2 = a ∧ i < p.n1 ∧ j < p.n2 := by
  unfold Place.at? at hat
  split at hat
  · simp at hat
  · dsimp only at hat
    split at hat
    · next hbase hin =>
      obtain ⟨hi, hword, hj⟩ := hin
      obtain ⟨rfl, rfl⟩ := Prod.mk.inj (Option.some.inj hat)
      have hrow := Nat.div_add_mod (a - p.base) p.s1
      have hcol := Nat.div_add_mod ((a - p.base) % p.s1) p.s2
      refine ⟨?_, hi, hj⟩
      rw [mul_comm _ p.s1, mul_comm _ p.s2]
      omega
    · simp at hat

end

/-! ### The register at an address (R442) -/

/-- Among registers listed in the order of their places, the one at the address of a word is the word's own. -/
theorem locateIn_addr {rs : List Reg} (horder : rs.Pairwise fun r q => r.place.before q.place = true) {r : Reg} {i j : Nat}
    (hr : r ∈ rs) (hi : i < r.place.n1) (hj : j < r.place.n2) : locateIn rs (⟨r, i, j⟩ : Loc).addr = some ⟨r, i, j⟩ := by
  induction rs with
  | nil => exact absurd hr List.not_mem_nil
  | cons q rs ih =>
    obtain ⟨hbefore, horder⟩ := List.pairwise_cons.mp horder
    rw [locateIn]
    rcases List.mem_cons.mp hr with rfl | hr
    · rw [Loc.addr, (place_inSpace r).at?_self hi hj]
    · rw [Loc.addr, Place.at?_of_before (place_inSpace q) (place_inSpace r) (hbefore r hr) hj]
      exact ih horder hr

/-- The register found at an address has a word there. -/
theorem addr_of_locateIn {rs : List Reg} {a : Nat} {l : Loc} (h : locateIn rs a = some l) :
    l.addr = a ∧ l.i < l.reg.place.n1 ∧ l.j < l.reg.place.n2 := by
  induction rs with
  | nil => simp [locateIn] at h
  | cons q rs ih =>
    rw [locateIn] at h
    split at h
    · next i j hat =>
      obtain rfl := Option.some.inj h
      exact Place.of_at? hat
    · exact ih h

/-- A word of a place is aligned and lies in the register space. -/
theorem Place.InSpace.word_in_space {p : Place} {i j : Nat} (h : p.InSpace) (hi : i < p.n1) (hj : j < p.n2) :
    (p.base + i * p.s1 + j * p.s2) % 8 = 0 ∧ p.base + i * p.s1 + j * p.s2 < 0x10000000 := by
  have hin := h.word_lt hj
  obtain ⟨hbase, hs1, hs2⟩ := h.aligned
  have hpos := h.word_pos
  have hend := h.ends
  have hrow : (i + 1) * p.s1 ≤ p.n1 * p.s1 := Nat.mul_le_mul_right _ hi
  rw [Nat.succ_mul] at hrow
  exact ⟨by simp [Nat.add_mod, Nat.mul_mod, hbase, hs1, hs2], by omega⟩

/-- Settles O42: the places lie apart and in the space, and an address is found in the place that covers it. -/
theorem registersHaveTheirOwnAddresses : Obligations.RegistersHaveTheirOwnAddresses := by
  refine ⟨fun r i j hi hj => ⟨?_, ?_⟩, fun a l h => addr_of_locateIn h⟩
  · exact locateIn_addr places_in_order (mem_allRegs r) hi hj
  · exact (place_inSpace r).word_in_space hi hj

end Sys2Proof.Machine
end

section
/-! SUPPORT. Accesses that change nothing: a write that reaches no register, and one that every field of its register refuses
(O44; R442, R450, R452). -/

namespace Sys2Proof.Machine

/-- A write by an open path goes to the register at its address. -/
theorem exec_registerWrite_of_open {s : State} {path : Path} (h : s.pathOpen path = true) (a : BitVec 32) (v : W64) :
    exec (.registerWrite path a v) s = .next (s.regWrite (pathCode path) (pathSecure path) a.toNat v).1 :=
  congrArg Host.Outcome.next (if_pos h)

/-- One that reaches no register is a management error and nothing else. -/
theorem exec_registerWrite_of_no_reach {s : State} {path : Path} {a : BitVec 32} {c : Nat} (h : s.pathOpen path = true)
    (hreach : s.reach a.toNat = .error c) (v : W64) :
    exec (.registerWrite path a v) s = .next (s.mgmtError (pathCode path) a.toNat c) := by
  rw [exec_registerWrite_of_open h, regWrite_of_no_reach hreach]

section
variable {s : State} {a : Nat} {l : Loc}

theorem reach_of_misaligned (h : a % 8 ≠ 0) : s.reach a = .error 1 := if_pos h

theorem reach_of_unmapped (h : a % 8 = 0) (hloc : locate a = none) : s.reach a = .error 2 := by
  simp [State.reach, h, hloc]

theorem reach_of_not_served (h : a % 8 = 0) (hloc : locate a = some l) (hserved : s.blockServed (blockAt a).1 = false) :
    s.reach a = .error 3 := by
  simp [State.reach, h, hloc, hserved]

theorem reach_of_served (h : a % 8 = 0) (hloc : locate a = some l) (hserved : s.blockServed (blockAt a).1 = true) :
    s.reach a = .ok l := by
  simp [State.reach, h, hloc, hserved]

end

/-- A write that every field refuses leaves none to act. -/
theorem sortWrite_of_refused {s : State} {l : Loc} {secure : Bool} (h : ∀ f ∈ l.reg.flds, s.takes l secure f ≠ .yes) (v : Nat) :
    s.sortWrite l secure v = { w := s.heldWord l, act := 0, any := false } := by
  unfold State.sortWrite
  exact (List.foldl_ext _ (fun x _ => x) _ fun _ f hf => if_pos (h f hf)).trans (List.foldl_fixed _)

@[simp] theorem lockStays_any (l : Loc) (held : Nat) (x : Wr) : (lockStays l held x).any = x.any := by
  unfold lockStays
  dsimp only
  split <;> rfl

/-- A write that every field refuses raises its cause, a violation of the worlds besides when that is 5. -/
theorem writeLoc_of_refused {s : State} {l : Loc} {secure : Bool} (h : ∀ f ∈ l.reg.flds, s.takes l secure f ≠ .yes) (v : W64) :
    s.writeLoc l secure v =
      (s.when (s.writeCause l secure v.toNat = some 5) State.worldViol, s.writeCause l secure v.toNat) := by
  simp [State.writeLoc, sortWrite_of_refused h]

/-- Settles O44: what stops an access before a register is what `reach` answers, and a register that refuses it raises the cause. -/
theorem accessErrorsAreRecorded : Obligations.AccessErrorsAreRecorded := by
  intro s path a v hopen er x
  have hstopped : ∀ c, s.reach a.toNat = .error c → x = .next (er s c) := fun c h => exec_registerWrite_of_no_reach hopen h v
  refine ⟨fun h => hstopped 1 (reach_of_misaligned h), fun h hloc => hstopped 2 (reach_of_unmapped h hloc),
    fun l h hloc hserved => hstopped 3 (reach_of_not_served h hloc hserved), fun l h hloc hserved hrefused => ?_⟩
  have hwrite : ∀ c, s.writeCause l (pathSecure path) v.toNat = some c →
      x = .next (er (s.when (some c = some 5) State.worldViol) c) := fun c hc => by
    refine (exec_registerWrite_of_open hopen a v).trans (congrArg Host.Outcome.next ?_)
    rw [regWrite_of_reach (reach_of_served h hloc hserved), writeLoc_of_refused hrefused, hc]
    rfl
  exact ⟨hwrite 4, hwrite 5⟩

end Sys2Proof.Machine
end

section
/-! SUPPORT. LOCK_SET of the SW block (O48): the write of SW_CTL that sets its LOCK also admits the messages that need wait no longer
(R322, R451). -/

namespace Sys2Proof.Machine

/-- `waitingMsg` has waited for output 1, which a unit of 100,000 cells congested while it was being sent, from time 0 to 119,522 ns. By
this tick it has left, and nothing has looked at the messages that wait since. -/
def clearedState : State :=
  { gen := { stage := 9 }, pwr := { auxGood := true, good48 := true, rails := 8 }, time := { mono := 119528, wall := 119528 },
    sw := {
      sending := [(1, schedKey 1 0 0, sendTime 24000000, { bytes := 24000000, len := 24000000, stream := 0 })],
      waiting := [waitingMsg] } }

/-- I3C, always open, may write SW_CTL. -/
theorem accepts_swCtl : Accepts clearedState .i3c .swCtl 0 :=
  ⟨rfl, by decide +kernel, .inr (by decide +kernel)⟩

/-- The value LOCK_SET writes: SW_CTL as it is, with its LOCK. -/
def lockValue : W64 := clearedState.withField .swCtl 0 0 0 1

/-- Every field of SW_CTL takes the value, and only LOCK differs. -/
theorem sortWrite_lockValue :
    lockStays swCtlLoc (clearedState.heldWord swCtlLoc) (clearedState.sortWrite swCtlLoc (pathSecure .i3c) lockValue.toNat) =
      { w := 0x100007D00041, act := 0, any := true } := by decide +kernel

theorem writeCause_lockValue : clearedState.writeCause swCtlLoc (pathSecure .i3c) lockValue.toNat = none := by decide +kernel

/-- With the LOCK set the message still need not wait. -/
theorem mustWait_locked : (clearedState.setWord swCtlLoc 0x100007D00041).mustWait waitingMsg [] = false := by decide +kernel

/-- LOCK_SET of the SW block admits the message that waits. -/
theorem exec_lockSet_sw : ∃ t : State, exec (.lockSet .i3c .sw) clearedState = .next t ∧ t.sw.waiting = [] := by
  have hreaches : Reaches clearedState .i3c swCtlLoc := ⟨rfl, by decide +kernel, by decide +kernel, by decide +kernel⟩
  have hwrite := exec_registerWrite_of_reaches (a := BitVec.ofNat 32 swCtlLoc.addr) hreaches rfl writeCause_lockValue
  simp only [sortWrite_lockValue, if_true] at hwrite
  exact ⟨_, hwrite, State.pumpWaiting_waiting_of_alone (m := waitingMsg) rfl mustWait_locked⟩

/-- Refutes O48: LOCK_SET does not set a LOCK bit alone where the block is SW, since every write of SW_CTL looks at the messages that
wait (R322). A message waits for an output that time has cleared; LOCK_SET admits it, so the switch core's state changes. -/
theorem not_keysAndLocksAreSet : ¬ Obligations.KeysAndLocksAreSet := by
  unfold Obligations.KeysAndLocksAreSet
  intro h
  obtain ⟨-, -, hlock, -⟩ := h clearedState .i3c
  obtain ⟨t, ht, hframe, -⟩ := hlock .sw accepts_swCtl
  obtain ⟨u, hu, hnone⟩ := exec_lockSet_sw
  obtain rfl : t = u := Host.Outcome.next.inj (ht.symm.trans hu)
  have hkept : t.sw.waiting = [waitingMsg] := by rw [hframe]; rfl
  simp [hnone] at hkept

end Sys2Proof.Machine
end

section
/-! SUPPORT. The management paths: BAR0, Ethernet records, the secure session, I3C, ARP and the TAP (O60; R372, R434, R436,
R443–R446). -/

namespace Sys2Proof.Machine

/-! ### BAR0 (R444) -/

/-- Only an aligned address reaches a register (R442). -/
theorem aligned_of_reach {s : State} {a : Nat} {l : Loc} (h : s.reach a = .ok l) : a % 8 = 0 := by
  by_contra hodd
  rw [reach_of_misaligned hodd] at h
  simp at h

section
variable {s : State} {port : Port} (hopen : s.pathOpen (.bar0 port) = true)
include hopen

theorem exec_bar0Access_write (a : BitVec 32) (size : Nat) (v : W64) : exec (.bar0Access port true a size v) s =
    .next (if size = 8 ∧ a.toNat % 8 = 0 then (s.regWrite 0 false a.toNat v).1 else s.mgmtError 0 a.toNat 1) := by
  refine congrArg Host.Outcome.next ?_
  simp [hopen]

theorem exec_bar0Access_read (a : BitVec 32) (size : Nat) (v : W64) :
    exec (.bar0Access port false a size v) s = .next (s.barRead port.val a.toNat size) := by
  refine congrArg Host.Outcome.next ?_
  simp [hopen]

end

section
variable {s : State} {n a : Nat}

theorem barRead_of_word {l : Loc} (h : s.reach a = .ok l) : s.barRead n a 8 = s.emit (.barRead n (s.regView l)) := by
  simp [State.barRead, aligned_of_reach h, regRead_of_reach h]

theorem ofNat_low_half (w : W64) : BitVec.ofNat 64 (bits w.toNat 31 0) = w &&& 0xFFFFFFFF#64 := by
  apply BitVec.eq_of_toNat_eq
  have hmask := Nat.and_two_pow_sub_one_eq_mod w.toNat 32
  simp only [bits, BitVec.toNat_ofNat, BitVec.toNat_and]
  norm_num at hmask ⊢
  omega

theorem ofNat_high_half (w : W64) : BitVec.ofNat 64 (bits w.toNat 63 32) = w >>> 32 := by
  apply BitVec.eq_of_toNat_eq
  have hw := w.isLt
  simp only [bits, BitVec.toNat_ofNat, BitVec.toNat_ushiftRight, Nat.shiftRight_eq_div_pow]
  omega

theorem barRead_of_half {l : Loc} (ha : a % 4 = 0) (h : s.reach (a / 8 * 8) = .ok l) :
    s.barRead n a 4 = s.emit (.barRead n (if a % 8 = 0 then (s.regView l) &&& 0xFFFFFFFF#64 else (s.regView l) >>> 32)) := by
  simp only [State.barRead, ha, regRead_of_reach h]
  by_cases hlow : a % 8 = 0 <;> simp [hlow, ofNat_low_half, ofNat_high_half]

theorem barRead_of_other {size : Nat} (h8 : ¬(size = 8 ∧ a % 8 = 0)) (h4 : ¬(size = 4 ∧ a % 4 = 0)) :
    s.barRead n a size = (s.mgmtError 0 a 1).emit (.barRead n 0) := by
  rw [State.barRead, if_neg (by simpa using h8), if_neg (by simpa using h4)]

end

/-! ### Register access records (R372, R445) -/

/-- A source is answered, and the answer to its number is kept before those to the sources heard earlier. -/
def State.keepAnswer (s : State) (src : EthSrc) (seq : W32) (ans : List Byte) : State :=
  { s with gen := { s.gen with
      ethKept := ((src, seq, ans) :: s.gen.ethKept.filter (fun k => !(sameSrc k.1 src))).take 16 } }.emit (.eth src ans)

section
variable {s : State} {src : EthSrc} {b : List Byte} {r : RegRec} (hrec : RegRec.of b = some r) (hon : s.ethOn = true)
include hrec hon

/-- A record whose number is not kept is applied and answered, and its answer kept. -/
theorem ethRecord_of_new (hnew : ∀ k ∈ s.gen.ethKept, sameSrc k.1 src = true → k.2.1 ≠ r.seq) :
    s.ethRecord src b = (s.applyRec .eth r).1.keepAnswer src r.seq (s.applyRec .eth r).2 := by
  have hold : (s.gen.ethKept.find? (fun k => sameSrc k.1 src)).filter (fun k => k.2.1 = r.seq) = none := by
    rw [Option.filter_eq_none_iff]
    intro k hk
    simpa using hnew k (List.mem_of_find?_eq_some hk) (List.find?_some (p := fun k : EthSrc × W32 × List Byte => sameSrc k.1 src) hk)
  simp only [State.ethRecord, hrec, hon, hold]
  rfl

/-- A repeat is answered with what is kept. -/
theorem ethRecord_of_repeat {k : EthSrc × W32 × List Byte}
    (hkept : s.gen.ethKept.find? (fun k => sameSrc k.1 src) = some k) (hseq : k.2.1 = r.seq) :
    s.ethRecord src b = s.keepAnswer src r.seq k.2.2 := by
  have hold : (s.gen.ethKept.find? (fun k => sameSrc k.1 src)).filter (fun k => k.2.1 = r.seq) = some k := by
    simp [hkept, hseq]
  simp only [State.ethRecord, hrec, hon, hold]
  rfl

end

/-- A write of an address without a register is answered with cause 2. -/
theorem applyRec_of_unmapped {s : State} {r : RegRec} (hok : r.ok = true) (hop : r.op = 2) (h : s.reach r.addr = .error 2) :
    s.applyRec .eth r = (s.mgmtError 1 r.addr 2, r.answer 1 2 0) := by
  simp [State.applyRec, hok, hop, regWrite_of_no_reach h, pathCode]

/-- A record within the secure session is applied from the secure world and answered. -/
theorem exec_secureRegisterAccess {s : State} {b : List Byte} {r : RegRec} (hrec : RegRec.of b = some r)
    (hopen : s.secureSession = true) :
    exec (.secureRegisterAccess b) s = .next ((s.applyRec .secure r).1.emit (.secured (s.applyRec .secure r).2)) := by
  refine congrArg Host.Outcome.next ?_
  simp [hrec, hopen]

/-! ### I3C and the TAP (R436, R446) -/

/-- A transfer of 12 bytes writes, one of 4 sets the read address, another is a management error. -/
theorem i3cWrite_cases (s : State) (b : List Byte) :
    (b.length = 12 → s.i3cWrite b = (s.regWrite 2 false (leAt b 0 4) (BitVec.ofNat 64 (leAt b 4 8))).1) ∧
      (b.length = 4 → s.i3cWrite b = { s with gen := { s.gen with i3cRead := BitVec.ofNat 32 (leAt b 0 4) } }) ∧
      (b.length ≠ 12 → b.length ≠ 4 → s.i3cWrite b = s.mgmtError 2 0 1) := by
  refine ⟨fun h => if_pos h, fun h => ?_, fun h12 h4 => ?_⟩
  · rw [State.i3cWrite, if_neg (by omega), if_pos h]
  · rw [State.i3cWrite, if_neg h12, if_neg h4]

/-- An I3C read takes the register at the read address. -/
theorem exec_i3cRegisterRead {s : State} {l : Loc} (h : s.reach s.gen.i3cRead.toNat = .ok l) :
    exec .i3cRegisterRead s = .next (s.emit (.i3c (leBytes 8 (s.regView l).toNat))) := by
  refine congrArg Host.Outcome.next ?_
  rw [regRead_of_reach h]

/-- Settles O60, path by path. -/
theorem managementPaths : Obligations.ManagementPaths := by
  intro s
  refine ⟨fun port a v hopen => ⟨fun size h => ?_, fun h => ?_, fun l h => ?_, fun l ha h => ?_, fun size h8 h4 => ?_⟩,
    fun src b r hrec hon c hc => ?eth, fun b r hrec hopen => exec_secureRegisterAccess hrec hopen,
    fun r hok hop h => applyRec_of_unmapped hok hop h, fun ip mac hon hip => ?arp, fun b c hc => ?i3c,
    fun l h => exec_i3cRegisterRead h, fun st addr => rfl, fun ir => ?tap⟩
  · rw [exec_bar0Access_write hopen, if_neg (by omega)]
  · rw [exec_bar0Access_write hopen, if_pos ⟨rfl, h⟩]
  · rw [exec_bar0Access_read hopen, barRead_of_word h]
  · rw [exec_bar0Access_read hopen, barRead_of_half ha h]
  · rw [exec_bar0Access_read hopen, barRead_of_other h8 h4]
  case eth =>
    have hexec : exec c s = .next (s.ethRecord src b) := by rcases hc with rfl | rfl <;> rfl
    rw [hexec]
    refine ⟨fun hnew => ?_, fun k hkept hseq => ?_⟩
    · rw [ethRecord_of_new hrec hon hnew]
      exact ⟨_, rfl, rfl, rfl, rfl⟩
    · rw [ethRecord_of_repeat hrec hon hkept hseq]
      exact ⟨_, rfl, rfl, rfl⟩
  case arp =>
    exact congrArg Host.Outcome.next (if_pos (by simp [hon, hip]))
  case i3c =>
    have hexec : exec c s = .next (s.i3cWrite b) := by rcases hc with rfl | rfl <;> rfl
    obtain ⟨h12, h4, hother⟩ := i3cWrite_cases s b
    rw [hexec]
    exact ⟨fun h => congrArg _ (h12 h), fun h => congrArg _ (h4 h), fun h h' => congrArg _ (hother h h')⟩
  case tap =>
    refine ⟨_, rfl, ?_⟩
    by_cases hid : s.tapActs ir = .idcode <;> simp [hid, State.when, State.emit]

end Sys2Proof.Machine
end

section
/-! SUPPORT. Health: the limiter and the sensors, scans and tests, the return to service, the toll and the patrol (O59; R396–R401,
R404, R406, R407, R410, R417, R453). -/

namespace Sys2Proof.Machine

theorem State.when_decide (s : State) (p : Prop) [Decidable p] (f : State → State) :
    s.when (decide p) f = if p then f s else s := by
  by_cases h : p <;> simp [State.when, h]

/-! ### The power limiter (R396) -/

section
variable {p : PwrSt} {now : Nat}

theorem tighten_step (hstep : p.step < 4) (hdue : p.step = 0 ∨ p.stepAt + 20000 ≤ now) (limit : Nat) :
    (p.tighten now limit).step = p.step + 1 := by
  unfold PwrSt.tighten
  dsimp only
  rw [if_pos hstep, if_pos (by simpa using hdue)]

theorem loosen_step {t : Nat} (hlow : p.lowAt = some t) (hdue : t + 1000000 ≤ now) (hstep : 0 < p.step) :
    (p.loosen now).step = p.step - 1 := by
  unfold PwrSt.loosen
  simp [hlow, hdue, hstep]

end

/-! ### Sensors (R397, R399) -/

/-- As many new readings as old ones replace them. -/
theorem map_getD_zipIdx {α : Type} {old new : List α} (h : new.length = old.length) :
    old.zipIdx.map (fun x => new.getD x.2 x.1) = new := by
  refine List.ext_getElem (by simp [h]) fun i hi hi' => ?_
  simp [hi']

theorem readings_of_length {old new : List Int} (h : new.length = old.length) : readings old new = new := map_getD_zipIdx h

/-- Waiting counts time under throttling and leaves what is measured (R403). -/
theorem waitTill_pwr (s : State) (n : Nat) : ∃ a b, (s.waitTill n).pwr = { s.pwr with thrNs := a, thermNs := b } := by
  by_cases hn : 8 * ceilDiv n 8 - s.time.mono = 0
  · rw [State.waitTill, hn]
    exact ⟨_, _, rfl⟩
  · obtain ⟨q, r, a, b, c, hs⟩ := advance_eq s hn
    rw [State.waitTill, hs]
    exact ⟨a, b, rfl⟩

theorem waitTill_thrHubC (s : State) (n : Nat) : (s.waitTill n).fld F.pwrCtlThrHubC = s.fld F.pwrCtlThrHubC := by
  unfold State.fld
  rw [State.waitTill, advance_word _ _ _ (by decide) (by decide)]

/-- The state after a thermal sample, before a trip that has cooled ends. -/
def State.sampled (s : State) (quads stks : List Int) : State :=
  let u := s.waitTill (s.pwr.thermAt + 10000)
  { u with pwr := { u.pwr with
      tj := quads, th := stks, thermAt := u.now, hubThr := throttled u.pwr.hubThr quads (u.fld F.pwrCtlThrHubC),
      hbmThr := throttled u.pwr.hbmThr stks (u.fld F.pwrCtlThrHbmC) } }

theorem sampled_rst (s : State) (quads stks : List Int) : (s.sampled quads stks).rst = s.rst := waitTill_rst ..

/-- A thermal sample of every quadrant and stack. -/
theorem exec_thermalSample {s : State} {quads stks : List Int} (hwf : (Instr.thermalSample quads stks).wf = true)
    (htj : s.pwr.tj.length = 4) (hth : s.pwr.th.length = 12) :
    exec (.thermalSample quads stks) s = .next (
      if bit (s.sampled quads stks).rst.asserted.toNat 6 && quads.all (· ≤ 95) && stks.all (· ≤ 80)
      then (s.sampled quads stks).releaseSource 6 else s.sampled quads stks) := by
  obtain ⟨hquads, hstks⟩ : quads.length = 4 ∧ stks.length = 12 := by
    simp only [Instr.wf, Bool.and_eq_true, decide_eq_true_eq] at hwf
    exact hwf.1.1
  refine (checked_of_wf hwf s _).trans (congrArg Host.Outcome.next ?_)
  obtain ⟨a, b, hp⟩ := waitTill_pwr s (s.pwr.thermAt + 10000)
  have hq : readings (s.waitTill (s.pwr.thermAt + 10000)).pwr.tj quads = quads := readings_of_length (by rw [hp, htj, hquads])
  have hs : readings (s.waitTill (s.pwr.thermAt + 10000)).pwr.th stks = stks := readings_of_length (by rw [hp, hth, hstks])
  simp only [hq, hs]
  rfl

/-- A reading at the threshold begins a throttle. -/
theorem throttled_of_any {l : List Int} {thr : Int} (h : l.any (fun t => decide (t ≥ thr)) = true) (was : Bool) :
    throttled was l thr = true := if_pos h

/-- A neighbour sample of every quadrant. -/
theorem exec_neighbourCompare {s : State} {mhz mv : List Nat} {deg : List Int} (hwf : (Instr.neighbourCompare mhz mv deg).wf = true)
    (hmhz : s.pwr.mhz.length = 4) (hvcore : s.pwr.vcore.length = 4) (htj : s.pwr.tj.length = 4) :
    let u := s.waitTill (s.pwr.pairAt + 1000)
    exec (.neighbourCompare mhz mv deg) s = .next ((foldS (fun s (p : Nat × Nat) =>
      foldS (fun s c => s.comparePair c p.1 p.2) s [1, 2, 3])
      { u with pwr := { u.pwr with mhz := mhz, vcore := mv, tj := deg, pairAt := u.now } } quadPairs).goOn) := by
  intro u
  obtain ⟨⟨hlm, hlv⟩, hld⟩ : (mhz.length = 4 ∧ mv.length = 4) ∧ deg.length = 4 := by
    simp only [Instr.wf, Bool.and_eq_true, decide_eq_true_eq] at hwf
    exact hwf.1.1.1
  refine (checked_of_wf hwf s _).trans (congrArg Host.Outcome.next ?_)
  obtain ⟨a, b, hp⟩ : ∃ a b, u.pwr = { s.pwr with thrNs := a, thermNs := b } := waitTill_pwr s _
  have hm : u.pwr.mhz.zipIdx.map (fun x => mhz.getD x.2 x.1) = mhz := map_getD_zipIdx (by rw [hp, hlm, hmhz])
  have hv : u.pwr.vcore.zipIdx.map (fun x => mv.getD x.2 x.1) = mv := map_getD_zipIdx (by rw [hp, hlv, hvcore])
  have ht : readings u.pwr.tj deg = deg := readings_of_length (by rw [hp, hld, htj])
  simp only [u] at hm hv ht
  simp only [hm, hv, ht]
  rfl

/-! ### Scans and tests (R406, R407) -/

section
variable {s : State}

theorem exec_serdesScan {port : Port} (hruns : s.scansRun (s.fld F.hltScanSerdesS) = true) (hup : (s.port port.val).st = .up)
    (lane : Fin 8) (mv : BitVec 8) (mui : BitVec 10) :
    let u := (s.setMargin clsPort port.val lane.val 7 0 mv.toNat).setMargin clsPort port.val lane.val 17 8 mui.toNat
    exec (.serdesScan port lane mv mui) s = .next (if mv.toNat < u.fld F.hltLimEyeMv ∨ mui.toNat < u.fld F.hltLimEyeMui
      then u.addScore clsPort port.val 200 else u) := by
  intro u
  have hlow := u.when_decide (mv.toNat < u.fld F.hltLimEyeMv ∨ mui.toNat < u.fld F.hltLimEyeMui)
    (fun s => s.addScore clsPort port.val 200)
  rw [Bool.decide_or] at hlow
  exact congrArg Host.Outcome.next ((if_neg (by simp [hruns, hup])).trans hlow)

theorem exec_hbmScan {stk : Stack} (hruns : s.scansRun (s.fld F.hltScanHbmS) = true) (hup : (s.stk.rd {} stk.val).st = 1)
    (chan : Fin 32) (pct : BitVec 8) :
    let u := s.setMargin clsStack stk.val chan.val 31 24 pct.toNat
    exec (.hbmScan stk chan pct) s =
      .next (if pct.toNat < u.fld F.hltLimHbmPct then u.addScore clsStack stk.val 200 else u) := by
  intro u
  exact congrArg Host.Outcome.next ((if_neg (by simp only [hruns, hup]; decide)).trans (u.when_decide ..))

theorem exec_opticalScan {port : Port} (hruns : s.scansRun (s.fld F.hltScanOptS) = true)
    (hcmis : s.flag F.portCmisEnable port.val = true) (lane : Fin 8) (warn : BitVec 32) :
    let v := s.emit (.cmis port.val (s.fld F.portCmisMuxAddr port.val) (s.fld F.portCmisMuxChan port.val))
    exec (.opticalScan port lane none warn) s = .next (v.modPort port.val (fun p => { p with cmis := false })) ∧
      ∀ w : BitVec 32,
        let u := (v.modPort port.val (fun p => { p with cmis := true })).setMargin clsPort port.val lane.val 63 32 w.toNat
        exec (.opticalScan port lane (some w) warn) s =
          .next (if w.toNat < warn.toNat then u.addScore clsPort port.val 200 else u) := by
  intro v
  refine ⟨congrArg Host.Outcome.next (if_neg (by simp [hruns, hcmis])), fun w => ?_⟩
  intro u
  exact congrArg Host.Outcome.next ((if_neg (by simp [hruns, hcmis])).trans (u.when_decide ..))

theorem exec_knownAnswerTest {sl : Slice} (hup : s.sliceUp sl.val = true) (htest : s.sliceTested sl.val = false) (pass : Bool)
    (vector : Nat) : exec (.knownAnswerTest sl pass vector) s = .next (if pass then (s.bump F.hltCnt1KatRuns).passBin sl.val
      else ((s.bump F.hltCnt1KatRuns).bump F.hltCnt1KatFails).quarantine sl.val 1 vector 0 0 0xFFFF) :=
  congrArg Host.Outcome.next (if_neg (by simp [hup, htest]))

end

/-! ### The return to service (R410) -/

/-- RESULT of the sequence of the part it runs for: 3 where a quadrant breaks the limits of its neighbours, 0 where the part passes and
is ready, 1 otherwise. -/
def State.rtsOutcome (s : State) (pass : Bool) : Nat :=
  if s.hlt.rtsPart / 256 = clsQuad && !(s.limitsMet (s.hlt.rtsPart % 256)) then 3
  else if pass && s.rtsReady (s.hlt.rtsPart / 256) (s.hlt.rtsPart % 256) then 0
  else 1

/-- The sequence has ended with a result, and its record is in the strongbox. -/
def State.rtsEnded (s : State) (result : Nat) : State :=
  ({ s with hlt := { s.hlt with rtsBusy := false, rtsResult := result } } : State).bbxLog 0x04 (s.hlt.rtsPart / 256)
    (s.hlt.rtsPart % 256) (leBytes 1 (s.hlt.rtsPart / 256) ++ leBytes 1 (s.hlt.rtsPart % 256) ++ leBytes 1 result)

section
variable {s : State} {pass : Bool}

theorem rtsOutcome_of_limits (hcls : s.hlt.rtsPart / 256 = clsQuad) (hlim : s.limitsMet (s.hlt.rtsPart % 256) = false) :
    s.rtsOutcome pass = 3 := if_pos (by simp [hcls, hlim])

/-- A part that breaks no limit passes when its test does and it is ready. -/
theorem rtsOutcome_of_met (hmet : s.hlt.rtsPart / 256 ≠ clsQuad ∨ s.limitsMet (s.hlt.rtsPart % 256) = true) :
    s.rtsOutcome pass = if pass && s.rtsReady (s.hlt.rtsPart / 256) (s.hlt.rtsPart % 256) then 0 else 1 :=
  if_neg (by rcases hmet with h | h <;> simp [h])

/-- A part whose test passes, and which is ready and breaks no limit, passes. -/
theorem rtsOutcome_of_passed (hmet : s.hlt.rtsPart / 256 ≠ clsQuad ∨ s.limitsMet (s.hlt.rtsPart % 256) = true) (hpass : pass = true)
    (hready : s.rtsReady (s.hlt.rtsPart / 256) (s.hlt.rtsPart % 256) = true) : s.rtsOutcome pass = 0 :=
  (rtsOutcome_of_met hmet).trans (if_pos (by simp [hpass, hready]))

/-- One whose test fails, or which is not ready, fails. -/
theorem rtsOutcome_of_failed (hmet : s.hlt.rtsPart / 256 ≠ clsQuad ∨ s.limitsMet (s.hlt.rtsPart % 256) = true)
    (hfail : pass = false ∨ s.rtsReady (s.hlt.rtsPart / 256) (s.hlt.rtsPart % 256) = false) : s.rtsOutcome pass = 1 :=
  (rtsOutcome_of_met hmet).trans (if_neg (by rcases hfail with h | h <;> simp [h]))

/-- A part enters service. -/
def State.partPasses (s : State) (cls index : Nat) : State :=
  if cls = clsSlice then s.slicePasses index
  else if cls = clsStack then s.stackPasses index
  else if cls = clsPort then (s.setScore clsPort index {}).releasePort index
  else s.quadPasses index

theorem partPasses_eq (s : State) (index : Nat) :
    s.partPasses clsSlice index = s.slicePasses index ∧ s.partPasses clsStack index = s.stackPasses index ∧
      s.partPasses clsPort index = (s.setScore clsPort index {}).releasePort index ∧
      s.partPasses clsQuad index = s.quadPasses index := by
  simp [State.partPasses, clsSlice, clsStack, clsPort, clsQuad]

variable (hbusy : s.hlt.rtsBusy = true)
include hbusy

/-- A sequence that fails leaves its part where it was. -/
theorem exec_returnToServiceEnd_of_failed {result : Nat} (h : s.rtsOutcome pass = result) (hne : result ≠ 0) :
    exec (.returnToServiceEnd pass) s = .next (s.rtsEnded result) := by
  subst h
  exact congrArg Host.Outcome.next ((if_neg (by simp [hbusy])).trans (if_pos hne))

/-- One that passes brings its part into service. -/
theorem exec_returnToServiceEnd_of_passed {cls : Nat} {t : State} (hcls : s.hlt.rtsPart / 256 = cls) (h : s.rtsOutcome pass = 0)
    (ht : (s.rtsEnded 0).partPasses cls (s.hlt.rtsPart % 256) = t) : exec (.returnToServiceEnd pass) s = .next t.goOn := by
  subst hcls ht
  refine congrArg Host.Outcome.next ((if_neg (by simp [hbusy])).trans ?_)
  unfold State.rtsOutcome at h
  simp only [h, State.partPasses, apply_ite State.goOn]
  rfl

end

/-! ### Patrol reads (R453) -/

theorem exec_patrolRead {s : State} {stk : Stack} (hpatrol : s.fld F.hbmCtlPatrolH stk.val ≠ 0)
    (hup : (s.stk.rd {} stk.val).st = 1) (a : BitVec 37) (result : EccResult) :
    exec (.patrolRead stk a result) s = .next (match result with
      | .clean => s
      | .corrected => (s.bump F.hbmEccCorr stk.val).addScore clsStack stk.val 1
      | .uncorrected => (({ s with stk := Tbl.upd {} stk.val (fun (x : StackSt) =>
          { x with errAddr := a.toNat, errValid := true }) s.stk } : State).bump F.hbmEccUncorr stk.val).addScore clsStack
            stk.val 100) :=
  congrArg Host.Outcome.next ((if_neg (by simp only [hpatrol, hup]; decide)).trans (by cases result <;> rfl))

/-- Settles O59: each command past its guard is what its sample says. -/
theorem healthCommands : Obligations.HealthCommands := by
  intro s
  refine ⟨fun avg mv havg => ⟨?limiter, ?tighten, ?loosen⟩, fun quads stks hwf htj hth hno => ?sample,
    fun quads stks hwf htj hth htrip hq hs => ?cooled, fun b => ⟨rfl, rfl⟩,
    fun mhz mv deg hwf hm hv ht => exec_neighbourCompare hwf hm hv ht, fun q => rfl, rfl,
    fun port lane mv mui hruns hup => exec_serdesScan hruns hup lane mv mui,
    fun stk chan pct hruns hup => exec_hbmScan hruns hup chan pct, fun port lane w warn hruns hcmis => ?optical,
    fun sl vector hup htest => ⟨exec_knownAnswerTest hup htest true vector, exec_knownAnswerTest hup htest false vector⟩,
    fun hbusy pass => ?rts, rfl, fun stk a hpatrol hup =>
      ⟨exec_patrolRead hpatrol hup a .clean, exec_patrolRead hpatrol hup a .corrected, exec_patrolRead hpatrol hup a .uncorrected⟩⟩
  case limiter => exact checked_of_wf (i := .powerLimiterSample avg mv) (decide_eq_true havg) ..
  case tighten => exact fun _ hstep hdue => tighten_step hstep hdue _
  case loosen => exact fun t hlow hdue hstep => loosen_step hlow hdue hstep
  case sample =>
    have hexec := exec_thermalSample hwf htj hth
    rw [sampled_rst, if_neg (by simp [hno])] at hexec
    refine ⟨_, hexec, rfl, rfl, fun hany => throttled_of_any ?_ _, waitTill_rst ..⟩
    rw [waitTill_thrHubC]
    exact hany
  case cooled =>
    have hexec := exec_thermalSample hwf htj hth
    rw [sampled_rst, if_pos (by simpa [htrip] using ⟨hq, hs⟩)] at hexec
    exact ⟨_, hexec, releaseSource_asserted _ (by decide)⟩
  case optical =>
    obtain ⟨hnone, hsome⟩ := exec_opticalScan hruns hcmis lane warn
    exact ⟨hnone, hsome w⟩
  case rts =>
    intro cls index rec_
    obtain ⟨hslice, hstack, hport, hquad⟩ := partPasses_eq (s.rtsEnded 0) index
    refine ⟨fun hcls hlim => ?_, fun hcls hfail => ?_, fun _ hlim hfail => ?_, fun hcls hpass hready => ?_, fun hcls hpass hready => ?_,
      fun hcls hpass hready => ?_, fun hcls hlim hpass hready => ?_⟩
    · exact exec_returnToServiceEnd_of_failed hbusy (rtsOutcome_of_limits hcls hlim) (by decide)
    · exact exec_returnToServiceEnd_of_failed hbusy (rtsOutcome_of_failed (.inl hcls) hfail) (by decide)
    · exact exec_returnToServiceEnd_of_failed hbusy (rtsOutcome_of_failed (.inr hlim) hfail) (by decide)
    · exact exec_returnToServiceEnd_of_passed hbusy hcls (rtsOutcome_of_passed (.inl (hcls.trans_ne (by decide))) hpass hready) hslice
    · exact exec_returnToServiceEnd_of_passed hbusy hcls (rtsOutcome_of_passed (.inl (hcls.trans_ne (by decide))) hpass hready) hstack
    · exact exec_returnToServiceEnd_of_passed hbusy hcls (rtsOutcome_of_passed (.inl (hcls.trans_ne (by decide))) hpass hready) hport
    · exact exec_returnToServiceEnd_of_passed hbusy hcls (rtsOutcome_of_passed (.inr hlim) hpass hready) hquad

end Sys2Proof.Machine
end

section
/-! SUPPORT. Requests that arrive in good form (O52; R131, R278, R280, R283, R284, R285, R301, R363). O52 itself stays open: one
clause names a free word other than the one the model reads, and `requestsAreServed_iff` says what is left of it. -/

namespace Sys2Proof.Machine

/-! ### The edge (R285, R363) -/

section Enter

variable {s : State} {n ty : Nat} {h : Hdr} {payload : List Byte}

/-- The edge of a fenced module answers FENCED for an endpoint's request. -/
theorem enter_of_fenced (c : Comes s n ty h payload) (hx : h.ext = false) (hf : (s.hear h.src.toNat).ldg.fenced = true)
    (f : Hdr → Option (Nat × Nat) → State → State) :
    s.enter n ty h payload f = f h (some (St.fenced, 0x0D01)) (s.hear h.src.toNat) :=
  enter_of_passes c (.inr (.inr (.inl ⟨hx, hf, rfl, rfl, rfl⟩))) f

/-- A request the edge refuses goes on with the refusal, which is counted. -/
theorem enter_of_refused {e : Nat × Nat} (c : Comes s n ty h payload) (hx : h.ext = false)
    (hf : (s.hear h.src.toNat).ldg.fenced = false) (he : (s.hear h.src.toNat).edgeCheck n ty h = .error e)
    (f : Hdr → Option (Nat × Nat) → State → State) :
    s.enter n ty h payload f = f h (some e) ((s.hear h.src.toNat).edgeDeny n) :=
  enter_of_passes c (.inr (.inl ⟨hx, hf, ⟨e, he, rfl⟩, rfl, rfl⟩)) f

/-- A load the edge passes goes on as it is; its bytes are not counted before they are read. -/
theorem enter_of_load {g : Hdr} (c : Comes s n tyLoad h payload) (hx : h.ext = false)
    (hf : (s.hear h.src.toNat).ldg.fenced = false) (he : (s.hear h.src.toNat).edgeCheck n tyLoad h = .ok g)
    (f : Hdr → Option (Nat × Nat) → State → State) :
    s.enter n tyLoad h payload f = f g none (s.hear h.src.toNat) :=
  enter_of_passes c (.inl ⟨hx, hf, he, rfl, rfl⟩) f

/-- A header with the tenant and the world of PORT_EP entry `k`. -/
def State.entryHdr (s : State) (n k : Nat) (h : Hdr) : Hdr :=
  { h with xTenant := s.fld F.portEpTenant n k, xSecure := s.flag F.portEpSecure n k }

/-- A message that is no access passes the edge of its source's entry, which fills in the tenant and counts the payload. -/
theorem enter_of_entry {k : Nat} (c : Comes s n ty h payload) (hx : h.ext = false)
    (hf : (s.hear h.src.toNat).ldg.fenced = false) (hk : (s.hear h.src.toNat).srcEntry n h.src = some k)
    (hty : (ty = tyLoad || ty = tyStore || ty = tyFlag || ty = tyAtomic) = false)
    (f : Hdr → Option (Nat × Nat) → State → State) :
    s.enter n ty h payload f = f ((s.hear h.src.toNat).entryHdr n k h) none
      ((s.hear h.src.toNat).tollBytes ((s.hear h.src.toNat).fld F.portEpTenant n k) h.len) := by
  have hload : ty ≠ tyLoad := by rintro rfl; simp at hty
  refine enter_of_passes c (.inl ⟨hx, hf, ?_, rfl, ?_⟩) f
  · simp only [State.edgeCheck, hk, hty]
    rfl
  · simp only [hload, ne_eq, not_false_eq_true, decide_true, State.when_true]
    rfl

/-- A module's request that no edge refused enters as it is. -/
theorem enter_of_good (c : Comes s n ty h payload) (hx : h.ext = true) (hst : h.status = 0)
    (f : Hdr → Option (Nat × Nat) → State → State) : s.enter n ty h payload f = f h none (s.hear h.src.toNat) := by
  rw [enter_of_module c hx, if_pos hst]

end Enter

/-! ### What counting a payload leaves alone -/

section Toll

variable (s : State) (t len : Nat)

@[simp] theorem State.tollBytes_fld (f : FRef) (i j : Nat) : (s.tollBytes t len).fld f i j = s.fld f i j := rfl

@[simp] theorem State.tollBytes_serves (d : Ep) : (s.tollBytes t len).serves d = s.serves d := rfl

@[simp] theorem State.tollBytes_jobSlot (job : Nat) : (s.tollBytes t len).jobSlot job = s.jobSlot job := rfl

theorem State.tollBytes_epEntryGo (n : Nat) (p : Nat → Bool) (left k : Nat) :
    (s.tollBytes t len).epEntryGo n p left k = s.epEntryGo n p left k := by
  induction left generalizing k with
  | zero => rfl
  | succ left ih =>
    simp only [State.epEntryGo, ih]
    rfl

@[simp] theorem State.tollBytes_srcEntry (n : Nat) (src : Ep) : (s.tollBytes t len).srcEntry n src = s.srcEntry n src :=
  State.tollBytes_epEntryGo s t len n _ _ 0

end Toll

/-! ### Loads (R278, R287, R292) -/

section Loads

variable {s : State} {q : RxReq}

/-- A load without DEP is served as it arrives. -/
theorem arriveLoad_of_no_dep (hd : q.h.dep = false) : s.arriveLoad q = s.startLoad (s.stamped q) := by
  refine if_neg ?_
  simp [hd]

theorem startLoad_of_refused {st d : Nat} (hr : s.refuse q = some (st, d)) : s.startLoad q = s.loadFail q.port q.h st d := by
  simp only [State.startLoad, hr]

theorem startLoad_of_later (hr : s.refuse q = none) (he : s.epochAt q.h = .later) : s.startLoad q = s.holdLater q := by
  simp only [State.startLoad, hr, he, if_true]

/-- A load may be served now: it is not refused, its epoch has come, and it is not of control space. -/
structure Servable (s : State) (q : RxReq) : Prop where
  passed : s.refuse q = none
  come : s.epochAt q.h ≠ .later
  region : hdrControl q.h = false

/-- The state in which a load looks for its bytes. -/
def State.metBy (s : State) (q : RxReq) : State := s.meet q.h.xRegion q.h.xVersion q.h.xTenant

theorem startLoad_of_no_version (hq : Servable s q) (hv : ((s.metBy q).version q.h.xRegion q.h.xVersion).isSome = false) :
    s.startLoad q = (s.metBy q).loadFail q.port q.h St.denied 0x0301 := by
  obtain ⟨hr, he, hc⟩ := hq
  rw [Option.isSome_eq_false_iff, Option.isNone_iff_eq_none, State.metBy] at hv
  simp [State.startLoad, hr, he, hc, hv, State.metBy]

theorem startLoad_of_away (hq : Servable s q) (hv : ((s.metBy q).version q.h.xRegion q.h.xVersion).isSome = true)
    (hh : (s.metBy q).heldHere q.h.xRegion (addrOff q.h.addr.toNat / 65536) = false) :
    s.startLoad q =
      (s.metBy q).fwdLoad q.port q.h ((s.metBy q).holderOf q.h.xRegion (addrOff q.h.addr.toNat / 65536)) := by
  obtain ⟨hr, he, hc⟩ := hq
  obtain ⟨v, hv⟩ := Option.isSome_iff_exists.mp hv
  rw [State.metBy] at hv hh
  simp [State.startLoad, hr, he, hc, hv, hh, State.metBy]

theorem State.when_not (s : State) (b : Bool) (f : State → State) : s.when (!b) f = if b then s else f s := by
  cases b <;> rfl

/-- A load of a page held here goes by what its page's moves let it do. -/
theorem startLoad_of_here (hq : Servable s q) (hv : ((s.metBy q).version q.h.xRegion q.h.xVersion).isSome = true)
    (hh : (s.metBy q).heldHere q.h.xRegion (addrOff q.h.addr.toNat / 65536) = true) {w : State} {r : ReadWait}
    (hw : (s.metBy q).tryStall (.load q.port q.h) q.h.xTenant q.h.xRegion q.h.xVersion [addrOff q.h.addr.toNat / 65536] =
      (w, r)) :
    s.startLoad q = match (generalizing := false) r with
      | .stalled => w
      | .notReady => w.loadFail q.port q.h St.notReady 0x0411
      | .go => (if q.h.ext then w else w.tollBytes q.h.xTenant q.h.len).serveLoad q.port q.h q.h.xRegion q.h.xVersion q.at_ := by
  obtain ⟨hr, he, hc⟩ := hq
  obtain ⟨v, hv⟩ := Option.isSome_iff_exists.mp hv
  rw [State.metBy] at hv hh hw
  cases r with
  | go | stalled | notReady => simp [State.startLoad, hr, he, hc, hv, hh, hw, State.when_not]

end Loads

/-! ### Marks (R131, R285) -/

/-- A mark whose position its job has becomes a candidate of the job's slot. -/
theorem markHere_of_job {s : State} {n tenant p j : Nat} (hj : s.jobSlot (bits p 63 48) = some j)
    (ht : s.fld F.timeJobCtlTenant j = tenant) (hl : posLayer p < s.jobC j) (hp : posPhase p < s.jobP j) :
    s.markHere n tenant p = s.candidate j p := by
  have hfail : s.markFail (bits p 63 48) tenant p = none := by
    simp [State.markFail, hj, ht, Nat.not_le.mpr hl, Nat.not_le.mpr hp]
  simp [State.markHere, State.markEdge, State.takeMark, State.markJob, hj, ht, hfail]

/-! ### Windows (R283, R284) -/

section Windows

variable {s : State} {n k : Nat} {h : Hdr}

/-- The world of an endpoint is that of its entry, which the edge has filled in. -/
theorem epWorld_of_entry (hk : s.srcEntry n h.src = some k) :
    s.epWorld n h = (s.fld F.portEpTenant n k, s.flag F.portEpSecure n k) := by
  simp only [State.epWorld, hk]

/-- ATTACH on an unfenced module is answered as the window's attach ends, or later where the home is asked. -/
theorem ulpAttach_of_entry {data : List Byte} (hf : s.ldg.fenced = false) (hk : s.srcEntry n h.src = some k)
    (hh : s.entryHdr n k h = h) :
    s.ulpAttach n h data =
      match s.attach { port := n, bar2 := false, detach := false, h := h, data := data } with
      | (x, none) => x
      | (x, some (.ok (v, id))) => x.answer n tyAttachRsp h St.ok 0 false 8 (attachRspData v id)
      | (x, some (.error (st, d))) => (x.edgeDeny n).failAnswer n tyAttachRsp h st d := by
  rw [State.ulpAttach, if_neg (ne_true_of_eq_false hf), epWorld_of_entry hk]
  change (match s.attach { port := n, bar2 := false, detach := false, h := s.entryHdr n k h, data := data } with
    | (x, none) => x
    | (x, some (.ok (v, id))) => x.answer n tyAttachRsp h St.ok 0 false 8 (attachRspData v id)
    | (x, some (.error (st, d))) => (x.edgeDeny n).failAnswer n tyAttachRsp h st d) = _
  rw [hh]

/-- DETACH of a window whose region has its home here releases it. -/
theorem ulpDetach_of_home {x : FabWin} (hf : s.ldg.fenced = false) (hx : s.window h.src.toNat (addrWin h.addr.toNat) = some x)
    (hh : s.homeOf x.region = s.self) :
    s.ulpDetach n h = ((s.dropWindow h.src.toNat (addrWin h.addr.toNat)).dropRef x.region x.version).answer n tyAttachRsp h St.ok 0
      false 8 (leBytes 8 0) := by
  simp [State.ulpDetach, State.detach, hf, hx, hh]

/-- DETACH of a window of another home's region goes to that home. -/
theorem ulpDetach_of_away {x : FabWin} (hf : s.ldg.fenced = false) (hx : s.window h.src.toNat (addrWin h.addr.toNat) = some x)
    (hh : s.homeOf x.region ≠ s.self) :
    s.ulpDetach n h = s.askHome { port := n, bar2 := false, detach := true, h := h, data := [] } (s.homeOf x.region) := by
  simp [State.ulpDetach, State.detach, hf, hx, hh]

end Windows

/-! ### The window page and the accesses of a host (R301) -/

section Host

variable {s : State} {port : Port}

theorem exec_windowReferenceWrite {win word : Nat} (hrole : (s.port port.val).role = roleUp) (hwin : win < 255) (hword : word < 4)
    (value : W64) : exec (.windowReferenceWrite port win word value) s = .next (
      if word = 1 then { s with fab := { s.fab with
        bar2 := Tbl.upd {} (256 * port.val + win) (fun x => { x with access := value }) s.fab.bar2 } }
      else if word = 2 then s.bar2Ref port.val win value else s) :=
  (checked_of_wf (i := .windowReferenceWrite port win word value)
    (by simp only [Instr.wf, Bool.and_eq_true, decide_eq_true_eq]; omega) s _).trans
    (congrArg Host.Outcome.next (if_neg (not_not.mpr hrole)))

/-- The status word of a window page's entry: that of the first failure, else of the last attach. -/
def Bar2Win.statusWord (x : Bar2Win) : W64 :=
  let y := x.failed.getD (x.status, x.detail)
  BitVec.ofNat 64 (x.version.toNat + y.1 * 2 ^ 32 + y.2 * 2 ^ 40)

/-- What a read of a word of the window page does on a CXL-up port. -/
theorem exec_windowStatusRead {win word : Nat} (hrole : (s.port port.val).role = roleUp) (hwin : win < 255) (hword : word < 4) :
    exec (.windowStatusRead port ⟨win, word⟩) s = .next (
      match (generalizing := false) word with
      | 0 => { s with
          fab := { s.fab with bar2 := Tbl.upd {} (256 * port.val + win) (fun y => { y with failed := none }) s.fab.bar2 },
          out := s.out ++ [.barRead port.val (s.fab.bar2.rd {} (256 * port.val + win)).statusWord] }
      | 1 => { s with out := s.out ++ [.barRead port.val (s.fab.bar2.rd {} (256 * port.val + win)).access] }
      | 2 => { s with freeIdx := s.freeIdx + 1, out := s.out ++ [.barRead port.val (Config.freeWord s.freeIdx)] }
      | _ => { s with out := s.out ++ [.barRead port.val 0] }) :=
  (checked_of_wf (i := .windowStatusRead port ⟨win, word⟩)
    (by simp only [Instr.wf, Bool.and_eq_true, decide_eq_true_eq]; omega) s _).trans
    (congrArg Host.Outcome.next (if_neg (not_not.mpr hrole)))

/-- A CXL-up port takes the accesses of its host: its link runs, no IDE stream is pending, and entry 0 names the host. -/
structure HostUp (s : State) (n : Nat) : Prop where
  role : (s.port n).role = roleUp
  link : s.linkUp n = true
  notShut : s.shut n = false
  clear : s.ideWaits n = false
  valid : s.flag F.portEpValid n 0 = true

variable {write : Bool} {off len : Nat} {data : List Byte}

theorem exec_cxlMemRequest (hu : HostUp s port.val) (hwf : (Instr.cxlMemRequest port write off len data).wf = true) :
    exec (.cxlMemRequest port write off len data) s = .next (s.hostAccess port.val write off len data) :=
  (checked_of_wf hwf s _).trans (congrArg Host.Outcome.next (if_neg (by simp [hu.role, hu.link, hu.clear])))

theorem hostAccess_of_outside {n : Nat} (h : 2 ^ 46 < off + len) : s.hostAccess n write off len data = s.violateCxl n true :=
  if_pos (by rw [decide_eq_true h]; simp)

theorem hostAccess_read {n : Nat} {g : Hdr} (hu : HostUp s n) (hlen : 0 < len) (hend : off + len ≤ 2 ^ 46)
    (he : s.edgeCheck n tyLoad (s.hostHdr n false off len) = .ok g) :
    s.hostAccess n false off len [] = s.arriveLoad { kind := .load, port := n, h := g, data := [] } := by
  rw [State.hostAccess, if_neg (by simp [hu.valid, Nat.ne_of_gt hlen]; omega)]
  simp [hu.notShut, State.enterEdge, he]

theorem hostAccess_read_refused {n st d : Nat} (hu : HostUp s n) (hlen : 0 < len) (hend : off + len ≤ 2 ^ 46)
    (he : s.edgeCheck n tyLoad (s.hostHdr n false off len) = .error (st, d)) :
    s.hostAccess n false off len [] = (s.edgeDeny n).loadFail n (s.hostHdr n false off len) st d := by
  rw [State.hostAccess, if_neg (by simp [hu.valid, Nat.ne_of_gt hlen]; omega)]
  simp [hu.notShut, State.enterEdge, he]

theorem hostAccess_write {n : Nat} {g : Hdr} (hu : HostUp s n) (hlen : 0 < data.length) (hend : off + data.length ≤ 2 ^ 46)
    (he : s.edgeCheck n tyStore (s.hostHdr n true off data.length) = .ok g) :
    s.hostAccess n true off data.length data = (s.tollBytes g.xTenant g.len).passReq n tyStore .store data g none := by
  rw [State.hostAccess, if_neg (by simp [hu.valid, List.ne_nil_of_length_pos hlen]; omega)]
  have hty : tyStore ≠ tyLoad := by decide
  simp [hu.notShut, State.enterEdge, he, hty]

end Host

/-! ### Each message at its port -/

section Commands

variable {s : State} {port : Port} {h : Hdr}

/-- A load that the edge passes is served here or sent on. -/
theorem exec_ulpLoad_of_passed {g : Hdr} (hwf : (Instr.ulpLoad port h).wf = true) (c : Comes s port.val tyLoad h [])
    (hx : h.ext = false) (hf : (s.hear h.src.toNat).ldg.fenced = false)
    (he : (s.hear h.src.toNat).edgeCheck port.val tyLoad h = .ok g) :
    exec (.ulpLoad port h) s = .next (if (s.hear h.src.toNat).serves g.dst then
      (s.hear h.src.toNat).arriveLoad { kind := .load, port := port.val, h := g, data := [] }
      else (s.hear h.src.toNat).transit tyLoad g []) :=
  (checked_of_wf hwf s _).trans (by rw [enter_of_load c hx hf he])

/-- A load for this module without DEP is served. -/
theorem exec_ulpLoad_of_served {g : Hdr} (hwf : (Instr.ulpLoad port h).wf = true) (c : Comes s port.val tyLoad h [])
    (hx : h.ext = false) (hf : (s.hear h.src.toNat).ldg.fenced = false)
    (he : (s.hear h.src.toNat).edgeCheck port.val tyLoad h = .ok g) (hs : (s.hear h.src.toNat).serves g.dst = true)
    (hd : g.dep = false) :
    exec (.ulpLoad port h) s = .next ((s.hear h.src.toNat).startLoad
      ((s.hear h.src.toNat).stamped { kind := .load, port := port.val, h := g, data := [] })) := by
  rw [exec_ulpLoad_of_passed hwf c hx hf he, if_pos hs, arriveLoad_of_no_dep hd]

/-- A module's load is refused as its edge found, served, or sent on. -/
theorem exec_ulpLoad_of_module (hwf : (Instr.ulpLoad port h).wf = true) (c : Comes s port.val tyLoad h []) (hx : h.ext = true) :
    exec (.ulpLoad port h) s = .next (if h.status ≠ 0
      then (s.hear h.src.toNat).failAnswer port.val tyLoadRsp h h.status.toNat h.detail.toNat
      else if (s.hear h.src.toNat).serves h.dst then
        (s.hear h.src.toNat).arriveLoad { kind := .load, port := port.val, h := h, data := [] }
      else (s.hear h.src.toNat).transit tyLoad h []) := by
  refine (checked_of_wf hwf s _).trans ?_
  rw [enter_of_module c hx]
  by_cases hst : h.status = 0
  · rw [if_pos hst, if_neg (not_not.mpr hst)]
  · rw [if_neg hst, if_pos hst]

/-- A FENCE to this module, where no fence of its own stands, waits with its stream's. -/
theorem exec_ulpFence_of_entry {k : Nat} (hwf : (Instr.ulpFence port h).wf = true) (c : Comes s port.val tyFence h [])
    (hx : h.ext = false) (hf : (s.hear h.src.toNat).ldg.fenced = false) (hs : (s.hear h.src.toNat).serves h.dst = true)
    (hk : (s.hear h.src.toNat).srcEntry port.val h.src = some k) :
    exec (.ulpFence port h) s = .next (((s.hear h.src.toNat).tollBytes ((s.hear h.src.toNat).fld F.portEpTenant port.val k)
      h.len).arriveFence port.val ((s.hear h.src.toNat).entryHdr port.val k h)) :=
  (checked_of_wf hwf s _).trans (by
    rw [enter_of_entry c hx hf hk rfl]
    exact congrArg Host.Outcome.next (if_pos (Bool.or_eq_true_iff.mpr (.inl hs))))

theorem arriveFence_of_unfenced {n : Nat} (hf : s.ldg.fenced = false) :
    s.arriveFence n h = (((s.hearBuddy h).modRx ((s.hearBuddy h).rxSrc h) h.tc.val (fun r =>
      { r with fences := r.fences ++ [(n, h)] })).pumpFences ((s.hearBuddy h).rxSrc h) h.tc.val) :=
  if_neg (ne_true_of_eq_false hf)

theorem exec_ulpAttach_of_entry {k : Nat} {data : List Byte} (hwf : (Instr.ulpAttach port h data).wf = true)
    (c : Comes s port.val tyAttach h data) (hx : h.ext = false) (hf : (s.hear h.src.toNat).ldg.fenced = false)
    (hk : (s.hear h.src.toNat).srcEntry port.val h.src = some k) :
    exec (.ulpAttach port h data) s = .next (((s.hear h.src.toNat).tollBytes
      ((s.hear h.src.toNat).fld F.portEpTenant port.val k) h.len).ulpAttach port.val
        ((s.hear h.src.toNat).entryHdr port.val k h) data) :=
  (checked_of_wf hwf s _).trans (by
    rw [enter_of_entry c hx hf hk rfl]
    exact congrArg Host.Outcome.next (if_pos (by simp [State.entryHdr, hx])))

theorem exec_ulpDetach_of_entry {k : Nat} (hwf : (Instr.ulpDetach port h).wf = true) (c : Comes s port.val tyDetach h [])
    (hx : h.ext = false) (hf : (s.hear h.src.toNat).ldg.fenced = false)
    (hk : (s.hear h.src.toNat).srcEntry port.val h.src = some k) :
    exec (.ulpDetach port h) s = .next (((s.hear h.src.toNat).tollBytes
      ((s.hear h.src.toNat).fld F.portEpTenant port.val k) h.len).ulpDetach port.val
        ((s.hear h.src.toNat).entryHdr port.val k h)) :=
  (checked_of_wf hwf s _).trans (by
    rw [enter_of_entry c hx hf hk rfl]
    exact congrArg Host.Outcome.next (if_pos (by simp [State.entryHdr, hx])))

/-- An ATTACH that an edge passed on is its home's to answer, and so is a DETACH. -/
theorem exec_ulpAttach_of_home {data : List Byte} (hwf : (Instr.ulpAttach port h data).wf = true)
    (c : Comes s port.val tyAttach h data) (hx : h.ext = true) (hst : h.status = 0)
    (hs : (s.hear h.src.toNat).serves h.dst = true) :
    exec (.ulpAttach port h data) s = .next ((s.hear h.src.toNat).homeAttach port.val h data) :=
  (checked_of_wf hwf s _).trans (by simp [enter_of_good c hx hst, hx, hs])

theorem exec_ulpDetach_of_home (hwf : (Instr.ulpDetach port h).wf = true) (c : Comes s port.val tyDetach h [])
    (hx : h.ext = true) (hst : h.status = 0) (hs : (s.hear h.src.toNat).serves h.dst = true) :
    exec (.ulpDetach port h) s = .next ((s.hear h.src.toNat).homeDetach port.val h) :=
  (checked_of_wf hwf s _).trans (by simp [enter_of_good c hx hst, hx, hs])

/-- A MARK to this module itself is taken here. -/
theorem exec_ulpMark_of_here {k : Nat} {payload : W64} (hwf : (Instr.ulpMark port h payload).wf = true)
    (c : Comes s port.val tyMark h (leBytes 8 payload.toNat)) (hx : h.ext = false) (ha : h.addr.toNat % 4096 = 0)
    (hf : (s.hear h.src.toNat).ldg.fenced = false) (hs : (s.hear h.src.toNat).serves h.dst = true)
    (hk : (s.hear h.src.toNat).srcEntry port.val h.src = some k) :
    exec (.ulpMark port h payload) s = .next (((s.hear h.src.toNat).tollBytes
      ((s.hear h.src.toNat).fld F.portEpTenant port.val k) h.len).markHere port.val
        ((s.hear h.src.toNat).fld F.portEpTenant port.val k) payload.toNat) :=
  (checked_of_wf hwf s _).trans (by
    rw [enter_of_entry c hx hf hk rfl]
    simp [State.entryHdr, State.passMark, hf, ha, hs])

end Commands

/-! ### The reference word of the window page -/

/-- A CXL-up port 0 with `k` free values taken. -/
def hostState (k : Nat) : State := ({ freeIdx := k } : State).modPort 0 (fun p => { p with role := roleUp })

/-- All of O52 but one clause holds. A read of the reference word shows free word `s.freeIdx`, where that clause names free word
`s.freeIdx + 1`; so O52 says that all free words are the same, which an opaque `freeWord` (log entry 3) leaves open. -/
theorem requestsAreServed_iff : Obligations.RequestsAreServed ↔ ∀ k, Config.freeWord (k + 1) = Config.freeWord k := by
  constructor
  case mp =>
    intro hall k
    obtain ⟨-, -, -, -, -, -, -, -, -, hpage, -, -⟩ := hall (hostState k) 0 { tc := 0, src := 0, dst := 0 }
    have hrole : ((hostState k).port (0 : Port).val).role = roleUp := rfl
    obtain ⟨-, -, -, href, -, -⟩ := hpage hrole 0 0 (by decide)
    have hout := congrArg State.out (Host.Outcome.next.inj ((exec_windowStatusRead hrole (by decide) (by decide)).symm.trans href))
    simpa [hostState] using hout.symm
  case mpr =>
    intro hfree s port h n u
    refine ⟨fun c hx hwf hf => ?fenced, fun c hx hwf hf => ⟨fun st d he => ?refused, fun g he hdst => ?passed⟩,
      fun c hx hwf => exec_ulpLoad_of_module hwf c hx, fun c hx hwf hs hf k hk => ?fence,
      fun data c hx hwf hf k hk => ?attach, fun data c hx hst hwf hs => exec_ulpAttach_of_home hwf c hx hst hs,
      fun c hx hwf hf k hk => ?detach, fun c hx hst hwf hs => exec_ulpDetach_of_home hwf c hx hst hs,
      fun payload c hx ha hwf hf hs k j hk hj ht hl hp => ?mark, fun hrole win value hwin => ?page,
      fun hrole hup hshut hide hvalid off len hlen hwf => ?read,
      fun hrole hup hshut hide hvalid off data hlen hend hwf g he => ?write⟩
    case fenced => exact (checked_of_wf hwf s _).trans (by rw [enter_of_fenced c hx hf])
    case refused => exact (checked_of_wf hwf s _).trans (by rw [enter_of_refused c hx hf he])
    case passed =>
      have hpassed := exec_ulpLoad_of_passed hwf c hx hf he
      rw [hdst] at hpassed
      refine ⟨fun hs => by rw [hpassed, if_neg (ne_true_of_eq_false hs)], fun hs _ => by rw [hpassed, if_pos hs],
        fun hs hd => ?_⟩
      let q : RxReq := u.stamped { kind := .load, port := n, h := g, data := [] }
      have hserved : exec (.ulpLoad port h) s = .next (u.startLoad q) := exec_ulpLoad_of_served hwf c hx hf he (hdst ▸ hs) hd
      refine ⟨fun st d hr => hserved.trans (congrArg _ (startLoad_of_refused (q := q) hr)),
        fun hr hlater => hserved.trans (congrArg _ (startLoad_of_later (q := q) hr hlater)), fun hr hcome hc => ?_,
        fun hr hcome hc => ?_⟩
      · have hq : Servable u q := ⟨hr, hcome, hc⟩
        exact ⟨fun hv => hserved.trans (congrArg _ (startLoad_of_no_version hq hv)),
          fun hv hh => hserved.trans (congrArg _ (startLoad_of_away hq hv hh))⟩
      · have hq : Servable u q := ⟨hr, hcome, hc⟩
        exact fun hv hh w => ⟨fun hw => hserved.trans (congrArg _ (startLoad_of_here hq hv hh hw)),
          fun hw => hserved.trans (congrArg _ (startLoad_of_here hq hv hh hw)),
          fun hw => hserved.trans (congrArg _ (startLoad_of_here hq hv hh hw))⟩
    case fence => exact (exec_ulpFence_of_entry hwf c hx hf hs hk).trans (congrArg _ (arriveFence_of_unfenced hf))
    case attach =>
      intro g w a
      have hattach : exec (.ulpAttach port h data) s = .next (w.ulpAttach n g data) := exec_ulpAttach_of_entry hwf c hx hf hk
      rw [ulpAttach_of_entry (s := w) (h := g) hf ((State.tollBytes_srcEntry ..).trans hk) rfl] at hattach
      exact ⟨fun x v id ha => hattach.trans (by rw [show w.attach _ = _ from ha]; rfl),
        fun x st d ha => hattach.trans (by rw [show w.attach _ = _ from ha]),
        fun x ha => hattach.trans (by rw [show w.attach _ = _ from ha])⟩
    case detach =>
      intro g w x hw
      have hdetach := exec_ulpDetach_of_entry hwf c hx hf hk
      exact ⟨fun hh => hdetach.trans (congrArg _ (ulpDetach_of_home (s := w) (h := g) hf hw hh)),
        fun hh => hdetach.trans (congrArg _ (ulpDetach_of_away (s := w) (h := g) hf hw hh))⟩
    case mark =>
      exact (exec_ulpMark_of_here hwf c hx ha hf hs hk).trans (congrArg _ (markHere_of_job hj ht hl hp))
    case page =>
      refine ⟨exec_windowReferenceWrite hrole hwin (by decide) value, exec_windowReferenceWrite hrole hwin (by decide) value,
        exec_windowStatusRead hrole hwin (by decide), ?_, exec_windowStatusRead hrole hwin (by decide), ?_⟩
      · rw [hfree]
        exact exec_windowStatusRead hrole hwin (by decide)
      · intro x st d hx
        have hword : x.statusWord = BitVec.ofNat 64 (x.version.toNat + st * 2 ^ 32 + d * 2 ^ 40) := by
          rcases hx with hx | ⟨hx, rfl, rfl⟩
          · simp [Bar2Win.statusWord, hx]
          · simp [Bar2Win.statusWord, hx]
        rw [← hword]
        exact exec_windowStatusRead hrole hwin (by decide)
    case read =>
      have hhost : HostUp s n := ⟨hrole, hup, hshut, hide, hvalid⟩
      rw [exec_cxlMemRequest hhost hwf]
      exact ⟨fun hout => congrArg _ (hostAccess_of_outside hout), fun hend =>
        ⟨fun g he => congrArg _ (hostAccess_read hhost hlen hend he),
          fun st d he => congrArg _ (hostAccess_read_refused hhost hlen hend he)⟩⟩
    case write =>
      have hhost : HostUp s n := ⟨hrole, hup, hshut, hide, hvalid⟩
      exact (exec_cxlMemRequest hhost hwf).trans (congrArg _ (hostAccess_write hhost hlen hend he))

end Sys2Proof.Machine
end
